-- ==== Sys2Proof/Word.lean ====
section
/-! DEFINITION. The word types of the PN9800's registers and messages, and nothing else. -/

namespace Sys2Proof

/-- A register, basket word or message word (R13): 32 bits. -/
abbrev Word := BitVec 32

/-- A byte of a message, a packet, the boot flash or a hamper (R13). -/
abbrev Byte := BitVec 8

end Sys2Proof
end

