-- ==== Sys2Proof/Config.lean ====
section
/-! DEFINITION. The values that the manual leaves open, as constants without a body (assumption log 3 and 4).
No proof can see what one of them is, so a claim about it holds for every value. -/

namespace Sys2Proof

/-- A byte that the manual leaves unspecified, as of a flash region whose write was interrupted (R101, R124).
The argument is a fresh number that the step takes from `State.fresh`. -/
opaque Config.freeByte : Nat → Byte

/-- A word that the manual leaves unspecified. -/
opaque Config.freeWord : Nat → Word

/-- A count or a choice that the manual leaves open between bounds; the user of the value takes it modulo the
number of allowed values. -/
opaque Config.freeNat : Nat → Nat

/-- A choice that the manual leaves to the device, such as whether a command accepted within 2 µs before a frame
boundary takes effect at that boundary or at the next one (R62). -/
opaque Config.freeBool : Nat → Bool

/-- A byte of the frame memory that nothing has written since it last lost its content: the time of that loss, and the
byte's number. -/
opaque Config.dramByte : Nat → Nat → Byte

/-- Factory start values of a stream-lane receiver (R206), which the manual does not give: rate code, and 0 for CTLE,
1 for VGA, 2 for the first DFE tap. -/
opaque Config.factoryEq : Nat → Nat → Nat

/-- ML-DSA.Verify of FIPS 204 with a public key, a context string, a message and a signature (R427, R428). -/
opaque Config.mldsaVerify : List Byte → List Byte → List Byte → List Byte → Bool

/-- ML-DSA.Sign of FIPS 204: seed of the private key, context string and message (R441). 3,309 bytes are taken
from the stream this gives: byte number i of the signature is `mldsaSign seed ctx msg i`. -/
opaque Config.mldsaSign : Nat → List Byte → List Byte → Nat → Byte

/-- ML-DSA.KeyGen_internal of FIPS 204 (R439): byte number i of the public key derived from the seed. -/
opaque Config.mldsaPublicKey : Nat → Nat → Byte

/-- The threshold of a VREF cell of a die lies within 0.620 V ± 8 mV (R398): fixed by manufacture. -/
opaque Config.vrefInRange : Nat → Nat → Bool

/-- The contents of the boot ROM, digested into MR0 (R437): byte number i of its digest. -/
opaque Config.romDigestByte : Nat → Byte

/-- Byte number i of the digest of the Margivel root public key, fused at final test (R429). -/
opaque Config.rootDigestByte : Nat → Byte

/-- Byte number i of the signature over the certificate header that final test programs into OTP (R440). -/
opaque Config.certByte : Nat → Byte

/-- Byte number i of the serial number in the certificate (R440, R491). -/
opaque Config.serialByte : Nat → Byte

end Sys2Proof
end

