-- ==== Sys2Proof/Syntax.lean ====
section
/-! DEFINITION. The commands and events of the part: one constructor of `Instr` for each row of
spec/opcode_table.json, with the data that the row's rule gives it. -/

namespace Sys2Proof

/-- The member of the family (R1 to R3). -/
inductive Member where
  | pn9808 | pn9804 | pn9802
  deriving DecidableEq, Repr

/-- A port that commands arrive on (R105). -/
inductive Port where
  /-- the IEEE 1149.1 test port of the package -/
  | test
  /-- the SPI service port of die 0 -/
  | service
  /-- the in-band port of a stream lane group of a die (R121), named by the group's lowest stream lane, which stays the
  same when groups are renumbered (R187) -/
  | inband (die first : Nat)
  /-- the mailbox port of a die's steward (R122) -/
  | steward (die : Nat)
  deriving DecidableEq, Repr

/-- The header of a command message (R109), less OPCODE and LENGTH, which follow from the command itself,
and the fields that must be 0. -/
structure Hdr where
  port  : Port
  tag   : Byte
  /-- DIE: the target die -/
  die   : Nat
  /-- TIME_LIMIT of AUX, in ms; 0 selects the default limit -/
  limit : Nat
  deriving DecidableEq, Repr

/-- One command of the command set with its payload (R123). The payload's numbers are held as they stand in the
message, so that a reserved value can still be carried and refused (R110). -/
inductive Cmd where
  | regRead (address : Word) (count : Nat)
  | regWrite (address : Word) (words : List Word)
  | abort (scope tag : Nat)
  | wake
  | pkgStandby
  | outputMode (output mode flags window : Nat)
  | safeExit (output flags : Nat)
  | timingSet (output number : Nat)
  | liveSource (output stream : Nat)
  | layerCommit (output : Nat) (commitId : Word)
  | tableLoad (table bank source : Nat) (address : Word) (bytes : Nat)
  | laneTrain (lane ceiling : Nat)
  | lanePower (lane on : Nat)
  | laneLoop (lane loop : Nat)
  | dramConfig (payload : List Byte)
  | dramFreq (mask tset : Nat)
  | rankSpare (channel rank : Nat)
  | calRun (payload : List Byte)
  | ageScan (payload : List Byte)
  | marginScan (payload : List Byte)
  | flashRead (address : Word) (count : Nat)
  | flashWrite (address : Word) (data : List Byte)
  | fwActivate (source : Nat) (address : Word) (bytes : Nat)
  | signatureRead (output what : Nat)
  | logRead (index : Word) (count : Nat)
  | attest (nonce : List Byte)
  deriving DecidableEq, Repr

/-- What the check bits of a basket word show when it is read (R381). -/
inductive Upset where
  | none | oneBit | twoBits
  deriving DecidableEq, Repr

/-- A canonical pixel: 12 bits each of R, G and B (R14). -/
structure Px where
  r : BitVec 12
  g : BitVec 12
  b : BitVec 12
  deriving DecidableEq, Repr

/-- A symbol of the 8b/10b code (R157): a data byte, or a control symbol by its byte (K28.5 is 0xBC). -/
inductive Sym where
  | data (b : Byte)
  | ctrl (b : Byte)
  deriving DecidableEq, Repr

/-- A code group, bit a first: bit a is its most significant bit. -/
abbrev CodeGroup := BitVec 10

/-- What one lane of a stream lane group receives: its position in the group, the running disparity before the first code group
(`true`: positive), and the code groups in the order of arrival. -/
structure LaneRx where
  pos    : Nat
  plus   : Bool
  groups : List CodeGroup
  deriving DecidableEq, Repr

/-- What the way does to a code group: on which lane of the group and which one of those that the partner sends on it, and what arrives
in its place. -/
structure Hit where
  pos    : Nat
  index  : Nat
  groups : List CodeGroup
  deriving DecidableEq, Repr

/-- A training set as a lane receives it: the running disparity before its first code group, and the code groups. -/
structure SetRx where
  plus   : Bool
  groups : List CodeGroup
  deriving DecidableEq, Repr

/-- A run of bits that the loop checker of a lane receives, in order (R214). -/
structure CheckRun where
  lane : Nat
  bits : List Bool
  deriving DecidableEq, Repr

/-- What a return pin receives as a frame, as the levels of its half bits, true for high (R314). -/
structure RetRx where
  die    : Nat
  chain  : Nat
  halves : List Bool
  deriving DecidableEq, Repr

/-- A direct load and a direct store of a steward (R138 to R140): bytes of the access, with what the check of a basket word finds, or
the value. -/
structure DirectLoad where
  size  : Nat
  upset : Upset
  deriving DecidableEq, Repr

structure DirectStore where
  size  : Nat
  value : Word
  deriving DecidableEq, Repr

/-- A die checks the image that it received (R85), and whether the copy reached it over the bridge as die 0 sent it. -/
structure CopyCheck where
  die  : Nat
  good : Bool
  deriving DecidableEq, Repr

/-- A side of a die on the slice bridge's ring (R36, LINK_STATUS). -/
inductive Side where
  | prev | next
  deriving DecidableEq, Repr

/-- A rail watched by the brown-out detectors (R471). -/
inductive Rail where
  | vddAon | vddCore | vddSerdes | vddhSerdes | vddIo
  deriving DecidableEq, Repr

/-- A PLL of a die (R54): the core PLL, the memory PLL of a channel, or lane PLL k. -/
inductive Pll where
  | core
  | mem (channel : Nat)
  | lane (k : Nat)
  deriving DecidableEq, Repr

/-- The board profile as firmware reads it from its envelope (the items of R90's table that change device state
as the profile is applied; the field layout belongs to the firmware image). -/
structure ProfileOutput where
  output        : Nat
  modeNumber    : Nat
  /-- CHAINS of each die of the output, in die order: driver lanes, drivers on a chain and driver depth (R301) -/
  chains        : List Word
  fill          : Px
  splash        : Bool
  panelDelayMs  : Nat
  backlightMs   : Nat
  blPwm         : Word
  teMode        : Nat
  ceiling       : Nat
  deriving DecidableEq, Repr

/-- One DRAM channel of a board profile: its die, the payload of its DRAM_CONFIG (R370), and the words of its two timing sets and of
its interface delays, as register offsets and values of its MEMC and MEMPHY pages (R368, R371). -/
structure ProfileChannel where
  die    : Nat
  config : List Byte
  timing : List (Nat × Word)
  delays : List (Nat × Word)
  deriving DecidableEq, Repr

/-- The core supply of one die: the regulator's PMBus address, and RAIL.SHARED and AVS_BOUNDS as firmware writes them (R418, R422). -/
structure ProfileRail where
  die     : Nat
  address : Nat
  shared  : Nat
  bounds  : Word
  deriving DecidableEq, Repr

/-- What a board profile says of the board. -/
structure Board where
  gangMap     : Word
  /-- per die: GROUP_START and SPARE of its stream lane groups -/
  groups      : List (Nat × Word × Word)
  /-- per die: stream lanes to power, bit i for Si -/
  streams     : List (Nat × Nat)
  channels    : List ProfileChannel
  rails       : List ProfileRail
  /-- boot SPI clock limit in MHz -/
  spiMhz      : Nat
  deriving DecidableEq, Repr

/-- A board profile: its board and its outputs. -/
structure Profile extends Board where
  outputs     : List ProfileOutput
  deriving DecidableEq, Repr

/-- What 8 samples of one temperature sensor gave (R398): the new tap, the spread against the reference sensor and
the reference sensor's own move, both in taps of 0.25 °C. -/
structure TsSample where
  tap     : Int
  spread  : Nat
  refMove : Nat
  deriving DecidableEq, Repr

/-- What a calibration run measured on one die (R398). -/
structure CalSamples where
  /-- sensors 0 to 7 -/
  tsense     : List TsSample
  vrefCell   : Nat
  /-- threshold of the selected cell less 0.620 V, and the spread, in µV -/
  vrefErrUv  : Int
  vrefSpread : Nat
  /-- stream lanes 0 to 7: termination legs, offset cell, spread of the offset in cells -/
  laneRx     : List (Nat × Nat × Nat)
  deriving DecidableEq, Repr

/-- What an ageing scan measured on one die (R408 to R410): RATIO of each oscillator pair, drift of each sensor in
1/4 °C (none: no valid result), and the mean FOM of each local lane. -/
structure AgeSamples where
  ratios : List Nat
  drifts : List (Option Int)
  foms   : List Nat
  deriving DecidableEq, Repr

/-- The two windows of one byte lane (R412): RD_LEFT, RD_RIGHT, WR_LEFT, WR_RIGHT; none where no window was found. -/
structure LaneWindow where
  read  : Option (Nat × Nat)
  write : Option (Nat × Nat)
  deriving DecidableEq, Repr

/-- A request of a port of a channel (R359): write or read, and the granule of a channel slot (R357). -/
structure MemReq where
  port    : Nat
  write   : Bool
  slot    : Nat
  granule : Nat
  deriving DecidableEq, Repr

/-- What a scheduler cycle meets: the requests that arrive, oldest first, and the places in the queue, with the arrivals at its end,
of the requests whose command can issue in this cycle under the DDR5 timings. -/
structure SchedCycle where
  arrivals : List MemReq
  able     : List Nat
  deriving DecidableEq, Repr

/-- What the link check of DRAM_CONFIG found for the three ranks (R94), and how initialisation went (R370). -/
structure ConfigOutcome where
  initOk : Bool
  rank0  : Bool
  rank1  : Bool
  rank2  : Bool
  deriving DecidableEq, Repr

/-- The commands and events of spec/opcode_table.json, in the table's order. A constructor with a `Hdr` is a command
message that reaches the port the header names; the others are events, with the outcome that the world outside the
block gives them. -/
inductive Instr where
  | regRead (h : Hdr) (address : Word) (count : Nat)
  | regWrite (h : Hdr) (address : Word) (words : List Word)
  | bcastRegWrite (h : Hdr) (offset : Nat) (words : List Word)
  /-- `late`: the dies that receive the apply cycle after it has passed -/
  | bcastApply (late : List Nat)
  | bcastRegRead (h : Hdr) (offset : Nat) (count : Nat)
  | bitSetAliasWrite (h : Hdr) (address value : Word)
  | bitClearAliasWrite (h : Hdr) (address value : Word)
  | stewardDirectLoad (die : Nat) (address : Word) (access : DirectLoad)
  | stewardDirectStore (die : Nat) (address : Word) (access : DirectStore)
  | pageCommitCommit (h : Hdr) (page : Nat)
  | pageCommitAbort (h : Hdr) (page : Nat)
  | commitStepPoint (die page : Nat)
  | pageEventForce (h : Hdr) (page : Nat) (bits : Word)
  /-- `sets`: the bits that the block sets in the same cycle, one entry per set -/
  | pageEventClear (h : Hdr) (page : Nat) (bits : Word) (sets : List Nat)
  | abort (h : Hdr) (scope tag : Nat)
  | wake (h : Hdr)
  | pkgStandby (h : Hdr)
  | standbyPowerDown
  | outputMode (h : Hdr) (output mode flags window : Nat)
  | safeExit (h : Hdr) (output flags : Nat)
  | timingSet (h : Hdr) (output number : Nat)
  | liveSource (h : Hdr) (output stream : Nat)
  | layerCommit (h : Hdr) (output : Nat) (commitId : Word)
  | layoutArmed (output : Nat)
  | tableLoad (h : Hdr) (table bank source : Nat) (address : Word) (bytes : Nat)
  | laneTrain (h : Hdr) (lane ceiling : Nat)
  | lanePower (h : Hdr) (lane on : Nat)
  | laneLoop (h : Hdr) (lane loop : Nat)
  | dramConfig (h : Hdr) (payload : List Byte)
  | dramFreq (h : Hdr) (mask tset : Nat)
  | rankSpare (h : Hdr) (channel rank : Nat)
  | calRun (h : Hdr) (payload : List Byte)
  | calRunDone (die : Nat) (samples : CalSamples)
  | ageScan (h : Hdr) (payload : List Byte)
  | marginScan (h : Hdr) (payload : List Byte)
  | rankScanDone (die channel rank : Nat) (windows : List LaneWindow)
  | retentionHoldEnd (die channel : Nat) (pass : Bool)
  | flashRead (h : Hdr) (address : Word) (count : Nat)
  | flashWrite (h : Hdr) (address : Word) (data : List Byte)
  | fwActivate (h : Hdr) (source : Nat) (address : Word) (bytes : Nat)
  | fwActivateRestart
  | signatureRead (h : Hdr) (output what : Nat)
  | logRead (h : Hdr) (index : Word) (count : Nat)
  | attest (h : Hdr) (nonce : List Byte)
  | quoteSigned
  | commandTimeLimit (port : Port) (tag : Byte)
  /-- `bytes`: what the host clocks in after the instruction byte, until CS_N rises -/
  | msgWrite (bytes : List Byte)
  /-- `clocked`: message bytes clocked out before CS_N rises -/
  | msgRead (clocked : Nat)
  | statusRead
  | msgIoCapture
  | msgIoUpdate (bytes : List Byte)
  | extest
  | idcode
  | samplePreload
  | extestPulse
  | extestTrain
  | highz
  | clamp
  /-- `code`: the instruction register's value, 0xFF or an encoding that the table does not list -/
  | bypass (code : Byte)
  | msgIo
  | mailboxCmdTake (die : Nat)
  | mailboxOutWrite (die : Nat)
  | completionDelivered (port : Port) (tag : Byte)
  | porAssert
  | porRelease
  | brownOut (die : Nat) (rail : Rail)
  /-- `temps`: junction temperature of each die, in °C -/
  | aonReady (temps : List Int)
  | pllLock
  /-- `present`: REFCLK is found at this retry -/
  | refclkRetry (present : Bool)
  | sfdpRead (signature fastRead fourByte : Bool)
  | directoryRead
  | imageVerify (check : CopyCheck)
  /-- what the profile's payload says, which is laid out by the firmware image that reads it -/
  | profileApply (board : Board) (outputs : List ProfileOutput)
  | pllLoss (die : Nat) (pll : Pll)
  | frameBoundary (output : Nat)
  | timingStart (output : Nat)
  | lineStart (output : Nat)
  /-- a token for a line start (`none`), or for a frame boundary with its frame sequence number -/
  | timingTokenRx (die : Nat) (frame : Option Word)
  | timingTokenMiss (die : Nat)
  | teEdge (output : Nat)
  | flitRetry (die : Nat) (side : Side)
  /-- `link` is the link between die `link` and the next die of the ring -/
  | linkDown (link : Nat)
  | gangMapApply
  /-- `lanes`: what the lanes of the group receive, from the start of the packet to the end of its last row; `noRoom`: the dies
  towards which the forwarded traffic has no bandwidth left (R41) -/
  | pixelPacketRx (die group : Nat) (lanes : List LaneRx) (noRoom : List Nat)
  | sourceFrmRx (die group : Nat) (lanes : List LaneRx)
  | freezeDigest (layer : Nat)
  /-- a packet as the partner sends it, END or EDB last (R182, R185), and what the way does to it -/
  | scpMessageRx (die group cseq : Nat) (message : List Byte) (stop : Sym) (hits : List Hit)
  | scpAckRx (die group cseq : Nat) (hits : List Hit)
  | scpNakRx (die group cseq : Nat) (hits : List Hit)
  | scpReplayTimeout (die group : Nat)
  /-- `lanes`: the set as each lane receives it; `skew`: when its COM arrives on each of them, in ps after the first -/
  | skpOrderedSetRx (die group : Nat) (lanes : List LaneRx) (skew : List Nat)
  /-- the 16 code groups of the set -/
  | tsOrderedSetRx (die lane : Nat) (heard : SetRx)
  | rateChange (die lane : Nat)
  | phaseLimit (die lane : Nat)
  | attemptDown (die lane : Nat)
  | laneRetry (die lane : Nat)
  | losDeclared (die lane : Nat)
  | losCleared (die lane : Nat)
  | lolDeclared (die lane : Nat)
  /-- `dfe`: the eight taps as the sign-sign update has left them; `ctle`, `vga`: the change that the adaptation tries from here
  on (R205) -/
  | fomMeasured (die lane fom ctle vga : Nat) (dfe : List Nat)
  | adaptIdleHold (die lane : Nat)
  | adaptHoldEnd (die lane : Nat)
  | loopLock (die : Nat) (run : CheckRun)
  /-- `bits`: what the loop checker receives, in order -/
  | loopErr (die lane : Nat) (bits : List Bool)
  | liveStreamLoss (output : Nat)
  | statusFrameRx (die chain pos : Nat) (lock : Bool) (rate : Nat) (loop : Bool) (fom codeErr crcErr : Nat)
  /-- `temp`: signed, in 1/16 °C -/
  | tempFrameRx (die chain pos : Nat) (temp : Int)
  | helloFrameRx (die chain pos rates : Nat)
  | ackFrameRx (die chain pos tag result : Nat)
  | readDataFrameRx (die chain pos tag addr data : Nat)
  | retSilent (die chain pos : Nat)
  /-- `word`: the word written to DRV_CMD -/
  | drvCmd (h : Hdr) (word : Word)
  | drvCmdTimeout (die : Nat)
  | releaseDrainDone (output : Nat)
  | tileFetchDone (die layer tx ty : Nat)
  | layerOffNotice (die layer : Nat)
  | compUnderrun (die layer : Nat)
  | resendTimeout (die layer tx ty : Nat)
  /-- `lead`: ns by which the tile row beat its deadline (R254) -/
  | prevFrameTileDone (die tx ty lead : Nat)
  /-- `good`: the row's CRC matches -/
  | demuraRowDone (die row : Nat) (good : Bool)
  | haloRx (die : Nat) (side : Side) (line : Nat)
  | heldTileDone (die tx ty : Nat)
  | liveSegmentDeadline (die line segment : Nat)
  /-- `rowRead`: granules of the demura row under way that have been read -/
  | tolUpdate (die rowRead : Nat)
  | signatureReady (output : Nat)
  | splashLoad (h : Hdr)
  | splashLoadDone (output : Nat)
  /-- `checkFails`: the check decoder disagrees with the body just produced (R343) -/
  | hamperEncodeDone (die tx ty : Nat) (checkFails : Bool)
  | pairMismatch (die stage : Nat)
  | refreshDue (die channel rank : Nat)
  /-- `codes`: refresh rate asked for by each rank in MR4: 0 1×, 1 2×, 2 above 2× -/
  | mr4Poll (die channel : Nat) (codes : List Nat)
  | zqCalibration (die channel : Nat)
  | schedulerIssue (die channel : Nat) (cycle : SchedCycle)
  | rowIdleClose (die channel bank : Nat)
  | powerDownEntry (die channel : Nat)
  | selfRefreshEntry (die channel : Nat)
  | lowPowerExit (die channel : Nat)
  | freqWindowOpen (die : Nat)
  | freqDone (die : Nat)
  | wcrcAlert (die channel slot : Nat)
  | cmdErrAlert (die channel rank : Nat)
  /-- `stale`: a write error (R340); otherwise a read error -/
  | slotErrorReport (die channel slot : Nat) (stale : Bool)
  | migrateUnitCopy (die channel : Nat)
  | migrateDone (die channel : Nat)
  | vddqLoss (die channel : Nat)
  | basketOwnerWrite (h : Hdr) (k : Nat) (value : Word)
  | correctionWriteBack (die : Nat) (address : Word)
  /-- `fails1`, `fails2`: the region's first and second test show a wrong bit -/
  | ramblerRegionTest (die : Nat) (fails1 fails2 : Bool)
  /-- `master`: the master (R382) whose access meets the held region -/
  | ramblerAbort (die : Nat) (masters : List Nat)
  /-- `measured`: the rail's voltage as read over AVSBus, in mV; `answered`: a good response within the retries -/
  | avsPeriod (die measured : Nat) (answered : Bool)
  | slackReport (die : Nat) (slack : Int)
  | avsRetry (die : Nat) (answered : Bool)
  | vfloor (die : Nat)
  /-- `temps`: the eight sensors, each with its tap, in °C -/
  | thermalSample (die : Nat) (temps : List Int)
  | tsDeselect (die sensor : Nat)
  | fatalCauseLatch (die code : Nat)
  | faultLatchedClear (h : Hdr) (bits : Word)
  | codeClear (h : Hdr) (page : Nat)
  | availClr (h : Hdr)
  | wdogKick (die : Nat) (value : Word)
  | wdogExpire (die : Nat)
  | wdogRestartTimeout (die : Nat)
  | stewardReady (die : Nat)
  | otpEnroll (h : Hdr)
  | otpRequireOwner (h : Hdr)
  | rollbackAdvance (h : Hdr) (target : Nat)
  /-- `readBackOk`: the field read back as it was meant to -/
  | otpProgramDone (die : Nat) (readBackOk : Bool)
  | measurementExtend (h : Hdr) (mr entryType : Nat)
  | identityDerive (entropyOk : Bool)
  | blPwmWrite (h : Hdr) (value : Word)
  | pllRelock (die : Nat) (pll : Pll)
  | internalResetEnd
  | vddqInRange (die channel : Nat)
  | dramConfigDone (die channel : Nat) (outcome : ConfigOutcome)
  /-- `readError`: the flash could not be read -/
  | tableLoadDone (die : Nat) (readError : Bool)
  | ageScanDone (output : Nat) (samples : List AgeSamples)
  | flashWriteDone
  | returnFrameDiscard (frame : RetRx)
  /-- `lane`: a driver lane, or a stream lane of the group that sends (R169) -/
  | skpOrderedSetSend (die lane : Nat)
  deriving DecidableEq, Repr

end Sys2Proof
end

