-- ==== Sys2Proof/WellFormed.lean ====
section
/-! DEFINITION. Which commands and events are well formed: those whose numbers fit the fields that carry them on a
port, a link or a pin. A command message whose number is out of the range that the manual allows is still carried
here and refused by the part (R110); what is not well formed cannot be sent at all. -/

namespace Sys2Proof

/-- A number that fits in `n` bits. -/
def fits (n v : Nat) : Bool := decide (v < 2 ^ n)

/-- A port that exists: group and die numbers as R6 and R121 bound them. -/
def Port.wf : Port → Bool
  | .test => true
  | .service => true
  | .inband d g => decide (d < 8) && decide (g < 8)
  | .steward d => decide (d < 8)

/-- A header whose fields fit their bytes (R109). -/
def Hdr.wf (h : Hdr) : Bool := h.port.wf && fits 8 h.die && fits 16 h.limit

/-- A command whose payload fields fit their bytes (R109, R123): at most 56 payload bytes. -/
def Cmd.wf : Cmd → Bool
  | .regRead _ c => fits 8 c
  | .regWrite _ ws => decide (ws.length ≤ 13)
  | .abort sc t => fits 8 sc && fits 8 t
  | .wake => true
  | .pkgStandby => true
  | .outputMode o m f w => fits 8 o && fits 8 m && fits 8 f && fits 8 w
  | .safeExit o f => fits 8 o && fits 8 f
  | .timingSet o n => fits 8 o && fits 8 n
  | .liveSource o st => fits 8 o && fits 16 st
  | .layerCommit o _ => fits 8 o
  | .tableLoad t b sr _ n => fits 8 t && fits 8 b && fits 8 sr && fits 32 n
  | .laneTrain l c => fits 16 l && fits 8 c
  | .lanePower l x => fits 16 l && fits 8 x
  | .laneLoop l x => fits 16 l && fits 8 x
  | .dramConfig p => decide (p.length ≤ 56)
  | .dramFreq m t => fits 8 m && fits 8 t
  | .rankSpare c r => fits 8 c && fits 8 r
  | .calRun p => decide (p.length ≤ 56)
  | .ageScan p => decide (p.length ≤ 56)
  | .marginScan p => decide (p.length ≤ 56)
  | .flashRead _ c => fits 8 c
  | .flashWrite _ ds => decide (ds.length ≤ 52)
  | .fwActivate sr _ n => fits 8 sr && fits 32 n
  | .signatureRead o w => fits 8 o && fits 8 w
  | .logRead _ c => fits 8 c
  | .attest n => decide (n.length ≤ 56)

/-- A die and a lane of it. -/
def laneWf (d l : Nat) : Bool := decide (d < 8) && decide (l < 24)

/-- A die, a chain of it and a driver position (R6). -/
def driverWf (d c p : Nat) : Bool := decide (d < 8) && decide (c < 16) && decide (p < 8)

/-- A die and a channel of it (R4). -/
def channelWf (d c : Nat) : Bool := decide (d < 8) && decide (c < 2)

/-- A group of a die, and the lanes of it that receive. -/
def groupWf (d g : Nat) (ls : List LaneRx) : Bool :=
  decide (d < 8) && decide (g < 8) && decide (1 ≤ ls.length ∧ ls.length ≤ 8) && ls.all (fun x => decide (x.pos < 8))

/-- A group of a die, and lanes of it on which code groups are changed. -/
def hitsWf (d g : Nat) (hs : List Hit) : Bool := decide (d < 8) && decide (g < 8) && hs.all (fun x => decide (x.pos < 8))

/-- The well-formed commands and events. -/
def Instr.wf : Instr → Bool
  | .regRead h a c => h.wf && (Cmd.regRead a c).wf
  | .regWrite h a ws => h.wf && (Cmd.regWrite a ws).wf
  | .bcastRegWrite h o ws => h.wf && fits 24 o && decide (ws.length ≤ 13)
  | .bcastApply late => late.all (fun d => decide (d < 8))
  | .bcastRegRead h o c => h.wf && fits 24 o && fits 8 c
  | .bitSetAliasWrite h _ _ => h.wf
  | .bitClearAliasWrite h _ _ => h.wf
  | .stewardDirectLoad d _ x => decide (d < 8) && decide (x.size = 1 ∨ x.size = 2 ∨ x.size = 4)
  | .stewardDirectStore d _ x => decide (d < 8) && decide (x.size = 1 ∨ x.size = 2 ∨ x.size = 4)
  | .pageCommitCommit h p => h.wf && fits 12 p
  | .pageCommitAbort h p => h.wf && fits 12 p
  | .commitStepPoint d p => decide (d < 8) && fits 12 p
  | .pageEventForce h p _ => h.wf && fits 12 p
  | .pageEventClear h p _ sets => h.wf && fits 12 p && sets.all (fun b => decide (b < 32))
  | .abort h sc t => h.wf && (Cmd.abort sc t).wf
  | .wake h => h.wf
  | .pkgStandby h => h.wf
  | .standbyPowerDown => true
  | .outputMode h o m f w => h.wf && (Cmd.outputMode o m f w).wf
  | .safeExit h o f => h.wf && (Cmd.safeExit o f).wf
  | .timingSet h o n => h.wf && (Cmd.timingSet o n).wf
  | .liveSource h o st => h.wf && (Cmd.liveSource o st).wf
  | .layerCommit h o c => h.wf && (Cmd.layerCommit o c).wf
  | .layoutArmed o => decide (o < 8)
  | .tableLoad h t b sr a n => h.wf && (Cmd.tableLoad t b sr a n).wf
  | .laneTrain h l c => h.wf && (Cmd.laneTrain l c).wf
  | .lanePower h l x => h.wf && (Cmd.lanePower l x).wf
  | .laneLoop h l x => h.wf && (Cmd.laneLoop l x).wf
  | .dramConfig h p => h.wf && (Cmd.dramConfig p).wf
  | .dramFreq h m t => h.wf && (Cmd.dramFreq m t).wf
  | .rankSpare h c r => h.wf && (Cmd.rankSpare c r).wf
  | .calRun h p => h.wf && (Cmd.calRun p).wf
  | .calRunDone d x => decide (d < 8) && decide (x.tsense.length = 8) && decide (x.laneRx.length = 8)
  | .ageScan h p => h.wf && (Cmd.ageScan p).wf
  | .marginScan h p => h.wf && (Cmd.marginScan p).wf
  | .rankScanDone d c r ws => channelWf d c && decide (r < 3) && decide (ws.length = 8)
  | .retentionHoldEnd d c _ => channelWf d c
  | .flashRead h a c => h.wf && (Cmd.flashRead a c).wf
  | .flashWrite h a ds => h.wf && (Cmd.flashWrite a ds).wf
  | .fwActivate h sr a n => h.wf && (Cmd.fwActivate sr a n).wf
  | .fwActivateRestart => true
  | .signatureRead h o w => h.wf && (Cmd.signatureRead o w).wf
  | .logRead h i c => h.wf && (Cmd.logRead i c).wf
  | .attest h n => h.wf && (Cmd.attest n).wf
  | .quoteSigned => true
  | .commandTimeLimit p _ => p.wf
  | .msgWrite _ => true
  | .msgRead _ => true
  | .statusRead => true
  | .msgIoCapture => true
  | .msgIoUpdate bs => decide (bs.length ≤ 64)
  | .extest => true
  | .idcode => true
  | .samplePreload => true
  | .extestPulse => true
  | .extestTrain => true
  | .highz => true
  | .clamp => true
  | .bypass _ => true
  | .msgIo => true
  | .mailboxCmdTake d => decide (d < 8)
  | .mailboxOutWrite d => decide (d < 8)
  | .completionDelivered p _ => p.wf
  | .porAssert => true
  | .porRelease => true
  | .brownOut d _ => decide (d < 8)
  | .aonReady ts => decide (ts.length ≤ 8)
  | .pllLock => true
  | .refclkRetry _ => true
  | .sfdpRead _ _ _ => true
  | .directoryRead => true
  | .imageVerify x => decide (x.die < 8)
  | .profileApply _ os => os.all (fun o => decide (o.output < 8))
  | .pllLoss d _ => decide (d < 8)
  | .frameBoundary o => decide (o < 8)
  | .timingStart o => decide (o < 8)
  | .lineStart o => decide (o < 8)
  | .timingTokenRx d _ => decide (d < 8)
  | .timingTokenMiss d => decide (d < 8)
  | .teEdge o => decide (o < 8)
  | .flitRetry d _ => decide (d < 8)
  | .linkDown l => decide (l < 8)
  | .gangMapApply => true
  | .pixelPacketRx d g ls nr => groupWf d g ls && nr.all (fun x => decide (x < 8))
  | .sourceFrmRx d g ls => groupWf d g ls
  | .freezeDigest n => fits 12 n
  | .scpMessageRx d g n bs _ hs => hitsWf d g hs && fits 8 n && decide (bs.length ≤ 64)
  | .scpAckRx d g n hs => hitsWf d g hs && fits 8 n
  | .scpNakRx d g n hs => hitsWf d g hs && fits 8 n
  | .scpReplayTimeout d g => decide (d < 8) && decide (g < 8)
  | .skpOrderedSetRx d g ls sk => groupWf d g ls && decide (sk.length = ls.length)
  | .tsOrderedSetRx d l x => laneWf d l && decide (x.groups.length = 16)
  | .rateChange d l => laneWf d l
  | .phaseLimit d l => laneWf d l
  | .attemptDown d l => laneWf d l
  | .laneRetry d l => laneWf d l
  | .losDeclared d l => laneWf d l
  | .losCleared d l => laneWf d l
  | .lolDeclared d l => laneWf d l
  | .fomMeasured d l f _ _ taps => laneWf d l && fits 8 f && decide (taps.length = 8)
  | .adaptIdleHold d l => laneWf d l
  | .adaptHoldEnd d l => laneWf d l
  | .loopLock d x => laneWf d x.lane
  | .loopErr d l _ => laneWf d l
  | .liveStreamLoss o => decide (o < 8)
  | .statusFrameRx d c p _ r _ f ce ke => driverWf d c p && fits 8 r && fits 8 f && fits 8 ce && fits 8 ke
  | .tempFrameRx d c p t => driverWf d c p && decide (-2048 ≤ t) && decide (t < 2048)
  | .helloFrameRx d c p r => driverWf d c p && fits 8 r
  | .ackFrameRx d c p t r => driverWf d c p && fits 8 t && fits 8 r
  | .readDataFrameRx d c p t a v => driverWf d c p && fits 8 t && fits 8 a && fits 8 v
  | .retSilent d c p => driverWf d c p
  | .drvCmd h _ => h.wf
  | .drvCmdTimeout d => decide (d < 8)
  | .releaseDrainDone o => decide (o < 8)
  | .tileFetchDone d n _ _ => decide (d < 8) && fits 12 n
  | .layerOffNotice d n => decide (d < 8) && fits 12 n
  | .compUnderrun d n => decide (d < 8) && fits 12 n
  | .resendTimeout d n _ _ => decide (d < 8) && fits 12 n
  | .prevFrameTileDone d _ _ _ => decide (d < 8)
  | .demuraRowDone d _ _ => decide (d < 8)
  | .haloRx d _ _ => decide (d < 8)
  | .heldTileDone d _ _ => decide (d < 8)
  | .liveSegmentDeadline d _ _ => decide (d < 8)
  | .tolUpdate d _ => decide (d < 8)
  | .signatureReady o => decide (o < 8)
  | .splashLoad h => h.wf
  | .splashLoadDone o => decide (o < 8)
  | .hamperEncodeDone d _ _ _ => decide (d < 8)
  | .pairMismatch d _ => decide (d < 8)
  | .refreshDue d c r => channelWf d c && decide (r < 3)
  | .mr4Poll d c rs => channelWf d c && decide (rs.length ≤ 3)
  | .zqCalibration d c => channelWf d c
  | .schedulerIssue d c x => channelWf d c && x.arrivals.all fun r => decide (r.port < 8) && fits 24 r.slot && decide (r.granule < 73)
  | .rowIdleClose d c _ => channelWf d c
  | .powerDownEntry d c => channelWf d c
  | .selfRefreshEntry d c => channelWf d c
  | .lowPowerExit d c => channelWf d c
  | .freqWindowOpen d => decide (d < 8)
  | .freqDone d => decide (d < 8)
  | .wcrcAlert d c _ => channelWf d c
  | .cmdErrAlert d c r => channelWf d c && decide (r < 3)
  | .slotErrorReport d c _ _ => channelWf d c
  | .migrateUnitCopy d c => channelWf d c
  | .migrateDone d c => channelWf d c
  | .vddqLoss d c => channelWf d c
  | .basketOwnerWrite h k _ => h.wf && decide (k < 4)
  | .correctionWriteBack d _ => decide (d < 8)
  | .ramblerRegionTest d _ _ => decide (d < 8)
  | .ramblerAbort d l => decide (d < 8) && l.all fun m => fits 4 m
  | .avsPeriod d _ _ => decide (d < 8)
  | .slackReport d _ => decide (d < 8)
  | .avsRetry d _ => decide (d < 8)
  | .vfloor d => decide (d < 8)
  | .thermalSample d ts => decide (d < 8) && decide (ts.length = 8)
  | .tsDeselect d k => decide (d < 8) && decide (k < 8)
  | .fatalCauseLatch d _ => decide (d < 8)
  | .faultLatchedClear h _ => h.wf
  | .codeClear h p => h.wf && fits 12 p
  | .availClr h => h.wf
  | .wdogKick d _ => decide (d < 8)
  | .wdogExpire d => decide (d < 8)
  | .wdogRestartTimeout d => decide (d < 8)
  | .stewardReady d => decide (d < 8)
  | .otpEnroll h => h.wf
  | .otpRequireOwner h => h.wf
  | .rollbackAdvance h _ => h.wf
  | .otpProgramDone d _ => decide (d < 8)
  | .measurementExtend h _ _ => h.wf
  | .identityDerive _ => true
  | .blPwmWrite h _ => h.wf
  | .pllRelock d _ => decide (d < 8)
  | .internalResetEnd => true
  | .vddqInRange d c => channelWf d c
  | .dramConfigDone d c _ => channelWf d c
  | .tableLoadDone d _ => decide (d < 8)
  | .ageScanDone o xs => decide (o < 8) && xs.all (fun x => decide (x.ratios.length = 8) && decide (x.drifts.length = 8) && decide (x.foms.length = 24))
  | .flashWriteDone => true
  | .returnFrameDiscard x => decide (x.die < 8) && decide (x.chain < 16)
  | .skpOrderedSetSend d g => decide (d < 8) && decide (g < 8)

end Sys2Proof
end

