-- ==== Sys2Proof/Decode.lean ====
section
/-! DEFINITION. The part is a block: its table of commands gives no row any bits, so no word spells a command.
Commands that arrive as bytes on a port are read by Machine/Operands.lean, from the message format of R109 and
R123. -/

namespace Sys2Proof

/-- The command that a word of the opcode table spells: none, for no row of the table gives bits. -/
def decodeTableWord (_nbits _w : Nat) : Option Instr := none

end Sys2Proof
end

