-- ==== Sys2Proof/Machine/KMap.lean ====
section
/-! DEFINITION. The one sparse map of the model: a list of (key, value) pairs in canonical form. The control
registers, the baskets, the boot flash, the frame memory and the tables of units are all such maps, so the laws of
reading after writing are proved once (Laws/KMap.lean). -/

namespace Sys2Proof.Machine

/-- A sparse map from numbers to values: keys strictly rising. -/
abbrev KMap (α : Type) := List (Nat × α)

/-- The value listed under a key. -/
def KMap.get? {α : Type} : KMap α → Nat → Option α
  | [], _ => none
  | (a, v) :: m, k => if a = k then some v else KMap.get? m k

/-- The value under a key; a key that is not listed holds `d`. -/
def KMap.getD {α : Type} (m : KMap α) (k : Nat) (d : α) : α := (KMap.get? m k).getD d

/-- List a value under a key, in the order of the keys. -/
def KMap.set {α : Type} : KMap α → Nat → α → KMap α
  | [], k, v => [(k, v)]
  | (a, w) :: m, k, v =>
    if k < a then (k, v) :: (a, w) :: m
    else if k = a then (k, v) :: m
    else (a, w) :: KMap.set m k v

/-- Drop a key. -/
def KMap.erase {α : Type} : KMap α → Nat → KMap α
  | [], _ => []
  | (a, w) :: m, k => if a = k then KMap.erase m k else (a, w) :: KMap.erase m k

/-- Write a value into a map whose unlisted keys hold `d`: writing `d` removes the entry. -/
def KMap.put {α : Type} [DecidableEq α] (d : α) (m : KMap α) (k : Nat) (v : α) : KMap α :=
  if v = d then KMap.erase m k else KMap.set m k v

/-- The canonical form: keys strictly rising, and no entry that equals what its unlisted key holds. -/
def KMap.wf {α : Type} [DecidableEq α] (d : Nat → α) : KMap α → Bool
  | [] => true
  | [(k, v)] => decide (v ≠ d k)
  | (k, v) :: (k', v') :: m => decide (v ≠ d k) && decide (k < k') && KMap.wf d ((k', v') :: m)

end Sys2Proof.Machine
end

