-- ==== Sys2Proof/Machine/RegMap.lean ====
section
/-! DEFINITION. The page directory of R155 and the register map of every page: offsets, reset values and access masks
as the chapters' register tables give them. Only what a table says stands here; what a write does beside storing its
bits is in the chapter files (Machine/Regs.lean calls them). -/

namespace Sys2Proof.Machine

/-- Bits `hi` to `lo` of a word, as a number (R13). -/
def bits (w : Word) (hi lo : Nat) : Nat := (w.toNat >>> lo) % 2 ^ (hi + 1 - lo)

/-- One bit of a word. -/
def bit (w : Word) (n : Nat) : Bool := w.toNat.testBit n

/-- A word with bits `hi` to `lo` replaced by the low bits of `v`. -/
def setBits (w : Word) (hi lo v : Nat) : Word :=
  BitVec.ofNat 32 (w.toNat - (bits w hi lo <<< lo) + ((v % 2 ^ (hi + 1 - lo)) <<< lo))

/-- A mask of bits `hi` to `lo`. -/
def mask (hi lo : Nat) : Nat := (2 ^ (hi + 1 - lo) - 1) <<< lo

/-- A field of `n` bits read as two's complement. -/
def signed (n v : Nat) : Int := if v < 2 ^ (n - 1) then (v : Int) else (v : Int) - 2 ^ n

/-- A signed number as a field of `n` bits. -/
def unsigned (n : Nat) (v : Int) : Nat := (v % (2 ^ n : Int)).toNat

/-- Dies of the member (R3). -/
def dieCount : Member → Nat
  | .pn9808 => 8
  | .pn9804 => 4
  | .pn9802 => 2

/-- SYS.CHIP_ID (R5). -/
def chipId : Member → Nat
  | .pn9808 => 0x980800B0
  | .pn9804 => 0x980400B0
  | .pn9802 => 0x980200B0

/-- Streams and layers of the member (R3). -/
def layerCount (m : Member) : Nat := 512 * dieCount m

/-! Authority classes (R106). -/
abbrev OBSERVE : Nat := 0
abbrev OPERATE : Nat := 1
abbrev SERVICE : Nat := 2
abbrev FACTORY : Nat := 3

/-! Completion statuses (R21). -/
abbrev OK : Nat := 0
abbrev STATE : Nat := 1
abbrev AUTH : Nat := 2
abbrev ARG : Nat := 3
abbrev BUSY : Nat := 4
abbrev FAIL : Nat := 5
abbrev TIMEOUT : Nat := 6
abbrev ABORTED : Nat := 7

/-! Output mode codes (R58). -/
abbrev BRINGUP : Nat := 2
abbrev LIVE : Nat := 3
abbrev COMPOSE : Nat := 4
abbrev HOLD : Nat := 5
abbrev MEASURE : Nat := 6
abbrev SAFE : Nat := 7

/-! Page numbers (R155). -/
abbrev SYS : Nat := 0x000
abbrev AON : Nat := 0x001
abbrev CLK : Nat := 0x002
abbrev PWR : Nat := 0x003
abbrev FAULT : Nat := 0x004
abbrev CAL : Nat := 0x005
abbrev AGE : Nat := 0x006
abbrev SEC : Nat := 0x007
abbrev STEWARD : Nat := 0x008
abbrev PORT_SVC : Nat := 0x009
abbrev PORT_INB : Nat := 0x00A
abbrev BRIDGE : Nat := 0x00B
abbrev SLINK : Nat := 0x018
abbrev DLINK : Nat := 0x030
abbrev TGEN : Nat := 0x038
abbrev SCAN : Nat := 0x039
abbrev COMP : Nat := 0x040
abbrev PANEL_OD : Nat := 0x041
abbrev PANEL_DM : Nat := 0x042
abbrev PANEL_DT : Nat := 0x043
abbrev CODEC : Nat := 0x048
abbrev BASKET : Nat := 0x058
abbrev RAMBLER : Nat := 0x059
abbrev MODES : Nat := 0x110
/-- Page of local lane `l`: S0 to S7 are lanes 0 to 7, D0 to D15 are lanes 8 to 23 (R6). -/
def lanePage (l : Nat) : Nat := if l < 8 then 0x010 + l else 0x020 + (l - 8)
def memcPage (c : Nat) : Nat := 0x050 + c
def memphyPage (c : Nat) : Nat := 0x052 + c
def layerPage (k : Nat) : Nat := 0x100 + k

/-- What kind of page a page number is. -/
inductive PageKind where
  | sys | aon | clk | pwr | fault | cal | age | sec | steward | portSvc | portInb | bridge
  | laneS | slink | laneD | dlink | tgen | scan | comp | od | dm | dt | codec | memc | memphy | basket | rambler
  | layer | modes
  deriving DecidableEq, Repr

/-- The page directory (R155); none: the page number is unmapped (R134, R156). -/
def pageKind (p : Nat) : Option PageKind :=
  if p = SYS then some .sys else if p = AON then some .aon else if p = CLK then some .clk
  else if p = PWR then some .pwr else if p = FAULT then some .fault else if p = CAL then some .cal
  else if p = AGE then some .age else if p = SEC then some .sec else if p = STEWARD then some .steward
  else if p = PORT_SVC then some .portSvc else if p = PORT_INB then some .portInb
  else if p = BRIDGE then some .bridge
  else if 0x010 ≤ p ∧ p ≤ 0x017 then some .laneS else if p = SLINK then some .slink
  else if 0x020 ≤ p ∧ p ≤ 0x02F then some .laneD else if p = DLINK then some .dlink
  else if p = TGEN then some .tgen else if p = SCAN then some .scan else if p = COMP then some .comp
  else if p = PANEL_OD then some .od else if p = PANEL_DM then some .dm else if p = PANEL_DT then some .dt
  else if p = CODEC then some .codec else if 0x050 ≤ p ∧ p ≤ 0x051 then some .memc
  else if 0x052 ≤ p ∧ p ≤ 0x053 then some .memphy else if p = BASKET then some .basket
  else if p = RAMBLER then some .rambler else if 0x100 ≤ p ∧ p ≤ 0x107 then some .layer
  else if p = MODES then some .modes else none

/-- Block code of a page (R155). -/
def blockCode : PageKind → Nat
  | .sys => 0x0001 | .aon => 0x0002 | .clk => 0x0003 | .pwr => 0x0004 | .fault => 0x0005 | .cal => 0x0006
  | .age => 0x0007 | .sec => 0x0008 | .steward => 0x0009 | .portSvc => 0x000A | .portInb => 0x000B
  | .bridge => 0x000C | .laneS => 0x0010 | .slink => 0x0011 | .laneD => 0x0018 | .dlink => 0x0019
  | .tgen => 0x0020 | .scan => 0x0021 | .comp => 0x0028 | .od => 0x0029 | .dm => 0x002A | .dt => 0x002B
  | .codec => 0x0030 | .memc => 0x0038 | .memphy => 0x0039 | .basket => 0x0040 | .rambler => 0x0041
  | .layer => 0 | .modes => 0x0048

/-- PAGE_AUTH of a page (R139, R155). -/
def pageAuth : PageKind → Nat
  | .comp => OPERATE
  | .layer => OPERATE
  | .modes => FACTORY
  | _ => SERVICE

/-- PAGE_ID.INSTANCE: the global lane number on lane pages, the channel number on MEMC and MEMPHY pages, 0 otherwise
(R147, the LANE pages). -/
def pageInstance (d p : Nat) : PageKind → Nat
  | .laneS => d * 24 + (p - 0x010)
  | .laneD => d * 24 + 8 + (p - 0x020)
  | .memc => p - 0x050
  | .memphy => p - 0x052
  | _ => 0

/-- One register of a page, or `n` of them `step` bytes apart: reset value, and the bits of each writable access code
of R15. Bits in no mask are RO, reserved, W1S or WO. -/
structure Reg where
  off   : Nat
  n     : Nat := 1
  step  : Nat := 4
  reset : Nat := 0
  rw    : Nat := 0
  rws   : Nat := 0
  rc    : Nat := 0
  deriving DecidableEq, Repr

/-! Offsets of the common page header (R147). -/
abbrev PAGE_ID : Nat := 0x000
abbrev PAGE_STATUS : Nat := 0x004
abbrev PAGE_EVENT : Nat := 0x008
abbrev PAGE_EVENT_EN : Nat := 0x00C
abbrev PAGE_EVENT_FORCE : Nat := 0x010
abbrev PAGE_EVENT_LOST : Nat := 0x014
abbrev PAGE_COMMIT : Nat := 0x018
abbrev PAGE_FAULT_CODE : Nat := 0x01C
abbrev PAGE_AUTH : Nat := 0x020

/-- The word mask of a whole register. -/
abbrev all : Nat := 0xFFFFFFFF

/-- Registers of the common header that a table row describes (R147); PAGE_EVENT, PAGE_EVENT_FORCE and PAGE_COMMIT
act as R148 to R152 say. -/
def headerRegs : List Reg := [{ off := PAGE_EVENT_EN, rw := all }, { off := PAGE_EVENT_LOST, rc := all }]

/-- The block registers of each page kind. -/
def pageRegs : PageKind → List Reg
  | .sys => [{ off := 0x048, rc := all }]
  | .aon => [{ off := 0x054, reset := 0x80, rc := 0xFF }, { off := 0x060, n := 8, rw := all }]
  | .clk => [{ off := 0x050, rc := all }]
  | .pwr => [{ off := 0x040, reset := 750 <<< 16, rws := mask 25 16 + 3 },
      { off := 0x044, reset := (850 <<< 16) + 650, rws := mask 25 16 + mask 9 0 },
      { off := 0x048, reset := (40 <<< 8) + 20, rws := mask 15 0 }, { off := 0x04C, rws := mask 5 0 },
      { off := 0x054, reset := 0x7F, rc := 0xFF }, { off := 0x058, reset := 0x100, rw := 0xFF },
      { off := 0x05C, reset := (6 <<< 24) + 0xFF00 + 100, rws := mask 27 24 + mask 16 0 },
      { off := 0x060, reset := 0xFF00 }, { off := 0x06C, rc := all }]
  | .fault => [{ off := 0x048, rw := mask 10 0 }]
  | .cal => [{ off := 0x040, n := 2, rws := all }, { off := 0x050, rws := 3 },
      { off := 0x060, n := 8, rws := mask 11 8 + mask 4 0 }, { off := 0x080, rw := 3 }, { off := 0x084, rw := all }]
  | .age => [{ off := 0x060, n := 8, reset := 0x1000000 }, { off := 0x0B0, n := 2, reset := 0xFFFFFF }]
  | .sec => [{ off := 0x04C, rw := 0xFF }, { off := 0x060, n := 8, rw := all }, { off := 0x0C0, n := 8, rw := all },
      { off := 0x0E0, reset := 2, rw := mask 15 8 + 3 }, { off := 0x0E4, rw := 3 }]
  | .steward => [{ off := 0x044, rc := mask 15 8 }, { off := 0x048, reset := 100, rw := mask 15 0 }]
  | .portSvc => [{ off := 0x044, reset := 0xFE, rw := 0xFE }, { off := 0x048, rc := all }, { off := 0x04C, rc := all }]
  | .portInb => [{ off := 0x040, reset := 0xFF, rw := 0xFF }, { off := 0x060, n := 8, reset := 0xFE, rw := 0xFE },
      { off := 0x080, n := 8, rc := all }, { off := 0x0A0, n := 8, rc := all }]
  | .bridge => [{ off := 0x040, rws := 0xFFFF }, { off := 0x048, rc := all }, { off := 0x04C, rc := all },
      { off := 0x050, rc := all }]
  | .laneS => [{ off := 0x040, reset := 2, rw := 6 }, { off := 0x044, reset := 0x40404, rw := 0x707 },
      { off := 0x050, reset := 0xFF, rc := 0xFF }, { off := 0x054, reset := (40 <<< 16) + (28 <<< 8) + 16, rws := mask 23 0 },
      { off := 0x058, reset := 0x1F00F0, rws := 0x1F1FFF }, { off := 0x05C, reset := 0x100008, rws := 0x801F000F },
      { off := 0x064, reset := 0x33, rw := 0xF0 }, { off := 0x06C, reset := 1000, rw := 0xFFFF },
      { off := 0x070, rw := 0x70F00 }, { off := 0x074, n := 4, rc := all }]
  | .laneD => [{ off := 0x040, rw := 2 }, { off := 0x044, reset := 0x40404, rw := 0x707 },
      { off := 0x050, reset := 0xFF, rc := 0xFF }, { off := 0x054, reset := (40 <<< 16) + (28 <<< 8) + 16, rws := mask 23 0 },
      { off := 0x064, reset := 0x03, rw := 0x0F }, { off := 0x06C, reset := 1000, rw := 0xFFFF },
      { off := 0x070, rw := 0x70F00 }, { off := 0x074, n := 4, rc := all }]
  | .slink => [{ off := 0x040, reset := 0xFF, rws := 0xFE }, { off := 0x044, rws := 0xFF },
      { off := 0x080, n := 10, rc := all }]
  | .dlink => [{ off := 0x040, reset := 0x2710, rws := 0x371F },
      { off := 0x044, reset := 0x107, rws := 0xFFFFB7FF }, { off := 0x048, rw := 0x6F70FF00 },
      { off := 0x04C, rw := 0xFFFF }, { off := 0x054, reset := 7 }, { off := 0x100, n := 6, rc := all }]
  | .tgen => [{ off := 0x040, rws := 0x3F }, { off := 0x044, reset := 2 }, { off := 0x050, rws := 0x0FFF0FFF },
      { off := 0x054, rws := 0xFFF }, { off := 0x058, reset := 0x200, rws := 0x7FFF0F03 },
      { off := 0x05C, reset := (26 <<< 8) + 26 }, { off := 0x060, rw := 7 }, { off := 0x064, rw := all },
      { off := 0x068, rc := all }, { off := 0x06C, rc := all }]
  | .scan => [{ off := 0x040, rw := all }, { off := 0x048, reset := 0xFFFFFF }, { off := 0x04C, reset := 0xFFFFFF, rc := 0xFFFFFF },
      { off := 0x058, n := 3, rc := all }]
  | .comp => [{ off := 0x04C, rw := 0xFFF }, { off := 0x060, n := 5, rc := all }, { off := 0x100, n := 16, rc := all }]
  | .od => [{ off := 0x040, reset := 0x101, rws := 0x33D }, { off := 0x044, reset := 0x3728190A, rws := all },
      { off := 0x048, reset := 0x19, rw := 0xFF }, { off := 0x04C, reset := 0x100 }, { off := 0x050, rc := all },
      { off := 0x054, rc := all }, { off := 0x058, reset := 0xFFFF, rc := 0xFFFF }]
  | .dm => [{ off := 0x040, reset := 3, rws := 3 }, { off := 0x050, n := 3, rc := all }]
  | .dt => [{ off := 0x040, reset := 1, rws := 0x31 }, { off := 0x044, reset := 0xC00 }]
  | .codec => [{ off := 0x040, rws := 3 }, { off := 0x060, n := 18, rc := all }]
  | .memc => [{ off := 0x044, reset := 64 <<< 16, rws := 0xFFFF0130 }, { off := 0x048, reset := 0xD63440, rws := 0xFFFFFF },
      { off := 0x04C, reset := 32, rws := 0x3FF }, { off := 0x050, reset := (1000 <<< 16) + (64 <<< 8) + 16, rws := all },
      { off := 0x054, reset := 13000, rws := 0xFFFF }, { off := 0x058, reset := 64, rws := 0xFF },
      { off := 0x060, rw := 0x07FFFFFF }, { off := 0x064, n := 2, rw := all }, { off := 0x070, rw := 0x07FFFFFF },
      { off := 0x074, n := 2, rw := all }, { off := 0x0A0, n := 12, rc := all }]
  | .memphy => [{ off := 0x100, n := 24, rws := all }, { off := 0x160, n := 2, rws := 0xFFFFF },
      { off := 0x180, n := 24, rws := all }, { off := 0x1E0, n := 2, rws := 0xFFFFF }]
  | .basket => [{ off := 0x040, reset := 0x66, rw := 0xFFFFFF00 }, { off := 0x044, n := 3, rw := all },
      { off := 0x054, reset := all, rw := all }, { off := 0x060, n := 8, rc := all }, { off := 0x084, rc := all },
      { off := 0x088, rc := all }]
  | .rambler => [{ off := 0x040, reset := 3, rw := 3 }, { off := 0x044, reset := all, rw := all },
      { off := 0x048, reset := 10, rw := 0xFFFF }, { off := 0x064, n := 4, rc := all },
      { off := 0x080, n := 4, reset := 0x88888888 }]
  | .layer => [{ off := 0x00, n := 64, step := 64, rws := 0xFF07003B }, { off := 0x04, n := 64, step := 64, rws := 0xFFFF0FFF },
      { off := 0x08, n := 64, step := 64, rws := 0x7FFF7FFF }, { off := 0x0C, n := 64, step := 64, rws := 0x7FFF7FFF },
      { off := 0x10, n := 64, step := 64, rws := all }, { off := 0x14, n := 64, step := 64, rws := 0x0FFF0FFF },
      { off := 0x18, n := 64, step := 64, rws := 0xFFF }, { off := 0x1C, n := 64, step := 64, rws := 0xFFFFFF },
      { off := 0x20, n := 64, step := 64, rws := 0xFFFFFF }]
  | .modes => []

/-- The registers of a page, header included; the LAYER pages have no header (R139), and MODES is wholly read-only (R155). -/
def allRegs : PageKind → List Reg
  | .layer => pageRegs .layer
  | .modes => []
  | k => headerRegs ++ pageRegs k

/-- A register covers an offset. -/
def Reg.covers (r : Reg) (o : Nat) : Bool :=
  decide (r.off ≤ o) && decide (o < r.off + r.n * r.step) && decide ((o - r.off) % r.step = 0)

/-- The register at an offset of a page; an offset in no row has no writable and no clearing bits (R18). -/
def regAt (k : PageKind) (o : Nat) : Reg := ((allRegs k).find? (fun r => r.covers o)).getD { off := o }

/-! The standard mode table (R273 to R278). -/

/-- The geometry of one standard mode entry: gang width code, W, active lines, refresh rate. -/
structure ModeEntry where
  gang    : Nat
  w       : Nat
  vActive : Nat
  refresh : Nat
  deriving DecidableEq, Repr

/-- The rows of R277: first mode number, gang width code, W, active lines, refresh rates. -/
def modeRows : List (Nat × Nat × Nat × Nat × List Nat) :=
  [(0x00, 0, 3840, 2160, [24, 25, 30, 50, 60, 120, 240, 480]),
   (0x08, 1, 2560, 2880, [24, 25, 30, 50, 60, 120, 240, 480]),
   (0x10, 1, 3840, 4320, [24, 25, 30, 50, 60, 120, 240]),
   (0x17, 2, 2560, 5760, [24, 25, 30, 50, 60, 120, 240, 480]),
   (0x1F, 2, 2880, 6480, [24, 25, 30, 50, 60, 120, 240]),
   (0x26, 2, 3840, 8640, [24, 25, 30, 50, 60, 120]),
   (0x2C, 3, 1920, 8640, [24, 25, 30, 50, 60, 120, 240, 480]),
   (0x34, 3, 2880, 12960, [24, 25, 30, 50, 60, 120]),
   (0x3A, 3, 3840, 17280, [24, 25, 30, 50, 60, 120])]

/-- The entry of a mode number 0x00 to 0x3F. -/
def modeEntry (m : Nat) : ModeEntry :=
  match modeRows.find? (fun r => decide (r.1 ≤ m) && decide (m < r.1 + r.2.2.2.2.length)) with
  | some (f, g, w, v, rs) => { gang := g, w := w, vActive := v, refresh := rs.getD (m - f) 60 }
  | none => { gang := 0, w := 3840, vActive := 2160, refresh := 60 }

def ModeEntry.width (e : ModeEntry) : Nat := 2 ^ e.gang
def ModeEntry.hActive (e : ModeEntry) : Nat := e.width * e.w
def ModeEntry.hTotal (e : ModeEntry) : Nat := e.hActive + 80
def ModeEntry.vTotal (e : ModeEntry) : Nat := e.vActive + 40
/-- F of R275: core cycles of a frame, rounded to nearest. -/
def ModeEntry.frameCycles (e : ModeEntry) : Nat := (2 * 10 ^ 9 + e.refresh) / (2 * e.refresh)
/-- Length of the line at position k, counted backwards from the frame boundary (R275). -/
def ModeEntry.lineCycles (e : ModeEntry) (k : Nat) : Nat :=
  ((k % e.vTotal + 1) * e.frameCycles) / e.vTotal - (k % e.vTotal * e.frameCycles) / e.vTotal
/-- Minimum driver-lane rate code of R276: the lowest k with 12.8 × 3.5 × 2^k Gbit/s at least 38.4 bit × W × V_ACTIVE × f. -/
def ModeEntry.minRate (e : ModeEntry) : Nat :=
  ((List.range 5).find? (fun k => decide (384 * (e.w * e.vActive * e.refresh) ≤ 128 * (3500000000 * 2 ^ k)))).getD 4
/-- Words of the entry on the MODES page (R278). -/
def ModeEntry.word (e : ModeEntry) : Nat → Nat
  | 0 => (e.vActive <<< 16) + e.hActive
  | 1 => (e.vTotal <<< 16) + e.hTotal
  | 2 => (6 <<< 24) + (8 <<< 16) + (26 <<< 8)
  | 3 => (40 <<< 16) + (32 <<< 8) + 8
  | 4 => (e.w <<< 16) + (e.gang <<< 4) + e.minRate
  | 5 => e.frameCycles
  | 6 => e.refresh
  | _ => e.hTotal * e.vTotal * e.refresh / 1000

/-- The value of a register of a die before anything has been written to it: the tables' reset values, the identity
registers and the MODES page. PORT_SVC reads 0 on dies 1 to 7 (R156). Values that fuses hold are named in
assumption log 5. -/
def resetVal (m : Member) (d p o : Nat) : Nat :=
  match pageKind p with
  | none => 0
  | some .layer => 0
  | some k =>
    if k = .portSvc ∧ d ≠ 0 then 0
    else if o = PAGE_ID then (blockCode k <<< 16) + (pageInstance d p k <<< 8) + 1
    else if o = PAGE_AUTH then pageAuth k
    else match k with
      | .sys => if o = 0x040 then chipId m else if o = 0x044 then (dieCount m <<< 8) + d else (regAt k o).reset
      | .pwr => if o = 0x058 then 0x100 + 2 ^ d else (regAt k o).reset
      | .modes => if 0x040 ≤ o ∧ o < 0x840 then (modeEntry ((o - 0x040) / 0x20)).word ((o - 0x040) % 0x20 / 4) else 0
      | _ => (regAt k o).reset

/-- Address of a control register: die, page, offset (R132, R133). -/
def ra (d p o : Nat) : Nat := d * 0x1000000 + p * 0x1000 + o

/-- Reset value by control address. -/
def resetAt (m : Member) (a : Nat) : Word :=
  BitVec.ofNat 32 (resetVal m (a / 0x1000000) (a / 0x1000 % 0x1000) (a % 0x1000))

/-! Offsets of the block registers that the chapters' meanings use, by page. -/
abbrev SYS.BCAST_MISMATCH : Nat := 0x048
abbrev SYS.BOOT_STATUS : Nat := 0x060
abbrev SYS.READY_MAP : Nat := 0x064
abbrev SYS.FIRST_LIGHT_US : Nat := 0x068
abbrev AON.STATUS : Nat := 0x040
abbrev AON.UPTIME_LO : Nat := 0x044
abbrev AON.UPTIME_HI : Nat := 0x048
abbrev AON.STANDBY_COUNT : Nat := 0x04C
abbrev AON.THERM_NOW : Nat := 0x050
abbrev AON.THERM_PEAK : Nat := 0x054
abbrev AON.SCRATCH : Nat := 0x060
abbrev CLK.PLL_STATUS : Nat := 0x040
abbrev CLK.CLK_RUN : Nat := 0x044
abbrev CLK.CYCLE_LO : Nat := 0x048
abbrev CLK.CYCLE_HI : Nat := 0x04C
abbrev CLK.PLL_LOSS_COUNT : Nat := 0x050
abbrev PWR.AVS_CTRL : Nat := 0x040
abbrev PWR.AVS_BOUNDS : Nat := 0x044
abbrev PWR.AVS_SLACK : Nat := 0x048
abbrev PWR.AVS_OFFSET : Nat := 0x04C
abbrev PWR.AVS_STATUS : Nat := 0x050
abbrev PWR.SLACK : Nat := 0x054
abbrev PWR.RAIL : Nat := 0x058
abbrev PWR.THERM : Nat := 0x05C
abbrev PWR.THERM_STATUS : Nat := 0x060
abbrev PWR.TS_READ : Nat := 0x064
abbrev PWR.AVS_WRITE_COUNT : Nat := 0x06C
abbrev FAULT.LATCHED : Nat := 0x040
abbrev FAULT.FIRST : Nat := 0x044
abbrev FAULT.CODE_CLEAR : Nat := 0x048
abbrev FAULT.LOG_HEAD : Nat := 0x04C
abbrev FAULT.LOST_NS : Nat := 0x060
abbrev FAULT.LINK_NS : Nat := 0x068
abbrev FAULT.HELD_NS : Nat := 0x070
abbrev FAULT.LOST_FRAMES : Nat := 0x078
abbrev FAULT.DARK_PX : Nat := 0x07C
abbrev FAULT.LINK_PX : Nat := 0x080
abbrev FAULT.AVAIL_CLR : Nat := 0x084
abbrev CAL.TS_TRIM : Nat := 0x040
abbrev CAL.TS_FACT : Nat := 0x048
abbrev CAL.VREF : Nat := 0x050
abbrev CAL.LANE_RX : Nat := 0x060
abbrev CAL.RECORD : Nat := 0x080
abbrev CAL.RECORD_SEQ : Nat := 0x084
abbrev CAL.RESULT : Nat := 0x088
abbrev AGE.RO : Nat := 0x040
abbrev AGE.RO_BASE : Nat := 0x060
abbrev AGE.TS_DRIFT : Nat := 0x080
abbrev AGE.FOM_SAMPLE : Nat := 0x090
abbrev AGE.DQ_WIN : Nat := 0x0B0
abbrev AGE.RETENTION : Nat := 0x0B8
abbrev SEC.OTP_STATE : Nat := 0x040
abbrev SEC.RUNNING : Nat := 0x044
abbrev SEC.OTP_CTRL : Nat := 0x048
abbrev SEC.ROLLBACK : Nat := 0x04C
abbrev SEC.OTP_RESULT : Nat := 0x050
abbrev SEC.OWNER_STAGE : Nat := 0x060
abbrev SEC.ROOT_DIGEST : Nat := 0x080
abbrev SEC.OWNER_DIGEST : Nat := 0x0A0
abbrev SEC.EXT_DATA : Nat := 0x0C0
abbrev SEC.EXT_CTRL : Nat := 0x0E0
abbrev SEC.BLOB_SEL : Nat := 0x0E4
abbrev SEC.LOG_COUNT : Nat := 0x0E8
abbrev SEC.MR : Nat := 0x100
abbrev SEC.LOG : Nat := 0x200
abbrev SEC.BLOB : Nat := 0x800
abbrev STEWARD.REFUSED_ADDR : Nat := 0x040
abbrev STEWARD.REFUSED_STATUS : Nat := 0x044
abbrev STEWARD.WDOG_CTRL : Nat := 0x048
abbrev STEWARD.WDOG_KICK : Nat := 0x04C
abbrev STEWARD.WDOG_STATUS : Nat := 0x050
abbrev PORT_SVC.SVC_STATUS : Nat := 0x040
abbrev PORT_SVC.EVENT_ROUTE : Nat := 0x044
abbrev PORT_SVC.DISCARD_COUNT : Nat := 0x048
abbrev PORT_SVC.EVENTS_LOST : Nat := 0x04C
abbrev PORT_INB.GROUP_ENABLE : Nat := 0x040
abbrev PORT_INB.EVENT_ROUTE : Nat := 0x060
abbrev PORT_INB.DISCARD_COUNT : Nat := 0x080
abbrev PORT_INB.EVENTS_LOST : Nat := 0x0A0
abbrev PORT_INB.CREDITS : Nat := 0x0C0
abbrev BRIDGE.GANG_MAP : Nat := 0x040
abbrev BRIDGE.LINK_STATUS : Nat := 0x044
abbrev BRIDGE.RETRY_COUNT : Nat := 0x048
abbrev BRIDGE.FWD_DROP_COUNT : Nat := 0x04C
abbrev BRIDGE.TIMING_MISS_COUNT : Nat := 0x050
abbrev LANE.CTRL : Nat := 0x040
abbrev LANE.CEILING : Nat := 0x044
abbrev LANE.STATUS : Nat := 0x048
abbrev LANE.FOM : Nat := 0x04C
abbrev LANE.FOM_MIN : Nat := 0x050
abbrev LANE.FOM_LIMITS : Nat := 0x054
abbrev LANE.EQ_BOUNDS : Nat := 0x058
abbrev LANE.EQ_SET : Nat := 0x05C
abbrev LANE.EQ_NOW : Nat := 0x060
abbrev LANE.TX_PRESET : Nat := 0x064
abbrev LANE.PARTNER : Nat := 0x068
abbrev LANE.RETRY : Nat := 0x06C
abbrev LANE.LOOP : Nat := 0x070
abbrev LANE.LOOP_ERR_COUNT : Nat := 0x074
abbrev LANE.CODE_ERR_COUNT : Nat := 0x078
abbrev LANE.RETRAIN_COUNT : Nat := 0x07C
abbrev LANE.DOWN_COUNT : Nat := 0x080
abbrev LANE.LAST_ATTEMPT_US : Nat := 0x084
abbrev SLINK.GROUP_START : Nat := 0x040
abbrev SLINK.SPARE : Nat := 0x044
abbrev SLINK.GROUP_READY : Nat := 0x048
abbrev SLINK.GROUP_LMAP : Nat := 0x060
abbrev SLINK.PKT_COUNT : Nat := 0x080
abbrev SLINK.SYMBOL_ERR_COUNT : Nat := 0x084
abbrev SLINK.NULLIFIED_COUNT : Nat := 0x088
abbrev SLINK.CRC_ERR_COUNT : Nat := 0x08C
abbrev SLINK.HDR_ERR_COUNT : Nat := 0x090
abbrev SLINK.STREAM_OFF_COUNT : Nat := 0x094
abbrev SLINK.SEQ_DROP_COUNT : Nat := 0x098
abbrev SLINK.LIVE_LONG_COUNT : Nat := 0x09C
abbrev SLINK.REPLAY_COUNT : Nat := 0x0A0
abbrev SLINK.LMAP_ERR_COUNT : Nat := 0x0A4
abbrev DLINK.CHAINS : Nat := 0x040
abbrev DLINK.GATE_CTRL : Nat := 0x044
abbrev DLINK.DRV_CMD : Nat := 0x048
abbrev DLINK.DRV_DATA : Nat := 0x04C
abbrev DLINK.DRV_RESULT : Nat := 0x050
abbrev DLINK.FIT : Nat := 0x054
abbrev DLINK.RET_STATUS : Nat := 0x080
abbrev DLINK.TEMP : Nat := 0x0C0
abbrev DLINK.DRV_CRC_COUNT : Nat := 0x100
abbrev DLINK.DRV_CODE_COUNT : Nat := 0x104
abbrev DLINK.RET_ERR_COUNT : Nat := 0x108
abbrev DLINK.RET_SILENT_COUNT : Nat := 0x10C
abbrev DLINK.FIT_SHORT_COUNT : Nat := 0x110
abbrev DLINK.HANDOVER_COUNT : Nat := 0x114
abbrev TGEN.ENTRY : Nat := 0x040
abbrev TGEN.OUT_STATE : Nat := 0x044
abbrev TGEN.FRAME_SEQ : Nat := 0x048
abbrev TGEN.POSITION : Nat := 0x04C
abbrev TGEN.FILL_RG : Nat := 0x050
abbrev TGEN.FILL_B : Nat := 0x054
abbrev TGEN.TE_CTRL : Nat := 0x058
abbrev TGEN.TE_STATUS : Nat := 0x05C
abbrev TGEN.PINS : Nat := 0x060
abbrev TGEN.BL_PWM : Nat := 0x064
abbrev TGEN.TE_MISSING_COUNT : Nat := 0x068
abbrev TGEN.TE_EARLY_COUNT : Nat := 0x06C
abbrev TGEN.CHANGEOVER_FRAME : Nat := 0x070
abbrev SCAN.SPLASH_ADDR : Nat := 0x040
abbrev SCAN.SPLASH_CTRL : Nat := 0x044
abbrev SCAN.LAT_TOL : Nat := 0x048
abbrev SCAN.TOL_MIN : Nat := 0x04C
abbrev SCAN.SIGNATURE : Nat := 0x050
abbrev SCAN.SIG_FRAME : Nat := 0x054
abbrev SCAN.LIVE_UNDERRUN_COUNT : Nat := 0x058
abbrev SCAN.HELD_LATE_COUNT : Nat := 0x05C
abbrev SCAN.HELD_CRC_COUNT : Nat := 0x060
abbrev COMP.SLOT_LIMIT : Nat := 0x040
abbrev COMP.COMMIT_ID : Nat := 0x044
abbrev COMP.COMMIT_FRAME : Nat := 0x048
abbrev COMP.PEEK_ID : Nat := 0x04C
abbrev COMP.PEEK_STATE : Nat := 0x050
abbrev COMP.LINE_MAX : Nat := 0x054
abbrev COMP.SIZE_DROP_COUNT : Nat := 0x060
abbrev COMP.FORMAT_DROP_COUNT : Nat := 0x064
abbrev COMP.TILE_FAULT_COUNT : Nat := 0x068
abbrev COMP.UNDERRUN_COUNT : Nat := 0x06C
abbrev COMP.SKIP_COUNT : Nat := 0x070
abbrev COMP.LAYER_OFF : Nat := 0x100
abbrev OD.CTRL : Nat := 0x040
abbrev OD.TEMP_POINTS : Nat := 0x044
abbrev OD.TEMP_SET : Nat := 0x048
abbrev OD.STATUS : Nat := 0x04C
abbrev OD.LATE_COUNT : Nat := 0x050
abbrev OD.CRC_COUNT : Nat := 0x054
abbrev OD.MARGIN_MIN : Nat := 0x058
abbrev DM.CTRL : Nat := 0x040
abbrev DM.GEOMETRY : Nat := 0x044
abbrev DM.STAGED : Nat := 0x048
abbrev DM.DEFECT_COUNT : Nat := 0x04C
abbrev DM.LATE_COUNT : Nat := 0x050
abbrev DM.CRC_COUNT : Nat := 0x054
abbrev DM.HALO_LATE_COUNT : Nat := 0x058
abbrev DT.CTRL : Nat := 0x040
abbrev DT.STATUS : Nat := 0x044
abbrev CODEC.CTRL : Nat := 0x040
abbrev CODEC.POOL : Nat := 0x044
abbrev CODEC.ASM : Nat := 0x048
abbrev CODEC.LAST_FAIL_SLOT : Nat := 0x04C
abbrev CODEC.LAST_FAIL : Nat := 0x050
abbrev CODEC.FILL_COUNT : Nat := 0x060
abbrev CODEC.DICT_COUNT : Nat := 0x064
abbrev CODEC.STORED_COUNT : Nat := 0x068
abbrev CODEC.GRANULE_COUNT : Nat := 0x06C
abbrev CODEC.ENC_CHECK_COUNT : Nat := 0x070
abbrev CODEC.FORMAT_FAIL_COUNT : Nat := 0x074
abbrev CODEC.EMPTY_READ_COUNT : Nat := 0x078
abbrev CODEC.OWNER_FAIL_COUNT : Nat := 0x07C
abbrev CODEC.STALE_COUNT : Nat := 0x080
abbrev CODEC.CODE_FAIL_COUNT : Nat := 0x084
abbrev CODEC.CRC_FAIL_COUNT : Nat := 0x088
abbrev CODEC.ASM_SPILL_COUNT : Nat := 0x08C
abbrev CODEC.ASM_DROP_COUNT : Nat := 0x090
abbrev CODEC.CONV_COUNT : Nat := 0x094
abbrev CODEC.PAIR_COUNT_5 : Nat := 0x098
abbrev MEMC.CFG : Nat := 0x040
abbrev MEMC.POLICY : Nat := 0x044
abbrev MEMC.PRIO : Nat := 0x048
abbrev MEMC.REFRESH : Nat := 0x04C
abbrev MEMC.POWER : Nat := 0x050
abbrev MEMC.FREQ : Nat := 0x054
abbrev MEMC.RH : Nat := 0x058
abbrev MEMC.TSET_A : Nat := 0x060
abbrev MEMC.TSET_B : Nat := 0x070
abbrev MEMC.STATUS : Nat := 0x080
abbrev MEMC.MIGRATE : Nat := 0x084
abbrev MEMC.READ_ERR_COUNT : Nat := 0x0A0
abbrev MEMC.WRITE_ERR_COUNT : Nat := 0x0A4
abbrev MEMC.WCRC_RETRY_COUNT : Nat := 0x0A8
abbrev MEMC.CMD_ERR_COUNT : Nat := 0x0AC
abbrev MEMC.REF_POSTPONED_COUNT : Nat := 0x0B0
abbrev MEMC.REF_FORCED_COUNT : Nat := 0x0B4
abbrev MEMC.RH_THROTTLE_COUNT : Nat := 0x0B8
abbrev MEMC.INORDER_COUNT : Nat := 0x0BC
abbrev MEMC.FORWARD_COUNT : Nat := 0x0C0
abbrev MEMC.RESEND_COUNT : Nat := 0x0C4
abbrev MEMC.RESEND_DROP_COUNT : Nat := 0x0C8
abbrev MEMC.SR_ENTRY_COUNT : Nat := 0x0CC
abbrev MEMC.ERR_RANK : Nat := 0x0D0
abbrev MEMC.LAST_ERR : Nat := 0x0D4
abbrev MEMPHY.PHY_STATUS : Nat := 0x040
abbrev MEMPHY.LANE_DLY : Nat := 0x100
abbrev BASKET.OWNER : Nat := 0x040
abbrev BASKET.IN_USE : Nat := 0x050
abbrev BASKET.RETAIN : Nat := 0x054
abbrev BASKET.CONFLICT : Nat := 0x060
abbrev BASKET.COLLIDE_ADDR : Nat := 0x080
abbrev BASKET.CE_COUNT : Nat := 0x084
abbrev BASKET.UE_COUNT : Nat := 0x088
abbrev BASKET.UE_ADDR : Nat := 0x08C
abbrev RAMBLER.CTRL : Nat := 0x040
abbrev RAMBLER.MASK : Nat := 0x044
abbrev RAMBLER.INTERVAL : Nat := 0x048
abbrev RAMBLER.POSITION : Nat := 0x04C
abbrev RAMBLER.LAST_FAIL : Nat := 0x050
abbrev RAMBLER.PASS_COUNT : Nat := 0x060
abbrev RAMBLER.TEST_FAIL_COUNT : Nat := 0x064
abbrev RAMBLER.RETIRED_COUNT : Nat := 0x068
abbrev RAMBLER.ABORT_COUNT : Nat := 0x06C
abbrev RAMBLER.SKIP_COUNT : Nat := 0x070
abbrev RAMBLER.SPARE_LEFT : Nat := 0x080

end Sys2Proof.Machine
end

