-- ==== Sys2Proof/Machine/State.lean ====
section
/-! DEFINITION. The state of the part as plain data, its faults and refusals, and the state after reset.
A register of the control address map stands in `Chip.regs` and nowhere else; the other fields hold what the spec gives
the part beside its registers: memories, queues, ports, and what its engines are doing. -/

namespace Sys2Proof.Machine

/-- Why the block stops. -/
inductive Fault where
  /-- An event of the world outside names a die, lane, channel, output or driver position that the member does not have
  (R3, R9): no part of the block can see such an event. Raised by the meanings of events. Safe. -/
  | noSuchUnit
  deriving DecidableEq, Repr

/-- Why a command has no meaning. -/
inductive Refusal where
  /-- The model gives the command no meaning yet. Raised by the arms of `exec` only. Safe. -/
  | notModelled (mnemonic : String)
  deriving DecidableEq, Repr

/-- The package states of R56, and the time between the release of POR_N and the start of the clocks (R81, R99). -/
inductive Power where
  | off
  /-- POR_N released; only AON runs (step 1 of the boot sequence, or waiting at step 2) -/
  | starting
  | running
  | standby
  deriving DecidableEq, Repr

/-- An outgoing message (R109): one part of a completion, or an event record. -/
structure Msg where
  event   : Bool
  opcode  : Nat
  tag     : Byte
  urgent  : Bool
  more    : Bool
  die     : Nat
  status  : Nat
  aux     : Nat
  payload : List Byte
  /-- a record: when it was raised (R128) -/
  at_     : Nat := 0
  deriving DecidableEq, Repr

/-- One port (R105): tags in use, outgoing queue oldest first, records lost since the previous record, the next event
sequence number, and on a lane group the CSEQ counters of R183. -/
structure PortSt where
  tags     : List Byte := []
  out      : List Msg := []
  lost     : Nat := 0
  evSeq    : Nat := 0
  /-- CSEQ of the oldest message of `out` (in-band ports) -/
  txBase   : Nat := 0
  rxExpect : Nat := 0
  nakSent  : Bool := false
  deriving DecidableEq, Repr

/-- A command that has been accepted from a port and has not completed. -/
structure Req where
  /-- number that tells this command from every other -/
  id       : Nat
  port     : Port
  tag      : Byte
  opcode   : Nat
  die      : Nat
  /-- time limit in ms; 0: the end of the MEASURE window -/
  limit    : Nat
  cmd      : Cmd
  /-- time of arrival -/
  accepted : Nat
  /-- its die answered and the command has been started -/
  started  : Bool
  /-- past its point of no return (R126) -/
  pnr      : Bool
  /-- what the command remembers between its steps -/
  aux      : Nat
  /-- its port was lost: the completion is discarded (R121) -/
  orphan   : Bool
  deriving DecidableEq, Repr

/-- A broadcast register write between its two phases (R142), with the time at which every die had answered. -/
structure Bcast where
  req     : Req
  offset  : Nat
  words   : List Word
  checked : Nat
  deriving DecidableEq, Repr

/-- A register that a port has written in the present cycle: its address, and what it read before (R115). -/
structure CycleWrite where
  port   : Port
  addr   : Nat
  before : Word
  deriving DecidableEq, Repr

/-- How far the boot sequence has come on die 0 (R84 to R90). -/
inductive BootStep where
  /-- before the clocks, or boot finished -/
  | idle
  | sfdp
  | directory
  /-- trying images: number of the present try (0 first, 1 second), entry type tried (1 IMAGE_A, 2 IMAGE_B) -/
  | image (attempt kind : Nat)
  /-- firmware is to read the board profile -/
  | profile
  deriving DecidableEq, Repr

/-- One record frame plane of an output (R49, R341). -/
structure PlaneSt where
  /-- the frame that the device records as held in the plane: updated when the last tile of a frame is written -/
  frame    : Option Word := none
  /-- the frame whose tiles went to the encoders last -/
  content  : Option Word := none
  /-- every tile of `content` was supplied and verified, and no segment was substituted (R67, R292) -/
  complete : Bool := false
  /-- no tile of `content` has failed so far -/
  good     : Bool := true
  /-- tiles of `content` that wait for an encoder or are being encoded -/
  left     : Nat := 0
  deriving DecidableEq, Repr

/-- A CAL_RUN in progress (R397): dies whose run has ended, kinds applied on every one of them, kinds implausible on one of
them, and lanes implausible on one of them. -/
structure CalRun where
  done       : List Nat := []
  applied    : Nat := 7
  implausible : Nat := 0
  refused    : Nat := 0
  /-- registers that the run has changed, by address, as they were before it (R71) -/
  undo       : KMap Word := []
  deriving DecidableEq, Repr

/-- A MARGIN_SCAN in progress (R411 to R414): ranks still to scan (TARGET 0) or channels still held (TARGET 1), by
die × 16 + channel × 4 + rank; the windows found, the codes of R414, and whether a channel could not be scanned. -/
structure MarginRun where
  todo : List Nat := []
  got  : KMap (List Byte) := []
  codes : KMap Nat := []
  bad  : Bool := false
  /-- registers that the scan may change, by address, as they were before it (R71) -/
  undo : KMap Word := []
  deriving DecidableEq, Repr

/-- A release drain (R234): the COMMIT_ID and first frame of the commit, the layers of its RELEASE records, and the released
ranges, each with its layer, first slot and slots. -/
structure Drain where
  id     : Word
  frame  : Word
  told   : List Nat
  ranges : List (Nat × Nat × Nat)
  deriving DecidableEq, Repr

/-- What a gang lead keeps for its output beside its registers. -/
structure OutSt where
  /-- LIVE_SOURCE (R63) -/
  live        : Option Nat := none
  /-- timing lines that have started since the start of timing, and the number of the line of the latest of the three events of
  R68 -/
  lineNo      : Nat := 0
  heardAt     : Nat := 0
  /-- R68 holds; HOLD follows at the next boundary -/
  liveLost    : Bool := false
  planes      : Vector PlaneSt 2 := #v[{}, {}]
  /-- the held plane, in HOLD, MEASURE and SAFE; none: fill colour (R67) -/
  held        : Option Nat := none
  /-- the live stream has missed a line of the frame in progress (R69, R292) -/
  spoiled     : Bool := false
  /-- latest ended frame of which the live stream delivered every line in time (R69) -/
  whole       : Option Word := none
  /-- the frame in progress runs with identity overdrive for the reasons of R60 and R282 -/
  odIdentity  : Bool := true
  /-- so does the frame after it -/
  odNext      : Bool := true
  /-- first light has happened (R97) -/
  lit         : Bool := false
  /-- the splash is in both planes, and is shown (R97, R295) -/
  splash      : Bool := false
  splashShown : Bool := false
  /-- first frame boundary after the start has not come yet (R279) -/
  starting    : Bool := false
  /-- the frame in progress is the black frame of R282, or a DRV_HOLD frame of R283 -/
  black       : Bool := false
  rateShort   : Bool := false
  /-- some frame that ended since the output entered HOLD met both conditions of R69 -/
  resumable   : Bool := false
  /-- DRV_HOLD frame before STANDBY: 0 not asked, 1 due, 2 being sent, 3 done (R75); and PANEL_PWR_EN and BL_EN as they were
  before it (R116) -/
  goodbye     : Nat := 0
  pinsWere    : Nat := 0
  /-- first TE edge of the frame, as a line number, and whether an edge fell inside the window (R288, R289) -/
  teFirst     : Option Nat := none
  teInside    : Bool := false
  /-- time at which the line in progress started -/
  lineAt      : Nat := 0
  /-- the line in progress has been passed on to the drivers and to the frame plane -/
  closed      : Bool := true
  /-- a frame boundary has come and the first line of the frame has not started yet -/
  bound       : Bool := false
  /-- line count T of the frame in progress (R280) -/
  lines       : Nat := 0
  /-- a fatal cause waits for the next line start (R72): the MODE_CHANGE cause code -/
  safeDue     : Option Nat := none
  /-- a channel was lost: the next boundary acts (R375) -/
  lossDue     : Bool := false
  /-- HOLD was entered with cause 0x05, and BRINGUP by SAFE_EXIT (R460) -/
  lossHold    : Bool := false
  exitHold    : Bool := false
  /-- start of the frame in progress -/
  frameAt     : Nat := 0
  /-- backlight PWM restarted at (R287) -/
  pwmAt       : Nat := 0
  /-- internal dark pixels and link dark pixels of the frame in progress (R461) -/
  dark        : Nat := 0
  linkDark    : Nat := 0
  /-- signature of the frame that ended last, not yet in SCAN.SIGNATURE (R297) -/
  sigReady    : Option (Word × Word) := none
  /-- time at which the line lists of the pending LAYER_COMMIT were built (R230) -/
  armedAt     : Option Nat := none
  /-- the release drain of the commit that took effect last -/
  draining    : Option Drain := none
  /-- a LAYER_COMMIT has taken effect on the output (R63) -/
  layout      : Bool := false
  /-- CAL_RUN and MARGIN_SCAN in progress -/
  cal         : Option CalRun := none
  scan        : Option MarginRun := none
  /-- how the frame before was counted: 1 lost, 2 link-lost, 0 otherwise (R457) -/
  counted     : Nat := 0
  /-- counter that the frame before was added to, as `frameClass` numbers them, and its duration (R464) -/
  lastCount   : Nat × Nat := (0, 0)
  deriving DecidableEq, Repr

/-- The loop checker of a lane (R214): the latest bits that it goes by, newest first; error-free bits in a row; which of the latest
64 bits were in error, newest first; and for CODED the bits of the group in progress, oldest first, the place of the next group in
the pattern, and the running disparity. -/
structure CheckSt where
  seen  : List Bool := []
  good  : Nat := 0
  errs  : List Bool := []
  carry : List Bool := []
  next  : Nat := 0
  plus  : Bool := false
  deriving DecidableEq, Repr

/-- A lane at the beginning of a core cycle in which something happens to it, for what R217 says of one cycle: the time, the
state and rate, FOM values below FAIL in a row, FOM_LIMITS, EQ_NOW and the DFE taps; whether a received RETRAIN has taken it back to
Lock in this cycle; and the LANE_TRAIN commands that READY has completed in it. -/
structure LaneSnap where
  at_     : Nat
  state   : Nat
  rate    : Nat
  fomBad  : Nat
  limits  : Word
  eq      : Word
  taps    : List Nat
  back    : Bool
  trained : List (Port × Byte)
  deriving DecidableEq, Repr

/-- One lane beside its registers (R190 to R216). -/
structure LaneSt where
  /-- start of the attempt, of the latest return to 3.5 Gbit/s, and of the phase -/
  attemptAt  : Nat := 0
  lockAt     : Nat := 0
  phaseAt    : Nat := 0
  /-- consecutive valid TS received in this phase, and TS_A still to send with RETRAIN = 1 -/
  rxCount    : Nat := 0
  retrainTx  : Nat := 0
  /-- consecutive failures of the attempt, and the rate code at which they happened -/
  fails      : Nat := 0
  failRate   : Nat := 0
  /-- ceiling that the attempt in progress keeps (R196) -/
  ceiling    : Nat := 4
  /-- group cap and the lane that set it, 24 when there is none (R197) -/
  cap        : Nat := 4
  capBy      : Nat := 24
  /-- time since which the lane runs at its present rate -/
  rateAt     : Nat := 0
  /-- consecutive FOM values at or above ACCEPT, and below FAIL -/
  fomGood    : Nat := 0
  fomBad     : Nat := 0
  /-- the eight DFE taps in use; CTLE and VGA before the change that is being tried, with the FOM they gave (R205) -/
  taps       : List Nat := []
  trial      : Option (Nat × Nat × Nat) := none
  /-- last good coefficients of rate codes 3 and 4: CTLE, VGA, DFE taps (R206) -/
  good3      : Option (Nat × Nat × List Nat) := none
  good4      : Option (Nat × Nat × List Nat) := none
  /-- preset asked for by the previous valid TS (R209) -/
  presetReq  : Nat := 16
  /-- far-end loop: 0 none, 1 asked for by LANE_LOOP, 2 granted by the partner, 3 granted to the partner (R215) -/
  far        : Nat := 0
  check      : CheckSt := {}
  snap       : Option LaneSnap := none
  deriving DecidableEq, Repr

/-- The words of a layer descriptor that carry fields, in the order of R220. -/
abbrev Desc := Vector Word 9

/-- One layer (R219): the committed descriptor's words, the values that a pending LAYER_COMMIT took, and the state of its
notices on the die that owns its ID. -/
structure LayerSt where
  words      : Desc := Vector.replicate 9 0#32
  /-- what the pending commit of each output took -/
  taken      : List (Nat × Desc) := []
  /-- output frames without an accepted packet (R239), whether a packet came in the frame in progress, and whether the
  stream counts as lost -/
  quiet      : Nat := 0
  heard      : Bool := false
  lost       : Bool := false
  /-- freeze watch (R296): latest digest, count, open episode -/
  digest     : Option Word := none
  freeze     : Nat := 0
  frozen     : Bool := false
  /-- causes of R238 whose episode is open, causes met in the frame in progress, and whether a CLEAR is owed -/
  episodes   : List Nat := []
  thisFrame  : List Nat := []
  owed       : Bool := false
  /-- tiles completed, by range and frame: first slot × 2^32 + frame to ty × 512 + tx -/
  tiles      : KMap (List Nat) := []
  /-- the source frame closed by FRM that waits for its digest, whether it was complete, and the first slot of the range that
  received it -/
  closed     : Option (Word × Bool × Nat) := none
  /-- switched off in the frame in progress (R236) -/
  off        : Bool := false
  deriving DecidableEq, Repr

/-- An open layer tile (R344): its layer, frame and place, the slot it goes to, and its pixels by place within the
tile. -/
structure OpenTile where
  layer   : Nat
  frame   : Word
  tx      : Nat
  ty      : Nat
  /-- slot number of the layer region -/
  slot    : Nat
  /-- the tile answers a RESEND (R376) -/
  resend  : Bool
  pixels  : KMap Px
  /-- the spill slot that holds it (R345) -/
  spill   : Option Nat
  deriving DecidableEq, Repr

/-- A tile waiting for an encoder: of a layer, or of plane `plane` of the frame plane. -/
structure EncJob where
  layer  : Option Nat
  plane  : Nat
  /-- slot within the die -/
  slot   : Nat
  tx     : Nat
  ty     : Nat
  owner  : Nat
  seq    : Nat
  subst  : Bool
  /-- none: an EMPTY header is written (R341) -/
  pixels : Option (List Px)
  /-- NO_FILL and FORCE_STORED of a tile whose encoding began before they changed (R350) -/
  ctrl   : Option (Bool × Bool) := none
  deriving DecidableEq, Repr

/-- A demura map (R257): sample columns, sample rows, which of the two demura copies in the frame memory holds its row records,
and the sample rows of pieces that ended while a commit of the page was pending: they wait for the step point (R268). -/
structure DemuraMap where
  cols : Nat
  rows : Nat
  half : Nat
  late : KMap (List Byte)
  deriving DecidableEq, Repr

/-- An image that die 0 has verified, as it goes to the other dies: its kind, 1 IMAGE_A or 2 IMAGE_B (R85). -/
structure ImageCopy where
  kind  : Nat
  bytes : List Byte
  deriving DecidableEq, Repr

/-- The masters that want one single-port basket in the cycle `at_` (R386). -/
structure Wanted where
  at_     : Nat
  masters : List Nat
  deriving DecidableEq, Repr

/-- A defect entry (R261). -/
structure Defect where
  line   : Nat
  column : Nat
  sub    : Nat
  kind   : Nat
  spread : Nat
  deriving DecidableEq, Repr

/-- One copy, active or staged, of a die's panel tables (R246). -/
structure Tables where
  od      : KMap (List Byte) := []
  demura  : Option DemuraMap := none
  defects : Option (List Defect) := none
  gamma   : Option (List Byte) := none
  dither  : Option (List Byte) := none
  deriving DecidableEq, Repr

/-- What is settled at the start of a line for that line (R254, R259, R260, R291): held tiles not yet verified,
previous-frame tiles not usable, the demura rows that stand in for rows j0 and j0 + 1, and the halos at hand. -/
structure LineSt where
  fill  : List Nat := []
  odOff : List Nat := []
  rowA  : Option Nat := none
  rowB  : Option Nat := none
  left  : Bool := false
  right : Bool := false
  deriving DecidableEq, Repr

/-- A DRV_CMD that has not ended (R321). -/
structure DrvCmd where
  /-- chain -/
  lane     : Nat
  pos      : Nat
  bcast    : Bool
  read     : Bool
  tag      : Nat
  addr     : Nat
  /-- DRV_DATA when GO was written -/
  data     : Nat
  /-- its packet has gone out -/
  sent     : Bool
  /-- positions that have answered, and whether one refused the address -/
  answered : List Nat
  refused  : Bool
  deriving DecidableEq, Repr

/-- What a die's steward does (R452 to R454, R433, R434): not started; receiving an image, with the copies refused so far;
restarting after an expiry at a time; restarting by FW_ACTIVATE or resuming after WAKE; running; held; left unbooted; or, in
STANDBY, retained in its baskets. -/
inductive Steward where
  | off
  | booting (refused : Nat)
  | restarting (since : Nat)
  | activating
  | running
  | held
  | unbooted
  | asleep
  deriving DecidableEq, Repr

/-- The core voltage loop of a die beside its registers (R417 to R421): worst slack reported in the period, periods in a row
above SLACK_HI, at or above SLACK_LO since the slack was critical, and below 0 ps at 850 mV; whether the request stands
above its bounds (R419); the request; whether LOOP_MV starts at the next period; VDD_CORE is below the floor. -/
structure AvsSt where
  worst   : Option Int := none
  above   : Nat := 0
  good    : Nat := 0
  low     : Nat := 0
  crit    : Bool := false
  req     : Nat := 0
  start   : Bool := false
  coreLow : Bool := false
  deriving DecidableEq, Repr

/-- An OTP programming operation (R430, R431). -/
inductive OtpOp where
  | enroll (digest : Nat)
  | requireOwner
  | counter (upTo : Nat)
  deriving DecidableEq, Repr

/-- One-time-programmable memory of a die (R429 to R440): programmed bits of the anti-rollback counter and of the owner
digest, the ENROLLED marker, REQUIRE_OWNER, ID_SEED (die 0; a number that names the seed), whether the first boot after
manufacture has taken place, whether the certificate is programmed, and the operation that is programming with its start.
The values before anything is written are those of a delivered part (assumption log 5). -/
structure OtpSt where
  counter  : Nat := 0
  owner    : Nat := 0
  enrolled : Bool := false
  require  : Bool := false
  seed     : Option Nat := some 0
  booted   : Bool := true
  cert     : Bool := true
  prog     : Option (OtpOp × Nat) := none
  deriving DecidableEq, Repr

/-- One die's pixel path and engines beside its registers. -/
structure DieSt where
  active     : Tables := {}
  staged     : Tables := {}
  /-- loaded while a commit of their page is pending: staged at the step point (R268) -/
  next       : Tables := {}
  /-- demura map being loaded in pieces (R266) -/
  partialMap : Option DemuraMap := none
  /-- canonical pixels of the live stream: (frame × 2^15 + line) × 4096 + slice column -/
  livePx     : KMap Px := []
  /-- segments substituted in the frame in progress with the pixels shown: line × 64 + segment (R292) -/
  substs     : KMap (List Px) := []
  /-- segments whose verdict failed (R348): (line × 64 + segment) × 2, plus 1 when it failed before stage 6 -/
  failed     : List Nat := []
  /-- the compositor's lines, by line: the one that scan-out sends, and the one a line ahead of it (R48) -/
  composed   : KMap (List Px) := []
  /-- output of stage 5 for the tile row in progress, by active line: pixels as they go to the frame plane -/
  picture    : KMap (List Px) := []
  line       : LineSt := {}
  /-- previous-frame tiles and held tiles: ty × 64 + tx to the pixels, none when refused -/
  prev       : KMap (Option (List Px)) := []
  heldTiles  : KMap (Option (List Px)) := []
  heldLate   : List Nat := []
  /-- tiles the compositor has fetched for the frame in progress: layer × 2^20 + ty × 512 + tx -/
  fetched    : KMap (List Px) := []
  /-- layers off on this die, with the first output line on which they are off -/
  offLayers  : KMap Nat := []
  /-- open layer tiles, least recently touched first -/
  asm        : List OpenTile := []
  encQ       : List EncJob := []
  /-- the image that boots this die, as die 0 verified it (R85) -/
  copy       : Option ImageCopy := none
  /-- demura rows verified in this frame with their samples, and rows refused in it -/
  dmRows     : KMap (List Byte) := []
  dmFailed   : List Nat := []
  /-- lines for which the halo of a side has arrived: line × 2 + side -/
  halo       : List Nat := []
  /-- the line sent to the drivers last: its number, the codes by slice column (none: DRV_HOLD), and the LINE packets
  dropped under R312 (chain × 8 + position) -/
  txLine     : Nat := 0
  txCodes    : Option (List Px) := none
  txDrop     : List Nat := []
  /-- tile CRCs of the picture supplied in this frame, in order (R297) -/
  sigCrcs    : List Word := []
  /-- frame planes whose unwritten slots hold EMPTY headers (R342) -/
  emptied    : List Nat := []
  /-- disagreements of R349 in this frame, by stage -/
  pairs      : KMap Nat := []
  /-- consecutive missing tokens (R34), and whether a follower is without timing -/
  misses     : Nat := 0
  cutOff     : Bool := false
  /-- the line in progress is sent as DRV_HOLD, as settled at its start (R34, R304): 0 no, 1 yes, 2 yes for a want of timing or of a
  valid geometry, which leaves the columns dark (R461) -/
  holdLine   : Nat := 0
  /-- configuration access of the driver link (R321), and CHAINS has been committed (DLINK page) -/
  drv        : Option DrvCmd := none
  chainsSet  : Bool := false
  /-- the basket in which a block keeps its tables, line lists or open tiles, by the block's owner code (R384) -/
  room       : KMap Nat := []
  steward    : Steward := .off
  /-- watchdog expiries of the last 600 s, oldest first; the latest kick, and the limit in ms that it took (R452, R455) -/
  expiries   : List Nat := []
  wdogAt     : Nat := 0
  wdogMs     : Nat := 100
  avs        : AvsSt := {}
  /-- stream lanes whose LOS was absent at some time in the CAL_RUN in progress (R398) -/
  calLos     : List Nat := []
  deriving DecidableEq, Repr

/-- One driver position of a chain (R317): rate code and loop flag of the latest STATUS, rates of the latest HELLO,
FOM, time of the latest STATUS, since when its reports were free of errors, and the temperature reports of the last 1 s with
their times, oldest first. -/
structure DriverSt where
  rate    : Nat := 0
  loop    : Bool := false
  hello   : Option Nat := none
  fom     : Option Nat := none
  statusAt : Nat := 0
  cleanAt : Option Nat := none
  temps   : List (Int × Nat) := []
  deriving DecidableEq, Repr

/-- A RESEND whose answer is awaited (R376). -/
structure Resend where
  /-- die that holds the tile -/
  die   : Nat
  layer : Nat
  tx    : Nat
  ty    : Nat
  /-- slot number of the layer region, and frame that the answer carries -/
  slot  : Nat
  frame : Word
  deriving DecidableEq, Repr

/-- One bank of a channel (R361): its open row and its history. -/
structure BankSt where
  row    : Option Nat := none
  hist   : Nat := 3
  /-- row for which the predictor has decided, until the next access -/
  judged : Option Nat := none
  /-- time of the latest access -/
  usedAt : Nat := 0
  deriving DecidableEq, Repr

/-- A request in a channel's queue, with POLICY, its port's priority and its port's throttled gap as they were when it was queued
(R379). -/
structure QueuedReq where
  req    : MemReq
  policy : Word
  prio   : Nat
  gap    : Nat
  deriving DecidableEq, Repr

/-- One DRAM channel beside its registers (R351 to R379). -/
structure ChanSt where
  /-- suspect slots, oldest first, with whether the slot was written since its first failure (R372) -/
  suspects : List (Nat × Bool) := []
  /-- times of read and write errors, and of command errors: physical rank and time -/
  errors   : List (Nat × Nat) := []
  cmdErrs  : List (Nat × Nat) := []
  wcrcErrs : List (Nat × Nat) := []
  /-- units copied by the migration in progress; MIGRATE.UNITS shows its low 18 bits (R374) -/
  units    : Nat := 0
  /-- end of the latest migration and the physical rank that took over -/
  tookOver : Option (Nat × Nat) := none
  /-- retries of the write in the write-CRC window: slot and count -/
  retry    : Option (Nat × Nat) := none
  /-- the requests in the channel's queue, oldest first, and when it last held one -/
  queue    : List QueuedReq := []
  idleAt   : Nat := 0
  /-- banks by physical rank × 32 + subchannel × 16 + bank, and the banks in in-order mode, by logical rank, with the row written
  (R362) -/
  banks    : KMap BankSt := []
  inorder  : List (Nat × Nat) := []
  /-- port served last (R360) -/
  turn     : Nat := 7
  /-- activations by place of the bank in `banks` × 65536 + row in the window that began at `rowsAt` (R367), and rows
  throttled: that key × 8 + port, to the time of the latest activation -/
  rows     : KMap Nat := []
  rowsAt   : Nat := 0
  throttle : KMap Nat := []
  /-- the set that a frequency change under way goes to (R369) -/
  freqTo   : Option Nat := none
  freqAt   : Nat := 0
  /-- when the next refresh of each rank falls due (R363) -/
  refNext  : KMap Nat := []
  /-- when an error started the migration in progress, and when the channel went out of service (R378) -/
  migAt    : Option Nat := none
  lostAt   : Option Nat := none
  /-- the delays of the PHY have passed a commit (R368) -/
  phyOk    : Bool := false
  /-- ranks that have not taken committed delays yet (R371) -/
  delays   : List Nat := []
  /-- an uncorrectable error waits for the end of a frequency change: physical rank (R378) -/
  errAfter : Option Nat := none
  /-- a retention scan holds the spare (R414) -/
  holding  : Bool := false
  deriving DecidableEq, Repr

/-- The rambler of a die beside its registers (R391 to R393): the next step of the pass (regions by basket × 4096 + region,
then 131072 + basket × 8 + spare), and the aborted regions that it comes back to, each with the number of regions to
test before and its aborts in a row. -/
structure RamblerSt where
  step    : Nat := 0
  /-- the next region starts no earlier than this -/
  next    : Nat := 0
  retries : List (Nat × Nat × Nat) := []
  deriving DecidableEq, Repr

/-- Memories that hold bytes: the boot flash, the baskets and the frame memory. -/
structure Mem where
  /-- boot flash: an unlisted byte reads 0xFF -/
  flash     : KMap Byte
  /-- bytes whose content an interrupted or timed-out write left unspecified (R101, R124) -/
  flashOpen : List Nat
  /-- basket words by control address: an unlisted word reads 0 -/
  baskets   : KMap Word
  /-- hampers by die and slot: die × 2^32 + slot to the used bytes; an unlisted slot holds unspecified bytes -/
  dram      : KMap (List Byte)
  deriving DecidableEq, Repr

/-- Everything but the waiting commands and the byte memories. -/
structure Chip where
  member   : Member
  power    : Power
  /-- level of POR_N: true when released -/
  porN     : Bool
  /-- core cycles (1 ns) since the beginning of time; the step on an empty queue adds 1 -/
  now      : Nat
  /-- time of the latest POR_N release, of the start of the package cycle counter, and of the latest release or WAKE -/
  porAt    : Nat
  cycleAt  : Nat
  startAt  : Nat
  /-- next number for a free value -/
  fresh    : Nat
  /-- the test fuse is open (R108) -/
  fuseOpen : Bool
  regs     : KMap Word
  /-- staged RWS values (R15) -/
  staged   : KMap Word
  /-- pages with a pending commit: die × 4096 + page to the time of the commit, plus 1 -/
  commits  : KMap Nat
  ports    : KMap PortSt
  /-- number of the next command accepted -/
  nextReq  : Nat
  inflight : List Req
  /-- commands held back behind a broadcast write (R143) -/
  waiting  : List Req
  bcast    : Option Bcast
  /-- links of the ring that are down (R44): link n joins die n and the next -/
  linksDown : List Nat
  /-- PAGE_EVENT records raised in the cycle `raisedAt`, by page: die × 4096 + page (R128) -/
  raisedAt : Nat
  raised   : List Nat
  /-- register writes of ports in the cycle `wroteAt`, latest first (R115) -/
  wroteAt  : Nat
  wrote    : List CycleWrite
  /-- what the device sent on the data lines in the latest service-port read (R118) -/
  svcOut   : List Byte
  /-- what the latest step that sent anything sent on a lane, or on the group whose lowest lane it is: die × 24 + lane -/
  wires    : KMap (List Sym)
  /-- groups that have carried an accepted packet of a stream since they became READY: die × 8 + lowest lane (R68, R178) -/
  carried  : KMap (List Nat)
  /-- lane map by which a group receives: die × 8 + lowest lane (R169) -/
  rxMaps   : KMap Nat
  /-- dies held in internal reset (R471) -/
  inReset  : List Nat
  /-- dies whose steward boot is under way, with what boots it -/
  boot     : BootStep
  profile  : Option Profile
  outs     : KMap OutSt
  lanes    : KMap LaneSt
  layers   : KMap LayerSt
  dies     : KMap DieSt
  drivers  : KMap DriverSt
  /-- DRAM channels by die × 2 + channel -/
  chans    : KMap ChanSt
  /-- fault codes latched per page: die × 4096 + page (R154, R448) -/
  codes    : KMap (List Nat)
  resends  : List Resend
  /-- basket words, by control address, that are uncorrectable, and that wait for the write-back of their correction
  (R381) -/
  badWords : List Nat
  fixups   : List Nat
  ramblers : KMap RamblerSt
  /-- the latest cycle in which a single-port basket was wanted, and by whom: die × 32 + basket (R386) -/
  baskets  : KMap Wanted
  otp      : KMap OtpSt
  /-- fatal causes whose source page has latched and that the FAULT page has not taken yet: die and FAULT code (R446) -/
  fatals   : List (Nat × Nat)
  /-- the quote being signed, with the command's number (R442) -/
  quote    : Option (Nat × List Byte)
  /-- dies differed in OTP at boot; some die has restarted its log since POR_N release (R441) -/
  otpSkew  : Bool
  logRestarted : Bool
  /-- group that most recently carried an accepted packet of a stream: die × 8 + lowest lane + 1 (R129) -/
  via      : KMap Nat
  /-- test port: instruction register, and CREDIT at the latest Capture-DR (R120) -/
  jtagIr   : Nat
  jtagCredit : Bool
  /-- 528-bit data register as captured: the message, and OUT_VALID -/
  jtagDr   : List Byte × Bool
  deriving DecidableEq, Repr

/-- The state of the block. -/
structure State where
  /-- commands waiting, first in, first out -/
  pending : List Instr
  mem     : Mem
  chip    : Chip
  deriving DecidableEq, Repr

/-- The memories right after reset: nothing listed. -/
def Mem.reset : Mem := { flash := [], flashOpen := [], baskets := [], dram := [] }

/-- The block right after reset: OFF, POR_N asserted, every register at its reset value (R61, R81). -/
def Chip.reset : Chip :=
  { member := .pn9808, power := .off, porN := false, now := 0, porAt := 0, cycleAt := 0, startAt := 0, fresh := 0,
    fuseOpen := false, regs := [], staged := [], commits := [], ports := [], nextReq := 0, inflight := [], waiting := [],
    bcast := none, linksDown := [], raisedAt := 0, raised := [], wroteAt := 0, wrote := [], svcOut := [],
    wires := [], carried := [], rxMaps := [], inReset := [], boot := .idle, profile := none, outs := [], lanes := [],
    layers := [], dies := [], drivers := [], chans := [], codes := [], resends := [],
    badWords := [], fixups := [], ramblers := [], baskets := [], otp := [], fatals := [], quote := none, otpSkew := false, logRestarted := false, via := [], jtagIr := 0x01, jtagCredit := false,
    jtagDr := ([], false) }

/-- The machine right after reset: an empty queue. -/
def State.reset : State := { pending := [], mem := Mem.reset, chip := Chip.reset }

end Sys2Proof.Machine
end

