-- ==== Sys2Proof/Machine/Checks.lean ====
section
/-! DEFINITION. The two CRCs of R160. -/

namespace Sys2Proof.Machine

/-- One bit step of the reflected CRC-32C: 0x82F6_3B78 is 0x1EDC_6F41 with its bits reversed. -/
def crc32cBit (x : BitVec 32) : BitVec 32 := if x.getLsbD 0 then (x >>> 1) ^^^ 0x82F63B78#32 else x >>> 1

def crc32cByte (x : BitVec 32) (b : Byte) : BitVec 32 :=
  crc32cBit (crc32cBit (crc32cBit (crc32cBit (crc32cBit (crc32cBit (crc32cBit (crc32cBit (x ^^^ b.setWidth 32))))))))

/-- CRC-32C (R160): least significant bit first, initial value and final XOR 0xFFFF_FFFF. -/
def crc32c (bs : List Byte) : Word := (bs.foldl crc32cByte 0xFFFFFFFF#32) ^^^ 0xFFFFFFFF#32

/-- One bit step of the CRC-8 with polynomial 0x07, most significant bit first. -/
def crc8Bit (x : BitVec 8) : BitVec 8 := if x.getLsbD 7 then (x <<< 1) ^^^ 0x07#8 else x <<< 1

def crc8Byte (x : BitVec 8) (b : Byte) : BitVec 8 :=
  crc8Bit (crc8Bit (crc8Bit (crc8Bit (crc8Bit (crc8Bit (crc8Bit (crc8Bit (x ^^^ b))))))))

/-- CRC-8 (R160): initial value 0xFF, no final XOR. -/
def crc8 (bs : List Byte) : Byte := bs.foldl crc8Byte 0xFF#8

end Sys2Proof.Machine
end

