-- ==== Sys2Proof/Machine/LineCode.lean ====
section
/-! DEFINITION. The line code of every lane (R157 to R162, R168, R303): 8b/10b of IEEE 802.3 Clause 36 with its running disparity,
the control symbols, ordered sets, and the stripe rows of a lane group. A code group is written with bit a, which is sent
first, as its most significant bit; a running disparity is `true` when it is positive. -/

namespace Sys2Proof.Machine

/-! ### Control symbols (R159) -/

abbrev symCOM : Sym := .ctrl 0xBC
abbrev symSKP : Sym := .ctrl 0x1C
abbrev symIDL : Sym := .ctrl 0x7C
abbrev symTS  : Sym := .ctrl 0x3C
abbrev symSTP : Sym := .ctrl 0xFB
abbrev symSCP : Sym := .ctrl 0x5C
abbrev symFRM : Sym := .ctrl 0x9C
abbrev symLNM : Sym := .ctrl 0xDC
abbrev symEND : Sym := .ctrl 0xFD
abbrev symEDB : Sym := .ctrl 0xFE
abbrev symPAD : Sym := .ctrl 0xF7

/-- The control symbols that the code has: K28.0 to K28.7, K23.7, K27.7, K29.7 and K30.7. -/
def isControl (b : Byte) : Bool := decide (b.toNat % 32 = 28) || [0xF7, 0xFB, 0xFD, 0xFE].contains b.toNat

/-! ### The 5b/6b and 3b/4b sub-blocks -/

/-- Six-bit sub-blocks of D.0 to D.31 under negative disparity. -/
def sixBits : List Nat :=
  [0b100111, 0b011101, 0b101101, 0b110001, 0b110101, 0b101001, 0b011001, 0b111000] ++
  [0b111001, 0b100101, 0b010101, 0b110100, 0b001101, 0b101100, 0b011100, 0b010111] ++
  [0b011011, 0b100011, 0b010011, 0b110010, 0b001011, 0b101010, 0b011010, 0b111010] ++
  [0b110011, 0b100110, 0b010110, 0b110110, 0b001110, 0b101110, 0b011110, 0b101011]

/-- Four-bit sub-blocks of D.x.0 to D.x.7 under negative disparity, and of K28.0 to K28.7. -/
def fourBits : List Nat := [0b1011, 0b1001, 0b0101, 0b1100, 0b1101, 0b1010, 0b0110, 0b1110]
def fourBitsK : List Nat := [0b1011, 0b0110, 0b1010, 0b1100, 0b1101, 0b0101, 0b1001, 0b0111]

/-- Ones among the low `n` bits. -/
def ones (n v : Nat) : Nat := ((List.range n).filter (fun i => v.testBit i)).length

/-- Disparity after a sub-block of `n` bits: more ones make it positive, more zeros negative; of the balanced ones 000111 and
0011 make it positive, 111000 and 1100 negative. -/
def nextPlus (n : Nat) (plus : Bool) (v : Nat) : Bool :=
  if n < 2 * ones n v then true
  else if 2 * ones n v < n then false
  else if v = 2 ^ (n / 2) - 1 then true
  else if v = 2 ^ n - 2 ^ (n / 2) then false
  else plus

/-- The six-bit sub-block of an input: under positive disparity an unbalanced one, and 111000, is sent inverted. -/
def sixOf (plus control : Bool) (x : Nat) : Nat :=
  let v := if control ∧ x = 28 then 0b001111 else sixBits.getD x 0
  if plus ∧ (ones 6 v ≠ 3 ∨ v = 0b111000) then 63 - v else v

/-- The four-bit sub-block. D.x.7 takes its alternative form after six-bit sub-blocks that would make a run of five. -/
def fourOf (plus control : Bool) (x y : Nat) : Nat :=
  if control then (if plus then 15 - fourBitsK.getD y 0 else fourBitsK.getD y 0)
  else
    let alt := decide (y = 7) && (if plus then [11, 13, 14].contains x else [17, 18, 20].contains x)
    let v := if alt then 0b0111 else fourBits.getD y 0
    if plus ∧ (ones 4 v ≠ 2 ∨ v = 0b1100) then 15 - v else v

def symByte : Sym → Byte
  | .data b => b
  | .ctrl b => b

def symControl : Sym → Bool
  | .data _ => false
  | .ctrl _ => true

/-- The code group of a symbol (R157): bits A to E of the byte are its low five bits. -/
def encodeSym (plus : Bool) (s : Sym) : CodeGroup :=
  let x := (symByte s).toNat % 32
  let y := (symByte s).toNat / 32
  let six := sixOf plus (symControl s) x
  BitVec.ofNat 10 (six * 16 + fourOf (nextPlus 6 plus six) (symControl s) x y)

/-- Disparity after a code group, by its sub-blocks. -/
def plusAfter (plus : Bool) (g : CodeGroup) : Bool := nextPlus 4 (nextPlus 6 plus (g.toNat / 16)) (g.toNat % 16)

/-- The symbol of a code group; none for an invalid code group or a disparity error. -/
def decodeSym (plus : Bool) (g : CodeGroup) : Option Sym :=
  let six := g.toNat / 16
  let mid := nextPlus 6 plus six
  let xs := (List.range 32).filter (fun x => sixOf plus false x = six) ++ (if sixOf plus true 28 = six then [28] else [])
  let tries := xs.flatMap fun x => (List.range 8).flatMap fun y =>
    let b := BitVec.ofNat 8 (32 * y + x)
    (if fourOf mid false x y = g.toNat % 16 then [Sym.data b] else []) ++
      (if isControl b ∧ fourOf mid true x y = g.toNat % 16 then [Sym.ctrl b] else [])
  tries.find? (fun s => encodeSym plus s = g)

/-- The code groups of a run of symbols. -/
def encodeLane (plus : Bool) : List Sym → List CodeGroup
  | [] => []
  | s :: l => encodeSym plus s :: encodeLane (plusAfter plus (encodeSym plus s)) l

/-- The symbols of a run of code groups, none for each code error. -/
def decodeLane (plus : Bool) : List CodeGroup → List (Option Sym)
  | [] => []
  | g :: l => decodeSym plus g :: decodeLane (plusAfter plus g) l

/-- The bits of a run of code groups, as they are sent: bit a first, bit j last. -/
def laneBits (l : List CodeGroup) : List Bool := l.flatMap fun g => (List.range 10).map fun i => g.getMsbD i

/-! ### Symbols of what is sent (R158, R161, R180, R182, R305) -/

def dataSyms (bs : List Byte) : List Sym := bs.map Sym.data

/-- A marker: its symbol, its data bytes and their CRC-8. -/
def markerSyms (k : Sym) (bs : List Byte) : List Sym := k :: dataSyms (bs ++ [crc8 bs])

/-- The SKP ordered set that the device sends: 3 SKP. -/
def skpSyms (lmap : Byte) : List Sym := [symCOM, .data lmap, symSKP, symSKP, symSKP]

/-- A TS ordered set of its 14 data bytes. -/
def tsSyms (bs : List Byte) : List Sym := symCOM :: symTS :: dataSyms bs

/-- A packet: its start, its bytes, the CRC-32C over them, and its end. -/
def packetSyms (start : Sym) (bs : List Byte) (stop : Sym) : List Sym :=
  start :: dataSyms (bs ++ (List.range 4).map (fun i => BitVec.ofNat 8 ((crc32c bs).toNat >>> (8 * i)))) ++ [stop]

/-! ### Stripe rows (R168) -/

/-- The positions of a lane map, ascending. -/
def mapLanes (lmap : Nat) : List Nat := (List.range 8).filter (fun p => lmap.testBit p)

/-- What each lane of a map carries of one packet or marker: symbol k goes to lane k modulo N, and PAD fills the last row. -/
def stripe (lmap : Nat) (syms : List Sym) : List (Nat × List Sym) :=
  let ps := mapLanes lmap
  let n := ps.length
  ps.zipIdx.map fun p => (p.1, (List.range ((syms.length + n - 1) / n)).map fun r => syms.getD (r * n + p.2) symPAD)

/-- Drop at most `n` SKP. -/
def dropSkp : Nat → List (Option Sym) → List (Option Sym)
  | n + 1, some s :: l => if s = symSKP then dropSkp n l else some s :: l
  | _, l => l

/-- Take the SKP ordered sets out of what a lane carries (R162): the symbols before the first set, and each set's LMAP with the
symbols that follow it. A set holds one to five SKP. -/
def cutSets : Nat → List (Option Sym) → List (Option Sym) × List (Byte × List (Option Sym))
  | 0, l => (l, [])
  | _ + 1, [] => ([], [])
  | fuel + 1, a :: l =>
    match a, l with
    | some com, some (.data m) :: some skp :: rest =>
      if com = symCOM ∧ skp = symSKP then
        let r := cutSets fuel (dropSkp 4 rest)
        ([], (m, r.1) :: r.2)
      else let r := cutSets fuel l; (a :: r.1, r.2)
    | _, _ => let r := cutSets fuel l; (a :: r.1, r.2)

/-- One lane as received: its position, and its symbols with the ordered sets taken out. -/
structure CutLane where
  pos  : Nat
  head : List (Option Sym)
  sets : List (Byte × List (Option Sym))
  deriving DecidableEq, Repr

def cutLane (l : LaneRx) : CutLane :=
  let q := cutSets l.groups.length (decodeLane l.plus l.groups)
  { pos := l.pos, head := q.1, sets := q.2 }

/-- The symbols of the rows of the lanes of a map, in order. A lane of the map that carries nothing leaves errors. -/
def rowSyms (lmap : Nat) (lanes : List (Nat × List (Option Sym))) : List (Option Sym) :=
  let cols := (mapLanes lmap).map fun p => ((lanes.find? (fun l => l.1 = p)).map (fun l => l.2)).getD []
  (List.range ((cols.map List.length).foldl max 0)).flatMap fun r => cols.map fun l => l.getD r none

/-- What a lane group receives: the symbols of its rows, the lane map after them, and how many sets carried different LMAP
values on its lanes (R169, R170). -/
structure Heard where
  syms : List (Option Sym)
  lmap : Nat
  torn : Nat
  deriving DecidableEq, Repr

/-- Bring what the lanes of a group carry back into one run of symbols. Symbols after a set use the map that the set carries. -/
def hear (lmap : Nat) (lanes : List CutLane) : Heard :=
  let sets := (lanes.map (fun l => l.sets.length)).foldl max 0
  (List.range sets).foldl (fun h j =>
    let maps := lanes.map fun l => (l.sets[j]?).map (fun s => s.1)
    let agree := maps.all (fun (m : Option Byte) => decide (m = maps.headD none) && m.isSome)
    let lmap := if agree then ((maps.headD none).getD 0).toNat else h.lmap
    { syms := h.syms ++ rowSyms lmap (lanes.map fun l => (l.pos, ((l.sets[j]?).map (fun s => s.2)).getD [])), lmap := lmap,
      torn := h.torn + if agree then 0 else 1 })
    { syms := rowSyms lmap (lanes.map fun l => (l.pos, l.head)), lmap := lmap, torn := 0 }

/-- Code errors on a lane as received (CODE_ERR_COUNT). -/
def codeErrors (l : LaneRx) : Nat := ((decodeLane l.plus l.groups).filter (fun s => s.isNone)).length

/-- The data bytes that a run of symbols begins with, and the rest. -/
def takeData : List (Option Sym) → List Byte × List (Option Sym)
  | some (.data b) :: l => let r := takeData l; (b :: r.1, r.2)
  | l => ([], l)

end Sys2Proof.Machine
end

