-- ==== Sys2Proof/Machine/Flags.lean ====
section
/-! DEFINITION. Registers, status bits and events: the one home of reading and writing a register word, the READY, STATE,
BUSY and fault bits of PAGE_STATUS, the setting of PAGE_EVENT bits with their records (R128 to R130, R152), and the
port queues the records go to. -/

namespace Sys2Proof.Machine

/-! ### Registers -/

/-- The word in effect of a register (RC and computed registers: Machine/Regs.lean). -/
def Chip.reg (c : Chip) (d p o : Nat) : Word := KMap.getD c.regs (ra d p o) (resetAt c.member (ra d p o))

/-- Put a word into effect. -/
def Chip.setReg (c : Chip) (d p o : Nat) (w : Word) : Chip :=
  { c with regs := KMap.put (resetAt c.member (ra d p o)) c.regs (ra d p o) w }

/-- Registers by address, as they stand. -/
def Chip.keep (c : Chip) (l : List Nat) : KMap Word := l.foldl (fun m a => KMap.set m a (KMap.getD c.regs a (resetAt c.member a))) []

/-- Put registers back. -/
def Chip.putBack (c : Chip) (m : KMap Word) : Chip :=
  { c with regs := m.foldl (fun r kv => KMap.put (resetAt c.member kv.1) r kv.1 kv.2) c.regs }

/-- A field of a register. -/
def Chip.get (c : Chip) (d p o hi lo : Nat) : Nat := bits (c.reg d p o) hi lo

/-- Replace a field of a register. -/
def Chip.put (c : Chip) (d p o hi lo v : Nat) : Chip := c.setReg d p o (setBits (c.reg d p o) hi lo v)

/-- One bit of a register. -/
def Chip.flag (c : Chip) (d p o n : Nat) : Bool := bit (c.reg d p o) n

/-- A register as a number. -/
def Chip.num (c : Chip) (d p o : Nat) : Nat := (c.reg d p o).toNat

/-- Put a number into a register. -/
def Chip.setNum (c : Chip) (d p o v : Nat) : Chip := c.setReg d p o (BitVec.ofNat 32 v)

/-- Add to a counter that saturates at 0xFFFF_FFFF. -/
def Chip.countBy (c : Chip) (d p o n : Nat) : Chip := c.setNum d p o (min 0xFFFFFFFF (c.num d p o + n))

/-- Add 1 to a counter that saturates. -/
def Chip.count (c : Chip) (d p o : Nat) : Chip := c.countBy d p o 1

/-- Add to a 64-bit counter in two registers, low word first. -/
def Chip.count64 (c : Chip) (d p o n : Nat) : Chip :=
  let v := c.num d p o + 2 ^ 32 * c.num d p (o + 4) + n
  (c.setNum d p o (v % 2 ^ 32)).setNum d p (o + 4) (v / 2 ^ 32 % 2 ^ 32)

/-- The staged word of a register: the value most recently written, or the value in effect (R15, RWS). -/
def Chip.stagedReg (c : Chip) (d p o : Nat) : Word := KMap.getD c.staged (ra d p o) (c.reg d p o)

/-- Stage a word. -/
def Chip.stage (c : Chip) (d p o : Nat) (w : Word) : Chip := { c with staged := KMap.set c.staged (ra d p o) w }

/-- Drop the staged words of a page (R16). -/
def Chip.unstage (c : Chip) (d p : Nat) : Chip :=
  { c with staged := c.staged.filter (fun kv => decide (kv.1 / 0x1000 ≠ d * 0x1000 + p)) }

/-- The staged words of a page, by offset. -/
def Chip.stagedOf (c : Chip) (d p : Nat) : List (Nat × Word) :=
  (c.staged.filter (fun kv => decide (kv.1 / 0x1000 = d * 0x1000 + p))).map (fun kv => (kv.1 % 0x1000, kv.2))

/-- A staged value differs from the one in effect (R149). -/
def Chip.stagedChange (c : Chip) (d p : Nat) : Bool := (c.stagedOf d p).any (fun kv => decide (kv.2 ≠ c.reg d p kv.1))

/-- A register has a staged value. -/
def Chip.isStaged (c : Chip) (d p o : Nat) : Bool := (KMap.get? c.staged (ra d p o)).isSome

/-- The bits of a register that a page table stages (RWS). -/
def rwsMask (p o : Nat) : Nat := match pageKind p with | some k => (regAt k o).rws | none => 0

/-- A word with the bits of a mask taken from another word. -/
def mergeBits (m : Nat) (old new : Word) : Word := (old &&& ~~~(BitVec.ofNat 32 m)) ||| (new &&& BitVec.ofNat 32 m)

/-- Put one staged register into effect. -/
def Chip.applyOne (c : Chip) (d p o : Nat) (w : Word) : Chip := c.setReg d p o (mergeBits (rwsMask p o) (c.reg d p o) w)

/-- Put every staged word of a page into effect (R149). -/
def Chip.applyStaged (c : Chip) (d p : Nat) : Chip :=
  ((c.stagedOf d p).foldl (fun c kv => c.applyOne d p kv.1 kv.2) c).unstage d p

/-- Key of a page in `commits`. -/
def pageKey (d p : Nat) : Nat := d * 0x1000 + p

/-- A commit of the page is pending (R149). -/
def Chip.committing (c : Chip) (d p : Nat) : Bool := KMap.getD c.commits (pageKey d p) 0 ≠ 0

/-- Time of the pending commit. -/
def Chip.commitTime (c : Chip) (d p : Nat) : Nat := KMap.getD c.commits (pageKey d p) 0 - 1

def Chip.setCommit (c : Chip) (d p : Nat) : Chip := { c with commits := KMap.put 0 c.commits (pageKey d p) (c.now + 1) }
def Chip.clearCommit (c : Chip) (d p : Nat) : Chip := { c with commits := KMap.put 0 c.commits (pageKey d p) 0 }

/-- Discard the staged and pending values of a page (R16, R149). -/
def Chip.abortPage (c : Chip) (d p : Nat) : Chip := (c.unstage d p).clearCommit d p

/-! ### Units -/

def Chip.dies' (c : Chip) : List Nat := List.range (dieCount c.member)

/-- Width code of a die in the gang map in effect (R29). -/
def Chip.gangCode (c : Chip) (d : Nat) : Nat := c.get 0 BRIDGE BRIDGE.GANG_MAP (2 * d + 1) (2 * d)

/-- Lowest die of the gang of a die, which is the number of its output (R7, R32). -/
def Chip.leadOf (c : Chip) (d : Nat) : Nat := d / 2 ^ c.gangCode d * 2 ^ c.gangCode d

/-- The dies of the gang of an output. -/
def Chip.gang (c : Chip) (o : Nat) : List Nat := (List.range (2 ^ c.gangCode o)).map (fun k => o + k)

/-- An output that is formed: the lowest die of a gang (R8). -/
def Chip.formed (c : Chip) (o : Nat) : Bool := decide (o < dieCount c.member) && decide (c.leadOf o = o)

/-- The formed outputs. -/
def Chip.outputs (c : Chip) : List Nat := c.dies'.filter (fun d => c.leadOf d = d)

/-- Mode of an output, and of a die (R57, R58). -/
def Chip.mode (c : Chip) (o : Nat) : Nat := c.get o TGEN TGEN.OUT_STATE 2 0
def Chip.dieMode (c : Chip) (d : Nat) : Nat := c.mode (c.leadOf d)

def Chip.out (c : Chip) (o : Nat) : OutSt := KMap.getD c.outs o {}
def Chip.setOut (c : Chip) (o : Nat) (x : OutSt) : Chip := { c with outs := KMap.put {} c.outs o x }
def Chip.lane (c : Chip) (d l : Nat) : LaneSt := KMap.getD c.lanes (d * 24 + l) {}
def Chip.setLane (c : Chip) (d l : Nat) (x : LaneSt) : Chip := { c with lanes := KMap.put {} c.lanes (d * 24 + l) x }
def Chip.layer (c : Chip) (n : Nat) : LayerSt := KMap.getD c.layers n {}
def Chip.setLayer (c : Chip) (n : Nat) (x : LayerSt) : Chip := { c with layers := KMap.put {} c.layers n x }
def Chip.die (c : Chip) (d : Nat) : DieSt := KMap.getD c.dies d {}
def Chip.setDie (c : Chip) (d : Nat) (x : DieSt) : Chip := { c with dies := KMap.put {} c.dies d x }
/-- DRAM channel of a die. -/
def Chip.chan (c : Chip) (d ch : Nat) : ChanSt := KMap.getD c.chans (d * 2 + ch) {}
def Chip.setChan (c : Chip) (d ch : Nat) (x : ChanSt) : Chip := { c with chans := KMap.put {} c.chans (d * 2 + ch) x }
/-- Driver position of a chain of a die. -/
def Chip.driver (c : Chip) (d k p : Nat) : DriverSt := KMap.getD c.drivers (d * 128 + k * 8 + p) {}
def Chip.setDriver (c : Chip) (d k p : Nat) (x : DriverSt) : Chip :=
  { c with drivers := KMap.put {} c.drivers (d * 128 + k * 8 + p) x }

/-- Take one free value number. -/
def Chip.tick (c : Chip) : Chip := { c with fresh := c.fresh + 1 }

/-- Link `i` of the ring is up; the PN9802 has the one link 0 (R44). -/
def Chip.linkUp (c : Chip) (i : Nat) : Bool :=
  if dieCount c.member = 2 then !c.linksDown.contains 0 else !c.linksDown.contains (i % dieCount c.member)

/-- A die can be reached from another over the ring, either way round (R44). -/
def Chip.reach (c : Chip) (a b : Nat) : Bool :=
  let n := dieCount c.member
  (List.range ((b + n - a) % n)).all (fun i => c.linkUp (a + i)) ||
  (List.range ((a + n - b) % n)).all (fun i => c.linkUp (b + i))

/-- A die answers a command that arrived on another die (R146). -/
def Chip.answers (c : Chip) (a b : Nat) : Bool :=
  decide (b < dieCount c.member) && !c.inReset.contains b && c.reach a b

/-! ### Stream lane groups (R166) -/

/-- Stream lane `i` of a die starts a group. -/
def Chip.startsGroup (c : Chip) (d i : Nat) : Bool := i = 0 || c.flag d SLINK SLINK.GROUP_START i

/-- Lowest lane of the group of a stream lane. -/
def Chip.groupFirst (c : Chip) (d l : Nat) : Nat :=
  ((List.range (l + 1)).reverse.find? (fun i => c.startsGroup d i)).getD 0

/-- The groups of a die, by their lowest lanes, in ascending order. -/
def Chip.groups (c : Chip) (d : Nat) : List Nat := (List.range 8).filter (fun i => c.startsGroup d i)

/-- Number of the group whose lowest lane is `f` (R187). -/
def Chip.groupNumber (c : Chip) (d f : Nat) : Nat := (c.groups d).findIdx (fun x => x = f)

/-- The lanes of the group whose lowest lane is `f`. -/
def Chip.groupLanes (c : Chip) (d f : Nat) : List Nat := (List.range 8).filter (fun i => c.groupFirst d i = f)

/-- Group number `g` of a die is READY. -/
def Chip.groupReady (c : Chip) (d g : Nat) : Bool := c.flag d SLINK SLINK.GROUP_READY g

/-- The group with lowest lane `f` is READY. -/
def Chip.firstReady (c : Chip) (d f : Nat) : Bool := c.groupReady d (c.groupNumber d f)

/-! ### Ports -/

/-- Key of a port. -/
def portKey : Port → Nat
  | .service => 0
  | .test => 1
  | .steward d => 2 + d
  | .inband d f => 16 + 8 * d + f

/-- Credits of a port (R105). -/
def portCredits : Port → Nat
  | .test => 1
  | .inband _ _ => 32
  | _ => 64

/-- The die of a port. -/
def portDie : Port → Nat
  | .inband d _ => d
  | .steward d => d
  | _ => 0

/-- Authority class of a port (R105, R108). -/
def Chip.portClass (c : Chip) : Port → Nat
  | .test => if c.fuseOpen then FACTORY else OBSERVE
  | .service => SERVICE
  | .inband _ _ => OPERATE
  | .steward _ => SERVICE

def Chip.port (c : Chip) (p : Port) : PortSt := KMap.getD c.ports (portKey p) {}
def Chip.setPort (c : Chip) (p : Port) (x : PortSt) : Chip := { c with ports := KMap.put {} c.ports (portKey p) x }

/-- Put a message at the end of a port's outgoing queue. -/
def Chip.send (c : Chip) (p : Port) (m : Msg) : Chip :=
  let x := c.port p
  c.setPort p { x with out := x.out ++ [m] }

/-- A record code is routed to a port (R129); the steward port has no routing register. DESIGN CHOICE (assumption log 97): a
record raised while the group of an in-band port is not READY is neither queued for that port nor counted as lost. -/
def Chip.routed (c : Chip) (code : Nat) : Port → Bool
  | .test => false
  | .service => c.flag 0 PORT_SVC PORT_SVC.EVENT_ROUTE code
  | .steward _ => true
  | .inband d f =>
    c.firstReady d f && c.flag d PORT_INB PORT_INB.GROUP_ENABLE (c.groupNumber d f) &&
      c.flag d PORT_INB (PORT_INB.EVENT_ROUTE + 4 * c.groupNumber d f) code

/-- The ports in the scope of a record that die `d` raises (R129). `only`: for a RESEND record, the in-band port that
may receive it. -/
def Chip.scope (c : Chip) (d : Nat) (only : Option (Option (Nat × Nat))) : List Port :=
  [.service, .steward d] ++
    match only with
    | some none => []
    | some (some (e, f)) => [.inband e f]
    | none => (c.gang (c.leadOf d)).flatMap (fun e => (c.groups e).map (fun f => Port.inband e f))

/-- Bits of `w` that are 1, as a list of numbers. -/
def bitList (w : Nat) : List Nat := (List.range 32).filter (fun i => w.testBit i)

/-- Set PAGE_EVENT bits (R152): the new word, the number of sets that found their bit at 1, and the enabled bits that
went from 0 to 1 (R128). -/
def Chip.setEvents (c : Chip) (d p : Nat) (sets : List Nat) : Chip × Nat :=
  let step := fun (x : Chip × Nat) (b : Nat) =>
    let w := x.1.num d p PAGE_EVENT
    if w.testBit b then (x.1.count d p PAGE_EVENT_LOST, x.2)
    else (x.1.setNum d p PAGE_EVENT (w ||| 2 ^ b), x.2 ||| 2 ^ b)
  let r := sets.foldl step (c, 0)
  (r.1, r.2 &&& c.num d p PAGE_EVENT_EN)

/-- Bytes of a number, least significant first (R13). -/
def leBytes (n v : Nat) : List Byte := (List.range n).map (fun i => BitVec.ofNat 8 (v >>> (8 * i)))

/-- The number that bytes spell, least significant first. -/
def leNat (bs : List Byte) : Nat := bs.foldr (fun b n => b.toNat + 256 * n) 0

/-- The page and event bit that tell of a record dropped at a port, and its counter (R130). -/
def Chip.lostAt (c : Chip) : Port → Option (Nat × Nat × Nat × Nat)
  | .service => some (0, PORT_SVC, 3, PORT_SVC.EVENTS_LOST)
  | .inband d f => some (d, PORT_INB, 4 * c.groupNumber d f + 3, PORT_INB.EVENTS_LOST + 4 * c.groupNumber d f)
  | _ => none

/-- Give one port its copy of a record, or drop it when the port holds 64 (R117, R130). The second result says
whether it was dropped. -/
def Chip.queueRecord (c : Chip) (p : Port) (d code : Nat) (urgent : Bool) (payload : List Byte) : Chip × Bool :=
  let x := c.port p
  if 64 ≤ (x.out.filter (fun m => m.event)).length then
    (c.setPort p { x with lost := x.lost + 1 }, true)
  else
    let m : Msg := { event := true, opcode := code, tag := BitVec.ofNat 8 x.evSeq, urgent := urgent, more := false,
                     die := d, status := 0, aux := min 0xFFFF x.lost, payload := payload, at_ := c.now }
    (c.setPort p { x with out := x.out ++ [m], lost := 0, evSeq := (x.evSeq + 1) % 256 }, false)

/-- Give the ports of a list their copies of a record, in order: the ports that had to drop it. -/
def Chip.queueAll (c : Chip) (ports : List Port) (d code : Nat) (urgent : Bool) (payload : List Byte) : Chip × List Port :=
  ports.foldl (fun (x : Chip × List Port) p =>
    if x.1.routed code p then
      let r := x.1.queueRecord p d code urgent payload
      (r.1, if r.2 then x.2 ++ [p] else x.2)
    else x) (c, [])

/-- PAGE_EVENT bits are added to the record of their page that was raised at a time. -/
def addBits (now d p bits : Nat) (m : Msg) : Msg :=
  if m.event ∧ m.opcode = 0x02 ∧ m.at_ = now ∧ m.die = d ∧ leNat (m.payload.take 4) = p then
    { m with payload := leBytes 4 p ++ leBytes 4 (leNat (m.payload.drop 4) ||| bits) }
  else m

/-- A page has raised a PAGE_EVENT record in this cycle already. -/
def Chip.raisedNow (c : Chip) (d p : Nat) : Bool := decide (c.raisedAt = c.now) && c.raised.contains (pageKey d p)

/-- The page has raised its record of this cycle. -/
def Chip.noteRaised (c : Chip) (d p : Nat) : Chip :=
  { c with raisedAt := c.now, raised := pageKey d p :: (if c.raisedAt = c.now then c.raised else []) }

/-- Bits that go from 0 to 1 after the record of their cycle share that record (R128). -/
def Chip.joinRecord (c : Chip) (d p bits : Nat) : Chip :=
  (c.scope d none).foldl (fun c q =>
    let x := c.port q
    c.setPort q { x with out := x.out.map (addBits c.now d p bits) }) c

/-- Give a record to the ports in its scope. Each port that drops it counts the loss and sets its EVENT_LOST bit, which may
raise a record of its own, after the first has reached every port (R129, R130); each port's bit can go from 0 to 1 once, so
`fuel` bounds the chain. -/
def Chip.recordTo : Nat → Chip → List Port → Nat → Nat → Bool → List Byte → Chip
  | 0, c, _, _, _, _, _ => c
  | fuel + 1, c, ports, d, code, urgent, payload =>
    let r := c.queueAll ports d code urgent payload
    r.2.foldl (fun c p =>
      match c.lostAt p with
      | some (e, page, b, cnt) =>
        let q := (c.count e page cnt).setEvents e page [b]
        if q.2 = 0 then q.1
        else if q.1.raisedNow e page then q.1.joinRecord e page q.2
        else Chip.recordTo fuel (q.1.noteRaised e page) (q.1.scope e none) e 0x02 false (leBytes 4 page ++ leBytes 4 q.2)
      | none => c) r.1

/-- Raise a record on a die (R127, R129). -/
def Chip.record (c : Chip) (d code : Nat) (urgent : Bool) (payload : List Byte) : Chip :=
  Chip.recordTo 80 c (c.scope d none) d code urgent payload

/-- Sets of PAGE_EVENT bits of one page: those of one cycle share one record (R128, R152). -/
def Chip.events (c : Chip) (d p : Nat) (sets : List Nat) : Chip :=
  let r := c.setEvents d p sets
  if r.2 = 0 then r.1
  else if r.1.raisedNow d p then r.1.joinRecord d p r.2
  else (r.1.noteRaised d p).record d 0x02 false (leBytes 4 p ++ leBytes 4 r.2)

/-- A block sets one PAGE_EVENT bit (R152). -/
def Chip.event (c : Chip) (d p b : Nat) : Chip := c.events d p [b]

/-- Set a bit when a condition holds. -/
def Chip.eventIf (c : Chip) (h : Bool) (d p b : Nat) : Chip := if h then c.event d p b else c

/-! ### PAGE_STATUS -/

/-- PAGE_STATUS.READY of a page. -/
def Chip.ready (c : Chip) (d p : Nat) : Bool := c.flag d p PAGE_STATUS 0

/-- PAGE_STATUS.STATE of a page. -/
def Chip.state (c : Chip) (d p : Nat) : Nat := c.get d p PAGE_STATUS 15 8
def Chip.setState (c : Chip) (d p v : Nat) : Chip := c.put d p PAGE_STATUS 15 8 v
def Chip.setDegraded (c : Chip) (d p : Nat) (b : Bool) : Chip := c.put d p PAGE_STATUS 3 3 b.toNat
/-- BUSY of a block that carries out a command (R147); the BUSY of a pending commit is computed on reading. -/
def Chip.setBusy (c : Chip) (d p : Nat) (b : Bool) : Chip := c.put d p PAGE_STATUS 1 1 b.toNat
def Chip.faultCode (c : Chip) (d p : Nat) : Nat := c.num d p PAGE_FAULT_CODE

/-- Codes latched on a page. -/
def Chip.codesOf (c : Chip) (d p : Nat) : List Nat := KMap.getD c.codes (pageKey d p) []

/-- Put the codes of a page; PAGE_FAULT_CODE shows the most severe, a higher code being more severe (R154). -/
def Chip.setCodes (c : Chip) (d p : Nat) (l : List Nat) : Chip :=
  { c with codes := KMap.put [] c.codes (pageKey d p) l }.setNum d p PAGE_FAULT_CODE (l.foldl max 0)

/-- Latch a fault code; the more severe code stays shown (R154). -/
def Chip.latchCode (c : Chip) (d p v : Nat) : Chip := c.setCodes d p ((c.codesOf d p).filter (fun x => x ≠ v) ++ [v])

/-- Take back a fault code. -/
def Chip.unlatchCode (c : Chip) (d p v : Nat) : Chip := c.setCodes d p ((c.codesOf d p).filter (fun x => x ≠ v))

/-- SYS.READY_MAP, from the PAGE_STATUS.READY bits of the die's functions. -/
def Chip.readyMap (c : Chip) (d : Nat) : Nat :=
  let lanes := (List.range 24).foldl (fun n l => n + (c.ready d (lanePage l)).toNat * 2 ^ (8 + l)) 0
  lanes + (c.ready d TGEN).toNat * 64
    + (c.ready d PANEL_OD && c.ready d PANEL_DM && c.ready d PANEL_DT).toNat * 32
    + (c.ready d (memcPage 1)).toNat * 16 + (c.ready d (memcPage 0)).toNat * 8
    + (if d = 0 then c.get 0 SYS SYS.BOOT_STATUS 24 24 else 0) * 4
    + (c.ready d STEWARD).toNat * 2 + (c.ready d AON).toNat

/-- After a change, set READY_UP and READY_DOWN on SYS (R103), comparing READY_MAP with what it was. -/
def Chip.noteReady (old c : Chip) (d : Nat) : Chip :=
  let a := old.readyMap d
  let b := c.readyMap d
  let up := b &&& (a ^^^ b)
  let down := a &&& (a ^^^ b)
  c.events d SYS ((if up = 0 then [] else [9]) ++ (if down = 0 then [] else [10]))

/-- Set or clear PAGE_STATUS.READY (R92, R95, R103). -/
def Chip.setReady (c : Chip) (d p : Nat) (b : Bool) : Chip :=
  (Chip.noteReady c (c.put d p PAGE_STATUS 0 0 b.toNat) d)

/-- STAGE of SYS.BOOT_STATUS (R103: BOOT_DONE at stage 5, and at 6 on die 0). -/
def Chip.setStage (c : Chip) (d v : Nat) : Chip :=
  (c.put d SYS SYS.BOOT_STATUS 3 0 v).eventIf (decide (v = 5) || decide (v = 6 ∧ d = 0)) d SYS 8

/-- ERROR of SYS.BOOT_STATUS (R99, R103: BOOT_ERROR when it changes to a value that is not 0). -/
def Chip.setError (c : Chip) (d v : Nat) : Chip :=
  let old := c.get d SYS SYS.BOOT_STATUS 23 16
  (c.put d SYS SYS.BOOT_STATUS 23 16 v).eventIf (decide (v ≠ 0) && decide (v ≠ old)) d SYS 12

/-! ### Times -/

/-- Number of the line in progress of an output; between a boundary and the first line start, of the line about to begin (R68). -/
def Chip.lineNow (c : Chip) (o : Nat) : Nat := (c.out o).lineNo + (c.out o).bound.toNat

/-- The output has heard from its live stream, or starts to wait for it (R68). -/
def Chip.noteHeard (c : Chip) (o : Nat) : Chip := let x := c.out o; c.setOut o { x with heardAt := c.lineNow o }

/-- The latest boundary falls less than 2 µs ahead, by the timing of the line in progress and the lines left (R62):
`lineAt` and TGEN.POSITION.LINE give the position, R275 the lengths. -/
def Chip.timeToBoundary (c : Chip) (o : Nat) : Option Nat :=
  if c.flag o TGEN TGEN.ENTRY 31 then
    let e := modeEntry (c.get o TGEN TGEN.ENTRY 29 24)
    let x := c.out o
    let line := c.get o TGEN TGEN.POSITION 31 16
    -- position k of the line in progress, counted backwards from the boundary
    let k := if line < e.vActive then e.vActive - 1 - line else x.lines - 1 - (line - e.vActive)
    let left := (k + 1) * e.frameCycles / e.vTotal
    some (left - (c.now - x.lineAt))
  else none

/-- Less than 2 µs before the next boundary of an output (R62, R126, R150). -/
def Chip.nearBoundary (c : Chip) (o : Nat) : Bool :=
  match c.timeToBoundary o with
  | some t => decide (t < 2000)
  | none => false

end Sys2Proof.Machine
end

