-- ==== Sys2Proof/Machine/Operands.lean ====
section
/-! DEFINITION. Command messages: reading their bytes (R109, R123), judging their arguments on arrival (R110, R112, R9) and
their authority (R125). -/

namespace Sys2Proof.Machine

/-- Opcode of a command (R123). -/
def opcodeOf : Cmd → Nat
  | .regRead _ _ => 0x01 | .regWrite _ _ => 0x02 | .abort _ _ => 0x03 | .wake => 0x08 | .pkgStandby => 0x09
  | .outputMode _ _ _ _ => 0x10 | .safeExit _ _ => 0x11 | .timingSet _ _ => 0x12 | .liveSource _ _ => 0x13
  | .layerCommit _ _ => 0x14 | .tableLoad _ _ _ _ _ => 0x15 | .laneTrain _ _ => 0x20 | .lanePower _ _ => 0x21
  | .laneLoop _ _ => 0x22 | .dramConfig _ => 0x28 | .dramFreq _ _ => 0x29 | .rankSpare _ _ => 0x2A
  | .calRun _ => 0x30 | .ageScan _ => 0x31 | .marginScan _ => 0x32 | .flashRead _ _ => 0x38 | .flashWrite _ _ => 0x39
  | .fwActivate _ _ _ => 0x3A | .signatureRead _ _ => 0x40 | .logRead _ _ => 0x41 | .attest _ => 0x42

/-- The opcodes of the command set (R123). -/
def opcodes : List Nat :=
  [0x01, 0x02, 0x03, 0x08, 0x09, 0x10, 0x11, 0x12, 0x13, 0x14, 0x15, 0x20, 0x21, 0x22, 0x28, 0x29, 0x2A] ++
  [0x30, 0x31, 0x32, 0x38, 0x39, 0x3A, 0x40, 0x41, 0x42]

/-- Commands carried out by firmware (R123, marked F). -/
def isFirmware : Cmd → Bool
  | .pkgStandby | .timingSet _ _ | .liveSource _ _ | .layerCommit _ _ | .tableLoad _ _ _ _ _ | .laneTrain _ _
  | .lanePower _ _ | .laneLoop _ _ | .dramConfig _ | .dramFreq _ _ | .rankSpare _ _ | .calRun _ | .ageScan _
  | .marginScan _ | .flashRead _ _ | .flashWrite _ _ | .fwActivate _ _ _ | .attest _ => true
  | _ => false

/-- A little-endian field of a payload. -/
def fieldAt (bs : List Byte) (at_ n : Nat) : Nat := leNat ((bs.drop at_).take n)

/-- A payload as 32-bit words. -/
def wordsOf : List Byte → List Word
  | a :: b :: c :: d :: rest => BitVec.ofNat 32 (leNat [a, b, c, d]) :: wordsOf rest
  | _ => []

/-- The command of an opcode and payload; none when the opcode is reserved, the LENGTH is not one of R123, or a
reserved byte or bit is not 0 (R110). Reserved values of the numbers that `Cmd` carries are judged by `formOk`. -/
def cmdOf (op : Nat) (p : List Byte) : Option Cmd :=
  let n := p.length
  let b := fun i => fieldAt p i 1
  let w := fun i => BitVec.ofNat 32 (fieldAt p i 4)
  match op with
  | 0x01 => if n = 5 then some (.regRead (w 0) (b 4)) else none
  | 0x02 => if 8 ≤ n ∧ n % 4 = 0 then some (.regWrite (w 0) (wordsOf (p.drop 4))) else none
  | 0x03 => if n = 2 then some (.abort (b 0) (b 1)) else none
  | 0x08 => if n = 0 then some .wake else none
  | 0x09 => if n = 0 then some .pkgStandby else none
  | 0x10 => if n = 4 then some (.outputMode (b 0) (b 1) (b 2) (b 3)) else none
  | 0x11 => if n = 2 then some (.safeExit (b 0) (b 1)) else none
  | 0x12 => if n = 2 then some (.timingSet (b 0) (b 1)) else none
  | 0x13 => if n = 4 ∧ b 1 = 0 then some (.liveSource (b 0) (fieldAt p 2 2)) else none
  | 0x14 => if n = 8 ∧ fieldAt p 1 3 = 0 then some (.layerCommit (b 0) (w 4)) else none
  | 0x15 => if n = 12 ∧ b 3 = 0 then some (.tableLoad (b 0) (b 1) (b 2) (w 4) (fieldAt p 8 4)) else none
  | 0x20 => if n = 3 then some (.laneTrain (fieldAt p 0 2) (b 2)) else none
  | 0x21 => if n = 3 then some (.lanePower (fieldAt p 0 2) (b 2)) else none
  | 0x22 => if n = 3 then some (.laneLoop (fieldAt p 0 2) (b 2)) else none
  | 0x28 => if 1 ≤ n then some (.dramConfig p) else none
  | 0x29 => if n = 2 then some (.dramFreq (b 0) (b 1)) else none
  | 0x2A => if n = 2 then some (.rankSpare (b 0) (b 1)) else none
  | 0x30 => if 1 ≤ n then some (.calRun p) else none
  | 0x31 => if 1 ≤ n then some (.ageScan p) else none
  | 0x32 => if 1 ≤ n then some (.marginScan p) else none
  | 0x38 => if n = 5 then some (.flashRead (w 0) (b 4)) else none
  | 0x39 => if 4 ≤ n then some (.flashWrite (w 0) (p.drop 4)) else none
  | 0x3A =>
    if n = 1 ∧ b 0 ≠ 2 then some (.fwActivate (b 0) 0 0)
    else if n = 12 ∧ b 0 = 2 ∧ fieldAt p 1 3 = 0 then some (.fwActivate 2 (w 4) (fieldAt p 8 4)) else none
  | 0x40 => if n = 2 then some (.signatureRead (b 0) (b 1)) else none
  | 0x41 => if n = 5 then some (.logRead (w 0) (b 4)) else none
  | 0x42 => if n = 32 then some (.attest p) else none
  | _ => none

/-- A command message as it reaches a port, checked for its form (R109, R110): opcode, tag, die, limit, and the
command when every field of the header and the payload is allowed. -/
structure Arrival where
  port   : Port
  opcode : Nat
  tag    : Byte
  die    : Nat
  limit  : Nat
  cmd    : Option Cmd
  deriving DecidableEq, Repr

/-- Read the bytes of a message that a port delivers. The message is `8 + LENGTH` bytes; fewer leave LENGTH wrong, so
the command is refused (R110). DESIGN CHOICE (assumption log 96): a command whose FLAGS carry MORE or URGENT, which R109 gives
completions and records only, is refused ARG as one with a reserved FLAGS bit is. -/
def readMessage (p : Port) (bs : List Byte) : Arrival :=
  let b := fun i => fieldAt bs i 1
  let good := decide (b 2 = 0) && decide (b 5 = 0) && decide (b 3 ≤ 56) && decide (8 + b 3 ≤ bs.length)
  { port := p, opcode := b 0, tag := bs.getD 1 0, die := b 4, limit := fieldAt bs 6 2,
    cmd := if good then cmdOf (b 0) ((bs.drop 8).take (b 3)) else none }

/-- The message of a command that a row of the table names with its header. -/
def Hdr.message (h : Hdr) (cmd : Cmd) : Arrival :=
  { port := h.port, opcode := opcodeOf cmd, tag := h.tag, die := h.die, limit := h.limit, cmd := some cmd }

/-! ### Addresses (R132 to R138) -/

/-- Where a control address points within a die window. -/
inductive Place where
  /-- register page and offset -/
  | reg (page offset : Nat)
  /-- basket word, by control address -/
  | word (address : Nat)
  /-- bit-set and bit-clear alias of a basket word -/
  | setAlias (address : Nat)
  | clearAlias (address : Nat)
  | unmapped
  deriving DecidableEq, Repr

/-- The region of an offset in the window of die `d` (R133, R135). -/
def place (d x : Nat) : Place :=
  if x < 0x111000 then (if (pageKind (x / 0x1000)).isSome then .reg (x / 0x1000) (x % 0x1000) else .unmapped)
  else if x < 0x400000 then .unmapped
  else if x < 0x600000 then .setAlias (d * 0x1000000 + x + 0x400000)
  else if x < 0x800000 then .clearAlias (d * 0x1000000 + x + 0x200000)
  else .word (d * 0x1000000 + x)

/-- Basket number of a basket word address (R133). -/
def basketOf (a : Nat) : Nat := (a % 0x1000000 - 0x800000) / 0x40000

/-- The offsets that a REG_READ or REG_WRITE of `n` words covers, in ascending order. -/
def wordAddrs (a n : Nat) : List Nat := (List.range n).map (fun i => a + 4 * i)

/-- An address and count allowed for REG_READ and REG_WRITE (R13, R124, R134, R138): aligned, within one 4 KiB unit,
mapped, in the window of a die of the member or in the broadcast window. -/
def addrOk (m : Member) (a n : Nat) : Bool :=
  decide (a % 4 = 0) && decide (a % 0x1000 + 4 * n ≤ 0x1000) &&
    (decide (a / 0x1000000 = 8) || decide (a / 0x1000000 < dieCount m)) &&
    decide (place 0 (a % 0x1000000) ≠ .unmapped)

/-- CAL_RUN payload (R397): OUTPUT, KINDS, LANES, a reserved byte. -/
def calArgsOk (p : List Byte) : Bool :=
  decide (p.length = 4) && decide (fieldAt p 1 1 ≠ 0) && decide (fieldAt p 1 1 < 8) && decide (fieldAt p 3 1 = 0) &&
    (!(fieldAt p 1 1).testBit 2 || decide (fieldAt p 2 1 ≠ 0))

/-- AGE_SCAN payload (R407): OUTPUT, WHAT. -/
def ageArgsOk (p : List Byte) : Bool :=
  decide (p.length = 2) && decide (fieldAt p 1 1 ≠ 0) && decide (fieldAt p 1 1 < 8)

/-- MARGIN_SCAN payload (R411): OUTPUT, TARGET, CHANNELS, RANKS. -/
def marginArgsOk (p : List Byte) : Bool :=
  decide (p.length = 4) && decide (fieldAt p 1 1 ≤ 1) && decide (fieldAt p 2 1 ≠ 0) && decide (fieldAt p 2 1 < 4) &&
    decide (fieldAt p 3 1 < 8)

/-- The payload of a command carries no reserved value (R110, R123 and the chapters that own the payloads). -/
def formOk : Cmd → Bool
  | .regRead _ n => decide (1 ≤ n ∧ n ≤ 14)
  | .regWrite _ ws => decide (1 ≤ ws.length ∧ ws.length ≤ 13)
  | .abort scope _ => decide (scope ≤ 1)
  | .outputMode _ m f w => decide (2 ≤ m ∧ m ≤ 6) && decide (f ≤ 1) && (decide (m ≠ 6) || decide (w ≠ 0))
  | .safeExit _ f => decide (f ≤ 1)
  | .timingSet _ n => decide (n < 64)
  | .liveSource _ st => decide (st < 4096)
  | .tableLoad t b s _ _ => decide (1 ≤ t ∧ t ≤ 5) && (if t = 1 then decide (b ≤ 3) else decide (b = 0)) && decide (s ≤ 1)
  | .laneTrain _ ceil => decide (ceil ≤ 4)
  | .lanePower _ x => decide (x ≤ 1)
  | .laneLoop _ x => decide (x ≤ 3)
  | .dramConfig p =>
    let ranks := fieldAt p 1 1
    decide (p.length ≤ 56) && decide (1 ≤ p.length) && decide (fieldAt p 0 1 ≤ 1) &&
      decide (ranks % 4 = 1 ∨ ranks % 4 = 2) && decide (ranks < 8) &&
      decide (fieldAt p 2 1 ≤ 3) && decide (fieldAt p 3 1 ≤ 1) && (p.drop 4).all (fun x => x = 0)
  | .dramFreq mask t => decide (1 ≤ mask ∧ mask ≤ 3) && decide (t ≤ 1)
  | .rankSpare ch r => decide (ch ≤ 1) && decide (r ≤ 1)
  | .calRun p => calArgsOk p
  | .ageScan p => ageArgsOk p
  | .marginScan p => marginArgsOk p
  | .flashRead _ n => decide (1 ≤ n ∧ n ≤ 56)
  | .flashWrite _ ds => decide (ds.length ≤ 52)
  | .fwActivate s _ _ => decide (s ≤ 2)
  | .signatureRead _ w => decide (w ≤ 1)
  | .logRead _ n => decide (1 ≤ n ∧ n ≤ 3)
  | .attest n => decide (n.length = 32)
  | .wake | .pkgStandby | .layerCommit _ _ => true

/-- The output that an output command names. -/
def cmdOutput : Cmd → Option Nat
  | .outputMode o _ _ _ | .safeExit o _ | .timingSet o _ | .liveSource o _ | .layerCommit o _ => some o
  | .calRun p | .ageScan p | .marginScan p => some (fieldAt p 0 1)
  | _ => none

/-- The global number of the lane that a command names. -/
def cmdLane : Cmd → Option Nat
  | .laneTrain l _ | .lanePower l _ | .laneLoop l _ => some l
  | _ => none

/-- What a command names is there, and its DIE is the one that holds it (R8, R9, R112, R124, R134). -/
def namesOk (c : Chip) (die : Nat) (cmd : Cmd) : Bool :=
  (match cmdOutput cmd with | some o => decide (die = o) && c.formed o | none => true) &&
  (match cmdLane cmd with | some l => decide (l < 24 * dieCount c.member) && decide (die = l / 24) | none => true) &&
  match cmd with
  | .regRead a n => addrOk c.member a.toNat n && decide (die = if a.toNat / 0x1000000 = 8 then 0 else a.toNat / 0x1000000)
  | .regWrite a ws => addrOk c.member a.toNat ws.length && decide (die = if a.toNat / 0x1000000 = 8 then 0 else a.toNat / 0x1000000)
  | .wake | .pkgStandby | .flashRead _ _ | .fwActivate _ _ _ | .attest _ => decide (die = 0)
  | .liveSource _ st => decide (st < layerCount c.member)
  | .tableLoad _ _ s a n =>
    decide (s = 0) ||
      (decide (a.toNat % 4 = 0) && decide (a.toNat / 0x1000000 = die) && decide (0x800000 ≤ a.toNat % 0x1000000) &&
        decide (a.toNat % 0x1000000 + n ≤ 0x1000000))
  | .flashWrite a ds =>
    decide (die = 0) && (if ds = [] then decide (a.toNat % 0x1000 = 0) else decide (a.toNat % 256 + ds.length ≤ 256))
  | .signatureRead o w => if w = 1 then decide (die = 0) else decide (die = o) && c.formed o
  | _ => true

/-- The authority matrix (R125), by opcode: REG_READ, ABORT, SIGNATURE_READ and LOG_READ; REG_WRITE, OUTPUT_MODE, LIVE_SOURCE,
LAYER_COMMIT and ATTEST; WAKE and SAFE_EXIT; and the others. -/
def authorisedOp (c : Chip) (p : Port) (op : Nat) : Bool :=
  if [0x01, 0x03, 0x40, 0x41].contains op then true
  else if [0x02, 0x10, 0x13, 0x14, 0x42].contains op then decide (OPERATE ≤ c.portClass p)
  else if [0x08, 0x11].contains op then decide (p = .service)
  else decide (SERVICE ≤ c.portClass p)

/-- The port's class may issue the command (R125). -/
def authorised (c : Chip) (p : Port) (cmd : Cmd) : Bool := authorisedOp c p (opcodeOf cmd)

/-- The lowest non-zero status of a list, 0 when there is none (R21). -/
def lowest (l : List Nat) : Nat := l.foldl (fun a b => if a = 0 then b else if b = 0 then a else min a b) 0

/-- The status of the checks that the die of the port makes on arrival (R110): the lowest found, so a listed opcode that the
port may not issue is AUTH whatever else is wrong with the message (R21). -/
def arrivalStatus (c : Chip) (a : Arrival) : Nat :=
  lowest [if a.die < dieCount c.member ∧ a.cmd.any formOk then OK else ARG,
    if !opcodes.contains a.opcode || authorisedOp c a.port a.opcode then OK else AUTH]

end Sys2Proof.Machine
end

