-- ==== Sys2Proof/Machine/Ops.lean ====
section
/-! DEFINITION. Shared operations: the byte memories, the log, latching a fault code, changing an output's mode,
completing and delivering commands, discarding what a lost port held. -/

namespace Sys2Proof.Machine

/-- Change everything but the byte memories. -/
def State.up (s : State) (f : Chip → Chip) : State := { s with chip := f s.chip }

/-- Do something when a condition holds. -/
def State.when (s : State) (h : Bool) (f : State → State) : State := if h then f s else s
def Chip.when (c : Chip) (h : Bool) (f : Chip → Chip) : Chip := if h then f c else c

/-- Do something for each item of a list, in order. -/
def State.each {α : Type} (s : State) (l : List α) (f : State → α → State) : State := l.foldl f s
def Chip.each {α : Type} (c : Chip) (l : List α) (f : Chip → α → Chip) : Chip := l.foldl f c

/-! ### Byte memories -/

/-- A byte of the boot flash; an erased byte reads 0xFF, and a byte left unspecified is free (R101, R124). -/
def Mem.flashByte (m : Mem) (fresh a : Nat) : Byte :=
  if m.flashOpen.contains a then Config.freeByte (fresh + a) else KMap.getD m.flash a 0xFF

/-- Bytes of the flash. -/
def Mem.flashBytes (m : Mem) (fresh a n : Nat) : List Byte := (List.range n).map (fun i => m.flashByte fresh (a + i))

/-- Write one byte of the flash. -/
def Mem.setFlash (m : Mem) (a : Nat) (b : Byte) : Mem :=
  { m with flash := KMap.put 0xFF m.flash a b, flashOpen := m.flashOpen.filter (fun x => x ≠ a) }

/-- A basket word, by control address (R133). -/
def Mem.word (m : Mem) (a : Nat) : Word := KMap.getD m.baskets a 0

/-- Write a basket word. -/
def Mem.setWord (m : Mem) (a : Nat) (w : Word) : Mem := { m with baskets := KMap.put 0 m.baskets a w }

/-- Control address of a byte offset in a basket of a die (R133). -/
def basketAddr (d b x : Nat) : Nat := d * 0x1000000 + 0x800000 + b * 0x40000 + x

/-- A byte of the baskets, by control address. -/
def Mem.basketByte (m : Mem) (a : Nat) : Byte := BitVec.ofNat 8 ((m.word (a / 4 * 4)).toNat >>> (8 * (a % 4)))
def Mem.basketBytes (m : Mem) (a n : Nat) : List Byte := (List.range n).map (fun i => m.basketByte (a + i))

/-- Write bytes into the baskets, from a word address, a word at a time; the last word is filled with zeros. -/
def Mem.setBasketBytes (m : Mem) : Nat → List Byte → Mem
  | _, [] => m
  | a, x :: y :: z :: w :: rest => (m.setWord a (BitVec.ofNat 32 (leNat [x, y, z, w]))).setBasketBytes (a + 4) rest
  | a, last => m.setWord a (BitVec.ofNat 32 (leNat last))

/-- Key of a hamper slot of a die. -/
def slotKey (d slot : Nat) : Nat := d * 2 ^ 32 + slot

/-- The used bytes of a slot; a slot that nothing has written holds unspecified bytes. -/
def Mem.slot (m : Mem) (d slot : Nat) : List Byte := KMap.getD m.dram (slotKey d slot) []

/-- Write the used granules of a slot (R329). -/
def Mem.setSlot (m : Mem) (d slot : Nat) (bs : List Byte) : Mem :=
  { m with dram := KMap.put [] m.dram (slotKey d slot) bs }

/-- Drop what the frame memory of a die's slots held, where a test on the slot number says so. -/
def Mem.dropSlots (m : Mem) (d : Nat) (p : Nat → Bool) : Mem :=
  { m with dram := m.dram.filter (fun kv => !(decide (kv.1 / 2 ^ 32 = d) && p (kv.1 % 2 ^ 32))) }

def State.mapMem (s : State) (f : Mem → Mem) : State := { s with mem := f s.mem }

/-- Writing a basket word makes its check bits right (R381). -/
def Chip.wordWritten (c : Chip) (a : Nat) : Chip :=
  { c with badWords := c.badWords.filter (fun x => x ≠ a), fixups := c.fixups.filter (fun x => x ≠ a) }

def State.setWord (s : State) (a : Nat) (w : Word) : State := (s.mapMem (fun m => m.setWord a w)).up fun c => c.wordWritten a

/-- Write bytes into the baskets from a word address. -/
def State.setBytes (s : State) (a : Nat) (bs : List Byte) : State :=
  (s.mapMem (fun m => m.setBasketBytes a bs)).up fun c =>
    (List.range ((bs.length + 3) / 4)).foldl (fun c i => c.wordWritten (a + 4 * i)) c

/-- Owner of a basket (R382). -/
def Chip.owner (c : Chip) (d b : Nat) : Nat := c.get d BASKET (BASKET.OWNER + 4 * (b / 8)) (4 * (b % 8) + 3) (4 * (b % 8))

/-- A block, named by its owner code, owns a basket of the die. -/
def Chip.ownsBasket (c : Chip) (d code : Nat) : Bool := (List.range 32).any (fun b => c.owner d b = code)

/-- Place of a master, by its code of R382, in the order in which a basket serves those that want it in one cycle (R386). -/
def basketRank (m : Nat) : Nat := if m = 0 then 0 else if m ≤ 1 then 3 else if m ≤ 4 then 1 else if m = 5 then 2 else 4

/-- A master wants a single-port basket in this cycle (R386): it loses a cycle to each master before it, and each master after it
loses one to it. B0 and B1 have a port for each of their masters. -/
def Chip.wantBasket (c : Chip) (m d b : Nat) : Chip :=
  let w := KMap.getD c.baskets (d * 32 + b) { at_ := 0, masters := [] }
  let there := if w.at_ = c.now then w.masters else []
  if b < 2 ∨ there.contains m then c
  else
    let ahead := there.filter (fun x => decide (basketRank x < basketRank m))
    let behind := there.filter (fun x => decide (basketRank m < basketRank x))
    let c := c.countBy d BASKET (BASKET.CONFLICT + 4 * m) ahead.length
    let c := behind.foldl (fun c x => c.count d BASKET (BASKET.CONFLICT + 4 * x)) c
    { c with baskets := KMap.put { at_ := 0, masters := [] } c.baskets (d * 32 + b) { at_ := c.now, masters := m :: there } }

/-- A master wants the baskets in which words lie, by their control addresses. -/
def Chip.wantWords (c : Chip) (m d : Nat) (as : List Nat) : Chip := as.foldl (fun c a => c.wantBasket m d (basketOf a)) c

/-- A basket word is read with its check (R381): `upset` says what the check finds beside what it found before. The result is
the word, or none when it is uncorrectable. -/
def Chip.checkWord (c : Chip) (d a : Nat) (upset : Upset) : Chip × Bool :=
  if c.badWords.contains a ∨ upset = .twoBits then
    let c := ((c.count d BASKET BASKET.UE_COUNT).setNum d BASKET BASKET.UE_ADDR a).event d BASKET 2
    ({ c.wordWritten a with badWords := a :: (c.badWords.filter (fun x => x ≠ a)) }, false)
  else if c.fixups.contains a ∨ upset = .oneBit then
    let c := (c.count d BASKET BASKET.CE_COUNT).event d BASKET 1
    ({ c with fixups := a :: (c.fixups.filter (fun x => x ≠ a)) }, true)
  else (c, true)

/-- Words of the baskets read in ascending order; whether every one could be read. -/
def Chip.checkWords (c : Chip) (d : Nat) (as : List Nat) : Chip × Bool :=
  as.foldl (fun x a => let r := x.1.checkWord d a .none; (r.1, x.2 && r.2)) (c, true)

/-! ### The log (R456, R457) -/

/-- µs since POR_N release, from the package cycle counter. -/
def Chip.logTime (c : Chip) : Nat := (c.now - c.cycleAt) / 1000

/-- Write a log entry of 16 bytes on a die and advance LOG_HEAD; LOG_WRAP sets when an entry is overwritten. -/
def State.log (s : State) (d type page code arg : Nat) : State :=
  let c := s.chip
  let n := c.num d FAULT FAULT.LOG_HEAD
  let o := c.leadOf d
  let a := basketAddr d 1 (0x10000 + 16 * (n % 12288))
  let bytes := leBytes 6 c.logTime ++ leBytes 1 type ++ leBytes 1 o ++ leBytes 2 page ++ leBytes 1 code ++ leBytes 1 arg ++
    leBytes 4 (c.num o TGEN TGEN.FRAME_SEQ)
  (s.setBytes a bytes).up fun c =>
    (c.setNum d FAULT FAULT.LOG_HEAD ((n + 1) % 2 ^ 32)).eventIf (decide (12288 ≤ n)) d FAULT 2

/-- A block latches a fault code: the more severe code stays (R154), and a BLOCK entry is written (R457). A code that is
latched already stays as it is. -/
def State.latch (s : State) (d p code : Nat) : State :=
  if (s.chip.codesOf d p).contains code then s else (s.up fun c => c.latchCode d p code).log d 0x05 p code 0

/-- Source page and code of a fatal cause, by FAULT code (R446). -/
def fatalSource (code : Nat) : Nat × Nat :=
  if code = 1 then (STEWARD, 1) else if code = 2 then (CODEC, 1) else (PWR, code - 1)

/-- A fatal cause comes about: its source page latches its code, and the FAULT page is to take it (R446). -/
def State.fatal (s : State) (d code : Nat) : State :=
  let src := fatalSource code
  (s.latch d src.1 src.2).up fun c =>
    if bit (c.reg d FAULT FAULT.LATCHED) (code - 1) ∨ c.fatals.contains (d, code) then c else { c with fatals := c.fatals ++ [(d, code)] }

/-! ### Modes (R58, R78, R290) -/

/-- STATE of the SCAN page in a mode. -/
def scanState (mode : Nat) : Nat :=
  if mode = LIVE then 0x02 else if mode = COMPOSE then 0x03 else if mode = HOLD ∨ mode = MEASURE then 0x04
  else if mode = SAFE then 0x05 else 0x01

/-- Put an output into a mode on every die of its gang (R62), with the MODE_CHANGE event, its record and its log entry
(R78, R457). `first` is the first frame in the new mode. -/
def State.changeMode (s : State) (o old new cause first : Nat) : State :=
  let s := s.up fun c =>
    let c := c.each (c.gang o) fun c e => (c.put e TGEN TGEN.OUT_STATE 2 0 new).setState e SCAN (scanState new)
    (c.event o TGEN 0).record o 0x01 false (leBytes 1 o ++ leBytes 1 old ++ leBytes 1 new ++ leBytes 1 cause ++ leBytes 4 first)
  s.log o 0x03 TGEN (old * 16 + new) cause

/-- Die 0 is in recovery (R100). -/
def Chip.recovery (c : Chip) : Bool := c.get 0 SYS SYS.BOOT_STATUS 3 0 = 7

/-- FAULT_N is driven low (R131). -/
def Chip.faultN (c : Chip) : Bool :=
  decide (c.power ≠ .off) &&
    (c.outputs.any (fun o => c.mode o = SAFE) || c.recovery || c.dies'.any (fun d => c.num d FAULT FAULT.LATCHED ≠ 0))

/-- EVENT_N is driven low (R131). -/
def Chip.eventN (c : Chip) : Bool := (c.port .service).out.any (fun m => m.event)

/-! ### Completing commands (R113, R121) -/

/-- The parts of a completion: full parts of 56 bytes with MORE = 1 and STATUS 0, then the last part (R113). -/
def completionParts (fuel : Nat) (op : Nat) (tag : Byte) (die status detail : Nat) (payload : List Byte) : List Msg :=
  let part := fun more st dt bs =>
    ({ event := false, opcode := op, tag := tag, urgent := false, more := more, die := die, status := st, aux := dt,
       payload := bs } : Msg)
  match fuel with
  | 0 => [part false status detail payload]
  | f + 1 =>
    if payload.length ≤ 56 then [part false status detail payload]
    else part true 0 0 (payload.take 56) :: completionParts f op tag die status detail (payload.drop 56)

/-- Put a completion into its port's outgoing queue. -/
def Chip.answer (c : Chip) (p : Port) (op : Nat) (tag : Byte) (die status detail : Nat) (payload : List Byte) : Chip :=
  (completionParts payload.length op tag die status detail payload).foldl (fun c m => c.send p m) c

/-- A command leaves the commands in flight, and its completion is queued unless its port was lost. -/
def Chip.reply (c : Chip) (r : Req) (status detail : Nat) (payload : List Byte) : Chip :=
  let c := { c with inflight := c.inflight.filter (fun x => x.id ≠ r.id), waiting := c.waiting.filter (fun x => x.id ≠ r.id) }
  if r.orphan then c else c.answer r.port r.opcode r.tag r.die status detail payload

/-- A command completes at its die. A completion that cannot return, because the die has ceased to answer (R146), is lost: the
command stays in flight with nothing left to do, until its time limit. -/
def Chip.finish (c : Chip) (r : Req) (status detail : Nat) (payload : List Byte) : Chip :=
  if c.answers (portDie r.port) r.die then c.reply r status detail payload
  else { c with inflight := c.inflight.map (fun x => if x.id = r.id then { x with cmd := .wake, started := true, pnr := true } else x) }

/-- A command completes with a status and nothing else. -/
def Chip.done (c : Chip) (r : Req) (status : Nat) : Chip := c.finish r status 0 []

def State.finish (s : State) (r : Req) (status detail : Nat) (payload : List Byte) : State :=
  s.up fun c => c.finish r status detail payload
def State.done (s : State) (r : Req) (status : Nat) : State := s.finish r status 0 []

/-- Commands in flight that meet a test. -/
def Chip.reqs (c : Chip) (p : Req → Bool) : List Req := c.inflight.filter p

/-- Complete every command in flight that meets a test, with one status. -/
def Chip.finishAll (c : Chip) (p : Req → Bool) (status detail : Nat) : Chip :=
  (c.reqs p).foldl (fun c r => c.finish r status detail []) c

/-- The same, with OK and a payload. -/
def Chip.finishAllWith (c : Chip) (p : Req → Bool) (payload : List Byte) : Chip :=
  (c.reqs p).foldl (fun c r => c.finish r OK 0 payload) c

/-- Change a command in flight. -/
def Chip.setReq (c : Chip) (r : Req) : Chip :=
  { c with inflight := c.inflight.map (fun x => if x.id = r.id then r else x) }

/-! ### Delivering messages (R111, R113, R117) -/

/-- The oldest outgoing message of a port has been delivered: it leaves the queue; the last part of a completion frees
its tag and its credit. -/
def Chip.delivered (c : Chip) (p : Port) : Chip :=
  let x := c.port p
  match x.out with
  | [] => c
  | m :: rest =>
    c.setPort p { x with out := rest,
                         tags := if m.event || m.more then x.tags else x.tags.filter (fun t => t ≠ m.tag) }

/-- The completion of a tag that was queued last completes ABORTED instead, with no payload (R217). -/
def Chip.retract (c : Chip) (p : Port) (tag : Byte) : Chip :=
  let x := c.port p
  let rec turn : List Msg → List Msg
    | [] => []
    | m :: l => if m.tag = tag ∧ !m.event then { m with status := ABORTED, aux := 0, payload := [] } :: l else m :: turn l
  c.setPort p { x with out := (turn x.out.reverse).reverse }

/-- Bytes of an outgoing message (R109). -/
def Msg.bytes (m : Msg) : List Byte :=
  [BitVec.ofNat 8 m.opcode, m.tag,
   BitVec.ofNat 8 ((if m.event then 2 else 1) + (if m.more then 4 else 0) + (if m.urgent then 8 else 0)),
   BitVec.ofNat 8 m.payload.length, BitVec.ofNat 8 m.die, BitVec.ofNat 8 m.status] ++ leBytes 2 m.aux ++ m.payload

/-- What a lost in-band port held (R121): its queue is discarded, its tags and credits are free again, and the
completions of its commands will be discarded. The number of its group gives the LINK_LOST bit. DESIGN CHOICE (assumption log 98): its
event sequence number and its count of lost records begin at 0 again. -/
def Chip.losePort (c : Chip) (d f : Nat) : Chip :=
  let c := c.setPort (.inband d f) {}
  let orphan := fun (r : Req) => if r.port = .inband d f then { r with orphan := true } else r
  { c with inflight := c.inflight.map orphan, waiting := c.waiting.map orphan }

/-- A command is discarded on arrival: DISCARD_COUNT adds 1 and an event bit sets (R111, R117, R119). The test and
steward ports have no such register. -/
def Chip.discard (c : Chip) (p : Port) (svcBit inbBit : Nat) : Chip :=
  match p with
  | .service => (c.count 0 PORT_SVC PORT_SVC.DISCARD_COUNT).event 0 PORT_SVC svcBit
  | .inband d f =>
    (c.count d PORT_INB (PORT_INB.DISCARD_COUNT + 4 * c.groupNumber d f)).event d PORT_INB (4 * c.groupNumber d f + inbBit)
  | _ => c

/-- What the latest step that sent anything sent on a lane, or on the group whose lowest lane it is. -/
def Chip.wire (c : Chip) (d l : Nat) : List Sym := KMap.getD c.wires (d * 24 + l) []

/-- Symbols go out on a lane or group. -/
def Chip.sendOn (c : Chip) (d l : Nat) (syms : List Sym) : Chip := { c with wires := KMap.put [] c.wires (d * 24 + l) syms }

/-- Symbols follow those that this step has sent already. -/
def Chip.sendMore (c : Chip) (d l : Nat) (syms : List Sym) : Chip := c.sendOn d l (c.wire d l ++ syms)

/-- Lane map by which a group receives (R169). -/
def Chip.rxMap (c : Chip) (d f : Nat) : Nat := KMap.getD c.rxMaps (d * 8 + f) 0
def Chip.setRxMap (c : Chip) (d f v : Nat) : Chip := { c with rxMaps := KMap.put 0 c.rxMaps (d * 8 + f) v }

/-- Lane map by which a group's reverse traffic is striped: the one of GROUP_LMAP (R169, R171). -/
def Chip.txMap (c : Chip) (d f : Nat) : Nat := c.get d SLINK (SLINK.GROUP_LMAP + 4 * c.groupNumber d f) 7 0

/-- PAGE_STATUS.READY of PORT_INB (R92). DEDUCED (assumption log 83): the page of several ports is READY while one of its groups is. -/
def Chip.noteInband (c : Chip) (d : Nat) : Chip := c.setReady d PORT_INB (decide (c.get d SLINK SLINK.GROUP_READY 7 0 ≠ 0))

/-- A group leaves READY (R172, R121): its in-band port is lost, LINK_LOST sets, and its READY bits and lane map clear.
Loss of the live stream is in Machine/Lanes.lean. -/
def Chip.groupDown (c : Chip) (d f : Nat) : Chip :=
  let g := c.groupNumber d f
  if c.groupReady d g then
    let c := (c.put d SLINK SLINK.GROUP_READY g g 0).put d SLINK SLINK.GROUP_READY (8 + g) (8 + g) 0
    let c := c.setNum d SLINK (SLINK.GROUP_LMAP + 4 * g) 0
    let c := c.setDegraded d SLINK (decide (c.get d SLINK SLINK.GROUP_READY 15 8 ≠ 0))
    let c : Chip := { c with carried := (c.carried.map (fun kv => (kv.1, kv.2.filter (fun x => x ≠ d * 8 + f)))).filter (fun kv => kv.2 ≠ []) }
    ((((c.losePort d f).setRxMap d f 0).sendOn d f []).noteInband d).event d PORT_INB (4 * g + 2)
  else c

/-! ### Members -/

/-- Answer with a next state when the event names a die that the member has; no part of the block sees any other. -/
def onDie (s : State) (d : Nat) (f : State → State) : Host.Outcome State Fault Refusal :=
  if d < dieCount s.chip.member then .next (f s) else .fault .noSuchUnit

/-- As `onDie`, for a lane of a die. -/
def onLane (s : State) (d l : Nat) (f : State → State) : Host.Outcome State Fault Refusal :=
  if d < dieCount s.chip.member ∧ l < 24 then .next (f s) else .fault .noSuchUnit

/-- As `onDie`, for a channel of a die. -/
def onChannel (s : State) (d ch : Nat) (f : State → State) : Host.Outcome State Fault Refusal :=
  if d < dieCount s.chip.member ∧ ch < 2 then .next (f s) else .fault .noSuchUnit

/-- As `onDie`, for a stream lane group, by its number. -/
def onGroup (s : State) (d g : Nat) (f : State → Nat → State) : Host.Outcome State Fault Refusal :=
  if d < dieCount s.chip.member then
    match (s.chip.groups d)[g]? with
    | some first => .next (f s first)
    | none => .fault .noSuchUnit
  else .fault .noSuchUnit

/-- As `onDie`, for a driver position of a chain. -/
def onDriver (s : State) (d k p : Nat) (f : State → State) : Host.Outcome State Fault Refusal :=
  if d < dieCount s.chip.member ∧ k < 16 ∧ p < 8 then .next (f s) else .fault .noSuchUnit

/-- As `onDie`, for an output that the member can have. An output that is not formed sees no event, so nothing
changes. -/
def onOutput (s : State) (o : Nat) (f : State → State) : Host.Outcome State Fault Refusal :=
  if o < dieCount s.chip.member then .next (if s.chip.formed o then f s else s) else .fault .noSuchUnit

end Sys2Proof.Machine
end

