-- ==== Sys2Proof/Machine/Lanes.lean ====
section
/-! DEFINITION. Lanes (R188 to R218): the trailhead's states and failures, ceilings and caps, the figure of merit,
loops, the lane commands, and the training ordered sets of stream lanes (R163 to R167). -/

namespace Sys2Proof.Machine

/-! State codes of R190. -/
abbrev laneOFF : Nat := 0
abbrev lanePARKED : Nat := 1
abbrev laneLOCK : Nat := 2
abbrev laneCONFIRM : Nat := 3
abbrev laneSTEP : Nat := 4
abbrev laneREADY : Nat := 5
abbrev laneDOWN : Nat := 6
abbrev laneLOOP : Nat := 7

def Chip.lstate (c : Chip) (d l : Nat) : Nat := c.get d (lanePage l) LANE.STATUS 7 0
def Chip.lrate (c : Chip) (d l : Nat) : Nat := c.get d (lanePage l) LANE.STATUS 18 16
def Chip.lput (c : Chip) (d l o hi lo v : Nat) : Chip := c.put d (lanePage l) o hi lo v
def Chip.lget (c : Chip) (d l o hi lo : Nat) : Nat := c.get d (lanePage l) o hi lo
def Chip.levent (c : Chip) (d l b : Nat) : Chip := c.event d (lanePage l) b
def Chip.isReady (c : Chip) (d l : Nat) : Bool := c.lstate d l = laneREADY
/-- In a state of an attempt. -/
def Chip.training (c : Chip) (d l : Nat) : Bool :=
  c.lstate d l = laneLOCK || c.lstate d l = laneCONFIRM || c.lstate d l = laneSTEP

/-- A DRV_CMD ends with a status (R321). -/
def Chip.endDrv (c : Chip) (d status : Nat) : Chip :=
  let y := c.die d
  ((c.setDie d { y with drv := none }).put d DLINK DLINK.DRV_RESULT 2 0 status).event d DLINK 5

/-- A lane is no longer READY: a DRV_CMD to its chain ends with STATUS 5 (R321, R327). -/
def Chip.drvLost (c : Chip) (d l : Nat) : Chip :=
  if (c.die d).drv.any (fun x => x.lane + 8 = l) then c.endDrv d 5 else c

/-- STATUS.FAILS: failures in a row at the present rate (R193). -/
def Chip.showFails (c : Chip) (d l : Nat) : Chip :=
  let x := c.lane d l
  c.lput d l LANE.STATUS 10 8 (if x.failRate = c.lrate d l then x.fails else 0)

/-- Failures in a row of the attempt, at a rate code. -/
def Chip.setFails (c : Chip) (d l n r : Nat) : Chip :=
  let x := c.lane d l
  (c.setLane d l { x with fails := n, failRate := r }).showFails d l

/-- The rate in use (STATUS.RATE). Below 28 Gbit/s no FOM is measured and FOM reads 0 (R202). -/
def Chip.setRate (c : Chip) (d l r : Nat) : Chip :=
  let c := (c.lput d l LANE.STATUS 18 16 r).showFails d l
  if r < 3 then c.lput d l LANE.FOM 7 0 0 else c

/-- Keep what R217 needs of a lane as it was at the beginning of this core cycle. -/
def Chip.snapLane (c : Chip) (d l : Nat) : Chip :=
  let x := c.lane d l
  if x.snap.any (fun s => s.at_ = c.now) then c
  else c.setLane d l { x with snap := some { at_ := c.now, state := c.lstate d l, rate := c.lrate d l, fomBad := x.fomBad,
                                             limits := c.reg d (lanePage l) LANE.FOM_LIMITS, eq := c.reg d (lanePage l) LANE.EQ_NOW,
                                             taps := x.taps, back := false, trained := [] } }

/-- What was kept of a lane in this core cycle. -/
def Chip.snapOf (c : Chip) (d l : Nat) : Option LaneSnap := (c.lane d l).snap.filter (fun s => decide (s.at_ = c.now))

/-- Put a lane into a state: STATUS.STATE, PAGE_STATUS.STATE and READY, and CTRL.POWER (R190). -/
def Chip.setLaneState (c : Chip) (d l v : Nat) : Chip :=
  let c := if c.isReady d l ∧ v ≠ laneREADY then c.drvLost d l else c
  let c := (c.lput d l LANE.STATUS 7 0 v).setState d (lanePage l) v
  let c := c.lput d l LANE.CTRL 0 0 (decide (v ≠ laneOFF)).toNat
  let c := if v = laneOFF ∨ v = lanePARKED then c.setRate d l 0 else c
  if c.ready d (lanePage l) = decide (v = laneREADY) then c else c.setReady d (lanePage l) (decide (v = laneREADY))

/-- Effective ceiling (R196): the lowest of CFG, PLAN, WORK and the group cap. -/
def Chip.effCeiling (c : Chip) (d l : Nat) : Nat :=
  min (min (c.lget d l LANE.CEILING 2 0) (c.lget d l LANE.CEILING 10 8)) (min (c.lget d l LANE.CEILING 18 16) (c.lane d l).cap)

/-- PAGE_STATUS.DEGRADED: WORK is below the lower of CFG and PLAN (R196). -/
def Chip.noteCeiling (c : Chip) (d l : Nat) : Chip :=
  c.setDegraded d (lanePage l)
    (decide (c.lget d l LANE.CEILING 18 16 < min (c.lget d l LANE.CEILING 2 0) (c.lget d l LANE.CEILING 10 8)))

def Chip.setWork (c : Chip) (d l v : Nat) : Chip := (c.lput d l LANE.CEILING 18 16 v).noteCeiling d l

/-- TS_A that carry RETRAIN = 1 after a return to Lock at 3.5 Gbit/s from the present state (R198): 64 from CONFIRM, STEP, READY,
and Lock at a higher rate. -/
def Chip.retrainSets (c : Chip) (d l : Nat) : Nat :=
  let st := c.lstate d l
  if st = laneCONFIRM ∨ st = laneSTEP ∨ st = laneREADY ∨ (st = laneLOCK ∧ c.lrate d l ≠ 0) then 64 else 0

/-- Start of an attempt from Lock at 3.5 Gbit/s (R191). -/
def Chip.startAttempt (c : Chip) (d l : Nat) : Chip :=
  let x := c.lane d l
  let c := c.setLane d l { x with attemptAt := c.now, lockAt := c.now, phaseAt := c.now, rateAt := c.now, rxCount := 0,
                                  retrainTx := c.retrainSets d l, ceiling := c.effCeiling d l, fomGood := 0, fomBad := 0,
                                  fails := 0, trial := none, far := if x.far = 2 then 1 else if x.far = 3 then 0 else x.far }
  (c.setRate d l 0).setLaneState d l laneLOCK

/-- Return to Lock at 3.5 Gbit/s within an attempt (R165, R198). What the partner answered about a far-end loop is forgotten. -/
def Chip.backToLock (c : Chip) (d l : Nat) : Chip :=
  let x := c.lane d l
  let c := c.setLane d l { x with lockAt := c.now, phaseAt := c.now, rateAt := c.now, rxCount := 0, retrainTx := c.retrainSets d l,
                                  fomGood := 0, fomBad := 0, trial := none,
                                  far := if x.far = 2 then 1 else if x.far = 3 then 0 else x.far }
  (c.setRate d l 0).setLaneState d l laneLOCK

/-- Enter a phase of the attempt. -/
def Chip.enterPhase (c : Chip) (d l v : Nat) : Chip :=
  let x := c.lane d l
  (c.setLane d l { x with phaseAt := c.now, rxCount := 0 }).setLaneState d l v

/-- Commands pending for a lane. -/
def laneCmd (l : Nat) (r : Req) : Bool :=
  match r.cmd with
  | .laneTrain x _ => decide (x = l)
  | .laneLoop x _ => decide (x = l)
  | _ => false
def isTrain (l : Nat) (r : Req) : Bool := match r.cmd with | .laneTrain x _ => decide (x = l) | _ => false
def isLoop (l : Nat) (r : Req) : Bool := match r.cmd with | .laneLoop x _ => decide (x = l) | _ => false

/-! ### Stream lane groups (R167, R170 to R172, R197) -/

/-- Stream lane `l` is the designated spare of its group (R166, SLINK.SPARE). -/
def Chip.isSpare (c : Chip) (d l : Nat) : Bool := c.flag d SLINK SLINK.SPARE l

/-- A group leaves READY: every live stream that it carries is lost (R68, R172). Which group a stream uses is told by the packets
that it has carried (R178). -/
def Chip.loseStreams (c : Chip) (d f : Nat) : Chip :=
  c.each c.outputs fun c o =>
    let x := c.out o
    match x.live with
    | some st => if (KMap.getD c.carried st []).contains (d * 8 + f) ∧ c.mode o = LIVE then c.setOut o { x with liveLost := true } else c
    | none => c

/-- The lanes of a group less its designated spare are READY (R211). -/
def Chip.coreReady (c : Chip) (d f : Nat) : Bool :=
  (c.groupLanes d f).all (fun l => c.isSpare d l || c.isReady d l)

/-- The designated spare of a READY group is lost: the group is DEGRADED (R171, R211). The map that the device stripes by
changes at the next SKP ordered set that it sends. -/
def Chip.spareLost (c : Chip) (d f : Nat) : Chip :=
  let g := c.groupNumber d f
  if c.groupReady d g ∧ !c.flag d SLINK SLINK.GROUP_READY (8 + g) then
    ((c.put d SLINK SLINK.GROUP_READY (8 + g) (8 + g) 1).setDegraded d SLINK true).event d SLINK 6
  else c

/-- A stream lane has left READY: its group leaves READY unless the lane is the designated spare and no other lane is
missing (R171, R172, R211). -/
def Chip.laneLost (c : Chip) (d l : Nat) : Chip :=
  if 8 ≤ l then c
  else
    let f := c.groupFirst d l
    if !c.coreReady d f then (if c.firstReady d f then (c.loseStreams d f).groupDown d f else c)
    else if c.isSpare d l ∧ !c.isReady d l then c.spareLost d f else c

/-- A departure from READY (R195): READY_LOST, RETRAIN_COUNT, and a new attempt; a failure counts as the first failure
of that attempt at the rate that was left (R193). -/
def Chip.depart (c : Chip) (d l : Nat) (failure : Bool) : Chip :=
  let r := c.lrate d l
  let c := (c.levent d l 1).count d (lanePage l) LANE.RETRAIN_COUNT
  let c := c.startAttempt d l
  let c := if failure then c.setFails d l 1 r else c
  c.laneLost d l

/-- Lift the cap that a lane set: the capped lanes retrain with their own ceilings (R197). -/
def Chip.liftCap (c : Chip) (d l : Nat) : Chip :=
  c.each (List.range 8) fun c m =>
    let x := c.lane d m
    if x.capBy = l then
      let c := c.setLane d m { x with cap := 4, capBy := 24 }
      if c.isReady d m then c.depart d m false else c
    else c

/-- Lanes of a READY group that can carry stripes: READY at the group's rate (R170, R171). -/
def Chip.readyMap' (c : Chip) (d f : Nat) : Nat :=
  let rate := c.get d SLINK (SLINK.GROUP_LMAP + 4 * c.groupNumber d f) 10 8
  ((c.groupLanes d f).filter (fun l => c.isReady d l && decide (c.lrate d l = rate))).foldl (fun n l => n + 2 ^ (l - f)) 0

/-- The device sends an SKP ordered set on a READY group (R161, R169, R171): from then on reverse traffic is striped by the map that
it carries, which has lost the spare, or has it back. A lane that goes out of the map lifts the cap that it set (R197). -/
def Chip.sendSkp (c : Chip) (d f : Nat) : Chip :=
  let g := c.groupNumber d f
  let old := c.txMap d f
  let new := c.readyMap' d f
  let c := c.sendOn d f (skpSyms (BitVec.ofNat 8 new))
  if !c.groupReady d g ∨ old = new then c
  else
    let c := c.put d SLINK (SLINK.GROUP_LMAP + 4 * g) 7 0 new
    let c := c.each (c.groupLanes d f) fun c l => if old.testBit (l - f) ∧ !new.testBit (l - f) then c.liftCap d l else c
    let back := (c.groupLanes d f).any (fun l => c.isSpare d l && !old.testBit (l - f) && new.testBit (l - f))
    if back ∧ c.groupReady d g then
      let c := c.put d SLINK SLINK.GROUP_READY (8 + g) (8 + g) 0
      (c.setDegraded d SLINK (decide (c.get d SLINK SLINK.GROUP_READY 15 8 ≠ 0))).event d SLINK 7
    else c

/-- A lane has trained to READY at a rate: the faster lanes of its group retrain with that rate as their cap, or it
retrains itself below a slower lane (R167, R197). -/
def Chip.matchRates (c : Chip) (d l : Nat) : Chip :=
  if 8 ≤ l then c
  else
    let r := c.lrate d l
    let others := (c.groupLanes d (c.groupFirst d l)).filter (fun m => decide (m ≠ l) && c.isReady d m)
    let c := c.each (others.filter (fun m => decide (r < c.lrate d m))) fun c m =>
      let x := c.lane d m
      (c.setLane d m { x with cap := r, capBy := l }).depart d m false
    match others.find? (fun m => decide (c.lrate d m < r)) with
    | some m =>
      let x := c.lane d l
      (c.setLane d l { x with cap := c.lrate d m, capBy := m }).depart d l false
    | none => c

/-! ### Ends of an attempt -/

/-- Duration of the attempt that ends (LAST_ATTEMPT_US). -/
def Chip.endAttempt (c : Chip) (d l : Nat) : Chip :=
  (c.setNum d (lanePage l) LANE.LAST_ATTEMPT_US (min 0xFFFFFFFF ((c.now - (c.lane d l).attemptAt) / 1000))).setFails d l 0 (c.lane d l).failRate

/-- The attempt ends in DOWN (R192): a pending LANE_TRAIN completes FAIL, DETAIL 1 (R124). DESIGN CHOICE (assumption log 92): so does
a pending far-end LANE_LOOP, for which the manual states no status. -/
def Chip.goDown (c : Chip) (d l : Nat) : Chip :=
  let c := ((c.endAttempt d l).levent d l 2).count d (lanePage l) LANE.DOWN_COUNT
  let c := (c.setRate d l 0).setLaneState d l laneDOWN
  let x := c.lane d l
  let c := c.setLane d l { x with far := 0, retrainTx := 0, trial := none }
  let c := c.finishAll (laneCmd (d * 24 + l)) FAIL 1
  (c.liftCap d l).laneLost d l

/-- A failure at rate code `r` (R193). Two in a row at one rate lower the working ceiling, or end the attempt at
3.5 Gbit/s; then the lane returns to Lock at 3.5 Gbit/s. -/
def Chip.failAt (c : Chip) (d l r : Nat) : Chip :=
  let x := c.lane d l
  let n := if x.failRate = r then min 2 (x.fails + 1) else 1
  let c := c.setFails d l n r
  if n = 2 then
    if r = 0 then c.goDown d l
    else
      let c := (c.setWork d l (min (c.lget d l LANE.CEILING 18 16) (r - 1))).levent d l 3
      let x := c.lane d l
      (c.setLane d l { x with ceiling := min x.ceiling (r - 1) }).backToLock d l
  else c.backToLock d l

/-- LOOP.MODE and the state of a loop, with the checker about to seed itself (R213, R214). A lane that leaves the map of its group
for a loop lifts the cap that it set (R197). -/
def Chip.enterLoop (c : Chip) (d l mode : Nat) : Chip :=
  let wasReady := c.isReady d l
  let c := (((c.lput d l LANE.LOOP 1 0 mode).lput d l LANE.LOOP 5 5 0).setLaneState d l laneLOOP)
  let x := c.lane d l
  let c := c.setLane d l { x with check := {} }
  if wasReady then c.liftCap d l else c

/-- The attempt ends in READY (R164, R190), and the device sends one SKP ordered set on the lane, then idle. A far-end loop that was asked for and granted starts instead (R213, R215);
one that was refused completes LANE_LOOP with FAIL, DETAIL 3. -/
def Chip.becomeReady (c : Chip) (d l : Nat) : Chip :=
  let far := (c.lane d l).far
  let c := c.endAttempt d l
  if far = 2 ∨ far = 3 then
    let c := c.enterLoop d l 3
    if far = 2 then c.finishAll (isLoop (d * 24 + l)) OK 0 else c
  else
    let x := c.lane d l
    let c := c.setLane d l { x with far := 0, fomBad := 0 }
    let c := if far = 1 then c.finishAll (isLoop (d * 24 + l)) FAIL 3 else c
    let c := (c.setLaneState d l laneREADY).levent d l 0
    let done := c.reqs (isTrain (d * 24 + l))
    let c := done.foldl (fun c r => c.finish r OK 0 (leBytes 1 (c.lrate d l))) c
    let y := c.lane d l
    let c := c.setLane d l { y with snap := y.snap.map fun s => { s with trained := done.map fun r => (r.port, r.tag) } }
    let c := c.sendOn d l (if l < 8 then skpSyms (BitVec.ofNat 8 (c.readyMap' d (c.groupFirst d l))) else skpSyms 1)
    let c := c.each (List.range 8) fun c m =>
      let y := c.lane d m
      if y.capBy = l ∧ l < 8 ∧ y.cap < c.lrate d l then
        let c := c.setLane d m { y with cap := 4, capBy := 24 }
        if c.isReady d m then c.depart d m false else c
      else c
    c.matchRates d l

/-- Rates that the partner, or the chain, supports (R163, R197, R318). -/
def Chip.partnerRates (c : Chip) (d l : Nat) : Nat :=
  if l < 8 then c.lget d l LANE.PARTNER 7 0 else c.get d DLINK (DLINK.RET_STATUS + 4 * (l - 8)) 20 16

/-- Confirm ends (R164): Step when the next rate is at most the attempt's ceiling and the partner has it (R193), else
READY. The count of failures at this rate starts again. -/
def Chip.confirmEnd (c : Chip) (d l : Nat) : Chip :=
  let r := c.lrate d l
  let x := c.lane d l
  let c := if x.failRate = r then c.setFails d l 0 r else c
  if r + 1 ≤ x.ceiling ∧ (c.partnerRates d l).testBit (r + 1) then c.enterPhase d l laneSTEP else c.becomeReady d l

/-- 16 TS_B have been sent since the phase began: 16 sets of 16 symbols of 10 bits at 3.5 × 2^k Gbit/s (R164). -/
def Chip.sent16 (c : Chip) (d l : Nat) : Bool :=
  decide (25600 ≤ (c.now - (c.lane d l).phaseAt) * 35 * 2 ^ c.lrate d l)

/-- The figure of merit allows Confirm to end (R203): at 28 and 56 Gbit/s, 200 µs at the rate and two consecutive values
at or above ACCEPT. -/
def Chip.fomAllows (c : Chip) (d l : Nat) : Bool :=
  decide (c.lrate d l < 3) || (decide (200000 ≤ c.now - (c.lane d l).rateAt) && decide (2 ≤ (c.lane d l).fomGood))

/-- Confirm of a stream lane ends when all its conditions hold. -/
def Chip.tryConfirm (c : Chip) (d l : Nat) : Chip :=
  if l < 8 ∧ c.lstate d l = laneCONFIRM ∧ 8 ≤ (c.lane d l).rxCount ∧ c.sent16 d l ∧ c.fomAllows d l then c.confirmEnd d l else c

/-! ### Training ordered sets (R163, R164) -/

/-- A TS ordered set is valid: CHK is right and no reserved value or bit is set. DEDUCED (assumption log 93): a TARGET above 4, which
names no rate, makes it invalid too. -/
def tsValid (bs : List Byte) : Bool :=
  let b := fun i => fieldAt bs i 1
  decide (bs.length = 14) && decide (crc8 (bs.take 13) = bs.getD 13 0) && decide (b 0 = 1 ∨ b 0 = 2) &&
    decide (b 1 < 32) && decide (b 2 ≤ 4) && decide (b 6 < 16) && decide (b 8 < 4) && decide (fieldAt bs 9 4 = 0)

/-- The POSITION that the layout gives a stream lane (R163, R166). -/
def Chip.position (c : Chip) (d l : Nat) : Nat :=
  let f := c.groupFirst d l
  (l - f) + (((c.groupLanes d f).length - 1) * 16) + (c.isSpare d l).toNat * 128

/-- Rates that the device advertises: 0 to the effective ceiling (R193). -/
def Chip.ownRates (c : Chip) (d l : Nat) : Nat := 2 ^ (c.effCeiling d l + 1) - 1

/-- TS ordered sets sent since a time: 16 symbols of 10 bits each at 3.5 × 2^k Gbit/s (R163, R188). -/
def Chip.setsSince (c : Chip) (d l t : Nat) : Nat := (c.now - t) * 35 * 2 ^ c.lrate d l / 1600

/-- The 14 data bytes of the TS ordered sets that a lane sends now (R163, R193, R198, R209, R215, R302, R318, R322): POSITION is 0x00 on
a driver lane, whose FOM field is 0 and whose preset is its own. -/
def Chip.tsBytes (c : Chip) (d l : Nat) : List Byte :=
  let st := c.lstate d l
  let x := c.lane d l
  let rate := c.lrate d l
  let a := decide (st = laneLOCK) || decide (st = laneDOWN)
  let retrain := decide (st = laneLOCK) && decide (rate = 0) && decide (c.setsSince d l x.lockAt < x.retrainTx)
  let head := leBytes 1 (if a then 1 else 2) ++ leBytes 1 (c.ownRates d l) ++ leBytes 1 (if st = laneSTEP then rate + 1 else rate) ++
    leBytes 1 (if l < 8 then c.position d l else 0) ++ leBytes 2 (d * 24 + l) ++
    leBytes 1 (if l < 8 then c.lget d l LANE.TX_PRESET 7 4 else c.lget d l LANE.TX_PRESET 3 0) ++
    leBytes 1 (if l < 8 ∧ 3 ≤ rate then c.lget d l LANE.FOM 7 0 else 0) ++
    leBytes 1 ((decide (x.far ≠ 0) && !a).toNat + retrain.toNat * 2) ++ leBytes 4 0
  head ++ [crc8 head]

/-- What the transmitter of a lane sends (R190, R213, R215, R303, R304). -/
inductive LaneTx where
  /-- nothing; outputs at common mode -/
  | quiet
  /-- TS ordered sets, back to back -/
  | training (syms : List Sym)
  /-- packets, markers and ordered sets, with idle between them -/
  | traffic
  /-- on a driver lane of an output without an entry: DRV_HOLD every 16 µs or less, with idle between -/
  | hold
  /-- the pattern of LOOP.PATTERN -/
  | pattern (code : Nat)
  /-- the bits that the lane receives -/
  | looped
  deriving DecidableEq, Repr

def Chip.laneSends (c : Chip) (d l : Nat) : LaneTx :=
  let st := c.lstate d l
  if st = laneOFF ∨ st = lanePARKED then .quiet
  else if st = laneREADY then (if 8 ≤ l ∧ !c.flag (c.leadOf d) TGEN TGEN.ENTRY 31 then .hold else .traffic)
  else if st = laneLOOP then (if (c.lane d l).far = 3 then .looped else .pattern (c.lget d l LANE.LOOP 11 8))
  else .training (tsSyms (c.tsBytes d l))

/-- What every valid TS tells the lane: PARTNER, PARTNER_FOM, and the preset asked for, applied after two consecutive
valid TS with the same request; a reserved code is ignored (R209). -/
def Chip.takeTs (c : Chip) (d l : Nat) (bs : List Byte) : Chip :=
  let b := fun i => fieldAt bs i 1
  let c := c.setNum d (lanePage l) LANE.PARTNER (fieldAt bs 4 2 * 65536 + b 3 * 256 + b 1)
  let c := c.lput d l LANE.FOM 15 8 (b 7)
  let x := c.lane d l
  let c := if x.presetReq = b 6 ∧ b 6 < 8 then c.lput d l LANE.TX_PRESET 3 0 (b 6) else c
  c.setLane d l { x with presetReq := b 6 }

/-- STATUS.POSITION_ERR, with its event when it goes to 1 (R166). -/
def Chip.notePosition (c : Chip) (d l : Nat) (bad : Bool) : Chip :=
  let was := c.lget d l LANE.STATUS 15 15
  (c.lput d l LANE.STATUS 15 15 bad.toNat).eventIf (bad && decide (was = 0)) d (lanePage l) 8

/-- POSITION agrees with the layout: the lane's place, the lanes of the group, and the SPARE bit (R166). -/
def Chip.positionOk (c : Chip) (d l : Nat) (bs : List Byte) : Bool := decide (fieldAt bs 3 1 = c.position d l)

/-- Count one consecutive valid TS of the kind that the phase waits for. -/
def Chip.countTs (c : Chip) (d l : Nat) : Chip := let x := c.lane d l; c.setLane d l { x with rxCount := x.rxCount + 1 }
def Chip.breakTs (c : Chip) (d l : Nat) : Chip := let x := c.lane d l; c.setLane d l { x with rxCount := 0 }

/-- Keep a value within bounds. -/
def clampTo (lo hi v : Nat) : Nat := max lo (min hi v)

/-- CTLE and VGA in use, within EQ_BOUNDS (R205). -/
def Chip.setEq (c : Chip) (d l ctle vga : Nat) : Chip :=
  let v := clampTo (c.lget d l LANE.EQ_BOUNDS 12 8) (c.lget d l LANE.EQ_BOUNDS 20 16) vga
  let k := clampTo (c.lget d l LANE.EQ_BOUNDS 3 0) (c.lget d l LANE.EQ_BOUNDS 7 4) ctle
  (c.lput d l LANE.EQ_NOW 20 16 v).lput d l LANE.EQ_NOW 3 0 k

/-- The eight DFE taps in use; EQ_NOW shows the first. -/
def Chip.setTaps (c : Chip) (d l : Nat) (taps : List Nat) : Chip :=
  let x := c.lane d l
  let t := (List.range 8).map fun i => taps.getD i 0 % 256
  (c.setLane d l { x with taps := t }).lput d l LANE.EQ_NOW 31 24 (t.getD 0 0)

/-- Confirm at 28 or 56 Gbit/s starts from the last good coefficients of the rate, from the factory start values while
there are none (R206), or runs on the pinned ones (R207). -/
def Chip.startEq (c : Chip) (d l : Nat) : Chip :=
  let r := c.lrate d l
  if r < 3 ∨ c.lget d l LANE.STATUS 14 14 = 1 then c
  else match if r = 3 then (c.lane d l).good3 else (c.lane d l).good4 with
    | some (k, v, taps) => (c.setEq d l k v).setTaps d l taps
    | none => (c.setEq d l (Config.factoryEq r 0 % 16) (Config.factoryEq r 1 % 32)).setTaps d l ((List.range 8).map fun i => Config.factoryEq r (2 + i))

/-- A far-end loop ends: the lane starts an attempt (R215). -/
def Chip.endFar (c : Chip) (d l : Nat) : Chip :=
  let x := c.lane d l
  (((c.setLane d l { x with far := 0 }).lput d l LANE.LOOP 1 0 0).lput d l LANE.LOOP 5 5 0).startAttempt d l

/-- What a TS_B says of a far-end loop (R215): the partner's answer to our request, or its own request, which CTRL.LOOP_ALLOW lets us
grant. The latest one counts. -/
def Chip.takeLoopReq (c : Chip) (d l : Nat) (req : Bool) : Chip :=
  let x := c.lane d l
  c.setLane d l { x with far :=
    if x.far = 1 ∨ x.far = 2 then (if req then 2 else 1) else if req ∧ c.lget d l LANE.CTRL 2 2 = 1 then 3 else 0 }

/-- A received RETRAIN = 1 takes the lane back to Lock at 3.5 Gbit/s (R165); it is no failure (R193). -/
def Chip.takeRetrain (c : Chip) (d l : Nat) : Chip :=
  let c := c.backToLock d l
  let x := c.lane d l
  c.setLane d l { x with snap := x.snap.map fun s => { s with back := true } }

/-- A TS ordered set arrives on a stream lane; one that is not valid is ignored (R163). A lane in a near-end loop ignores what it
receives (R213). -/
def Chip.tsReceived (c : Chip) (d l : Nat) (bs : List Byte) : Chip :=
  let st := c.lstate d l
  if !tsValid bs ∨ st = laneOFF ∨ st = lanePARKED ∨ (st = laneLOOP ∧ (c.lane d l).far ≠ 3) then c
  else
    let c := (c.snapLane d l).takeTs d l bs
    let type := fieldAt bs 0 1
    let target := fieldAt bs 2 1
    let loopReq := (fieldAt bs 8 1).testBit 0
    let retrain := (fieldAt bs 8 1).testBit 1
    let rate := c.lrate d l
    if st = laneREADY then (if retrain then c.depart d l false else c)
    else if st = laneLOOP then (if retrain then c.endFar d l else c)
    else if st = laneLOCK then
      if retrain ∧ rate ≠ 0 then c.takeRetrain d l
      else if type = 1 then
        if c.positionOk d l bs then
          let c := (c.notePosition d l false).countTs d l
          if 8 ≤ (c.lane d l).rxCount then ((c.lput d l LANE.STATUS 12 12 0).enterPhase d l laneCONFIRM).startEq d l else c
        else (c.notePosition d l true).breakTs d l
      else c.breakTs d l
    else if st = laneCONFIRM then
      if retrain then c.takeRetrain d l
      else if type = 2 ∧ target = rate then ((c.takeLoopReq d l loopReq).countTs d l).tryConfirm d l
      else c.breakTs d l
    else if st = laneSTEP then
      if retrain then c.takeRetrain d l else if type = 2 ∧ target = rate + 1 then (c.takeLoopReq d l loopReq).countTs d l else c.breakTs d l
    else c

/-- A training set as the lane receives it: code errors count (CODE_ERR_COUNT), and what is not COM, TS and 14 data symbols is no
training set. -/
def Chip.trainingSet (c : Chip) (d l : Nat) (x : SetRx) : Chip :=
  let rx : LaneRx := { pos := 0, plus := x.plus, groups := x.groups }
  let live := decide (c.lstate d l ≠ laneOFF) && decide (c.lstate d l ≠ lanePARKED)
  let c := if live ∧ codeErrors rx ≠ 0 then c.countBy d (lanePage l) LANE.CODE_ERR_COUNT (codeErrors rx) else c
  match decodeLane x.plus x.groups with
  | some com :: some ts :: rest =>
    let data := takeData rest
    if com = symCOM ∧ ts = symTS ∧ data.2 = [] then c.tsReceived d l data.1 else c
  | _ => c

/-- The lane changes rate after the 16th TS_B of Step and starts Lock at the new rate (R164, R188). A stream lane has
received 8 TS_B with that TARGET. -/
def Chip.rateChanged (c : Chip) (d l : Nat) : Chip :=
  if c.lstate d l = laneSTEP ∧ c.sent16 d l ∧ (8 ≤ l ∨ 8 ≤ (c.lane d l).rxCount) then
    let x := c.lane d l
    let c := c.setLane d l { x with rateAt := c.now, fomGood := 0, fomBad := 0, trial := none }
    (c.setRate d l (c.lrate d l + 1)).enterPhase d l laneLOCK
  else c

/-- A phase has a limit of 2 ms (R165); Lock at 3.5 Gbit/s has none of its own. -/
def phaseLimited (state rate : Nat) : Bool :=
  (decide (state = laneLOCK) && decide (rate ≠ 0)) || decide (state = laneCONFIRM) || decide (state = laneSTEP)

/-- A phase has not ended within 2 ms (R165, R193). When a RETRAIN has taken the lane back in this very cycle, the one return
counts as a failure at the phase's rate (R217). -/
def Chip.phaseLimit (c : Chip) (d l : Nat) : Chip :=
  let c := c.snapLane d l
  if phaseLimited (c.lstate d l) (c.lrate d l) then c.failAt d l (c.lrate d l)
  else match c.snapOf d l with
    | some s =>
      if s.back ∧ c.lstate d l = laneLOCK ∧ phaseLimited s.state s.rate then
        let sets := (c.lane d l).retrainTx
        let c := c.failAt d l s.rate
        let x := c.lane d l
        c.setLane d l { x with retrainTx := if c.lstate d l = laneLOCK then sets else x.retrainTx,
                               snap := x.snap.map fun s => { s with back := false } }
      else c
    | none => c

/-! ### Judging the signal (R201 to R208) -/

/-- FAIL as the hardware takes it: held at 8 (R204). -/
def failOf (limits : Word) : Nat := max 8 (bits limits 7 0)

/-- LOS or LOL is declared (R201): its status bit and event, and the departure from READY. In a loop, LOS alone is looked for, and
only on a far-end loop: it ends one that was granted to the partner (R215), and shows on a driver lane whose chain does not come back
(R216). -/
def Chip.signalLost (c : Chip) (d l statusBit eventBit : Nat) : Chip :=
  let c := c.snapLane d l
  let st := c.lstate d l
  let far := (c.lane d l).far
  if st = laneOFF ∨ st = lanePARKED ∨ (st = laneLOOP ∧ ¬(statusBit = 11 ∧ (far = 3 ∨ (far = 2 ∧ 8 ≤ l)))) then c
  else
    let c := (c.lput d l LANE.STATUS statusBit statusBit 1).levent d l eventBit
    if st = laneREADY then c.depart d l true
    else if st = laneLOOP ∧ far = 3 then c.endFar d l
    else c

/-- A new FOM, measured or reported by the chain, is judged (R203, R210): WARN, PIN_ALARM, FAIL and ACCEPT. Limits committed in this
very cycle do not act on it, and a lane that LOS or LOL has taken out of READY in this cycle is judged as it stood (R217). -/
def Chip.judgeFom (c : Chip) (d l fom : Nat) : Chip :=
  let c := c.snapLane d l
  let before := c.snapOf d l
  let limits := match before with | some s => s.limits | none => c.reg d (lanePage l) LANE.FOM_LIMITS
  let left := decide (!c.isReady d l) && before.any (fun s => decide (s.state = laneREADY))
  let pinned := decide (l < 8) && decide (c.lget d l LANE.STATUS 14 14 = 1)
  let c := c.lput d l LANE.FOM_MIN 7 0 (min fom (c.lget d l LANE.FOM_MIN 7 0))
  let c := if left then c else c.lput d l LANE.FOM 7 0 fom
  let c := c.events d (lanePage l) ((if fom < bits limits 15 8 then [4] else []) ++ (if fom < bits limits 15 8 ∧ pinned then [9] else []))
  let x := c.lane d l
  let bad := if fom < failOf limits then (if left then (before.map (fun s => s.fomBad)).getD 0 else x.fomBad) + 1 else 0
  if left then (if bad = 4 then c.levent d l 5 else c)
  else
    let c := c.setLane d l { x with fomGood := if bits limits 23 16 ≤ fom then x.fomGood + 1 else 0, fomBad := if c.isReady d l then bad else 0 }
    if c.isReady d l ∧ 4 ≤ (c.lane d l).fomBad then (c.levent d l 5).depart d l true else c

/-- Coefficients in use: CTLE, VGA and the taps. -/
def Chip.eqNow (c : Chip) (d l : Nat) : Nat × Nat × List Nat :=
  (c.lget d l LANE.EQ_NOW 3 0, c.lget d l LANE.EQ_NOW 20 16, (c.lane d l).taps)

/-- The adaptation goes on after a FOM (R205): the taps follow the data; a change of CTLE or VGA that made the FOM lower is taken
back; and another change is tried. -/
def Chip.adapt (c : Chip) (d l fom ctle vga : Nat) : Chip :=
  let c := match (c.lane d l).trial with
    | some (k, v, f) => if fom < f then c.setEq d l k v else c
    | none => c
  let now := c.eqNow d l
  let x := c.lane d l
  (c.setLane d l { x with trial := some (now.1, now.2.1, fom) }).setEq d l ctle vga

/-- A FOM measured on a stream lane (R202 to R208): a FOM at or above ACCEPT keeps the coefficients in effect as the last good
ones of its rate; the FOM is judged; and the adaptation goes on unless it is pinned or held. -/
def Chip.fomMeasured (c : Chip) (d l fom ctle vga : Nat) (dfe : List Nat) : Chip :=
  let c := c.snapLane d l
  let left := decide (!c.isReady d l) && (c.snapOf d l).any (fun s => decide (s.state = laneREADY ∧ 3 ≤ s.rate))
  if 8 ≤ l then c
  else if left then c.judgeFom d l fom
  else if 3 ≤ c.lrate d l ∧ c.lstate d l ≠ laneOFF ∧ c.lstate d l ≠ lanePARKED ∧ c.lstate d l ≠ laneDOWN then
    let adapts := decide (c.lget d l LANE.STATUS 14 14 = 0) && decide (c.lget d l LANE.STATUS 13 13 = 0)
    let c := if adapts then c.setTaps d l dfe else c
    let x := c.lane d l
    let c := if bits ((c.snapOf d l).elim (c.reg d (lanePage l) LANE.FOM_LIMITS) (fun s => s.limits)) 23 16 ≤ fom then
        c.setLane d l (if c.lrate d l = 3 then { x with good3 := some (c.eqNow d l) } else { x with good4 := some (c.eqNow d l) })
      else c
    let c := if adapts then c.adapt d l fom ctle vga else c
    (c.judgeFom d l fom).tryConfirm d l
  else c

/-- 4096 idle symbols in a row hold the adaptation (R208), from this very cycle (R217). -/
def Chip.idleHold (c : Chip) (d l : Nat) : Chip :=
  let c := c.snapLane d l
  if l < 8 ∧ 3 ≤ c.lrate d l then
    let c := c.lput d l LANE.STATUS 13 13 1
    match c.snapOf d l with
    | some s =>
      if c.lget d l LANE.STATUS 14 14 = 0 then
        let c := c.setReg d (lanePage l) LANE.EQ_NOW s.eq
        let x := c.lane d l
        c.setLane d l { x with taps := s.taps, trial := none }
      else c
    | none => c
  else c

/-! ### The loop patterns and their checker (R214) -/

/-- Shift-register length and tap of a PRBS pattern. -/
def prbsTaps : Nat → Nat × Nat
  | 0 => (7, 6)
  | 1 => (15, 14)
  | _ => (31, 28)

/-- The next bit of a PRBS pattern after the latest bits, newest first. -/
def prbsNext (code : Nat) (seen : List Bool) : Bool := Bool.xor (seen.getD ((prbsTaps code).1 - 1) false) (seen.getD ((prbsTaps code).2 - 1) false)

/-- `n` bits of a PRBS pattern after the latest bits, newest first. -/
def prbsBits (code : Nat) : Nat → List Bool → List Bool
  | 0, _ => []
  | n + 1, seen => let b := prbsNext code seen; b :: prbsBits code n (b :: seen.take 30)

/-- Symbol number `n` of the CODED pattern: DESIGN CHOICE (assumption log 94), a COM and then bytes 0x00 to 0xFF in turn, over and
over. -/
def codedSym (n : Nat) : Sym := if n % 257 = 0 then symCOM else .data (BitVec.ofNat 8 (n % 257 - 1))

/-- Number of the symbol that follows a symbol of the pattern. -/
def codedAfter : Sym → Nat
  | .data b => b.toNat + 2
  | .ctrl _ => 1

/-- `n` bits that the pattern generator of a lane sends (R213, R214). Where a PRBS pattern begins is free. -/
def Chip.patternBits (c : Chip) (d l n : Nat) : List Bool :=
  let code := c.lget d l LANE.LOOP 11 8
  if code = 3 then (laneBits (encodeLane (Config.freeBool c.fresh) ((List.range ((n + 9) / 10)).map codedSym))).take n
  else prbsBits code n ((List.range 31).map fun i => Config.freeBool (c.fresh + i))

/-- The checker looks at a bit that is right or wrong: 64 right in a row lock it; once locked it counts errors, and 8 within 64 bits
lose the lock. -/
def Chip.checkBit (c : Chip) (d l : Nat) (wrong : Bool) : Chip :=
  let x := c.lane d l
  let k := x.check
  if c.lget d l LANE.LOOP 5 5 = 0 then
    let good := if wrong then 0 else k.good + 1
    let c := c.setLane d l { x with check := { k with good := good, errs := [] } }
    if good = 64 then (c.lput d l LANE.LOOP 5 5 1).levent d l 11 else c
  else
    let errs := (wrong :: k.errs).take 64
    let c := if wrong then c.count d (lanePage l) LANE.LOOP_ERR_COUNT else c
    if 8 ≤ (errs.filter (fun e => e)).length then
      ((c.setLane d l { x with check := {} }).lput d l LANE.LOOP 5 5 0).levent d l 12
    else c.setLane d l { x with check := { k with errs := errs } }

/-- A bit of a PRBS pattern arrives: while it seeds itself the checker goes by the bits received, once locked by its own. -/
def Chip.prbsBit (c : Chip) (d l code : Nat) (b : Bool) : Chip :=
  let x := c.lane d l
  let want := prbsNext code x.check.seen
  let full := decide ((prbsTaps code).1 ≤ x.check.seen.length)
  let locked := decide (c.lget d l LANE.LOOP 5 5 = 1)
  let c := c.setLane d l { x with check := { x.check with seen := (if locked then want else b) :: x.check.seen.take 30 } }
  if full then c.checkBit d l (b != want) else c

/-- A code group of the CODED pattern: a wrong or invalid one counts as one error among its 10 bits. While it seeds itself the
checker takes its place in the pattern from what it receives. -/
def Chip.codedGroup (c : Chip) (d l : Nat) (g : CodeGroup) : Chip :=
  let x := c.lane d l
  let k := x.check
  let got := decodeSym k.plus g
  let locked := decide (c.lget d l LANE.LOOP 5 5 = 1)
  let next := if locked then k.next + 1 else (got.map codedAfter).getD (k.next + 1)
  let wrong := decide (got ≠ some (codedSym k.next))
  let c := c.setLane d l { x with check := { k with plus := plusAfter k.plus g, next := next } }
  c.each (List.range 10) fun c i => c.checkBit d l (wrong && decide (i = 0))

/-- Bits arrive at the checker of a lane in a loop. -/
def Chip.loopBits (c : Chip) (d l : Nat) (bs : List Bool) : Chip :=
  let code := c.lget d l LANE.LOOP 11 8
  if c.lstate d l ≠ laneLOOP ∨ (c.lane d l).far = 3 then c
  else if code ≠ 3 then c.each bs fun c b => c.prbsBit d l code b
  else
    c.each bs fun c b =>
      let x := c.lane d l
      let carry := x.check.carry ++ [b]
      if carry.length < 10 then c.setLane d l { x with check := { x.check with carry := carry } }
      else
        (c.setLane d l { x with check := { x.check with carry := [] } }).codedGroup d l
          (BitVec.ofNat 10 (carry.foldl (fun n b => 2 * n + b.toNat) 0))

/-! ### The lane commands (R212) -/

/-- Lane PLL of a lane: PLL k serves local lanes 4k to 4k + 3 (R54); it runs down with the last lane that it serves. -/
def Chip.notePll (c : Chip) (d l : Nat) : Chip :=
  let k := l / 4
  if (List.range 4).any (fun i => c.lstate d (4 * k + i) ≠ laneOFF) then c else c.put d CLK CLK.PLL_STATUS (8 + k) (8 + k) 0

/-- The lane goes OFF (LANE_POWER off, STANDBY, OFF of the package): pending commands of the lane complete ABORTED, and so does a
LANE_TRAIN that READY would have completed in this very cycle (R217). -/
def Chip.laneOff (c : Chip) (d l : Nat) : Chip :=
  let c := c.finishAll (laneCmd (d * 24 + l)) ABORTED 0
  let x := c.lane d l
  let ended := (c.snapOf d l).elim [] (fun s => s.trained)
  let c := c.setLane d l { x with far := 0, cap := 4, capBy := 24, rxCount := 0, retrainTx := 0, fails := 0, trial := none, check := {},
                                  snap := none }
  let c := (ended.foldl (fun c r => c.retract r.1 r.2) c).sendOn d l []
  let c := (((c.lput d l LANE.LOOP 1 0 0).lput d l LANE.LOOP 5 5 0).lput d l LANE.STATUS 12 8 0).setLaneState d l laneOFF
  ((c.liftCap d l).laneLost d l).notePll d l

/-- LANE_POWER on, and the end of a loop: a new attempt or PARKED, by CTRL.AUTO_TRAIN (R191). -/
def Chip.laneGo (c : Chip) (d l : Nat) : Chip :=
  if c.lget d l LANE.CTRL 1 1 = 1 then c.startAttempt d l else c.setLaneState d l lanePARKED

/-- Bit of PLL_STATUS that shows the PLL of a lane locked. -/
def pllBit (l : Nat) : Nat := 8 + l / 4

def isPowerOn (l : Nat) (r : Req) : Bool := match r.cmd with | .lanePower x on => decide (x = l ∧ on = 1) && r.started | _ => false

/-- LANE_POWER; power on completes once the lane PLL runs. -/
def Chip.lanePower (c : Chip) (r : Req) (d l on : Nat) : Chip :=
  if on = 0 then (c.laneOff d l).done r OK
  else if c.lstate d l = laneOFF then
    let x := c.lane d l
    let c := (c.setWork d l 4).setLane d l { x with cap := 4, capBy := 24, far := 0, failRate := 0, fails := 0 }
    let c := c.laneGo d l
    if c.flag d CLK CLK.PLL_STATUS (pllBit l) then c.done r OK else c
  else c.done r OK

/-- LANE_TRAIN (R124, R212): it stays in flight until the lane reaches READY or DOWN. -/
def Chip.laneTrain (c : Chip) (r : Req) (d l ceiling : Nat) : Chip :=
  if c.lstate d l = laneOFF then c.finish r FAIL 2 []
  else
    let c := c.finishAll (fun q => isTrain (d * 24 + l) q && decide (q.id ≠ r.id)) ABORTED 0
    let c := c.finishAll (fun q => isLoop (d * 24 + l) q && decide (q.id ≠ r.id)) ABORTED 0
    let wasReady := c.isReady d l
    let x := c.lane d l
    let c := c.setLane d l { x with far := 0 }
    let c := (c.lput d l LANE.LOOP 1 0 0).lput d l LANE.LOOP 5 5 0
    let c := (c.lput d l LANE.CEILING 2 0 ceiling).setWork d l 4
    let c := c.startAttempt d l
    if wasReady then c.laneLost d l else c

/-- LANE_LOOP (R212, R213, R215). A far-end loop first trains with LOOP_REQ = 1 and stays in flight. -/
def Chip.laneLoop (c : Chip) (r : Req) (d l loop : Nat) : Chip :=
  let st := c.lstate d l
  if loop = 0 then
    if st = laneLOOP then
      let x := c.lane d l
      let c := ((c.setLane d l { x with far := 0 }).lput d l LANE.LOOP 1 0 0).lput d l LANE.LOOP 5 5 0
      (c.laneGo d l).done r OK
    else c.done r OK
  else if st = laneOFF then c.finish r FAIL 2 []
  else
    let c := c.finishAll (isTrain (d * 24 + l)) ABORTED 0
    let c := c.finishAll (fun q => isLoop (d * 24 + l) q && decide (q.id ≠ r.id)) ABORTED 0
    let x := c.lane d l
    if loop = 3 then
      let c := c.setLane d l { x with far := 1 }
      let c := ((c.lput d l LANE.LOOP 1 0 0).lput d l LANE.LOOP 5 5 0).startAttempt d l
      if st = laneREADY then c.laneLost d l else c
    else
      let c := c.setLane d l { x with far := 0 }
      let c := (c.enterLoop d l loop).setRate d l (c.lget d l LANE.LOOP 18 16)
      (if st = laneREADY then c.laneLost d l else c).done r OK

/-- Step point of a lane page (R204, R207, R218): FOM_LIMITS, EQ_BOUNDS and EQ_SET take effect. -/
def Chip.laneStepPoint (c : Chip) (d l : Nat) : Chip :=
  let c := c.snapLane d l
  let changed := (c.stagedOf d (lanePage l)).any (fun kv => kv.1 = LANE.FOM_LIMITS)
  let c := c.applyStaged d (lanePage l)
  let c := c.eventIf (changed && decide (c.lget d l LANE.FOM_LIMITS 7 0 < 8)) d (lanePage l) 10
  if l < 8 then
    let pin := c.lget d l LANE.EQ_SET 31 31
    let c := c.lput d l LANE.STATUS 14 14 pin
    if pin = 1 then
      (c.lput d l LANE.EQ_NOW 20 16 (c.lget d l LANE.EQ_SET 20 16)).lput d l LANE.EQ_NOW 3 0 (c.lget d l LANE.EQ_SET 3 0)
    else c
  else c

/-- A staged set of lane limits that PAGE_COMMIT refuses (R203, R205). -/
def Chip.laneCommitStatus (c : Chip) (d l : Nat) : Nat :=
  let f := c.stagedReg d (lanePage l) LANE.FOM_LIMITS
  let e := c.stagedReg d (lanePage l) LANE.EQ_BOUNDS
  if bits f 15 8 < bits f 23 16 ∧ bits f 7 0 ≤ bits f 15 8 ∧
      (8 ≤ l ∨ (bits e 12 8 ≤ bits e 20 16 ∧ bits e 3 0 ≤ bits e 7 4)) then OK else ARG

/-! ### Meanings of the lane events -/

def execTsOrderedSetRx (d l : Nat) (x : SetRx) (s : State) : Host.Outcome State Fault Refusal :=
  onLane s d l fun s => if l < 8 then s.up fun c => c.trainingSet d l x else s

def execRateChange (d l : Nat) (s : State) : Host.Outcome State Fault Refusal :=
  onLane s d l fun s => s.up fun c => c.rateChanged d l

def execPhaseLimit (d l : Nat) (s : State) : Host.Outcome State Fault Refusal :=
  onLane s d l fun s => s.up fun c => c.phaseLimit d l

/-- The 24 ms Lock limit or the 36 ms attempt limit (R192). -/
def execAttemptDown (d l : Nat) (s : State) : Host.Outcome State Fault Refusal :=
  onLane s d l fun s => s.up fun c => if c.training d l then c.goDown d l else c

/-- The retry interval of a DOWN lane has passed (R194); INTERVAL_MS 0 stops retries. The working ceiling stays. -/
def execLaneRetry (d l : Nat) (s : State) : Host.Outcome State Fault Refusal :=
  onLane s d l fun s => s.up fun c =>
    if c.lstate d l = laneDOWN ∧ c.lget d l LANE.RETRY 15 0 ≠ 0 then c.startAttempt d l else c

/-- A driver lane has no receiver in service outside loops; its LOL comes by the reports of its chain (R199, R320). -/
def execLosDeclared (d l : Nat) (s : State) : Host.Outcome State Fault Refusal :=
  onLane s d l fun s => s.up fun c => if l < 8 ∨ c.lstate d l = laneLOOP then c.signalLost d l 11 6 else c

def execLosCleared (d l : Nat) (s : State) : Host.Outcome State Fault Refusal :=
  onLane s d l fun s => s.up fun c =>
    let y := c.die d
    (c.lput d l LANE.STATUS 11 11 0).setDie d { y with calLos := if l < 8 then l :: (y.calLos.filter (fun x => x ≠ l)) else y.calLos }

def execLolDeclared (d l : Nat) (s : State) : Host.Outcome State Fault Refusal :=
  onLane s d l fun s => s.up fun c => if l < 8 then c.signalLost d l 12 7 else c

def execFomMeasured (d l fom ctle vga : Nat) (dfe : List Nat) (s : State) : Host.Outcome State Fault Refusal :=
  onLane s d l fun s => s.up fun c => c.fomMeasured d l fom ctle vga dfe

def execAdaptIdleHold (d l : Nat) (s : State) : Host.Outcome State Fault Refusal := onLane s d l fun s => s.up fun c => c.idleHold d l

/-- 256 data code groups end the hold (R208). -/
def execAdaptHoldEnd (d l : Nat) (s : State) : Host.Outcome State Fault Refusal :=
  onLane s d l fun s => s.up fun c => if l < 8 then c.lput d l LANE.STATUS 13 13 0 else c

/-- Bits among which 64 in a row are right (R214). -/
def execLoopLock (d : Nat) (x : CheckRun) (s : State) : Host.Outcome State Fault Refusal :=
  onLane s d x.lane fun s => s.up fun c => c.loopBits d x.lane x.bits

/-- Bits among which 8 of 64 are wrong (R214). -/
def execLoopErr (d l : Nat) (bits : List Bool) (s : State) : Host.Outcome State Fault Refusal :=
  onLane s d l fun s => s.up fun c => c.loopBits d l bits

end Sys2Proof.Machine
end

