-- ==== Sys2Proof/Machine/Codec.lean ====
section
/-! DEFINITION. Hampers (R329 to R346): the raw layout, the residual transform, the dictionary coder and decoder, the
header, writing a tile to its slot, and the checks that every reader makes. -/

namespace Sys2Proof

/-- A channel of a pixel: 0 R, 1 G, 2 B. -/
def Px.ch (p : Px) : Nat → Nat
  | 0 => p.r.toNat
  | 1 => p.g.toNat
  | _ => p.b.toNat

/-- A pixel as 36 bits of the raw layout (R333). -/
def Px.raw (p : Px) : Nat := p.ch 0 + p.ch 1 * 2 ^ 12 + p.ch 2 * 2 ^ 24

namespace Machine

/-! ### Bit strings -/

/-- Pack values of given widths into bytes, each least significant bit first, filling the last byte with zeros (R333,
R337, R307). `acc` holds `n` bits that wait for their byte to fill. -/
def packBits (acc n : Nat) : List (Nat × Nat) → List Byte
  | [] => if n = 0 then [] else [BitVec.ofNat 8 acc]
  | (v, w) :: rest =>
    let a := acc + (v <<< n)
    let k := (n + w) / 8
    leBytes k a ++ packBits (a >>> (8 * k)) (n + w - 8 * k) rest

/-- `w` bits of a bit string held as a number, from bit `i`. -/
def bitsOf (x i w : Nat) : Nat := (x >>> i) % 2 ^ w

/-- A pixel from three channel values. -/
def pxOf (r g b : Nat) : Px := { r := BitVec.ofNat 12 r, g := BitVec.ofNat 12 g, b := BitVec.ofNat 12 b }

def blackPx : Px := pxOf 0 0 0

/-- The pixel of 36 bits. -/
def pxRaw (v : Nat) : Px := pxOf (v % 4096) (v / 4096 % 4096) (v / 2 ^ 24 % 4096)

/-- Raw bytes of pixels: a segment's 288 bytes, or a tile's 4,608 (R333, R347). -/
def rawBytes (px : List Px) : List Byte := packBits 0 0 (px.map (fun p => (p.raw, 36)))

/-- The pixels of raw bytes. -/
def rawPixels (n : Nat) (bs : List Byte) : List Px :=
  let x := leNat bs
  (List.range n).map (fun i => pxRaw (bitsOf x (36 * i) 36))

/-! ### The coder (R336, R337) -/

/-- The symbols of one colour plane: each value less the one before it. -/
def residual (p : Nat) : List Nat → List Nat
  | [] => []
  | v :: vs => (v + 4096 - p) % 4096 :: residual v vs

/-- The symbols of a tile: planes R, G and B in turn (R336). -/
def symbolsOf (px : List Px) : List Nat :=
  residual 0 (px.map (fun p => p.ch 0)) ++ residual 0 (px.map (fun p => p.ch 1)) ++ residual 0 (px.map (fun p => p.ch 2))

/-- Undo the transform in one plane. -/
def integrate (p : Nat) : List Nat → List Nat
  | [] => []
  | s :: ss => (s + p) % 4096 :: integrate ((s + p) % 4096) ss

/-- The pixels of 3,072 symbols. -/
def pixelsOf (sym : List Nat) : List Px :=
  let r := integrate 0 (sym.take 1024)
  let g := integrate 0 ((sym.drop 1024).take 1024)
  let b := integrate 0 (sym.drop 2048)
  (r.zip (g.zip b)).map (fun x => pxOf x.1 x.2.1 x.2.2)

/-- The encoder between two symbols: the code of the string in hand, the next free code, entries (prefix code × 4096 +
symbol, code), and the codes emitted, latest first. -/
structure Lzw where
  w    : Nat
  next : Nat
  dict : List (Nat × Nat)
  out  : List Nat
  deriving DecidableEq, Repr

/-- One symbol of the encoder (R337). -/
def lzwStep (x : Lzw) (s : Nat) : Lzw :=
  match x.dict.lookup (x.w * 4096 + s) with
  | some k => { x with w := k }
  | none =>
    let grow := decide (x.next ≤ 16383)
    { w := s, next := if grow then x.next + 1 else x.next,
      dict := if grow then (x.w * 4096 + s, x.next) :: x.dict else x.dict, out := x.w :: x.out }

/-- The codes of a symbol string (R337). -/
def lzwCodes : List Nat → List Nat
  | [] => []
  | s :: ss =>
    let r := ss.foldl lzwStep { w := s, next := 4096, dict := [], out := [] }
    (r.w :: r.out).reverse

/-- Width of code `i` of a body (R337). -/
def codeWidth (i : Nat) : Nat := if i < 4096 then 13 else 14

/-- The body of a symbol string: its codes packed in order (R337). -/
def lzwBody (sym : List Nat) : List Byte :=
  packBits 0 0 (((lzwCodes sym).zipIdx).map (fun x => (x.1, codeWidth x.2)))

/-! ### The decoder (R338) -/

/-- The string of a code: single symbols below 4096, then the entries made so far. -/
def lzwString (dict : Array (List Nat)) (k : Nat) : List Nat := if k < 4096 then [k] else dict.getD (k - 4096) []

/-- The decoder's loop. `fuel` bounds the codes of a tile: each gives at least one of the 3,072 symbols. -/
def lzwLoop (x total : Nat) :
    Nat → (pos i : Nat) → (dict : Array (List Nat)) → (prev : Option Nat) → (out : List Nat) → Option (List Nat)
  | 0, _, _, _, _, _ => none
  | fuel + 1, pos, i, dict, prev, out =>
    if 3072 ≤ out.length then
      if 8 ≤ total - pos ∨ x >>> pos ≠ 0 then none else some out
    else
      let w := codeWidth i
      if total < pos + w then none
      else
        let k := bitsOf x pos w
        let next := 4096 + dict.size
        let str := if k < next then some (lzwString dict k)
          else if k = next then prev.map (fun p => lzwString dict p ++ [(lzwString dict p).headD 0]) else none
        match str with
        | none => none
        | some s =>
          if 3072 < out.length + s.length then none
          else
            let dict := match prev with
              | some p => if next ≤ 16383 then dict.push (lzwString dict p ++ [s.headD 0]) else dict
              | none => dict
            lzwLoop x total fuel (pos + w) (i + 1) dict (some k) (out ++ s)

/-- Decode a DICT body; none: fails with cause CODE. -/
def lzwDecode (body : List Byte) : Option (List Px) :=
  (lzwLoop (leNat body) (8 * body.length) 3073 0 0 #[] none []).map pixelsOf

/-! ### Headers (R331, R332) -/

abbrev fmtEMPTY : Nat := 0
abbrev fmtFILL : Nat := 1
abbrev fmtDICT : Nat := 2
abbrev fmtSTORED : Nat := 3

/-- OWNER of a layer hamper is the layer ID; of a frame-plane hamper, this. -/
def planeOwner (output plane : Nat) : Nat := 0x8000 + plane * 8 + output

/-- A hamper's header bytes. -/
def hamperHeader (format : Nat) (subst : Bool) (bodyLen owner seq fill : Nat) (tcrc : Word) : List Byte :=
  leBytes 1 format ++ leBytes 1 subst.toNat ++ leBytes 2 bodyLen ++ leBytes 2 owner ++ leBytes 1 seq ++ leBytes 5 fill ++
    leBytes 4 tcrc.toNat

/-- Fill the last granule with zeros (R329). -/
def toGranules (bs : List Byte) : List Byte := bs ++ List.replicate ((64 - bs.length % 64) % 64) 0#8

/-- The format and body that the encoder chooses for a tile (R334). `checkFails`: the check decoder disagrees with a
coded body, so the tile is STORED (R343). -/
def encodeTile (noFill forceStored checkFails : Bool) (px : List Px) : Nat × List Byte :=
  let first := px.headD blackPx
  if !noFill ∧ px.all (fun p => p = first) then (fmtFILL, [])
  else if !forceStored then
    let body := lzwBody (symbolsOf px)
    if body.length ≤ 4608 ∧ !checkFails then (fmtDICT, body) else (fmtSTORED, rawBytes px)
  else (fmtSTORED, rawBytes px)

/-- The used granules of a tile's hamper. -/
def hamperOf (noFill forceStored checkFails subst : Bool) (owner seq : Nat) (px : List Px) : Nat × List Byte :=
  let e := encodeTile noFill forceStored checkFails px
  let fill := if e.1 = fmtFILL then (px.headD blackPx).raw else 0
  (e.1, toGranules (hamperHeader e.1 subst e.2.length owner seq fill (crc32c (rawBytes px)) ++ e.2))

/-- An EMPTY hamper: one granule (R342). -/
def emptyHamper (owner seq : Nat) : List Byte := toGranules (hamperHeader fmtEMPTY false 0 owner seq 0 0#32)

/-! Causes of a failed read (R339, LAST_FAIL). -/
abbrev causeFORMAT : Nat := 1
abbrev causeEMPTY : Nat := 2
abbrev causeOWNER : Nat := 3
abbrev causeSTALE : Nat := 4
abbrev causeCODE : Nat := 5
abbrev causeCRC : Nat := 6

/-- A header is well formed (R332). -/
def headerOk (h : List Byte) : Bool :=
  let f := fieldAt h 0 1
  let len := fieldAt h 2 2
  decide (f < 4) && decide (fieldAt h 1 1 < 2) && decide (len < 0x2000) && !(fieldAt h 4 2).testBit 14 &&
    !(fieldAt h 4 2).testBit 13 && !(fieldAt h 4 2).testBit 12 &&
    ((fieldAt h 4 2).testBit 15 == false || decide (fieldAt h 4 2 < 0x8010)) &&
    (if f = fmtFILL then decide (fieldAt h 7 5 < 2 ^ 36) else decide (fieldAt h 7 5 = 0)) &&
    (if f = fmtEMPTY ∨ f = fmtFILL then decide (len = 0)
     else if f = fmtDICT then decide (1 ≤ len ∧ len ≤ 4608) else decide (len = 4608))

/-- The checks of R339 in their order, over the bytes of a slot; `seq` for frame-plane reads. The pixels, or the cause. -/
def readHamper (bs : List Byte) (owner : Nat) (seq : Option Nat) : Except Nat (List Px) :=
  let f := fieldAt bs 0 1
  if !headerOk (bs.take 16) then .error causeFORMAT
  else if f = fmtEMPTY then .error causeEMPTY
  else if fieldAt bs 4 2 ≠ owner then .error causeOWNER
  else if seq.any (fun q => fieldAt bs 6 1 ≠ q % 256) then .error causeSTALE
  else
    let body := (bs.drop 16).take (fieldAt bs 2 2)
    let px := if f = fmtFILL then some (List.replicate 1024 (pxRaw (fieldAt bs 7 5)))
      else if f = fmtDICT then lzwDecode body else some (rawPixels 1024 body)
    match px with
    | none => .error causeCODE
    | some px => if (crc32c (rawBytes px)).toNat = fieldAt bs 12 4 then .ok px else .error causeCRC

/-! ### Slots (R353 to R355) -/

/-- N_ch: slots of a channel (R353), by active ranks and address order. -/
def channelSlots (ranks order : Nat) : Nat := if order = 3 then ranks * 1835008 else ranks * 2 ^ 27 / 73

/-- N_ch of a channel as configured. -/
def Chip.nCh (c : Chip) (d ch : Nat) : Nat :=
  channelSlots (c.get d (memcPage ch) MEMC.CFG 5 4) (c.get d (memcPage ch) MEMC.CFG 9 8)

/-- Number of a channel slot within a die, for `Mem.slot`. -/
def slotOf (ch cs : Nat) : Nat := ch * 2 ^ 24 + cs

/-- Slot of tile (tx, ty) of frame plane p (R354); `w` is the slice width W. -/
def Chip.planeSlot (c : Chip) (d p w tx ty : Nat) : Nat := slotOf p (c.nCh d p - 65536 + ty * (w / 64) + tx)

/-- Slot of layer slot z (R355). -/
def layerSlot (z : Nat) : Nat := slotOf (z % 2) (z / 2)

/-- A slot lies in the frame-plane region of channel `p`. -/
def Chip.inPlane (c : Chip) (d p slot : Nat) : Bool :=
  decide (slot / 2 ^ 24 = p) && decide (c.nCh d p - 65536 ≤ slot % 2 ^ 24)

/-- The bytes of a slot. A slot of an invalidated plane that nothing has written since holds an EMPTY header (R342).
What nothing has written since the frame memory last lost its content is unspecified. -/
def Chip.slotBytes (c : Chip) (m : Mem) (d slot : Nat) : List Byte :=
  let held := m.slot d slot
  let held := if held = [] ∧ (c.die d).emptied.any (fun p => c.inPlane d p slot) then emptyHamper 0x8000 0 else held
  held ++ (List.range (4672 - held.length)).map (fun i => Config.dramByte c.startAt ((slotKey d slot) * 4672 + held.length + i))

/-- Write used granules to a slot; the granules after them keep what they held (R329). -/
def Mem.storeHamper (m : Mem) (d slot : Nat) (bs : List Byte) : Mem :=
  m.setSlot d slot (bs ++ (m.slot d slot).drop bs.length)

/-- A failed read is counted under its cause and loads LAST_FAIL and LAST_FAIL_SLOT (R340); `shown` is the slot number as
the consumer counts slots. -/
def Chip.countFail (c : Chip) (d shown consumer cause : Nat) : Chip :=
  let c := c.count d CODEC (CODEC.FORMAT_FAIL_COUNT + 4 * (cause - 1))
  let c := (c.setNum d CODEC CODEC.LAST_FAIL_SLOT (shown % 2 ^ 24)).put d CODEC CODEC.LAST_FAIL 6 0 (consumer * 16 + cause)
  (c.eventIf (decide (cause = causeFORMAT ∨ cause = causeCODE ∨ cause = causeCRC)) d CODEC 1).eventIf
    (decide (cause = causeSTALE)) d CODEC 2

/-- NO_FILL and FORCE_STORED as they stand. -/
def Chip.codecCtrl (c : Chip) (d : Nat) : Bool × Bool := (c.flag d CODEC CODEC.CTRL 1, c.flag d CODEC CODEC.CTRL 0)

/-- Commit of CTRL: the first tile that an encoder starts afterwards uses it (CODEC page). The tiles in the 16 encoders keep the
settings that they started with (R350). -/
def Chip.codecStepPoint (c : Chip) (d : Nat) : Chip :=
  let y := c.die d
  let started := (y.encQ.take 16).map fun j => { j with ctrl := some (j.ctrl.getD (c.codecCtrl d)) }
  (c.setDie d { y with encQ := started ++ y.encQ.drop 16 }).applyStaged d CODEC

/-- Page event and counter of a copy disagreement at a stage (R349); the sixteenth of a stage within a frame latches
PAIR_FAULT. -/
def State.pairMismatch (s : State) (d stage : Nat) : State :=
  let counter := if stage = 2 then CODEC.CONV_COUNT else if stage = 5 then CODEC.PAIR_COUNT_5
    else if stage = 7 then CODEC.PAIR_COUNT_5 + 4 else if stage = 8 then CODEC.PAIR_COUNT_5 + 8 else CODEC.PAIR_COUNT_5 + 12
  let s := s.up fun c =>
    let x := c.die d
    let c := c.setDie d { x with pairs := KMap.put 0 x.pairs stage (KMap.getD x.pairs stage 0 + 1) }
    (c.count d CODEC counter).event d CODEC 5
  if KMap.getD (s.chip.die d).pairs stage 0 = 16 then
    let s := s.up fun c => c.put d CODEC CODEC.LAST_FAIL 11 8 stage
    let was := s.chip.faultCode d CODEC
    (s.fatal d 2).up fun c => c.eventIf (decide (was ≠ 0x01)) d CODEC 6
  else s

end Machine

end Sys2Proof
end

