-- ==== Sys2Proof/Machine/MemCtrl.lean ====
section
/-! DEFINITION. The DDR5 frame-memory controller (R351 to R379): configuration, errors, sparing and migration, refresh,
power states, the scheduler, frequency changes, and writing hampers to slots. -/

namespace Sys2Proof.Machine

/-! STATE codes of the MEMC pages. -/
abbrev mcIDLE : Nat := 1
abbrev mcINIT : Nat := 2
abbrev mcRUN : Nat := 3
abbrev mcMIGRATE : Nat := 4
abbrev mcFREQ : Nat := 5
abbrev mcLOST : Nat := 6

def Chip.mget (c : Chip) (d ch o hi lo : Nat) : Nat := c.get d (memcPage ch) o hi lo
def Chip.mput (c : Chip) (d ch o hi lo v : Nat) : Chip := c.put d (memcPage ch) o hi lo v
def Chip.mcount (c : Chip) (d ch o : Nat) : Chip := c.count d (memcPage ch) o
def Chip.mevent (c : Chip) (d ch b : Nat) : Chip := c.event d (memcPage ch) b

/-- The channel serves its ports. -/
def Chip.serving (c : Chip) (d ch : Nat) : Bool := c.ready d (memcPage ch)

/-- The channel's memory PLL is out of lock (R54). -/
def Chip.unclocked (c : Chip) (d ch : Nat) : Bool :=
  decide (c.get d CLK CLK.PLL_STATUS (1 + ch) (1 + ch) = 0) && decide (c.state d (memcPage ch) ≠ mcFREQ)

/-- Reads and writes of a channel work: it serves, and its clocks run (R54). -/
def Chip.reads (c : Chip) (d ch : Nat) : Bool := c.serving d ch && !c.unclocked d ch

/-- The channel is configured: running, migrating or changing frequency. -/
def Chip.chanRuns (c : Chip) (d ch : Nat) : Bool :=
  let st := c.state d (memcPage ch)
  st = mcRUN || st = mcMIGRATE || st = mcFREQ

def Chip.migrating (c : Chip) (d ch : Nat) : Bool := c.mget d ch MEMC.MIGRATE 31 31 = 1

/-- Pending refresh count P of a logical rank (R364). -/
def Chip.pendingRef (c : Chip) (d ch r : Nat) : Int := signed 4 (c.mget d ch MEMC.STATUS (4 * r + 3) (4 * r))
def Chip.setPendingRef (c : Chip) (d ch r : Nat) (v : Int) : Chip :=
  c.mput d ch MEMC.STATUS (4 * r + 3) (4 * r) (unsigned 4 v)

/-- Physical rank that carries a logical rank (R358). -/
def Chip.physRank (c : Chip) (d ch r : Nat) : Nat := if c.mget d ch MEMC.STATUS 29 28 = r + 1 then 2 else r

/-- A place in the DRAM of a channel (R357): logical rank, row, bank group, bank, subchannel and column burst, and the 32 KiB unit of
the rank in which a migration copies it (R374). -/
structure DramPlace where
  rank : Nat
  row  : Nat
  bg   : Nat
  ba   : Nat
  sc   : Nat
  col  : Nat
  unit : Nat
  deriving DecidableEq, Repr

/-- The place of granule `g` of channel slot `cs` in address orders 0 to 3 (R357). -/
def dramPlace (order cs g : Nat) : DramPlace :=
  if order = 3 then
    let q := cs / 7
    let u := 73 * (cs % 7) + g
    { rank := q / 2 ^ 18, row := q / 4 % 2 ^ 16, bg := u / 2 % 4, ba := q % 4, sc := u % 2, col := u / 8 % 64, unit := q % 2 ^ 18 }
  else
    let l := 73 * cs + g
    let bits := fun (lo n : Nat) => l / 2 ^ lo % 2 ^ n
    { rank := l / 2 ^ 27, row := bits 11 16, sc := bits 0 1, unit := l % 2 ^ 27 / 512,
      bg := if order = 0 then bits 9 2 else if order = 1 then bits 3 2 else bits 1 2,
      ba := if order = 0 then bits 7 2 else if order = 1 then bits 1 2 else bits 9 2,
      col := if order = 0 then bits 1 6 else if order = 1 then bits 5 6 else bits 3 6 }

def Chip.reqPlace (c : Chip) (d ch : Nat) (r : MemReq) : DramPlace := dramPlace (c.mget d ch MEMC.CFG 9 8) r.slot r.granule

/-- Logical rank and 32 KiB unit of a channel slot. -/
def Chip.slotPlace (c : Chip) (d ch cs : Nat) : Nat × Nat :=
  let x := dramPlace (c.mget d ch MEMC.CFG 9 8) cs 0
  (x.rank, x.unit)

/-- Physical rank that an access of a channel slot goes to (R358, R374). -/
def Chip.slotRank (c : Chip) (d ch cs : Nat) : Nat :=
  let x := c.slotPlace d ch cs
  if c.migrating d ch ∧ c.mget d ch MEMC.MIGRATE 28 28 = x.1 ∧ x.2 < (c.chan d ch).units then 2
  else c.physRank d ch x.1

/-- The physical ranks that carry a request (R358, R374): while its rank migrates, what is copied stands on the spare, and a write to
the unit being copied goes to both; port 5 itself reads the failing rank and writes the spare. -/
def Chip.reqRanks (c : Chip) (d ch : Nat) (r : MemReq) : List Nat :=
  let x := c.reqPlace d ch r
  let ph := c.physRank d ch x.rank
  if c.migrating d ch ∧ c.mget d ch MEMC.MIGRATE 28 28 = x.rank then
    if r.port = 5 then [if r.write then 2 else ph]
    else if x.unit < (c.chan d ch).units then [2]
    else if x.unit = (c.chan d ch).units ∧ r.write then [ph, 2]
    else [ph]
  else [ph]

/-- TOL last stated, in ns (R293). -/
def Chip.tol (c : Chip) (d : Nat) : Nat := c.get d SCAN SCAN.LAT_TOL 23 0

/-- COMP.READY and SLOT_LIMIT follow the die's channels (R355, COMP page). -/
def Chip.noteChannels (c : Chip) (d : Nat) : Chip :=
  let both := c.serving d 0 && c.serving d 1
  let c := c.setReady d COMP both
  if both then c.setNum d COMP COMP.SLOT_LIMIT (2 * (c.nCh d 0 - 75776)) else c

/-- A timing set is valid (R368). -/
def Chip.setValid (c : Chip) (d ch t : Nat) : Bool :=
  let p := memcPage ch
  let o := if t = 0 then MEMC.TSET_A else MEMC.TSET_B
  let byte := fun x k => c.get d p (o + x) (8 * k + 7) (8 * k)
  ((List.range 3).all fun k => byte 0 k ≠ 0) && ((List.range 4).all fun k => byte 4 k ≠ 0) &&
    byte 8 2 ≠ 0 && byte 8 3 ≠ 0 && decide (c.get d p o 26 24 ≤ 3) && decide (295 ≤ c.get d p (o + 8) 15 0) &&
    (c.chan d ch).phyOk

/-- Data rates by code, in MT/s. -/
def dramRate (code : Nat) : Nat := if code = 0 then 8000 else if code = 1 then 6400 else if code = 2 then 4800 else 3200

/-- The time of `n` controller cycles in ns: the controller clock is one quarter of the DRAM clock (R368). -/
def Chip.ctlTime (c : Chip) (d ch n : Nat) : Nat :=
  let rate := dramRate (c.mget d ch (if c.mget d ch MEMC.CFG 0 0 = 0 then MEMC.TSET_A else MEMC.TSET_B) 26 24)
  (n * 8000 + rate - 1) / rate

/-- tRFC1 of the set in use. -/
def Chip.trfc (c : Chip) (d ch : Nat) : Nat :=
  c.mget d ch ((if c.mget d ch MEMC.CFG 0 0 = 0 then MEMC.TSET_A else MEMC.TSET_B) + 8) 15 0

/-- READY of the MEMPHY page: its PLL is locked and VDDQ_MEM is in range. -/
def Chip.notePhy (c : Chip) (d ch : Nat) : Chip :=
  let c := c.put d (memphyPage ch) MEMPHY.PHY_STATUS 1 1 (c.get d CLK CLK.PLL_STATUS (1 + ch) (1 + ch))
  c.put d (memphyPage ch) PAGE_STATUS 0 0 (decide (c.get d (memphyPage ch) MEMPHY.PHY_STATUS 2 1 = 3)).toNat

def isRankSpare (d ch : Nat) (r : Req) : Bool :=
  match r.cmd with | .rankSpare k _ => decide (r.die = d) && decide (k = ch) | _ => false
/-- DRAM_FREQ of a die: waiting for its window, or with its change under way. -/
def isDramFreq (d : Nat) (open_ : Bool) (r : Req) : Bool :=
  match r.cmd with | .dramFreq _ _ => decide (r.die = d) && r.started && (r.pnr == open_) | _ => false
def isDramConfig (d ch : Nat) (r : Req) : Bool :=
  match r.cmd with | .dramConfig p => decide (r.die = d) && decide (fieldAt p 0 1 = ch) | _ => false

/-! ### Margin scans in progress (R411 to R414) -/

def isMargin (o : Nat) (r : Req) : Bool := match r.cmd with | .marginScan p => decide (fieldAt p 0 1 = o) && r.started | _ => false

/-- Key of a rank of a channel, and of a channel, in a margin scan. -/
def scanKey (d ch r : Nat) : Nat := d * 16 + ch * 4 + r

/-- The completion of a delay-window scan (R412): 32 bytes for each rank of each channel of each die. -/
def windowPayload (dies : List Nat) (m : MarginRun) : List Byte :=
  dies.flatMap fun d => [0, 1].flatMap fun ch => [0, 1, 2].flatMap fun r =>
    KMap.getD m.got (scanKey d ch r) (List.replicate 32 0xFF#8)

/-- The completion of a retention scan (R414): one byte for each die. -/
def retentionPayload (dies : List Nat) (m : MarginRun) : List Byte :=
  dies.map fun d => BitVec.ofNat 8 (KMap.getD m.codes (scanKey d 0 0) 0 + 4 * KMap.getD m.codes (scanKey d 1 0) 0)

/-- A margin scan ends when nothing is left to scan. -/
def Chip.marginNote (c : Chip) (o : Nat) : Chip :=
  match (c.out o).scan, (c.reqs (isMargin o)).head? with
  | some m, some r =>
    if m.todo ≠ [] then c
    else
      let p := match r.cmd with | .marginScan p => p | _ => []
      let x := c.out o
      let c := (c.setOut o { x with scan := none }).each (c.gang o) fun c d => c.setState d AGE 1
      if fieldAt p 1 1 = 0 then c.finish r (if m.bad then FAIL else OK) (if m.bad then 1 else 0) (windowPayload (c.gang o) m)
      else
        let named := fun ch => (fieldAt p 2 1).testBit ch
        let good := (c.gang o).all fun d => [0, 1].all fun ch =>
          !named ch || decide (KMap.getD m.codes (scanKey d ch 0) 0 = 1) || decide (KMap.getD m.codes (scanKey d ch 0) 0 = 2)
        c.finish r (if good then OK else FAIL) (if good then 0 else 2) (retentionPayload (c.gang o) m)
  | _, _ => c

/-- Change the scan in progress of the output that a die belongs to. -/
def Chip.setScan (c : Chip) (d : Nat) (f : MarginRun → MarginRun) : Chip :=
  let o := c.leadOf d
  let x := c.out o
  (c.setOut o { x with scan := x.scan.map f }).marginNote o

/-- The result of a channel's retention scan (R414). -/
def Chip.retentionResult (c : Chip) (d ch code : Nat) : Chip :=
  let x := c.chan d ch
  let c := (c.setChan d ch { x with holding := false }).put d AGE AGE.RETENTION (2 * ch + 1) (2 * ch) code
  c.setScan d fun m => { m with todo := m.todo.filter (fun k => k ≠ scanKey d ch 0), codes := KMap.set m.codes (scanKey d ch 0) code }

/-- What a margin scan has left on a channel falls away: the channel is lost, or its spare is needed. -/
def Chip.stopScan (c : Chip) (d ch : Nat) : Chip :=
  if (c.chan d ch).holding then c.retentionResult d ch 0
  else if (c.out (c.leadOf d)).scan.any (fun m => m.todo.any (fun k => decide (k / 4 = d * 4 + ch))) then
    c.setScan d fun m => { m with todo := m.todo.filter (fun k => k / 4 ≠ d * 4 + ch) }
  else c

/-! ### Out of service, migration (R373 to R375) -/

/-- Open tiles in the spill slots of a channel lose their pixels with its content (R356). -/
def Chip.spillLost (c : Chip) (d ch : Nat) : Chip :=
  let y := c.die d
  c.setDie d { y with asm := y.asm.map fun t => if t.spill.any (fun i => i % 2 = ch) then { t with pixels := [] } else t }

/-- A frequency change under way ends without a channel; the command fails when no other of its channels is left. -/
def Chip.freqCut (c : Chip) (d ch status : Nat) : Chip :=
  let x := c.chan d ch
  let c := c.setChan d ch { x with freqTo := none }
  c.when (x.freqTo.isSome && (c.chan d (1 - ch)).freqTo.isNone) fun c => c.finishAll (isDramFreq d true) status 0

/-- The channel goes out of service (R375). -/
def State.channelLost (s : State) (d ch : Nat) : State :=
  let p := memcPage ch
  let s := s.up fun c =>
    let c := (c.freqCut d ch FAIL).spillLost d ch
    let x := c.chan d ch
    let c := c.setChan d ch { x with queue := [], inorder := [], retry := none, lostAt := some c.now }
    let c := ((c.setState d p mcLOST).mput d ch MEMC.MIGRATE 31 31 0).mput d ch MEMC.STATUS 27 26 0
    let c := (c.finishAll (isRankSpare d ch) FAIL 2).mevent d ch 9
    let c := (((c.setReady d p false).setDegraded d p false).noteChannels d).stopScan d ch
    let o := c.leadOf d
    let x := c.out o
    c.setOut o { x with lossDue := true, planes := x.planes.set! ch { x.planes.getD ch {} with complete := false } }
  s.latch d p 0x04

/-- A migration of logical rank `r` starts (R373, R374). -/
def Chip.migrateStart (c : Chip) (d ch r : Nat) : Chip :=
  let c := if (c.chan d ch).holding then c.retentionResult d ch 0 else c
  let x := c.chan d ch
  let c := c.setChan d ch { x with units := 0, migAt := none, refNext := KMap.set x.refNext 2 (KMap.getD x.refNext 0 c.now) }
  ((c.setNum d (memcPage ch) MEMC.MIGRATE (2 ^ 31 + r % 2 * 2 ^ 28)).setState d (memcPage ch) mcMIGRATE).mevent d ch 6

/-- An uncorrectable error of a physical rank (R373, R378). -/
def State.uncorrectable (s : State) (d ch rank : Nat) : State :=
  let c := s.chip
  if !c.chanRuns d ch ∨ (c.mget d ch MEMC.CFG 5 4 ≤ rank ∧ rank ≠ 2) then s
  else if c.state d (memcPage ch) = mcFREQ then
    s.up fun c => let x := c.chan d ch; c.setChan d ch { x with errAfter := some rank }
  else
    let spare := c.mget d ch MEMC.STATUS 31 30
    let spared := c.mget d ch MEMC.STATUS 29 28
    if c.migrating d ch then
      if rank = c.mget d ch MEMC.MIGRATE 28 28 then s
      else
        (s.up fun c => if rank = 2 then c.mput d ch MEMC.STATUS 31 30 3 else c).channelLost d ch
    else if rank = 2 then
      if spare = 1 then
        (s.up fun c => (c.mput d ch MEMC.STATUS 31 30 3).mevent d ch 8).latch d (memcPage ch) 0x02
      else if spare = 2 then s.channelLost d ch else s
    else if spared = rank + 1 then s
    else if spare = 1 then s.up fun c =>
      let c := c.migrateStart d ch rank
      let x := c.chan d ch
      c.setChan d ch { x with migAt := some c.now }
    else s.channelLost d ch

/-- The migration ends after its last unit (R374, R377). -/
def State.migrateDone (s : State) (d ch : Nat) : State :=
  let c := s.chip
  let p := memcPage ch
  if c.migrating d ch ∧ (c.chan d ch).units = 262144 then
    let r := c.mget d ch MEMC.MIGRATE 28 28
    let s := s.latch d p 0x01
    s.up fun c =>
      let c := (c.mput d ch MEMC.STATUS 31 28 (2 * 4 + (r + 1))).mput d ch MEMC.MIGRATE 31 31 0
      let c := ((c.setDegraded d p true).setState d p mcRUN).mevent d ch 7
      let x := c.chan d ch
      (c.setChan d ch { x with tookOver := some (2, c.now), refNext := KMap.erase x.refNext 2 }).finishAll (isRankSpare d ch) OK 0
  else s

/-- An error has started a migration of the rank in this cycle (R378). -/
def Chip.sameMigration (c : Chip) (d ch rank : Nat) : Bool :=
  c.migrating d ch && decide (c.mget d ch MEMC.MIGRATE 28 28 = rank) && decide ((c.chan d ch).migAt = some c.now)

/-- The status with which RANK_SPARE is refused: the rank is not active on a configured channel, or the channel cannot take it. -/
def Chip.rankStatus (c : Chip) (d ch rank : Nat) : Nat :=
  let n := c.mget d ch MEMC.CFG 5 4
  lowest [if n ≠ 0 ∧ n ≤ rank then ARG else OK,
    if !c.serving d ch || (c.migrating d ch && !c.sameMigration d ch rank) then BUSY else OK]

/-- RANK_SPARE (R377). -/
def State.rankSpare (s : State) (r : Req) (d ch rank : Nat) : State :=
  let c := s.chip
  if c.rankStatus d ch rank ≠ OK then s.done r (c.rankStatus d ch rank)
  else if c.sameMigration d ch rank then s
  else if c.mget d ch MEMC.STATUS 31 30 ≠ 1 then s.finish r FAIL 1 []
  else s.up fun c => c.migrateStart d ch rank

/-! ### Errors (R372) -/

/-- Keep the times that lie within a span before now. -/
def recent (now span : Nat) (l : List (Nat × Nat)) : List (Nat × Nat) := l.filter (fun x => decide (now < x.2 + span))

/-- COUNTS of ERR_RANK: errors of a physical rank within the last 1 s. -/
def Chip.rankErrors (c : Chip) (d ch rank : Nat) : Nat :=
  let x := c.chan d ch
  ((recent c.now 1000000000 (x.errors ++ x.cmdErrs ++ x.wcrcErrs)).filter (fun e => e.1 = rank)).length

/-- Errors of a channel count while it runs, and in the cycle in which it went out of service (R378). -/
def Chip.errorsCount (c : Chip) (d ch : Nat) : Bool := c.chanRuns d ch || decide ((c.chan d ch).lostAt = some c.now)

/-- LAST_ERR. -/
def Chip.lastErr (c : Chip) (d ch kind : Nat) (slot : Option Nat) : Chip :=
  let c := c.mput d ch MEMC.LAST_ERR 26 24 kind
  match slot with
  | some cs => c.mput d ch MEMC.LAST_ERR 23 0 cs
  | none => c

/-- A consumer reports a read error, or a write error (STALE), of a channel slot (R340, R372). -/
def State.slotError (s : State) (d ch cs : Nat) (stale : Bool) : State :=
  let c := s.chip
  if !c.errorsCount d ch then s
  else
    let rank := c.slotRank d ch cs
    let x := c.chan d ch
    let known := x.suspects.lookup cs
    let suspects := if known.isSome then x.suspects
      else (if 64 ≤ x.suspects.length then x.suspects.drop 1 else x.suspects) ++ [(cs, false)]
    let errors := recent c.now 1000000000 x.errors ++ [(rank, c.now)]
    -- what comes within 1 s of a migration's end does not count on the rank that took over
    let exempt := fun (e : Nat × Nat) => x.tookOver.any (fun t => decide (t.1 = rank) && decide (t.2 ≤ e.2) && decide (e.2 < t.2 + 1000000000))
    let many := decide (16 ≤ (errors.filter (fun e => decide (e.1 = rank) && !exempt e)).length)
    let s := s.up fun c =>
      let c := c.setChan d ch { x with suspects := suspects, errors := errors }
      let c := c.mcount d ch (if stale then MEMC.WRITE_ERR_COUNT else MEMC.READ_ERR_COUNT)
      (c.lastErr d ch (if stale then 2 else 1) (some cs)).mevent d ch (if stale then 1 else 0)
    if known = some true ∨ many then s.uncorrectable d ch rank else s

/-- A read of a slot has failed with a cause (R340): FORMAT, CODE and CRC are read errors of the slot, STALE a write
error; EMPTY and OWNER are reported to nobody. -/
def State.readFailed (s : State) (d slot shown consumer cause : Nat) : State :=
  let s := s.up fun c => c.countFail d shown consumer cause
  if cause = causeFORMAT ∨ cause = causeCODE ∨ cause = causeCRC then s.slotError d (slot / 2 ^ 24) (slot % 2 ^ 24) false
  else if cause = causeSTALE then s.slotError d (slot / 2 ^ 24) (slot % 2 ^ 24) true
  else s

/-! ### Writing slots -/

/-- A write of a slot: the channel must serve. A suspect slot counts as written since its failure (R372). -/
def State.writeSlot (s : State) (d slot : Nat) (bs : List Byte) : State :=
  let ch := slot / 2 ^ 24
  if s.chip.reads d ch then
    (s.mapMem fun m => m.storeHamper d slot bs).up fun c =>
      let x := c.chan d ch
      let cs := slot % 2 ^ 24
      c.setChan d ch { x with suspects := x.suspects.map (fun e => if e.1 = cs then (cs, true) else e),
                              retry := if x.retry.any (fun e => e.1 = cs) then none else x.retry }
  else s

/-- Write a hamper to its slot: its granules count when the channel takes them (CODEC page). -/
def State.putHamper (s : State) (d slot : Nat) (bs : List Byte) : State :=
  (s.writeSlot d slot bs).up fun c => c.when (s.chip.reads d (slot / 2 ^ 24)) fun c => c.countBy d CODEC CODEC.GRANULE_COUNT (bs.length / 64)

/-- Write a tile to its slot (R334, R343): format counters, GRANULE_COUNT, and ENC_CHECK. `ctrl`: NO_FILL and FORCE_STORED. -/
def State.storeTile (s : State) (d slot owner seq : Nat) (ctrl : Bool × Bool) (subst checkFails : Bool) (px : List Px) : State :=
  let plain := encodeTile ctrl.1 ctrl.2 false px
  let failed := checkFails && decide (plain.1 = fmtDICT)
  let h := hamperOf ctrl.1 ctrl.2 failed subst owner seq px
  (s.putHamper d slot h.2).up fun c =>
    let c := c.when (s.chip.reads d (slot / 2 ^ 24)) fun c => c.count d CODEC (CODEC.FILL_COUNT + 4 * (h.1 - 1))
    if failed then (c.count d CODEC CODEC.ENC_CHECK_COUNT).event d CODEC 0 else c

/-! ### Refresh (R363 to R365) -/

/-- A REFab of a logical rank is issued: P falls by 1, the rank's rows close (R361), and committed delays of the rank
take effect (R371). -/
def Chip.refab (c : Chip) (d ch r : Nat) : Chip :=
  let c := c.setPendingRef d ch r (c.pendingRef d ch r - 1)
  let x := c.chan d ch
  let ph := c.physRank d ch r
  let c := c.setChan d ch { x with banks := x.banks.map (fun kv => if kv.1 / 32 = ph then (kv.1, { kv.2 with row := none }) else kv),
                                   delays := x.delays.filter (fun k => k ≠ ph) }
  if x.delays.contains ph then
    let t := c.mget d ch MEMC.CFG 0 0
    let p := memphyPage ch
    let mine := fun (o : Nat) => decide (MEMPHY.LANE_DLY + 0x80 * t + 0x20 * ph ≤ o) && decide (o < MEMPHY.LANE_DLY + 0x80 * t + 0x20 * ph + 0x20)
    let c := c.each ((c.stagedOf d p).filter (fun kv => mine kv.1)) fun c kv => c.setReg d p kv.1 kv.2
    let c : Chip := { c with staged := c.staged.filter (fun kv => !(decide (kv.1 / 0x1000 = d * 0x1000 + p) && mine (kv.1 % 0x1000))) }
    if (c.chan d ch).delays = [] then
      let y := c.chan d ch
      ((c.applyStaged d p).clearCommit d p).setChan d ch { y with phyOk := true }
    else c
  else c

/-- A queued request addresses a rank: a logical one, or the spare that a migration copies onto. -/
def Chip.addresses (c : Chip) (d ch r : Nat) (q : MemReq) : Bool :=
  if r = 2 then (c.reqRanks d ch q).contains 2 else decide ((c.reqPlace d ch q).rank = r)

/-- A REFab may go out now (R364). -/
def Chip.refreshAllowed (c : Chip) (d ch r : Nat) : Bool :=
  !(c.chan d ch).queue.any (fun q => c.addresses d ch r q.req) ||
    decide (c.trfc d ch + c.mget d ch MEMC.REFRESH 7 0 ≤ c.tol d)

/-- Logical ranks that take refresh commands (R363, R374): the active ones, and the spare while a migration copies onto it. -/
def Chip.refreshRanks (c : Chip) (d ch : Nat) : List Nat :=
  List.range (c.mget d ch MEMC.CFG 5 4) ++ (if c.migrating d ch then [2] else [])

/-- tREFI in ns (R363, R365). -/
def Chip.trefi (c : Chip) (d ch : Nat) : Nat :=
  if 1 ≤ c.mget d ch MEMC.STATUS 25 24 ∨ c.mget d ch MEMC.REFRESH 9 8 = 2 then 1950 else 3900

/-- The refreshes of a channel that begins to run: those of logical rank r come r × tREFI ÷ 2 after those of rank 0 (R363). -/
def Chip.refreshStart (c : Chip) (d ch : Nat) : Chip :=
  let x := c.chan d ch
  let t := c.trefi d ch
  c.setChan d ch { x with refNext := (List.range (c.mget d ch MEMC.CFG 5 4)).map fun r => (r, c.now + t + r * t / 2) }

/-- When the next refresh of a rank falls due. -/
def Chip.refreshAt (c : Chip) (d ch r : Nat) : Nat := KMap.getD (c.chan d ch).refNext r c.now

/-- A rank's refresh falls due, every tREFI (R363, R364). In self-refresh and while the frequency changes the components refresh
themselves. -/
def Chip.refreshDue (c : Chip) (d ch r : Nat) : Chip :=
  if !c.chanRuns d ch ∨ r ∉ c.refreshRanks d ch ∨ c.now < c.refreshAt d ch r then c
  else
    let x := c.chan d ch
    let c := c.setChan d ch { x with refNext := KMap.set x.refNext r (c.refreshAt d ch r + c.trefi d ch) }
    if 2 ≤ c.mget d ch MEMC.STATUS 27 26 then c
    else
      let was := c.pendingRef d ch r
      if was = 4 then
        let c := (c.mcount d ch MEMC.REF_FORCED_COUNT).mevent d ch 4
        (c.refab d ch r).setPendingRef d ch r 4
      else
        let c := c.setPendingRef d ch r (was + 1)
        if 0 < was + 1 ∧ c.refreshAllowed d ch r then c.refab d ch r
        else if 0 < was then c.mcount d ch MEMC.REF_POSTPONED_COUNT else c

/-- The refreshes that the controller makes up for in a scheduler cycle, and pulls in when nothing is queued, which it
may do (R364). -/
def Chip.refreshPass (c : Chip) (d ch : Nat) : Chip :=
  let ranks := c.refreshRanks d ch
  let c := c.each ranks fun c r =>
    if 0 < c.pendingRef d ch r ∧ c.refreshAllowed d ch r then c.refab d ch r else c
  if (c.chan d ch).queue = [] then
    c.each ranks fun c r =>
      if -4 < c.pendingRef d ch r ∧ c.pendingRef d ch r ≤ 0 ∧ Config.freeBool c.fresh then (c.tick).refab d ch r else c.tick
  else c

/-- MR4 of every rank is read (R363, R365). -/
def Chip.mr4Poll (c : Chip) (d ch : Nat) (codes : List Nat) : Chip :=
  if !c.chanRuns d ch then c
  else
    let hot := min 2 (codes.foldl max 0)
    let was := c.mget d ch MEMC.STATUS 25 24
    let pin := c.mget d ch MEMC.REFRESH 9 8
    let c := c.mput d ch MEMC.STATUS 25 24 hot
    c.events d (memcPage ch)
      ((if was < hot then [11] else []) ++ (if pin = 1 ∧ 1 ≤ hot then [12] else []) ++ (if pin = 2 ∧ hot = 0 then [13] else []))

/-! ### Power states (R366) -/

/-- The queue has been empty for `n` controller cycles. -/
def Chip.idleFor (c : Chip) (d ch n : Nat) : Bool :=
  decide ((c.chan d ch).queue = []) && decide ((c.chan d ch).idleAt + c.ctlTime d ch n ≤ c.now)

def Chip.powerDownEntry (c : Chip) (d ch : Nat) : Chip :=
  if c.chanRuns d ch ∧ c.mget d ch MEMC.STATUS 27 26 = 0 ∧ c.idleFor d ch (c.mget d ch MEMC.POWER 7 0) ∧ c.mget d ch MEMC.POWER 7 0 ≠ 0 ∧
      20 ≤ c.tol d then c.mput d ch MEMC.STATUS 27 26 1 else c

def Chip.selfRefreshEntry (c : Chip) (d ch : Nat) : Chip :=
  if c.chanRuns d ch ∧ c.mget d ch MEMC.STATUS 27 26 ≤ 1 ∧ c.idleFor d ch (4 * c.mget d ch MEMC.POWER 15 8) ∧ c.mget d ch MEMC.POWER 31 16 ≠ 0xFFFF ∧
      c.mget d ch MEMC.POWER 31 16 ≤ c.tol d ∧ (List.range (c.mget d ch MEMC.CFG 5 4)).all (fun r => c.pendingRef d ch r ≤ 0) then
    (c.mput d ch MEMC.STATUS 27 26 2).mcount d ch MEMC.SR_ENTRY_COUNT
  else c

/-- The time that the exit from a low-power state takes: 20 ns, and tXS + 50 ns, where tXS is tRFC1 + 10 ns (R366). -/
def Chip.exitTime (c : Chip) (d ch : Nat) : Nat := if c.mget d ch MEMC.STATUS 27 26 = 1 then 20 else c.trfc d ch + 60

/-- A request, or the tolerance at the exit time, takes the channel out of a low-power state (R366). -/
def Chip.lowPowerExit (c : Chip) (d ch : Nat) : Chip :=
  let st := c.mget d ch MEMC.STATUS 27 26
  if (c.chan d ch).queue = [] ∧ c.exitTime d ch < c.tol d then c
  else if st = 1 then c.mput d ch MEMC.STATUS 27 26 0
  else if st = 2 then (c.mput d ch MEMC.STATUS 27 26 0).mput d ch MEMC.STATUS 11 0 0
  else c

/-! ### The scheduler (R359 to R362, R367) -/

/-- Priority of a port; ports 0 and 1 are held at 1 (R360). -/
def Chip.portPrio (c : Chip) (d ch p : Nat) : Nat :=
  let v := c.mget d ch MEMC.PRIO (3 * p + 2) (3 * p)
  if p < 2 then min 1 v else v

/-- Full hazard mode for a request (R362). -/
def Chip.fullHazard (c : Chip) (d ch : Nat) (r : QueuedReq) : Bool :=
  c.dieMode d = BRINGUP || c.dieMode d = MEASURE || c.migrating d ch || bit r.policy 8

/-- Bank of a request within its rank, over both subchannels. -/
def DramPlace.bank (x : DramPlace) : Nat := x.sc * 16 + x.bg * 4 + x.ba

/-- Bank of a request by logical rank, and its row. -/
def Chip.bankRow (c : Chip) (d ch : Nat) (r : MemReq) : Nat × Nat :=
  let x := c.reqPlace d ch r
  (x.rank * 32 + x.bank, x.row)

/-- Key of a bank of a physical rank, and of a row with the port that opens it (R367). -/
def Chip.bankKey (c : Chip) (d ch rank : Nat) (r : MemReq) : Nat := rank * 32 + (c.reqPlace d ch r).bank
def Chip.rowKey (c : Chip) (d ch rank : Nat) (r : MemReq) : Nat :=
  (c.bankKey d ch rank r * 65536 + (c.reqPlace d ch r).row) * 8 + r.port

def sameGranule (a b : MemReq) : Bool := decide (a.slot = b.slot) && decide (a.granule = b.granule)

/-- The gap that a throttled port keeps between activations of a row, in ns (R367). -/
def Chip.rhGap (c : Chip) (d ch : Nat) : Nat := max 16 (c.mget d ch MEMC.RH 7 0) * 1000

/-- The row that a request needs is open on a rank. -/
def Chip.rowOpen (c : Chip) (d ch rank : Nat) (r : MemReq) : Bool :=
  decide ((KMap.getD (c.chan d ch).banks (c.bankKey d ch rank r) {}).row = some (c.reqPlace d ch r).row)

/-- A request takes its place in the queue with the values in effect (R379). At most 64 write granules wait there (R362): a write
beyond them stays with its port. -/
def Chip.enqueue (c : Chip) (d ch : Nat) (l : List MemReq) : Chip :=
  c.each l fun c r =>
    let x := c.chan d ch
    if r.write ∧ 64 ≤ (x.queue.filter (fun q => q.req.write)).length then c
    else c.setChan d ch { x with queue := x.queue ++
      [{ req := r, policy := c.reg d (memcPage ch) MEMC.POLICY, prio := c.portPrio d ch r.port, gap := c.rhGap d ch }] }

/-- Whether the request after `before` may issue in this cycle: first of its bank in in-order mode, no earlier write to its granule
waiting (reads in full mode are forwarded), and not held back by the row-hammer throttle. -/
def Chip.eligible (c : Chip) (d ch : Nat) (before : List QueuedReq) (r : QueuedReq) : Bool :=
  let x := c.chan d ch
  let bank := (c.bankRow d ch r.req).1
  let twin := before.any (fun q => q.req.write && sameGranule q.req r.req)
  !(x.inorder.any (fun e => e.1 = bank) && before.any (fun q => decide ((c.bankRow d ch q.req).1 = bank))) &&
    (!twin || (!r.req.write && c.fullHazard d ch r)) &&
    (c.reqRanks d ch r.req).all fun k =>
      c.rowOpen d ch k r.req || decide (x.rowsAt + 32000000 ≤ c.now) ||
        match KMap.get? x.throttle (c.rowKey d ch k r.req) with
        | some t => decide (t + r.gap ≤ c.now)
        | none => true

/-- The requests with what stands before each in the queue. -/
def withBefore (seen : List QueuedReq) : List QueuedReq → List (List QueuedReq × QueuedReq)
  | [] => []
  | r :: rs => (seen, r) :: withBefore (seen ++ [r]) rs

/-- Activation of a row of a rank: it counts in the window of 32 ms (R367). The sketch may show more than the count, by a free
value (assumption log 89); a throttled port stays throttled until the window ends. -/
def Chip.activate (c : Chip) (d ch rank : Nat) (r : MemReq) : Chip :=
  let x := c.chan d ch
  let x := if x.rowsAt + 32000000 ≤ c.now then { x with rows := [], throttle := [], rowsAt := c.now } else x
  let key := c.rowKey d ch rank r
  let n := KMap.getD x.rows (key / 8) 0 + 1
  let shown := n + Config.freeNat c.fresh
  let known := (KMap.get? x.throttle key).isSome
  let x := { x with rows := KMap.put 0 x.rows (key / 8) n,
                    throttle := if 2048 < shown ∨ known then KMap.set x.throttle key c.now else x.throttle }
  let c := (c.setChan d ch x).tick
  if 2048 < shown ∧ !known then (c.mcount d ch MEMC.RH_THROTTLE_COUNT).mevent d ch 5 else c

/-- Ones in a 4-bit history. -/
def ones4 (h : Nat) : Nat := h % 2 + h / 2 % 2 + h / 4 % 2 + h / 8 % 2

/-- A column access issues on a rank (R361): activation when the row is not open, the history of a bank that was judged, and the
predictor when no queued request is left for the row. -/
def Chip.access (c : Chip) (d ch rank : Nat) (r : QueuedReq) (rest : List QueuedReq) : Chip :=
  let c := if c.rowOpen d ch rank r.req then c else c.activate d ch rank r.req
  let x := c.chan d ch
  let key := c.bankKey d ch rank r.req
  let row := (c.reqPlace d ch r.req).row
  let b := KMap.getD x.banks key {}
  let hist := match b.judged with
    | some was => (b.hist * 2 + (decide (was = row)).toNat) % 16
    | none => b.hist
  let more := rest.any (fun q => decide (c.bankRow d ch q.req = c.bankRow d ch r.req))
  let mode := bits r.policy 5 4
  let keep := more || mode = 1 || (mode = 0 && decide (2 ≤ ones4 hist))
  let b : BankSt := { row := if keep then some row else none, hist := hist, judged := if more then none else some row, usedAt := c.now }
  c.setChan d ch { x with banks := KMap.put {} x.banks key b }

/-- Banks that enter and leave in-order mode with the requests in the queue (R362). -/
def Chip.noteInorder (c : Chip) (d ch : Nat) : Chip :=
  let x := c.chan d ch
  let kept := x.inorder.filter (fun e => x.queue.any (fun w => w.req.write && decide (c.bankRow d ch w.req = e)))
  let c := c.setChan d ch { x with inorder := kept }
  c.each (withBefore [] x.queue) fun c (br : List QueuedReq × QueuedReq) =>
    let x := c.chan d ch
    let e := c.bankRow d ch br.2.req
    if !c.fullHazard d ch br.2 ∧ !br.2.req.write ∧ br.1.any (fun w => w.req.write && decide (c.bankRow d ch w.req = e)) ∧
        !x.inorder.any (fun y => y.1 = e.1) then
      (c.setChan d ch { x with inorder := x.inorder ++ [e] }).mcount d ch MEMC.INORDER_COUNT
    else c

/-- The request that issues: of those that can, one of the highest priority, and of equal ones the port's whose turn is next
(R360). -/
def Chip.nextIssue (c : Chip) (d ch : Nat) (able : List Nat) : Option (List QueuedReq × QueuedReq) :=
  let l := (withBefore [] (c.chan d ch).queue).filter fun br => able.contains br.1.length && c.eligible d ch br.1 br.2
  let best := l.foldl (fun n br => min n br.2.prio) 8
  let level := l.filter fun br => br.2.prio = best
  let turn := (c.chan d ch).turn
  ((List.range 8).findSome? fun k => level.find? fun br => br.2.req.port = (turn + 1 + k) % 8)

/-- One scheduler cycle (R360). -/
def Chip.schedule (c : Chip) (d ch : Nat) (x : SchedCycle) : Chip :=
  if !c.serving d ch then c
  else
    let c := c.enqueue d ch x.arrivals
    let y := c.chan d ch
    let c := c.setChan d ch { y with idleAt := if y.queue = [] then y.idleAt else c.now }
    if c.mget d ch MEMC.STATUS 27 26 ≠ 0 then c
    else
      let c := c.noteInorder d ch
      let c := match c.nextIssue d ch x.able with
        | none => c
        | some br =>
          let r := br.2
          let y := c.chan d ch
          let rest := y.queue.eraseIdx br.1.length
          let c := c.setChan d ch { y with queue := rest, turn := r.req.port }
          if !r.req.write ∧ br.1.any (fun w => w.req.write && sameGranule w.req r.req) then c.mcount d ch MEMC.FORWARD_COUNT
          else c.each (c.reqRanks d ch r.req) fun c k => c.access d ch k r rest
      c.refreshPass d ch

/-- ALERT_n outside a write-CRC window, or an access that fails for want of a clock (R54, R372): three on one rank within 1 ms
are uncorrectable. -/
def State.commandError (s : State) (d ch rank : Nat) : State :=
  let c := s.chip
  if !c.errorsCount d ch then s
  else
    let x := c.chan d ch
    let errs := recent c.now 1000000000 x.cmdErrs ++ [(rank, c.now)]
    let s := s.up fun c =>
      (((c.setChan d ch { x with cmdErrs := errs }).mcount d ch MEMC.CMD_ERR_COUNT).lastErr d ch 4 none).mevent d ch 3
    if 3 ≤ ((recent c.now 1000000 errs).filter (fun e => e.1 = rank)).length then s.uncorrectable d ch rank else s

/-! ### Frequency changes (R368, R369) -/

def maskChannels (m : Nat) : List Nat := (List.range 2).filter (fun k => m.testBit k)

/-- DRAM_FREQ (R369): it waits for a window. -/
def State.dramFreq (s : State) (r : Req) (d mask t : Nat) : State :=
  let c := s.chip
  let chs := maskChannels mask
  if chs.any (fun k => !c.serving d k) then s.done r BUSY
  else if chs.any (fun k => c.migrating d k) then s.done r BUSY
  else if chs.any (fun k => !c.setValid d k t) then s.finish r FAIL 2 []
  else if chs.all (fun k => c.mget d k MEMC.CFG 0 0 = t) then s.done r OK
  else s

/-- FREQ.TOL_NS, held at 12,500. -/
def Chip.freqTol (c : Chip) (d ch : Nat) : Nat := max 12500 (c.mget d ch MEMC.FREQ 15 0)

/-- The channels that a DRAM_FREQ names. -/
def freqChannels (r : Req) : List Nat := match r.cmd with | .dramFreq mask _ => maskChannels mask | _ => []

/-- The window opens (steps 3 and 4 of R369) for the first waiting command whose channels all have the tolerance; one change at a
time on a die. -/
def Chip.freqOpen (c : Chip) (d : Nat) : Chip :=
  let able := fun (r : Req) => (freqChannels r).all (fun k => decide (c.freqTol d k ≤ c.tol d) && c.serving d k)
  match if (c.reqs (isDramFreq d true)) = [] then (c.reqs (isDramFreq d false)).find? able else none with
  | some r =>
    let t := match r.cmd with | .dramFreq _ t => t | _ => 0
    (c.setReq { r with pnr := true }).each (freqChannels r) fun c k =>
      let x := c.chan d k
      let c := c.setChan d k { x with freqTo := some t, freqAt := c.now, queue := [], banks := x.banks.map (fun kv => (kv.1, { kv.2 with row := none })) }
      ((c.mput d k MEMC.STATUS 27 26 3).mput d k MEMC.STATUS 11 0 0).setState d (memcPage k) mcFREQ
  | none => c

/-- The memory PLL of a channel relocks in a frequency change (step 4 of R369). -/
def Chip.relocking (c : Chip) (d ch : Nat) : Bool :=
  let x := c.chan d ch
  x.freqTo.isSome && decide (x.freqAt + 1500 ≤ c.now) && decide (c.now < x.freqAt + 9500)

/-- The set whose delays the PHY uses: the target set from the end of step 4 on. -/
def Chip.phySet (c : Chip) (d ch : Nat) : Nat :=
  let x := c.chan d ch
  if x.freqAt + 9500 ≤ c.now then x.freqTo.getD (c.get d (memphyPage ch) MEMPHY.PHY_STATUS 0 0)
  else c.get d (memphyPage ch) MEMPHY.PHY_STATUS 0 0

/-- The first request is served at the new rate (step 6 of R369). -/
def State.freqDone (s : State) (d : Nat) : State :=
  let chs := (List.range 2).filter (fun k => (s.chip.chan d k).freqTo.isSome)
  if chs = [] ∨ !chs.all (fun k => decide ((s.chip.chan d k).freqAt + 12000 ≤ s.chip.now)) then s
  else
    let s := s.up fun c =>
      let c := c.each chs fun c k =>
        let x := c.chan d k
        let t := x.freqTo.getD 0
        let c := (c.mput d k MEMC.CFG 0 0 t).mput d k MEMC.STATUS 27 26 0
        let c := (c.put d (memphyPage k) MEMPHY.PHY_STATUS 0 0 t).setState d (memcPage k) (if c.migrating d k then mcMIGRATE else mcRUN)
        (c.setChan d k { x with freqTo := none }).mevent d k 10
      c.finishAll (isDramFreq d true) OK 0
    s.each chs fun s k =>
      match (s.chip.chan d k).errAfter with
      | some rank =>
        (s.up fun c => let x := c.chan d k; c.setChan d k { x with errAfter := none }).uncorrectable d k rank
      | none => s

/-! ### Configuration (R94, R370) -/

/-- The status with which DRAM_CONFIG is refused: RANKS and ORDER equal those of the other channel when that is configured (R370). -/
def Chip.dramStatus (c : Chip) (d : Nat) (p : List Byte) : Nat :=
  let other := 1 - fieldAt p 0 1
  let ranks := fieldAt p 1 1
  if c.chanRuns d other ∧ (c.mget d other MEMC.CFG 5 4 ≠ ranks % 4 ∨ c.mget d other MEMC.CFG 3 3 ≠ ranks / 4 ∨
      c.mget d other MEMC.CFG 9 8 ≠ fieldAt p 2 1) then ARG else OK

/-- DRAM_CONFIG up to the start of initialisation. -/
def State.dramConfig (s : State) (r : Req) (d : Nat) (p : List Byte) : State :=
  let ch := fieldAt p 0 1
  let t := fieldAt p 3 1
  let pg := memcPage ch
  if s.chip.dramStatus d p ≠ OK then s.done r (s.chip.dramStatus d p)
  else
    let s := s.mapMem fun m => m.dropSlots d (fun slot => slot / 2 ^ 24 = ch)
    let s := s.up fun c =>
      let c := c.finishAll (isRankSpare d ch) ABORTED 0
      let c := c.finishAll (fun q => isDramConfig d ch q && decide (q.id ≠ r.id)) ABORTED 0
      let c := (c.setNum d pg MEMC.MIGRATE 0).mput d ch MEMC.STATUS 31 26 0
      let c := ((c.setCodes d pg []).setDegraded d pg false).setState d pg mcINIT
      let c := (c.freqCut d ch ABORTED).spillLost d ch
      let c := (c.setChan d ch { phyOk := (c.chan d ch).phyOk }).mput d ch MEMC.CFG 5 4 0
      let y := c.die d
      let c := c.setDie d { y with emptied := y.emptied.filter (fun k => k ≠ ch) }
      let o := c.leadOf d
      let x := c.out o
      let c := c.setOut o { x with planes := x.planes.set! ch {} }
      let c := if c.ready d pg then (c.setReady d pg false).noteChannels d else c
      (c.put d CLK CLK.PLL_STATUS (1 + ch) (1 + ch) 1).notePhy d ch
    let fail := fun n => (s.up fun c => c.setState d pg mcIDLE).finish r FAIL n []
    if s.chip.get d (memphyPage ch) MEMPHY.PHY_STATUS 2 2 = 0 then fail 1
    else if !s.chip.setValid d ch t then fail 2
    else s

/-- Initialisation and the link check end (R94, R370, R373). -/
def State.dramConfigDone (s : State) (d ch : Nat) (x : ConfigOutcome) : State :=
  let pg := memcPage ch
  match (s.chip.reqs (isDramConfig d ch)).find? (fun q => q.started) with
  | none => s
  | some r =>
    match r.cmd with
    | .dramConfig p =>
      let ranks := fieldAt p 1 1 % 4
      let fitted := (fieldAt p 1 1).testBit 2
      let bad := (if x.rank0 then [] else [0]) ++ (if ranks = 2 ∧ !x.rank1 then [1] else [])
      let spareOk := fitted && x.rank2
      if !x.initOk then ((s.latch d pg 0x03).up fun c => c.setState d pg mcIDLE).finish r FAIL 3 []
      else if 1 < bad.length ∨ (bad ≠ [] ∧ !spareOk) then
        ((s.latch d pg 0x04).up fun c => c.setState d pg mcLOST).finish r FAIL 4 []
      else
        let s := if bad ≠ [] then s.latch d pg 0x01 else if fitted ∧ !spareOk then s.latch d pg 0x02 else s
        let spare := if !fitted then 0 else if bad ≠ [] then 2 else if spareOk then 1 else 3
        let spared := match bad with | k :: _ => k + 1 | [] => 0
        (s.up fun c =>
          let c := c.setNum d pg MEMC.CFG (fieldAt p 2 1 * 256 + ranks * 16 + fitted.toNat * 8 + fieldAt p 3 1)
          let c := (c.setNum d pg MEMC.STATUS (spare * 2 ^ 30 + spared * 2 ^ 28)).setDegraded d pg (decide (bad ≠ []))
          let c := (c.put d (memphyPage ch) MEMPHY.PHY_STATUS 0 0 (fieldAt p 3 1)).setState d pg mcRUN
          ((c.setReady d pg true).noteChannels d).refreshStart d ch).done r OK
    | _ => s

/-! ### Commits of MEMC and MEMPHY (R371, R379) -/

/-- Events of committed values that the hardware limits hold (R360, R365, R367, R369), and the values in effect. -/
def Chip.memcStepPoint (c : Chip) (d ch : Nat) : Chip :=
  let p := memcPage ch
  let l := c.stagedOf d p
  let now := fun o (f : Word → Bool) => l.any (fun kv => kv.1 = o && f kv.2)
  let conflict := now MEMC.PRIO (fun w => 1 < bits w 2 0 || 1 < bits w 5 3) || now MEMC.FREQ (fun w => bits w 15 0 < 12500) ||
    now MEMC.RH (fun w => bits w 7 0 < 16) || now MEMC.REFRESH (fun w => bits w 9 8 = 1 && 1 ≤ c.mget d ch MEMC.STATUS 25 24)
  ((c.applyStaged d p).clearCommit d p).eventIf conflict d p 12

/-- Most less least of four values. -/
def spread (l : List Nat) : Nat := l.foldl max 0 - l.foldl min 256

/-- Delays that a commit refuses (R371). -/
def Chip.memphyStatus (c : Chip) (d ch : Nat) : Nat :=
  let p := memphyPage ch
  let word := fun t r b => c.stagedReg d p (MEMPHY.LANE_DLY + 0x80 * t + 0x20 * r + 4 * b)
  let bad := (List.range 2).any fun t => (List.range 3).any fun r => (List.range 2).any fun sc =>
    let ws := (List.range 4).map (fun b => word t r (4 * sc + b))
    decide (64 < spread (ws.map (fun w => bits w 7 0))) || decide (64 < spread (ws.map (fun w => bits w 31 24)))
  if bad then ARG else OK

/-- Step point of MEMPHY (R371): at once but for the set in use on a running channel, whose ranks take their values at
their next REFab. -/
def Chip.memphyStepPoint (c : Chip) (d ch : Nat) : Chip :=
  let p := memphyPage ch
  let x := c.chan d ch
  if !c.chanRuns d ch then ((c.applyStaged d p).clearCommit d p).setChan d ch { x with phyOk := true }
  else if x.delays ≠ [] then c
  else
    let t := c.mget d ch MEMC.CFG 0 0
    let live := (List.range (c.mget d ch MEMC.CFG 5 4)).map (fun r => c.physRank d ch r)
    let held := fun (o : Nat) =>
      live.any (fun ph => decide (MEMPHY.LANE_DLY + 0x80 * t + 0x20 * ph ≤ o) && decide (o < MEMPHY.LANE_DLY + 0x80 * t + 0x20 * ph + 0x20))
    let l := c.stagedOf d p
    let c := c.each (l.filter (fun kv => !held kv.1)) fun c kv => c.setReg d p kv.1 kv.2
    let c : Chip := { c with staged := c.staged.filter (fun kv => !decide (kv.1 / 0x1000 = d * 0x1000 + p) || held (kv.1 % 0x1000)) }
    if l.any (fun kv => held kv.1) then c.setChan d ch { x with delays := live }
    else (c.clearCommit d p).setChan d ch { x with phyOk := true }

/-! ### Meanings -/

def execRefreshDue (d ch rank : Nat) (s : State) : Host.Outcome State Fault Refusal :=
  onChannel s d ch fun s => s.up fun c => c.refreshDue d ch rank

def execMr4Poll (d ch : Nat) (codes : List Nat) (s : State) : Host.Outcome State Fault Refusal :=
  onChannel s d ch fun s => s.up fun c => c.mr4Poll d ch codes

/-- ZQ calibration runs in a refresh slot and changes nothing that the part shows (R352). -/
def execZqCalibration (d ch : Nat) (s : State) : Host.Outcome State Fault Refusal := onChannel s d ch fun s => s

/-- Without its clock an access of the channel fails as a command error (R54): the first that could issue. -/
def execSchedulerIssue (d ch : Nat) (x : SchedCycle) (s : State) : Host.Outcome State Fault Refusal :=
  onChannel s d ch fun s =>
    let c := s.chip
    if c.chanRuns d ch ∧ c.unclocked d ch then
      let l := (c.chan d ch).queue.map (fun q => q.req) ++ x.arrivals
      match (l.zipIdx.find? fun r => x.able.contains r.2).bind fun r => (c.reqRanks d ch r.1).head? with
      | some k => s.commandError d ch k
      | none => s
    else s.up fun c => c.schedule d ch x

/-- An open row with no access for IDLE_CLOSE cycles is closed; its history stays (R361). -/
def execRowIdleClose (d ch bank : Nat) (s : State) : Host.Outcome State Fault Refusal :=
  onChannel s d ch fun s => s.up fun c =>
    let x := c.chan d ch
    let b := KMap.getD x.banks bank {}
    c.when (decide (b.usedAt + c.ctlTime d ch (c.mget d ch MEMC.POLICY 31 16) ≤ c.now)) fun c =>
      c.setChan d ch { x with banks := KMap.put {} x.banks bank { b with row := none } }

def execPowerDownEntry (d ch : Nat) (s : State) : Host.Outcome State Fault Refusal :=
  onChannel s d ch fun s => s.up fun c => c.powerDownEntry d ch

def execSelfRefreshEntry (d ch : Nat) (s : State) : Host.Outcome State Fault Refusal :=
  onChannel s d ch fun s => s.up fun c => c.selfRefreshEntry d ch

def execLowPowerExit (d ch : Nat) (s : State) : Host.Outcome State Fault Refusal :=
  onChannel s d ch fun s => s.up fun c => c.lowPowerExit d ch

def execFreqWindowOpen (d : Nat) (s : State) : Host.Outcome State Fault Refusal :=
  onDie s d fun s => s.up fun c => c.freqOpen d

def execFreqDone (d : Nat) (s : State) : Host.Outcome State Fault Refusal := onDie s d fun s => s.freqDone d

/-- ALERT_n in the write-CRC window (R372): the write is sent again at most twice; its third failure is
uncorrectable. -/
def execWcrcAlert (d ch slot : Nat) (s : State) : Host.Outcome State Fault Refusal :=
  onChannel s d ch fun s =>
    let c := s.chip
    if !c.errorsCount d ch then s
    else
      let x := c.chan d ch
      let n := match x.retry with | some (k, n) => if k = slot then n + 1 else 1 | none => 1
      let errs := recent c.now 1000000000 x.wcrcErrs ++ [(c.slotRank d ch slot, c.now)]
      let s := s.up fun c => (c.setChan d ch { x with retry := if n ≤ 2 then some (slot, n) else none, wcrcErrs := errs }).lastErr d ch 3 none
      if n ≤ 2 then s.up fun c => (c.mcount d ch MEMC.WCRC_RETRY_COUNT).mevent d ch 2
      else s.uncorrectable d ch (c.slotRank d ch slot)

def execCmdErrAlert (d ch rank : Nat) (s : State) : Host.Outcome State Fault Refusal :=
  onChannel s d ch fun s => s.commandError d ch rank

def execSlotErrorReport (d ch slot : Nat) (stale : Bool) (s : State) : Host.Outcome State Fault Refusal :=
  onChannel s d ch fun s => s.slotError d ch slot stale

/-- One unit of a migration is copied (R374). -/
def execMigrateUnitCopy (d ch : Nat) (s : State) : Host.Outcome State Fault Refusal :=
  onChannel s d ch fun s => s.up fun c =>
    let x := c.chan d ch
    if c.migrating d ch ∧ x.units < 262144 then
      (c.setChan d ch { x with units := x.units + 1 }).mput d ch MEMC.MIGRATE 17 0 (x.units + 1)
    else c

def execMigrateDone (d ch : Nat) (s : State) : Host.Outcome State Fault Refusal :=
  onChannel s d ch fun s => s.migrateDone d ch

/-- VDDQ_MEM is lost (R472): on a running channel every rank in service fails at once, and the channel goes out of
service. -/
def execVddqLoss (d ch : Nat) (s : State) : Host.Outcome State Fault Refusal :=
  onChannel s d ch fun s =>
    let s := s.up fun c => (c.put d (memphyPage ch) MEMPHY.PHY_STATUS 2 2 0).notePhy d ch
    if s.chip.chanRuns d ch then s.channelLost d ch else s

/-- VDDQ_MEM is in range (R82). -/
def execVddqInRange (d ch : Nat) (s : State) : Host.Outcome State Fault Refusal :=
  onChannel s d ch fun s => s.up fun c => (c.put d (memphyPage ch) MEMPHY.PHY_STATUS 2 2 1).notePhy d ch

def execDramConfigDone (d ch : Nat) (x : ConfigOutcome) (s : State) : Host.Outcome State Fault Refusal :=
  onChannel s d ch fun s => s.dramConfigDone d ch x

end Sys2Proof.Machine
end

