-- ==== Sys2Proof/Machine/Layers.lean ====
section
/-! DEFINITION. Layers (R219 to R245, R376): descriptors, committing a layout, composition, per-layer notices, fetches,
freeze detection and RESEND. -/

namespace Sys2Proof.Machine

/-! ### Descriptors (R220) -/

def Desc.f (w : Desc) (i hi lo : Nat) : Nat := bits (w.getD i 0#32) hi lo
def Desc.format (w : Desc) : Nat := w.f 0 31 24
def Desc.output (w : Desc) : Nat := w.f 0 18 16
def Desc.notify (w : Desc) : Bool := w.f 0 5 5 = 1
def Desc.onFault (w : Desc) : Bool := w.f 0 4 4 = 1
def Desc.live (w : Desc) : Bool := w.f 0 3 3 = 1
/-- SOURCE = 1: filled with FILL. -/
def Desc.isFill (w : Desc) : Bool := w.f 0 1 1 = 1
def Desc.enable (w : Desc) : Bool := w.f 0 0 0 = 1
def Desc.z (w : Desc) : Nat := w.f 1 31 16
def Desc.stream (w : Desc) : Nat := w.f 1 11 0
def Desc.y (w : Desc) : Nat := w.f 2 30 16
def Desc.x (w : Desc) : Nat := w.f 2 14 0
def Desc.height (w : Desc) : Nat := w.f 3 30 16
def Desc.width (w : Desc) : Nat := w.f 3 14 0
def Desc.lossN (w : Desc) : Nat := w.f 4 31 16
def Desc.freezeN (w : Desc) : Nat := w.f 4 15 8
def Desc.alpha (w : Desc) : Nat := w.f 4 7 0
def Desc.fill (w : Desc) : Px := pxOf (w.f 6 11 0) (w.f 5 27 16) (w.f 5 11 0)
def Desc.show_ (w : Desc) : Nat := w.f 7 23 0
def Desc.write (w : Desc) : Nat := w.f 8 23 0
/-- TW, TH and the slots of a range (R222, R223). -/
def Desc.tw (w : Desc) : Nat := (w.width + 63) / 64
def Desc.th (w : Desc) : Nat := (w.height + 15) / 16
def Desc.slots (w : Desc) : Nat := w.tw * w.th
/-- Fed by a stream and enabled. -/
def Desc.fed (w : Desc) : Bool := w.enable && !w.isFill
/-- A layer that hides what lies under it (R225). -/
def Desc.opaque_ (w : Desc) : Bool := decide (w.alpha = 255) && (w.isFill || !w.onFault)
/-- The layer covers an output line. -/
def Desc.onLine (w : Desc) (line : Nat) : Bool := decide (w.y ≤ line) && decide (line < w.y + w.height)

/-- Offset of word `j` of a layer's descriptor in its LAYER page (R139). -/
def layerOffset (n j : Nat) : Nat := n % 64 * 64 + 4 * j
/-- LAYER page of a layer on the die that owns it. -/
def layerPageOf (n : Nat) : Nat := layerPage (n % 512 / 64)

/-- The staged descriptor of a layer: the words of its LAYER page. -/
def Chip.stagedDesc (c : Chip) (n : Nat) : Desc :=
  Vector.ofFn (fun (j : Fin 9) => c.reg (n / 512) (layerPageOf n) (layerOffset n j))

/-- Put words into a layer's LAYER page. -/
def Chip.setStagedDesc (c : Chip) (n : Nat) (w : Desc) : Chip :=
  c.each (List.range 9) fun c j => c.setReg (n / 512) (layerPageOf n) (layerOffset n j) (w.getD j 0#32)

/-- Layers with a committed or a staged descriptor, in ascending order. -/
def Chip.layerIds (c : Chip) : List Nat :=
  let ofKey := fun (k : Nat) =>
    let page := k / 0x1000 % 0x1000
    if 0x100 ≤ page ∧ page < 0x108 then some (k / 0x1000000 * 512 + (page - 0x100) * 64 + k % 0x1000 / 64) else none
  let l := (c.regs.filterMap (fun kv => ofKey kv.1)) ++ c.layers.map (fun kv => kv.1)
  (l.foldl (fun (m : KMap Unit) n => KMap.set m n ()) []).map (fun kv => kv.1)

/-- Committed layers that an output shows, from the bottom of the stack to the top (R224). -/
def insertLayer (x : Nat × Desc) : List (Nat × Desc) → List (Nat × Desc)
  | [] => [x]
  | y :: ys => if x.2.z < y.2.z ∨ (x.2.z = y.2.z ∧ x.1 < y.1) then x :: y :: ys else y :: insertLayer x ys

def Chip.stack (c : Chip) (o : Nat) : List (Nat × Desc) :=
  (c.layers.filter (fun kv => kv.2.words.enable && decide (kv.2.words.output = o))).foldl
    (fun l kv => insertLayer (kv.1, kv.2.words) l) []

/-! ### Geometry of an output -/

/-- The standard mode entry in effect, and whether there is one. -/
def Chip.entry (c : Chip) (o : Nat) : ModeEntry := modeEntry (c.get o TGEN TGEN.ENTRY 29 24)
def Chip.hasEntry (c : Chip) (o : Nat) : Bool := c.flag o TGEN TGEN.ENTRY 31

/-- Frame sequence number in progress. -/
def Chip.seq (c : Chip) (o : Nat) : Nat := c.num o TGEN TGEN.FRAME_SEQ

/-- Die of the gang of an output that holds a column (R26). -/
def Chip.colDie (c : Chip) (o col : Nat) : Nat := o + col / (c.entry o).w

/-- The fill colour of an output (R286). -/
def Chip.fillPx (c : Chip) (o : Nat) : Px :=
  pxOf (c.get o TGEN TGEN.FILL_RG 11 0) (c.get o TGEN TGEN.FILL_RG 27 16) (c.get o TGEN TGEN.FILL_B 11 0)

/-! ### Visibility (R225, R226) -/

/-- Take the columns from `a` to `b` (exclusive) out of a list of column intervals. -/
def cutOut (a b : Nat) (l : List (Nat × Nat)) : List (Nat × Nat) :=
  l.flatMap (fun i => (if i.1 < min i.2 a then [(i.1, min i.2 a)] else []) ++ (if max i.1 b < i.2 then [(max i.1 b, i.2)] else []))

/-- The columns of `lo` to `hi` that layer `w` covers on a line and that no opaque layer of `above` hides. -/
def visible (w : Desc) (above : List (Nat × Desc)) (line lo hi : Nat) : List (Nat × Nat) :=
  let a := max lo w.x
  let b := min hi (w.x + w.width)
  if w.onLine line ∧ a < b then
    above.foldl (fun l x => if x.2.opaque_ ∧ x.2.onLine line then cutOut x.2.x (x.2.x + x.2.width) l else l) [(a, b)]
  else []

/-- Layers of a stack that count on a line between two columns (R225). -/
def lineCount (line lo hi : Nat) : List (Nat × Desc) → Nat
  | [] => 0
  | x :: above =>
    (if x.2.alpha ≠ 0 ∧ visible x.2 above line lo hi ≠ [] then 1 else 0) + lineCount line lo hi above

/-- Lines at which the set of layers on a line can change. -/
def breakLines (l : List (Nat × Desc)) : List Nat :=
  ((l.flatMap (fun x => [x.2.y, x.2.y + x.2.height])).foldl (fun (m : KMap Unit) n => KMap.set m n ()) []).map (fun kv => kv.1)

/-- LINE_MAX of a slice. -/
def Chip.lineMax (c : Chip) (o d : Nat) (l : List (Nat × Desc)) : Nat :=
  let w := (c.entry o).w
  (breakLines l).foldl (fun n line => max n (lineCount line ((d - o) * w) ((d - o) * w + w) l)) 0

/-- First line on which more than 32 layers count on a slice. -/
def Chip.lineLimit (c : Chip) (o : Nat) (l : List (Nat × Desc)) : Option Nat :=
  let w := (c.entry o).w
  (breakLines l).find? (fun line => (c.gang o).any (fun d => 32 < lineCount line ((d - o) * w) ((d - o) * w + w) l))

/-! ### Committing (R227 to R230) -/

def isLayerCommit (o : Nat) (r : Req) : Bool := match r.cmd with | .layerCommit x _ => decide (x = o) | _ => false

/-- A LAYER_COMMIT of the output is pending: some layer's values are taken, or the line lists are being built. -/
def Chip.commitPending (c : Chip) (o : Nat) : Bool := (c.inflight.any fun r => isLayerCommit o r && r.started)

/-- The descriptors that a commit takes (R227). -/
def Chip.takes (c : Chip) (o : Nat) : List (Nat × Desc) :=
  (c.layerIds.filter (fun n =>
    let old := (c.layer n).words
    let new := c.stagedDesc n
    decide (new ≠ old) && (decide (new.output = o) || (decide (old.output = o) && old.enable)))).map (fun n => (n, c.stagedDesc n))

/-- Every committed layer as it will be after a commit of `l`. -/
def Chip.after (c : Chip) (l : List (Nat × Desc)) : List (Nat × Desc) :=
  l ++ (c.layers.filter (fun kv => (l.lookup kv.1).isNone)).map (fun kv => (kv.1, kv.2.words))

/-- The checks of one descriptor (R228), in the order of the table. -/
def Chip.descBad (c : Chip) (l : List (Nat × Desc)) (n : Nat) (w : Desc) : Bool :=
  let old := (c.layer n).words
  let o := w.output
  let e := c.entry o
  let moved := old.enable && decide (w.output ≠ old.output)
  let rect := w.enable && (decide (w.x % 64 ≠ 0) || decide (w.width = 0) || decide (w.height = 0) ||
    decide (e.hActive < w.x + w.width) || decide (e.vActive < w.y + w.height))
  let stream := w.fed && (decide (layerCount c.member ≤ w.stream) ||
    (c.after l).any (fun x => decide (x.1 ≠ n) && x.2.fed && decide (x.2.stream = w.stream)))
  let onDie := fun d => (List.range w.tw).any (fun tx => decide (c.colDie o (w.x + 64 * tx) = d))
  let ranges := w.fed &&
    ((c.gang o).any (fun d => onDie d &&
      (decide (c.num d COMP COMP.SLOT_LIMIT < w.show_ + w.slots) || decide (c.num d COMP COMP.SLOT_LIMIT < w.write + w.slots))) ||
     (decide (w.show_ < w.write + w.slots) && decide (w.write < w.show_ + w.slots)))
  !c.formed o || moved || rect || stream || ranges

/-- LAYER_COMMIT (R227 to R229; R383 for the baskets of the line lists): it takes the descriptors and stays in flight until
the release drain is done. -/
def State.layerCommit (s : State) (r : Req) (o : Nat) : State :=
  let c := s.chip
  if (c.inflight.any fun q => isLayerCommit o q && q.started && decide (q.id ≠ r.id)) ∨ !c.hasEntry o ∨
      (c.gang o).any (fun d => !c.serving d 0 || !c.serving d 1 || !c.ownsBasket d 2) then s.done r BUSY
  else
    let l := c.takes o
    let refuse := fun detail => (s.up fun c => c.event o COMP 1).finish r ARG detail []
    match l.find? (fun x => c.descBad l x.1 x.2) with
    | some x => refuse x.1
    | none =>
      let stack := ((c.after l).filter (fun x => x.2.enable && decide (x.2.output = o))).foldl (fun acc x => insertLayer x acc) []
      match c.lineLimit o stack with
      | some line => refuse (0x8000 + line)
      | none =>
        s.up fun c =>
          let c := c.each l fun c x =>
            let y := c.layer x.1
            c.setLayer x.1 { y with taken := y.taken.filter (fun t => t.1 ≠ o) ++ [(o, x.2)] }
          let x := c.out o
          let c := c.setOut o { x with armedAt := none }
          (c.each (c.gang o) fun c d => c.setState d COMP 0x02).setBusy o COMP true

/-- No LAYER_COMMIT of an output is pending any more: STATE and BUSY of the COMP pages of its gang. -/
def Chip.compIdle (c : Chip) (o : Nat) : Chip := (c.each (c.gang o) fun c d => c.setState d COMP 0x01).setBusy o COMP false

/-- Drop what a pending commit of an output took; used by ABORT, a time limit and entry into SAFE (R230, R243). -/
def Chip.dropCommit (c : Chip) (o : Nat) : Chip :=
  let c := c.each (c.layers.map (fun kv => kv.1)) fun c n =>
    let y := c.layer n
    c.setLayer n { y with taken := y.taken.filter (fun t => t.1 ≠ o) }
  let x := c.out o
  let c := c.setOut o { x with armedAt := none }
  if x.draining.isSome then c else c.compIdle o

/-- Line lists are built (R230). -/
def Chip.layoutArmed (c : Chip) (o : Nat) : Chip :=
  let x := c.out o
  if c.commitPending o ∧ x.draining.isNone then c.setOut o { x with armedAt := some c.now } else c

/-- Ranges that a descriptor uses. -/
def Desc.ranges (w : Desc) : List Nat := if w.fed then (if w.show_ = w.write then [w.show_] else [w.show_, w.write]) else []

/-- LINE_MAX of the dies of an output; without an entry there is no line. -/
def Chip.noteLineMax (c : Chip) (o : Nat) : Chip :=
  c.each (c.gang o) fun c d => c.setNum d COMP COMP.LINE_MAX (if c.hasEntry o then c.lineMax o d (c.stack o) else 0)

/-- A descriptor whose layer is watched for freezing (R241). -/
def Desc.watched (w : Desc) : Bool := w.fed && w.live && decide (w.freezeN ≠ 0)

/-- What a pending commit of an output took of a layer. -/
def LayerSt.takenBy (y : LayerSt) (o : Nat) : Option Desc := y.taken.lookup o

/-- The ranges that a layer stops using with new words, each with its layer and its slots. -/
def LayerSt.releases (y : LayerSt) (n : Nat) (new : Desc) : List (Nat × Nat × Nat) :=
  (y.words.ranges.filter (fun b => !new.ranges.contains b)).map (fun b => (n, b, y.words.slots))

/-- The pending layout takes effect at a boundary at least 2 µs after the line lists are built (R230, R234). `frame`: the
first frame composed with it. -/
def Chip.commitEffect (c : Chip) (o : Nat) (frame : Nat) : Chip :=
  let x := c.out o
  match x.armedAt, (c.reqs (fun r => isLayerCommit o r && r.started)).head? with
  | some t, some r =>
    if c.now < t + 2000 then c
    else
      let id := match r.cmd with | .layerCommit _ id => id | _ => 0#32
      let taken := c.layers.filter (fun kv => (kv.2.takenBy o).isSome)
      let new := fun (y : LayerSt) => (y.takenBy o).getD y.words
      let released := taken.flatMap fun kv => kv.2.releases kv.1 (new kv.2)
      let told := taken.flatMap fun kv => (kv.2.releases kv.1 (new kv.2)).filterMap (fun _ => if (new kv.2).notify then some kv.1 else none)
      let c := c.each taken fun c kv =>
        let y := c.layer kv.1
        let w := new y
        let same := y.words.fed && w.fed && decide (y.words.stream = w.stream)
        c.setLayer kv.1 { y with words := w, taken := y.taken.filter (fun t => t.1 ≠ o), quiet := if same then y.quiet else 0,
                                 lost := y.lost && same, digest := if w.watched then y.digest else none,
                                 freeze := if w.watched then y.freeze else 0, frozen := y.frozen && w.watched }
      let x := c.out o
      let c := c.setOut o { x with armedAt := none, draining := some { id := id, frame := BitVec.ofNat 32 frame, told := told, ranges := released }, layout := true }
      let c := ((c.setReg o COMP COMP.COMMIT_ID id).setNum o COMP COMP.COMMIT_FRAME frame).noteLineMax o
      (c.setReq { r with pnr := true }).event o COMP 0
  | _, _ => c

/-- A slot lies in one of a list of ranges of a layer. -/
def inRange (l : List (Nat × Nat × Nat)) (n slot : Nat) : Bool := l.any (fun r => decide (r.1 = n ∧ r.2.1 ≤ slot ∧ slot < r.2.1 + r.2.2))

/-- A tile of a released range waits for an encoder on some die. -/
def Chip.stillWriting (c : Chip) (l : List (Nat × Nat × Nat)) : Bool :=
  c.dies'.any fun d => (c.die d).encQ.any fun j => match j.layer with
    | some n => l.any (fun r => decide (r.1 = n) && (List.range r.2.2).any (fun i => decide (layerSlot (r.2.1 + i) = j.slot)))
    | none => false

/-- Nothing will be written into released ranges any more: their open tiles are discarded, and so are the RESENDs for them. -/
def Chip.closeRanges (c : Chip) (l : List (Nat × Nat × Nat)) : Chip :=
  let c := c.each c.dies' fun c d => let y := c.die d; c.setDie d { y with asm := y.asm.filter (fun t => !inRange l t.layer t.slot) }
  { c with resends := c.resends.filter (fun r => !inRange l r.layer r.slot) }

/-- The last writes into released ranges have finished (R234): the completion, and a RELEASE record for each range. -/
def Chip.drainDone (c : Chip) (o : Nat) : Chip :=
  let x := c.out o
  match x.draining with
  | none => c
  | some y =>
    if c.stillWriting y.ranges then c
    else
      let c := ((c.setOut o { x with draining := none }).compIdle o).closeRanges y.ranges
      let c := c.each y.told fun c n =>
        c.record o 0x03 false (leBytes 4 n ++ leBytes 4 y.frame.toNat ++ leBytes 4 y.id.toNat)
      (c.reqs (fun r => isLayerCommit o r && r.started && r.pnr)).foldl (fun c r => c.finish r OK 0 (leBytes 4 y.frame.toNat)) c

/-! ### Per-layer notices (R236, R238, R240) -/

/-- A cause arises for a layer: a LAYER_FAULT record unless its episode is open. -/
def Chip.notice (c : Chip) (n cause frame : Nat) : Chip :=
  let y := c.layer n
  let known := y.episodes.contains cause
  let c := c.setLayer n { y with episodes := if known then y.episodes else y.episodes ++ [cause],
                                 thisFrame := if y.thisFrame.contains cause then y.thisFrame else y.thisFrame ++ [cause],
                                 owed := y.owed || decide (cause ≤ 3) }
  if known then c else c.record (n / 512) 0x04 false (leBytes 2 n ++ leBytes 2 cause ++ leBytes 4 frame)

/-- A layer is switched off on a die from an output line on (R236): its LAYER_OFF bit sets on the die that owns it. -/
def Chip.switchOff (c : Chip) (d n line cause : Nat) : Chip :=
  let y := c.die d
  let from_ := min line (KMap.getD y.offLayers n line)
  let c := c.setDie d { y with offLayers := KMap.set y.offLayers n from_ }
  let z := c.layer n
  let c := c.setLayer n { z with off := true }
  let own := n / 512
  let reg := COMP.LAYER_OFF + 4 * (n % 512 / 32)
  let c := if c.flag own COMP reg (n % 32) then c else (c.put own COMP reg (n % 32) (n % 32) 1).event own COMP 2
  c.notice n cause (c.seq z.words.output)

/-- At the boundary that ends frame `frame` (R238): episodes of causes that did not arise end, with one CLEAR for causes
0x01 to 0x03; the layer is on again. -/
def Chip.layerFrameEnd (c : Chip) (n frame : Nat) : Chip :=
  let y := c.layer n
  let kept := y.episodes.filter (fun k => y.thisFrame.contains k || (decide (k = 7) && y.lost))
  let clear := y.owed && !y.thisFrame.any (fun k => k ≤ 3)
  let c := c.setLayer n { y with episodes := kept, thisFrame := [], owed := y.owed && !clear, off := false }
  if clear then c.record (n / 512) 0x04 false (leBytes 2 n ++ leBytes 2 9 ++ leBytes 4 frame) else c

/-- At the boundary that ends frame `frame`: the loss of a layer's stream (R239). -/
def Chip.layerQuiet (c : Chip) (n frame : Nat) : Chip :=
  let y := c.layer n
  if y.words.fed ∧ y.words.lossN ≠ 0 then
    let q := if y.heard then 0 else y.quiet + 1
    let c := c.setLayer n { y with quiet := q, heard := false }
    if y.words.lossN ≤ q ∧ !y.lost then
      let c := c.setLayer n { y with quiet := q, heard := false, lost := true }
      (c.notice n 7 frame).event (n / 512) COMP 5
    else c
  else c.setLayer n { y with heard := false, quiet := 0 }

/-- A packet of the layer's stream is accepted (R239). -/
def Chip.layerHeard (c : Chip) (n : Nat) : Chip :=
  let y := c.layer n
  if y.lost then
    let c := c.setLayer n { y with lost := false, heard := true, quiet := 0, episodes := y.episodes.filter (fun k => k ≠ 7) }
    c.notice n 8 (c.seq y.words.output)
  else if y.heard then c else c.setLayer n { y with heard := true }

/-! ### RESEND (R186, R376) -/

/-- A failed fetch of a show-range tile raises a RESEND, or counts a drop. -/
def Chip.raiseResend (c : Chip) (d n tx ty : Nat) : Chip :=
  let w := (c.layer n).words
  let slot := w.show_ + ty * w.tw + tx
  let ch := slot % 2
  if c.resends.any (fun r => decide (r.layer = n ∧ r.tx = tx ∧ r.ty = ty)) then c
  else if 64 ≤ (c.resends.filter (fun r => decide (r.layer / 512 = n / 512))).length then
    (c.mcount d ch MEMC.RESEND_DROP_COUNT).mevent d ch 14
  else
    let frame := (c.seq w.output + 1) % 2 ^ 32
    let c : Chip := { c with resends := c.resends ++
      [{ die := d, layer := n, tx := tx, ty := ty, slot := slot, frame := BitVec.ofNat 32 frame }] }
    let c := c.mcount d ch MEMC.RESEND_COUNT
    let v := KMap.getD c.via w.stream 0
    let only := if v = 0 then none else some ((v - 1) / 8, (v - 1) % 8)
    c.recordTo 80 (c.scope (n / 512) (some only)) (n / 512) 0x06 false
      (leBytes 2 w.stream ++ leBytes 2 (16 * ty) ++ leBytes 4 frame ++ leBytes 2 (64 * tx) ++ leBytes 2 64)

/-- The slot of a RESEND has been written, or 1 s has passed. -/
def Chip.endResend (c : Chip) (n tx ty : Nat) : Chip :=
  { c with resends := c.resends.filter (fun r => !decide (r.layer = n ∧ r.tx = tx ∧ r.ty = ty)) }

/-! ### Fetching (R235 to R237) -/

/-- The line that the compositor composes next, at the present line of the output: the line after the next one, one
line being under way (R48). -/
def Chip.nextCompose (c : Chip) (o : Nat) : Nat :=
  let line := c.get o TGEN TGEN.POSITION 31 16
  let v := (c.entry o).vActive
  if line + 1 < v then line + 2 else if v ≤ line ∧ line + 1 = (c.out o).lines then 1 else if v ≤ line then 0 else v

/-- Key of a fetched tile. -/
def tileKey (n tx ty : Nat) : Nat := n * 2 ^ 20 + ty * 512 + tx

/-- A layer's tile (tx, ty) lies on a die of the output that shows it. -/
def Chip.holdsTile (c : Chip) (d : Nat) (w : Desc) (tx ty : Nat) : Bool :=
  decide (tx < w.tw) && decide (ty < w.th) && c.hasEntry w.output && decide (c.colDie w.output (w.x + 64 * tx) = d)

/-- Every pixel of a tile within a layer is hidden by opaque layers above (R226). -/
def tileHidden (w : Desc) (above : List (Nat × Desc)) (tx ty : Nat) : Bool :=
  let lines := (List.range 16).filterMap (fun k => if 16 * ty + k < w.height then some (w.y + 16 * ty + k) else none)
  lines.all (fun l => visible w above l (w.x + 64 * tx) (w.x + 64 * tx + 64) = [])

/-- The compositor fetches a tile: its layer is shown in COMPOSE with an ALPHA above 0 (R224), is not off before the tile's first
line on the die (R236), and the tile is not hidden (R226). A tile of the very line from which the layer is off has been asked
for already (R244). -/
def Chip.fetches (c : Chip) (d n tx ty : Nat) : Bool :=
  let w := (c.layer n).words
  w.fed && decide (c.mode w.output = COMPOSE) && c.holdsTile d w tx ty && decide (w.alpha ≠ 0) &&
    decide (w.y + 16 * ty ≤ KMap.getD (c.die d).offLayers n (w.y + 16 * ty)) &&
    !tileHidden w (((c.stack w.output).dropWhile (fun x => x.1 ≠ n)).drop 1) tx ty

/-- A compositor fetch comes back (R235, R236, R340). -/
def State.tileFetched (s : State) (d n tx ty : Nat) : State :=
  let c := s.chip
  let w := (c.layer n).words
  let slot := w.show_ + ty * w.tw + tx
  if c.fetches d n tx ty ∧ c.reads d (slot % 2) then
    match readHamper (c.slotBytes s.mem d (layerSlot slot)) n none with
    | .ok px => s.up fun c => let y := c.die d; c.setDie d { y with fetched := KMap.set y.fetched (tileKey n tx ty) px }
    | .error cause =>
      let s := s.readFailed d (layerSlot slot) slot 1 cause
      s.up fun c =>
        let c := c.count d COMP COMP.TILE_FAULT_COUNT
        let c := c.switchOff d n (w.y + 16 * ty) (if cause = causeOWNER then 2 else 1)
        if cause = causeFORMAT ∨ cause = causeCODE ∨ cause = causeCRC then c.raiseResend d n tx ty else c
  else s

/-- An underrun (R237). -/
def Chip.underrun (c : Chip) (d n line : Nat) : Chip := (c.count d COMP COMP.UNDERRUN_COUNT).switchOff d n line 3

/-! ### Composing a line (R224, R226) -/

/-- One channel blended (R224). -/
def blend (a l b : Nat) : Nat := (a * l + (255 - a) * b + 127) / 255

def blendPx (a : Nat) (l b : Px) : Px :=
  if a = 255 then l else pxOf (blend a (l.ch 0) (b.ch 0)) (blend a (l.ch 1) (b.ch 1)) (blend a (l.ch 2) (b.ch 2))

/-- A layer is off on a die for an output line. -/
def DieSt.isOff (y : DieSt) (n line : Nat) : Bool :=
  match KMap.get? y.offLayers n with
  | some l => decide (l ≤ line)
  | none => false

/-- A layer's pixels on one line of a slice, from column `lo` of the output on; none where it shows nothing. -/
def layerLine (y : DieSt) (n : Nat) (w : Desc) (line lo hi : Nat) : List (Option Px) :=
  let off := y.isOff n line
  let ly := line - w.y
  let tile := fun tx => if w.isFill || off then [] else KMap.getD y.fetched (tileKey n tx (ly / 16)) []
  -- one list per tile column, so that each tile is looked up once
  (List.range ((hi - lo) / 64)).flatMap fun seg =>
    let col := lo + 64 * seg
    if w.onLine line ∧ w.x ≤ col ∧ col < w.x + w.width then
      let tx := (col - w.x) / 64
      let row := ((tile tx).drop (ly % 16 * 64)).take 64
      (List.range 64).map fun i =>
        if w.x + w.width ≤ col + i then none
        else if w.isFill then some w.fill
        else if off then (if w.onFault then none else some w.fill)
        else some (row.getD i w.fill)
    else List.replicate 64 none

/-- Compose line `line` of a slice (R224): the fill colour, then the visible layers from bottom to top. -/
def Chip.composeLine (c : Chip) (o d line : Nat) : List Px :=
  let w := (c.entry o).w
  let lo := (d - o) * w
  let y := c.die d
  (c.stack o).foldl (fun base x =>
    if x.2.alpha = 0 ∨ !x.2.onLine line ∨ lo + w ≤ x.2.x ∨ x.2.x + x.2.width ≤ lo then base
    else
      (base.zip (layerLine y x.1 x.2 line lo (lo + w))).map fun p =>
        match p.2 with | some l => blendPx x.2.alpha l p.1 | none => p.1)
    (List.replicate w (c.fillPx o))

/-- Tiles of the fed layers that a line of a slice needs, with whether every pixel of the tile is hidden (R226). -/
def neededTiles (line lo hi : Nat) : List (Nat × Desc) → List (Nat × Nat × Nat × Bool)
  | [] => []
  | x :: above =>
    let w := x.2
    let rest := neededTiles line lo hi above
    if w.isFill ∨ w.alpha = 0 ∨ !w.onLine line then rest
    else
      let ty := (line - w.y) / 16
      let txs := (List.range w.tw).filter (fun tx => decide (lo ≤ w.x + 64 * tx) && decide (w.x + 64 * tx < hi))
      txs.map (fun tx => (x.1, tx, ty, tileHidden w above tx ty)) ++ rest

/-- The tiles that a line of a slice needs: layer, tile column, tile row, and whether the tile is hidden. -/
def Chip.lineTiles (c : Chip) (o d line : Nat) : List (Nat × Nat × Nat × Bool) :=
  neededTiles line ((d - o) * (c.entry o).w) ((d - o) * (c.entry o).w + (c.entry o).w) (c.stack o)

/-- The tiles that a line needs, whose layer is not off there, and that have not come back: one layer for each of them (R237). -/
def Chip.missing (c : Chip) (o d line : Nat) : List Nat :=
  let y := c.die d
  ((c.lineTiles o d line).filter (fun t =>
    !t.2.2.2 && !y.isOff t.1 line && (KMap.get? y.fetched (tileKey t.1 t.2.1 t.2.2.1)).isNone)).map (fun t => t.1)

/-- The compositor starts a line (R226, R237): tiles not back yet underrun, hidden tiles count as skipped once, and the
line is composed. The line before it waits for scan-out (R48). -/
def Chip.startCompose (c : Chip) (o line : Nat) : Chip :=
  c.each (c.gang o) fun c d =>
    let skipped := (c.lineTiles o d line).filter (fun t => t.2.2.2 && decide (line = (c.layer t.1).words.y + 16 * t.2.2.1))
    let c := c.countBy d COMP COMP.SKIP_COUNT skipped.length
    let c := c.each (c.missing o d line) fun c n => c.underrun d n line
    let y := c.die d
    c.setDie d { y with composed := KMap.set (y.composed.filter (fun kv => kv.1 + 1 = line)) line (c.composeLine o d line) }

/-! ### Freeze detection (R241, R296) -/

/-- TCRC in the header of a layer's tile as stored in the range that begins at a slot. -/
def Chip.layerTcrc (c : Chip) (m : Mem) (w : Desc) (base tx ty : Nat) : List Byte :=
  ((c.slotBytes m (c.colDie w.output (w.x + 64 * tx)) (layerSlot (base + ty * w.tw + tx))).drop 12).take 4

/-- The digest of a layer (R296): partial digests of the dies that hold tiles, in ascending die order. -/
def Chip.layerDigest (c : Chip) (m : Mem) (w : Desc) (base : Nat) : Word :=
  let part := fun d =>
    let txs := (List.range w.tw).filter (fun tx => decide (c.colDie w.output (w.x + 64 * tx) = d))
    if txs = [] then []
    else leBytes 4 (crc32c ((List.range w.th).flatMap fun ty => txs.flatMap fun tx => c.layerTcrc m w base tx ty)).toNat
  crc32c ((c.gang w.output).flatMap part)

/-- The digest of a source frame closed by FRM is ready. -/
def State.freezeDigest (s : State) (n : Nat) : State :=
  let c := s.chip
  let y := c.layer n
  match y.closed with
  | none => s
  | some (frame, whole, base) =>
    if !y.words.watched then s.up fun c => c.setLayer n { y with closed := none, digest := none, freeze := 0, frozen := false }
    else if whole ∧ c.hasEntry y.words.output then
      let g := c.layerDigest s.mem y.words base
      s.up fun c =>
        if y.digest = some g then
          let k := y.freeze + 1
          let raise_ := decide (y.words.freezeN ≤ k) && !y.frozen
          let c := c.setLayer n { y with closed := none, freeze := k, frozen := y.frozen || raise_ }
          if raise_ then (c.record (n / 512) 0x05 false (leBytes 4 n ++ leBytes 4 frame.toNat)).event (n / 512) COMP 6 else c
        else c.setLayer n { y with closed := none, digest := some g, freeze := 0, frozen := false }
    else s.up fun c => c.setLayer n { y with closed := none }

/-! ### Meanings -/

/-- As `onDie`, for a layer of the member on a die. -/
def onLayer (s : State) (d n : Nat) (f : State → State) : Host.Outcome State Fault Refusal :=
  if d < dieCount s.chip.member ∧ n < layerCount s.chip.member then .next (f s) else .fault .noSuchUnit

def execLayoutArmed (o : Nat) (s : State) : Host.Outcome State Fault Refusal :=
  onOutput s o fun s => s.up fun c => c.layoutArmed o

def execReleaseDrainDone (o : Nat) (s : State) : Host.Outcome State Fault Refusal :=
  onOutput s o fun s => s.up fun c => c.drainDone o

def execTileFetchDone (d n tx ty : Nat) (s : State) : Host.Outcome State Fault Refusal :=
  onLayer s d n fun s => s.tileFetched d n tx ty

/-- The notice of a switch-off reaches another die of the gang (R236), which switches the layer off from the first line that it
starts composing. -/
def execLayerOffNotice (d n : Nat) (s : State) : Host.Outcome State Fault Refusal :=
  onLayer s d n fun s => s.up fun c =>
    let y := c.layer n
    let z := c.die d
    if y.off ∧ c.leadOf d = y.words.output ∧ (KMap.get? z.offLayers n).isNone then
      c.setDie d { z with offLayers := KMap.set z.offLayers n (c.nextCompose y.words.output) }
    else c

def execCompUnderrun (d n : Nat) (s : State) : Host.Outcome State Fault Refusal :=
  onLayer s d n fun s => s.up fun c =>
    let w := (c.layer n).words
    let line := c.nextCompose w.output
    if c.hasEntry w.output ∧ c.leadOf d = w.output ∧ c.mode w.output = COMPOSE then
      c.each ((c.missing w.output d line).filter (fun m => m = n)) fun c n => c.underrun d n line
    else c

/-- A RESEND has stayed outstanding for 1 s (R376). -/
def execResendTimeout (d n tx ty : Nat) (s : State) : Host.Outcome State Fault Refusal :=
  onLayer s d n fun s => s.up fun c => c.endResend n tx ty

def execFreezeDigest (n : Nat) (s : State) : Host.Outcome State Fault Refusal :=
  if n < layerCount s.chip.member then .next (s.freezeDigest n) else .fault .noSuchUnit

end Sys2Proof.Machine
end

