-- ==== Sys2Proof/Machine/Panel.lean ====
section
/-! DEFINITION. The panel stages (R246 to R272): table images, loading and committing tables, overdrive and its bank
selection, demura, defect masking, gamma and dither. -/

namespace Sys2Proof.Machine

/-! ### Geometry -/

/-- Sample columns C and rows R of a die's demura map for the entry of its output. -/
def Chip.mapCols (c : Chip) (o : Nat) : Nat := (c.entry o).w / 8
def Chip.mapRows (c : Chip) (o : Nat) : Nat := (c.entry o).vActive / 8

/-- Page of a table code (R246). -/
def tablePage (t : Nat) : Nat := if t = 1 then PANEL_OD else if t = 2 ∨ t = 3 then PANEL_DM else PANEL_DT

/-! ### Table images (R265, R266) -/

/-- Cut bytes into `k` pieces of `n`. -/
def pieces (n : Nat) : Nat → List Byte → List (List Byte)
  | 0, _ => []
  | k + 1, bs => bs.take n :: pieces n k (bs.drop n)

/-- Read a defect entry; none: a reserved value, or no subpixel. -/
def defectOf (e : List Byte) : Option Defect :=
  let x : Defect := { line := fieldAt e 0 2, column := fieldAt e 2 2, sub := fieldAt e 4 1, kind := fieldAt e 5 1, spread := fieldAt e 6 1 }
  if x.line < 32768 ∧ x.column < 32768 ∧ 0 < x.sub ∧ x.sub < 8 ∧ 0 < x.kind ∧ x.kind < 4 ∧ fieldAt e 7 1 = 0 then some x else none

/-- Entries in rising order of line and column, at most one per pixel. -/
def risingDefects : List Defect → Bool
  | x :: y :: l => (decide (x.line < y.line) || (decide (x.line = y.line) && decide (x.column < y.column))) && risingDefects (y :: l)
  | _ => true

/-- A defect body (R261, R266) for a slice. -/
def defectsOf (lo w v : Nat) (n : Nat) (body : List Byte) : Option (List Defect) :=
  let l := (pieces 8 n body).map defectOf
  if l.all (fun x => x.any (fun d => decide (d.line < v) && decide (lo ≤ d.column) && decide (d.column < lo + w))) then
    let ds := l.filterMap id
    if risingDefects ds then some ds else none
  else none

/-- 16-bit words of a body. -/
def halfWords : List Byte → List Nat
  | a :: b :: rest => (a.toNat + 256 * b.toNat) :: halfWords rest
  | _ => []

/-- Values that do not decrease. -/
def notFalling : List Nat → Bool
  | x :: y :: l => decide (x ≤ y) && notFalling (y :: l)
  | _ => true

/-- A table image that passed every check, by its kind. -/
inductive Image where
  | od (bank : Nat) (body : List Byte)
  | demura (cols rows first total : Nat) (body : List Byte)
  | defects (l : List Defect)
  | gamma (body : List Byte)
  | dither (body : List Byte)
  deriving DecidableEq, Repr

/-- The checks of an image for a die (R265, R266); none: ARG. `loaded`: rows already in the partial map. -/
def Chip.readImage (c : Chip) (d t b bytes loaded : Nat) (img : List Byte) : Option Image :=
  let o := c.leadOf d
  let e := c.entry o
  let body := img.drop 32
  let cols := fieldAt img 8 2
  let rows := fieldAt img 10 2
  let first := fieldAt img 12 2
  let total := fieldAt img 14 2
  let plain := decide (fieldAt img 0 4 = 0x4C425450) && decide (fieldAt img 4 1 = t) && decide (fieldAt img 5 1 = b) &&
    decide (fieldAt img 6 2 = 1) && decide (32 ≤ bytes) && decide (fieldAt img 16 4 = bytes - 32) &&
    decide (fieldAt img 20 8 = 0) && decide ((crc32c (img.take 28 ++ body)).toNat = fieldAt img 28 4)
  let unused := fun (x y z u : Bool) => (!x || decide (cols = 0)) && (!y || decide (rows = 0)) && (!z || decide (first = 0)) && (!u || decide (total = 0))
  if !plain then none
  else if t = 1 then
    if unused true true true true ∧ body.length = 1734 ∧
        (halfWords body).all (fun v => decide (-4095 ≤ signed 16 v) && decide (signed 16 v ≤ 4095)) then some (.od b body) else none
  else if t = 2 then
    if c.hasEntry o ∧ cols = c.mapCols o ∧ total = c.mapRows o ∧ (first = 0 ∨ first = loaded) ∧ first + rows ≤ total ∧
        body.length = 12 * cols * rows then some (.demura cols rows first total body) else none
  else if t = 3 then
    if unused false true true true ∧ cols ≤ 4096 ∧ body.length = 8 * cols ∧ (c.hasEntry o ∨ cols = 0) then
      (defectsOf ((d - o) * e.w) e.w e.vActive cols body).map .defects
    else none
  else if t = 4 then
    if unused true true true true ∧ body.length = 24576 ∧
        (pieces 8192 3 body).all (fun p => notFalling (halfWords p)) then some (.gamma body) else none
  else
    if unused true true true true ∧ body.length = 192 then some (.dither body) else none

/-! ### READY, STATE and status fields of the panel pages (R269) -/

/-- The active demura map has the geometry of the output's entry. -/
def Chip.mapFits (c : Chip) (d : Nat) : Bool :=
  let o := c.leadOf d
  c.hasEntry o && (c.die d).active.demura.any (fun m => decide (m.cols = c.mapCols o) && decide (m.rows = c.mapRows o))

/-- Overdrive is identity for the whole frame on a die (R256). -/
def Chip.odOff (c : Chip) (d : Nat) : Bool :=
  let o := c.leadOf d
  !c.flag d PANEL_OD OD.CTRL 0 || !c.ready d PANEL_OD || (c.out o).odIdentity || (c.out o).black ||
    (decide (c.mode o ≠ LIVE) && decide (c.mode o ≠ COMPOSE))

def Chip.demuraOn (c : Chip) (d : Nat) : Bool := c.ready d PANEL_DM && c.flag d PANEL_DM DM.CTRL 0
def Chip.defectsOn (c : Chip) (d : Nat) : Bool := c.ready d PANEL_DM && c.flag d PANEL_DM DM.CTRL 1

/-- Banks listed, as four bits. -/
def bankBits (t : Tables) : Nat := (List.range 4).foldl (fun n k => n + (KMap.get? t.od k).isSome.toNat * 2 ^ k) 0

/-- The status fields of the three panel pages of a die, and their READY and STATE. -/
def Chip.notePanel (c : Chip) (d : Nat) : Chip :=
  let x := c.die d
  let c := (c.put d PANEL_OD OD.STATUS 3 0 (bankBits x.active)).put d PANEL_OD OD.STATUS 7 4 (bankBits x.staged)
  let map := if c.mapFits d then x.active.demura else none
  let c := c.setNum d PANEL_DM DM.GEOMETRY (match x.active.demura with | some m => m.rows * 65536 + m.cols | none => 0)
  let loaded := match x.partialMap, x.staged.demura with | some m, _ => m.rows | none, some m => m.rows | none, none => 0
  let c := c.setNum d PANEL_DM DM.STAGED (loaded * 65536 + x.staged.defects.isSome.toNat * 2 + x.staged.demura.isSome.toNat)
  let c := c.setNum d PANEL_DM DM.DEFECT_COUNT (match x.active.defects with | some l => l.length | none => 0)
  let c := (c.put d PANEL_DT DT.STATUS 5 4 (x.staged.dither.isSome.toNat * 2 + x.staged.gamma.isSome.toNat)).put d PANEL_DT DT.STATUS 1 0
    (x.active.dither.isSome.toNat * 2 + x.active.gamma.isSome.toNat)
  let old := c
  let c := (c.put d PANEL_OD PAGE_STATUS 0 0 (decide (bankBits x.active = 15)).toNat).put d PANEL_DM PAGE_STATUS 0 0
    (map.isSome && x.active.defects.isSome).toNat
  let c := Chip.noteReady old c d
  (c.setState d PANEL_OD (if c.odOff d then 1 else 2)).setState d PANEL_DM (if c.demuraOn d || c.defectsOn d then 2 else 1)

/-! ### Loading (R265 to R268) -/

/-- Put a checked image where it is staged: at once, or at the step point of the pending commit (R268). -/
def Tables.take (t : Tables) : Image → Tables
  | .od b body => { t with od := KMap.set t.od b body }
  | .demura _ _ _ _ _ => t
  | .defects l => { t with defects := some l }
  | .gamma b => { t with gamma := some b }
  | .dither b => { t with dither := some b }

/-- A commit of the page is pending on the lead, and was written before this cycle: a load that ends in the cycle of the commit is
in it (R272). -/
def Chip.heldBack (c : Chip) (d p : Nat) : Bool :=
  c.committing (c.leadOf d) p && decide (c.commitTime (c.leadOf d) p < c.now)

def Chip.stageTable (c : Chip) (d p : Nat) (f : Tables → Tables) : Chip :=
  let y := c.die d
  if c.heldBack d p then c.setDie d { y with next := f y.next } else c.setDie d { y with staged := f y.staged }

/-! ### Demura maps in the frame memory (R257, R356) -/

/-- Granules of a row record: the samples of a row and their CRC (R257). -/
def recordGranules (cols : Nat) : Nat := (12 * cols + 4 + 63) / 64

/-- The granule of the demura copies at which a row record of a map begins. The manual leaves open where in its region each copy lies
and in which order its records stand: the two copies take a half of the 448,512 granules each, row after row (log 101). -/
def DemuraMap.granule (m : DemuraMap) (row : Nat) : Nat := m.half * 224256 + row * recordGranules m.cols

/-- The slot, and the byte in it, of a granule of a channel's demura copies (R353). -/
def Chip.demuraSlot (c : Chip) (d ch g : Nat) : Nat := ch * 2 ^ 24 + (c.nCh d ch - 75776) + g / 73
def granuleByte (g : Nat) : Nat := 64 * (g % 73)

/-- Write bytes into `n` granules of a channel's demura copies, from granule `g`. -/
def Chip.putGranules (c : Chip) (d ch : Nat) : Nat → Nat → List Byte → Mem → Mem
  | 0, _, _, m => m
  | n + 1, g, bs, m =>
    let slot := c.demuraSlot d ch g
    let old := c.slotBytes m d slot
    let piece := bs.take 64
    let new := old.take (granuleByte g) ++ piece ++ old.drop (granuleByte g + piece.length)
    c.putGranules d ch n (g + 1) (bs.drop 64) (m.setSlot d slot new)

/-- Bytes of `n` granules of a channel's demura copies. -/
def Chip.granules (c : Chip) (m : Mem) (d ch g n : Nat) : List Byte :=
  (List.range n).flatMap fun i => ((c.slotBytes m d (c.demuraSlot d ch (g + i))).drop (granuleByte (g + i))).take 64

/-- A row record: the samples and their CRC-32C (R257). -/
def rowRecord (samples : List Byte) : List Byte := samples ++ leBytes 4 (crc32c samples).toNat

/-- The samples of a row record, when its CRC is right. -/
def readRow (cols : Nat) (record : List Byte) : Option (List Byte) :=
  let samples := record.take (12 * cols)
  if (crc32c samples).toNat = fieldAt record (12 * cols) 4 then some samples else none

/-- Rows go to the demura copies of both channels (R356). -/
def State.putRows (s : State) (d : Nat) (m : DemuraMap) (rows : KMap (List Byte)) : State :=
  s.each ((List.range 2).filter (fun ch => s.chip.reads d ch)) fun s ch =>
    s.mapMem fun mem => rows.foldl (fun mem r => s.chip.putGranules d ch (recordGranules m.cols) (m.granule r.1) (rowRecord r.2) mem) mem

/-- The copy that a load fills: the one that the active map does not use. -/
def DieSt.freeHalf (y : DieSt) : Nat := match y.active.demura with | some m => 1 - m.half | none => 0

/-- Rows that waited for a step point go to the frame memory. -/
def State.putLate (s : State) (d : Nat) (m : DemuraMap) : State × DemuraMap :=
  if m.late = [] then (s, m)
  else
    let n := { m with half := (s.chip.die d).freeHalf, late := [] }
    (s.putRows d n m.late, n)

/-- A demura image adds its rows to the staged map, which is whole after its last row. -/
def State.takeDemura (s : State) (d p cols rows first total : Nat) (body : List Byte) : State :=
  let y := s.chip.die d
  let fresh_ : DemuraMap := { cols := cols, rows := 0, half := y.freeHalf, late := [] }
  let start := if first = 0 then fresh_ else y.partialMap.getD fresh_
  let new := (pieces (12 * cols) rows body).zipIdx.map fun r => (first + r.2, r.1)
  let r := if s.chip.heldBack d p then (s, { start with late := start.late ++ new })
    else let x := s.putLate d start; (x.1.putRows d x.2 new, x.2)
  let m := { r.2 with rows := first + rows }
  r.1.up fun c =>
    let c := if first = 0 then c.stageTable d p (fun t => { t with demura := none }) else c
    let y := c.die d
    if first + rows = total then
      (c.setDie d { y with partialMap := none }).stageTable d p (fun t => { t with demura := some m })
    else c.setDie d { y with partialMap := some m }

/-- An image is taken. -/
def State.takeImage (s : State) (d p : Nat) (img : Image) : State :=
  match img with
  | .demura cols rows first total body => s.takeDemura d p cols rows first total body
  | _ => s.up fun c => c.stageTable d p (fun t => t.take img)

/-- A failed demura load discards the partial map. -/
def Chip.dropPartial (c : Chip) (d t : Nat) : Chip :=
  let y := c.die d
  if t = 2 then (c.setDie d { y with partialMap := none }).notePanel d else c

def isTableLoad (d : Nat) (r : Req) : Bool := match r.cmd with | .tableLoad _ _ _ _ _ => decide (r.die = d) | _ => false

/-- TABLE_LOAD (R265, R268): BUSY while a commit of its page is pending on the lead, or without a DRAM channel to hold a
demura map, or when the panel stages own no basket for any other table (R383); else it stays in flight until the image has
been read. -/
def Chip.tableLoad (c : Chip) (r : Req) (t : Nat) : Chip :=
  let d := r.die
  if c.committing (c.leadOf d) (tablePage t) then c.done r BUSY
  else if t = 2 ∧ !c.serving d 0 ∧ !c.serving d 1 then c.done r BUSY
  else if t ≠ 2 ∧ !c.ownsBasket d 4 then c.done r BUSY
  else c

/-- Tables that fail their checks while a die has no valid ones are an error of bring-up (R99: TABLES_BAD). The manual names no die
for it, and the loads of firmware are commands like those of a host: a load from flash counts, on die 0 (log 102). -/
def Chip.tablesBad (c : Chip) (d source : Nat) : Chip :=
  if source = 0 ∧ !(c.readyMap d).testBit 5 ∧ c.mode (c.leadOf d) = BRINGUP then c.setError 0 7 else c

/-- A table image has been read (R266). -/
def State.tableLoadDone (s : State) (d : Nat) (readError : Bool) : State :=
  let c := s.chip
  match (c.reqs (fun r => isTableLoad d r && r.started)).head? with
  | none => s
  | some r =>
    match r.cmd with
    | .tableLoad t b source a n =>
      -- an image in baskets is read with its check bits (R381)
      let words := if source = 0 then [] else wordAddrs a.toNat ((n + 3) / 4)
      let read := (c.wantWords 1 d words).checkWords d words
      let s := s.up fun _ => if read.2 then read.1 else read.1.latchCode d BASKET 2
      let s := s.when (!read.2) fun s => s.log d 0x05 BASKET 2 0
      if (readError ∧ source = 0) ∨ !read.2 then s.up fun c => ((c.dropPartial d t).tablesBad d source).done r FAIL
      else
        let img := if source = 0 then s.mem.flashBytes c.fresh a.toNat n else s.mem.basketBytes a.toNat n
        let loaded := ((c.die d).partialMap.map (fun m => m.rows)).getD 0
        match c.readImage d t b n loaded img with
        | none => s.up fun c => ((c.dropPartial d t).tablesBad d source).done r ARG
        | some i => (s.takeImage d (tablePage t) i).up fun c => (c.notePanel d).done r OK
    | _ => s

/-! ### Committing (R267 to R271) -/

/-- Something of the page is staged on a die. -/
def Chip.panelStaged (c : Chip) (d p : Nat) : Bool :=
  let t := (c.die d).staged
  c.stagedOf d p ≠ [] ||
    (if p = PANEL_OD then decide (t.od ≠ []) else if p = PANEL_DM then t.demura.isSome || t.defects.isSome else t.gamma.isSome || t.dither.isSome)

/-- Tables of one page taken from `a`, the others from `t`. -/
def Tables.withPage (t a : Tables) (p : Nat) : Tables :=
  if p = PANEL_OD then { t with od := a.od }
  else if p = PANEL_DM then { t with demura := a.demura, defects := a.defects }
  else { t with gamma := a.gamma, dither := a.dither }

/-- The staged copies of one page that are there replace the active ones. -/
def Tables.swap (t a : Tables) (p : Nat) : Tables :=
  if p = PANEL_OD then { t with od := a.od.foldl (fun m kv => KMap.set m kv.1 kv.2) t.od }
  else if p = PANEL_DM then
    { t with demura := if a.demura.isSome then a.demura else t.demura, defects := if a.defects.isSome then a.defects else t.defects }
  else { t with gamma := if a.gamma.isSome then a.gamma else t.gamma, dither := if a.dither.isSome then a.dither else t.dither }

/-- Discard what a page has staged and pending on every die of a gang (R16, R267). -/
def Chip.panelAbort (c : Chip) (o p : Nat) : Chip :=
  c.each (c.gang o) fun c d =>
    let y := c.die d
    let c := c.setDie d { y with staged := y.staged.withPage {} p, next := y.next.withPage {} p }
    (c.abortPage d p).notePanel d

/-- Staged values that a commit refuses: temperature points that do not rise (OD_TEMP_POINTS). -/
def Chip.panelStatus (c : Chip) (o p : Nat) : Nat :=
  let w := c.stagedReg o PANEL_OD OD.TEMP_POINTS
  let t := fun k => signed 8 (bits w (8 * k + 7) (8 * k))
  if c.leadOf o ≠ o then ARG
  else if p = PANEL_OD ∧ ¬(t 0 < t 1 ∧ t 1 < t 2 ∧ t 2 < t 3) then ARG else OK

/-- The step point of a panel page (R267): every die of the gang takes its staged copies and fields at once. -/
def Chip.panelStepPoint (c : Chip) (o p : Nat) : Chip :=
  c.each (c.gang o) fun c d =>
    let y := c.die d
    let c := c.setDie d { y with active := y.active.swap y.staged p, staged := y.staged.withPage y.next p,
                                 next := y.next.withPage {} p }
    let c := (c.applyStaged d p).clearCommit d p
    let c := if p = PANEL_DT then (c.setReady d p true).setState d p 2 else c
    c.notePanel d

/-- The step point of a panel page, after which demura rows that waited for it go to the frame memory (R268). -/
def State.panelStep (s : State) (o p : Nat) : State :=
  (s.up fun c => c.panelStepPoint o p).each (if p = PANEL_DM then s.chip.gang o else []) fun s d =>
    let flush := fun (s : State) (m : Option DemuraMap) => match m with
      | some m => let r := s.putLate d m; (r.1, some r.2)
      | none => (s, none)
    let a := flush s (s.chip.die d).staged.demura
    let b := flush a.1 (s.chip.die d).partialMap
    b.1.up fun c =>
      let y := c.die d
      c.setDie d { y with staged := { y.staged with demura := a.2 }, partialMap := b.2 }

/-- A changeover alters W or the active lines (R270): maps that no longer match are dropped, and GEOMETRY sets on a die
that loses one. -/
def Chip.panelGeometry (c : Chip) (o : Nat) : Chip :=
  c.each (c.gang o) fun c d =>
    let fit := fun (m : DemuraMap) => decide (m.cols = c.mapCols o) && decide (m.rows = c.mapRows o)
    let y := c.die d
    let keep := fun (t : Tables) => { t with demura := t.demura.filter fit }
    let lost := decide (keep y.active ≠ y.active) || decide (keep y.staged ≠ y.staged)
    let c := c.setDie d { y with active := keep y.active, staged := keep y.staged, next := keep y.next, partialMap := none }
    (c.notePanel d).eventIf lost d PANEL_DM 3

/-! ### Bank selection (R250 to R252) -/

/-- The bank loop of R251. -/
def raiseBank (p : Nat → Int) (t : Int) : Nat → Nat → Nat
  | 0, k => k
  | f + 1, k => if k < 3 ∧ (p k + p (k + 1)) / 2 + 1 ≤ t then raiseBank p t f (k + 1) else k
def lowerBank (p : Nat → Int) (t : Int) : Nat → Nat → Nat
  | 0, k => k
  | f + 1, k => if 0 < k ∧ t ≤ (p (k - 1) + p k) / 2 - 1 then lowerBank p t f (k - 1) else k
def selectBank (p : Nat → Int) (t : Int) (k : Nat) : Nat := lowerBank p t 3 (raiseBank p t 3 k)

/-- Latest temperature reports within 1 s of the READY driver lanes of an output, in 1/16 °C. -/
def Chip.reports (c : Chip) (o : Nat) : List Int :=
  (c.gang o).flatMap fun d => (List.range 16).flatMap fun k =>
    if c.ready d (lanePage (8 + k)) then
      (List.range 8).filterMap fun p =>
        match (c.driver d k p).temps.getLast? with
        | some (t, at_) => if c.now ≤ at_ + 1000000000 then some t else none
        | none => none
    else []

/-- Panel temperature in whole °C: the mean of the reports rounded to nearest, or OD_TEMP_SET. -/
def Chip.panelTemp (c : Chip) (o : Nat) : Option Int :=
  if c.flag o PANEL_OD OD.CTRL 2 then some (signed 8 (c.get o PANEL_OD OD.TEMP_SET 7 0))
  else
    let l := c.reports o
    if l = [] then none else some ((2 * l.foldl (· + ·) 0 + 16 * (l.length : Int)) / (32 * (l.length : Int)))

/-- The gang lead selects the bank at a frame boundary (R250 to R252). -/
def Chip.bankSelect (c : Chip) (o : Nat) : Chip :=
  let pts := fun k => signed 8 (c.get o PANEL_OD OD.TEMP_POINTS (8 * k + 7) (8 * k))
  let old := c.get o PANEL_OD OD.STATUS 9 8
  let t := c.panelTemp o
  let chosen := match t with | some v => selectBank pts v old | none => c.get o PANEL_OD OD.CTRL 9 8
  let pin := c.flag o PANEL_OD OD.CTRL 3
  let new := if pin then c.get o PANEL_OD OD.CTRL 5 4 else chosen
  let c := c.each (c.gang o) fun c d => c.put d PANEL_OD OD.STATUS 9 8 new
  let c := match t with | some v => c.put o PANEL_OD OD.STATUS 23 16 (unsigned 8 v) | none => c
  c.events o PANEL_OD ((if new ≠ old then [2] else []) ++ (if t.isNone then [3] else []) ++ (if pin ∧ chosen ≠ new then [4] else []))

/-! ### Overdrive (R249) -/

/-- Node (i, j) of the grid of a colour. -/
def odNode (bank : Array Byte) (ch i j : Nat) : Int :=
  let k := 2 * (289 * ch + 17 * i + j)
  signed 16 ((bank.getD k 0).toNat + 256 * (bank.getD (k + 1) 0).toNat)

/-- One channel through overdrive. -/
def overdrive (bank : Array Byte) (ch prev cur : Nat) : Nat :=
  let i := prev / 256
  let fp : Int := prev % 256
  let j := cur / 256
  let fc : Int := cur % 256
  let a := odNode bank ch i j * (256 - fp) + odNode bank ch (i + 1) j * fp
  let b := odNode bank ch i (j + 1) * (256 - fp) + odNode bank ch (i + 1) (j + 1) * fp
  let d := (a * (256 - fc) + b * fc + 32768) / 65536
  (max 0 (min 4095 ((cur : Int) + d))).toNat

def overdrivePx (bank : Array Byte) (p q : Px) : Px :=
  pxOf (overdrive bank 0 (p.ch 0) (q.ch 0)) (overdrive bank 1 (p.ch 1) (q.ch 1)) (overdrive bank 2 (p.ch 2) (q.ch 2))

/-- A line of a slice through overdrive (R249, R254, R255, R292): `subst` says which segments pass unchanged. -/
def Chip.odLine (c : Chip) (d line : Nat) (subst : Nat → Bool) (px : List Px) : List Px :=
  let y := c.die d
  if c.odOff d then px
  else
    let bank := (KMap.getD y.active.od (c.get d PANEL_OD OD.STATUS 9 8) []).toArray
    (List.range (px.length / 64)).flatMap fun seg =>
      let cur := (px.drop (64 * seg)).take 64
      if subst seg ∨ y.line.odOff.contains seg then cur
      else
        match KMap.getD y.prev (line / 16 * 64 + seg) none with
        | some tile => (((tile.drop (line % 16 * 64)).take 64).zip cur).map (fun x => overdrivePx bank x.1 x.2)
        | none => cur

/-! ### Demura (R258 to R260) -/

/-- Bytes of a sample row that the stage holds; with no row at hand, what the stage applies is unspecified (R259). A neighbour
without a map gives identity samples (R92). -/
def Chip.mapRow (c : Chip) (d : Nat) (r : Option Nat) : Array Byte :=
  match (c.die d).active.demura with
  | none => ((List.range (3 * c.mapCols (c.leadOf d))).flatMap (fun _ => [0#8, 0x40#8, 0#8, 0#8])).toArray
  | some m =>
    match r with
    | some j => (KMap.getD (c.die d).dmRows j []).toArray
    | none => ((List.range (12 * m.cols)).map (fun i => Config.freeByte (c.fresh + i))).toArray

/-- GAIN and OFFSET of a sample of a row. -/
def sampleAt (row : Array Byte) (i ch : Nat) : Nat × Int :=
  let k := 12 * i + 4 * ch
  let h := fun n => (row.getD n 0).toNat + 256 * (row.getD (n + 1) 0).toNat
  (h k, signed 16 (h (k + 2)))

/-- One channel through demura: samples at (column, row) with weights (R258). -/
def demura (v : Nat) (s00 s10 s01 s11 : Nat × Int) (wx wy : Nat) : Nat :=
  let w00 := (16 - wx) * (16 - wy)
  let w10 := wx * (16 - wy)
  let w01 := (16 - wx) * wy
  let w11 := wx * wy
  let gs : Int := (w00 * s00.1 + w10 * s10.1 + w01 * s01.1 + w11 * s11.1 : Nat)
  let os : Int := (w00 : Int) * s00.2 + (w10 : Int) * s10.2 + (w01 : Int) * s01.2 + (w11 : Int) * s11.2
  let acc := (v : Int) * gs + os * 2048
  (max 0 (min 4095 ((acc + 2 ^ 21) / 2 ^ 22))).toNat

/-- A line of a slice through demura. -/
def Chip.demuraLine (c : Chip) (o d line : Nat) (px : List Px) : List Px :=
  if !c.demuraOn d then px
  else
    let st := (c.die d).line
    let cols := c.mapCols o
    let rowA := c.mapRow d st.rowA
    let rowB := c.mapRow d st.rowB
    let edge := fun (e : Nat) (last : Bool) =>
      let n := (c.die e).line
      let i := if last then cols - 1 else 0
      (c.mapRow e n.rowA, c.mapRow e n.rowB, i)
    let left := if st.left then some (edge (d - 1) true) else none
    let right := if st.right then some (edge (d + 1) false) else none
    let at_ := fun (i : Int) (ch : Nat) =>
      if i < 0 then
        match left with
        | some (a, b, k) => (sampleAt a k ch, sampleAt b k ch)
        | none => (sampleAt rowA 0 ch, sampleAt rowB 0 ch)
      else if (cols : Int) ≤ i then
        match right with
        | some (a, b, k) => (sampleAt a k ch, sampleAt b k ch)
        | none => (sampleAt rowA (cols - 1) ch, sampleAt rowB (cols - 1) ch)
      else (sampleAt rowA i.toNat ch, sampleAt rowB i.toNat ch)
    let wy := ((2 * (line : Int) - 7) % 16).toNat
    (px.zipIdx).map fun p =>
      let tx : Int := 2 * (p.2 : Int) - 7
      let i0 := tx / 16
      let wx := (tx % 16).toNat
      let f := fun ch => let l := at_ i0 ch; let r := at_ (i0 + 1) ch; demura (p.1.ch ch) l.1 r.1 l.2 r.2 wx wy
      pxOf (f 0) (f 1) (f 2)

/-! ### Defects (R262) -/

/-- One channel at an output column through defect masking, by the defect entries of the line at hand. -/
def maskCh (l : List Defect) (col ch v : Nat) : Nat :=
  let named := fun (k : Defect) => k.sub.testBit ch
  if l.any (fun k => named k && decide (k.column = col) && decide (k.kind ≠ 2)) then 0
  else
    let boost := l.foldl (fun n k =>
      if named k ∧ ((k.kind = 2 ∧ k.column = col) ∨ (k.kind = 1 ∧ (k.column + 1 = col ∨ col + 1 = k.column))) then n + k.spread else n) 0
    min 4095 ((v * (256 + boost) + 128) / 256)

/-- Defect entries of a line on a die, and of the eight neighbouring columns that the halo brought (R38, R260). -/
def Chip.lineDefects (c : Chip) (o d line : Nat) : List Defect :=
  let w := (c.entry o).w
  -- entries outside the active area are ignored (R270)
  let of_ := fun e => ((c.die e).active.defects.getD []).filter (fun k =>
    decide (k.line = line) && decide ((e - o) * w ≤ k.column) && decide (k.column < (e - o) * w + w))
  let st := (c.die d).line
  let lo := (d - o) * w
  of_ d ++ (if st.left then (of_ (d - 1)).filter (fun k => decide (lo ≤ k.column + 8)) else []) ++
    (if st.right then (of_ (d + 1)).filter (fun k => decide (k.column < lo + w + 8)) else [])

def Chip.defectLine (c : Chip) (o d line : Nat) (px : List Px) : List Px :=
  if !c.defectsOn d then px
  else
    let l := c.lineDefects o d line
    if l = [] then px
    else
      let lo := (d - o) * (c.entry o).w
      (px.zipIdx).map fun p =>
        let f := fun ch => maskCh l (lo + p.2) ch (p.1.ch ch)
        pxOf (f 0) (f 1) (f 2)

/-! ### Gamma and dither (R263, R264) -/

/-- Matrix B and order T of the built-in dither masks (R264). -/
def ditherB (y x : Nat) : Nat := [0, 8, 2, 10, 12, 4, 14, 6, 3, 11, 1, 9, 15, 7, 13, 5].getD (4 * (y % 4) + x % 4) 0
def ditherT (p : Nat) : Nat := [0, 2, 1, 3].getD (p % 4) 0

/-- MASK[c][p][y & 3][x & 3]. -/
def maskAt (loaded : Option (List Byte)) (ch p y x : Nat) : Nat :=
  match loaded with
  | some b => (b.getD (64 * ch + 16 * p + 4 * (y % 4) + x % 4) 0).toNat
  | none => 16 * ditherB y (x + p) + 4 * ditherT p + 2

/-- One channel through gamma and dither to driver depth `n`. -/
def ditherCh (n mode g t : Nat) : Nat :=
  let s := 16 - n
  let q := g / 2 ^ s
  let f := g % 2 ^ s
  let f8 := if 8 ≤ s then f / 2 ^ (s - 8) else f * 2 ^ (8 - s)
  if mode = 2 then q else min (2 ^ n - 1) (q + if t < f8 then 1 else 0)

/-- Driver depth N of a die (CHAINS.DEPTH). -/
def Chip.depth (c : Chip) (d : Nat) : Nat := 8 + 2 * c.get d DLINK DLINK.CHAINS 13 12

/-- A line of a slice through gamma and dither. With GAMMA_EN = 0, g is the code v itself (R263); with it set and no table loaded,
16 × v, the built-in table of R264. -/
def Chip.ditherLine (c : Chip) (o d line : Nat) (px : List Px) : List Px :=
  let y := c.die d
  let lo := (d - o) * (c.entry o).w
  let n := c.depth d
  let mode := c.get d PANEL_DT DT.CTRL 5 4
  let p := if mode = 0 then c.seq o % 4 else 0
  let table := y.active.gamma.map (fun b => b.toArray)
  let en := c.flag d PANEL_DT DT.CTRL 0
  let g := fun ch v =>
    if en then
      match table with
      | some b => (b.getD (2 * (4096 * ch + v)) 0).toNat + 256 * (b.getD (2 * (4096 * ch + v) + 1) 0).toNat
      | none => 16 * v
    else v
  (px.zipIdx).map fun q =>
    let f := fun ch => ditherCh n mode (g ch (q.1.ch ch)) (maskAt y.active.dither ch p line (lo + q.2))
    pxOf (f 0) (f 1) (f 2)

/-! ### What is settled at a line start (R254, R259, R260) -/

/-- Sample row nearest to `r` among those at hand; the lower one of two at one distance. -/
def nearest (r : Nat) (l : List Nat) : Option Nat :=
  l.foldl (fun b x =>
    match b with
    | none => some x
    | some y =>
      let dx := max r x - min r x
      let dy := max r y - min r y
      if dx < dy ∨ (dx = dy ∧ x < y) then some x else some y) none

/-- Rows j0 and j0 + 1 of an active line, held within the map (R258). -/
def mapRowsOf (rows line : Nat) : Nat × Nat :=
  let j := (2 * (line : Int) - 7) / 16
  ((max 0 j).toNat, min (rows - 1) (j + 1).toNat)

/-- Overdrive at the start of an active line: tiles late or refused (R254, R255). -/
def Chip.settleOd (c : Chip) (o d line : Nat) : Chip :=
  if c.odOff d then c
  else
    let y := c.die d
    let tiles := List.range ((c.entry o).w / 64)
    let late := tiles.filter (fun tx => (KMap.get? y.prev (line / 16 * 64 + tx)).isNone)
    let off := tiles.filter (fun tx => (KMap.getD y.prev (line / 16 * 64 + tx) none).isNone)
    let c := c.setDie d { y with line := { y.line with odOff := off } }
    if late = [] then c
    else ((c.countBy d PANEL_OD OD.LATE_COUNT late.length).put d PANEL_OD OD.MARGIN_MIN 15 0 0).events d PANEL_OD (late.map (fun _ => 0))

/-- Demura and its halo at the start of an active line (R259, R260). A row that failed its CRC counts as one that has never
arrived. -/
def Chip.settleDemura (c : Chip) (o d line : Nat) : Chip :=
  let y := c.die d
  let n := (c.gang o).length
  let hasLeft := decide (o < d)
  let hasRight := decide (d + 1 < o + n)
  let left := hasLeft && y.halo.contains (line * 2)
  let right := hasRight && y.halo.contains (line * 2 + 1)
  let need := c.demuraOn d || c.defectsOn d
  let have_ := y.dmRows.map (fun r => r.1)
  let pick := fun r => if have_.contains r then some r else nearest r have_
  let r := mapRowsOf (c.mapRows o) line
  let late := c.demuraOn d && [r.1, r.2].any (fun j => !have_.contains j)
  let c := c.setDie d { y with line := { y.line with rowA := pick r.1, rowB := pick r.2, left := left, right := right } }
  let c := if late then (c.count d PANEL_DM DM.LATE_COUNT).event d PANEL_DM 0 else c
  if need ∧ ((hasLeft ∧ !left) ∨ (hasRight ∧ !right)) then (c.count d PANEL_DM DM.HALO_LATE_COUNT).event d PANEL_DM 2 else c

/-! ### Events of the fetches (R253 to R260) -/

/-- A previous-frame tile comes back (R253, R255). `lead`: ns by which its tile row beat its deadline. -/
def State.prevTile (s : State) (d tx ty lead : Nat) : State :=
  let c := s.chip
  let o := c.leadOf d
  let e := c.entry o
  let f := c.seq o
  let p := (f + 1) % 2
  match ((c.out o).planes.getD p {}).frame with
  | none => s
  | some held =>
    if c.hasEntry o ∧ !c.odOff d ∧ tx < e.w / 64 ∧ ty < e.vActive / 16 ∧ c.reads d p ∧
        (KMap.get? (c.die d).prev (ty * 64 + tx)).isNone then
      let slot := c.planeSlot d p e.w tx ty
      match readHamper (c.slotBytes s.mem d slot) (planeOwner o p) (some held.toNat) with
      | .ok px => s.up fun c =>
          let y := c.die d
          let c := c.setDie d { y with prev := KMap.set y.prev (ty * 64 + tx) (some px) }
          let whole := (List.range (e.w / 64)).all (fun t => (KMap.getD (c.die d).prev (ty * 64 + t) none).isSome)
          if whole then c.put d PANEL_OD OD.MARGIN_MIN 15 0 (min (min lead 0xFFFF) (c.get d PANEL_OD OD.MARGIN_MIN 15 0)) else c
      | .error cause =>
        (s.readFailed d slot (slot % 2 ^ 24) 2 cause).up fun c =>
          let y := c.die d
          ((c.setDie d { y with prev := KMap.set y.prev (ty * 64 + tx) none }).count d PANEL_OD OD.CRC_COUNT).event d PANEL_OD 1
    else s

/-- A demura row record has been read (R259, R356); `good`: nothing damaged it on its way. The CRC in the record judges it. -/
def State.demuraRow (s : State) (d row : Nat) (good : Bool) : State :=
  let c := s.chip
  let o := c.leadOf d
  let y := c.die d
  let ch := if c.serving d (row % 2) then row % 2 else 1 - row % 2
  let failed := fun (m : DemuraMap) =>
    let s := s.up fun c => ((c.setDie d { y with dmFailed := y.dmFailed ++ [row] }).count d PANEL_DM DM.CRC_COUNT).event d PANEL_DM 1
    s.slotError d ch (c.demuraSlot d ch (m.granule row) % 2 ^ 24) false
  match y.active.demura with
  | none => s
  | some m =>
    if !c.demuraOn d ∨ c.mapRows o ≤ row ∨ (KMap.get? y.dmRows row).isSome ∨ y.dmFailed.contains row ∨ !c.reads d ch then s
    else
      match readRow m.cols (c.granules s.mem d ch (m.granule row) (recordGranules m.cols)) with
      | some samples => if good then s.up fun c => c.setDie d { y with dmRows := KMap.set y.dmRows row samples } else failed m
      | none => failed m

/-- The halo of a line arrives from a side (R38, R260). -/
def Chip.haloIn (c : Chip) (d : Nat) (side : Side) (line : Nat) : Chip :=
  let o := c.leadOf d
  let k := line * 2 + (if side = .next then 1 else 0)
  let there := if side = .next then decide (d + 1 < o + (c.gang o).length) else decide (o < d)
  let y := c.die d
  if c.hasEntry o ∧ there ∧ line < (c.entry o).vActive ∧ !y.halo.contains k then c.setDie d { y with halo := y.halo ++ [k] } else c

/-! ### Meanings -/

def execPrevFrameTileDone (d tx ty lead : Nat) (s : State) : Host.Outcome State Fault Refusal :=
  onDie s d fun s => s.prevTile d tx ty lead

def execDemuraRowDone (d row : Nat) (good : Bool) (s : State) : Host.Outcome State Fault Refusal :=
  onDie s d fun s => s.demuraRow d row good

def execHaloRx (d : Nat) (side : Side) (line : Nat) (s : State) : Host.Outcome State Fault Refusal :=
  onDie s d fun s => s.up fun c => c.haloIn d side line

def execTableLoadDone (d : Nat) (readError : Bool) (s : State) : Host.Outcome State Fault Refusal :=
  onDie s d fun s => s.tableLoadDone d readError

end Sys2Proof.Machine
end

