-- ==== Sys2Proof/Machine/DriverLink.lean ====
section
/-! DEFINITION. The driver link (R301 to R328): chain geometry and fit, return frames, training of chains by their
reports, configuration access, and the commits of CHAINS and GATE_CTRL. -/

namespace Sys2Proof.Machine

/-! ### Chains (R301, R311) -/

def Chip.chains (c : Chip) (d : Nat) : Nat := c.get d DLINK DLINK.CHAINS 4 0
def Chip.chainDrivers (c : Chip) (d : Nat) : Nat := c.get d DLINK DLINK.CHAINS 10 8 + 1

/-- A CHAINS word is valid for a slice width. -/
def chainsValid (w : Word) (sliceW : Nat) : Bool :=
  let n := bits w 4 0
  let m := bits w 10 8 + 1
  decide (0 < n) && decide (sliceW % n = 0) && decide (sliceW / n % m = 0) && decide (8 ≤ sliceW / n / m) && decide (sliceW / n / m ≤ 1024)

/-- The die's chains fit the entry of its output. -/
def Chip.chainsOk (c : Chip) (d : Nat) : Bool :=
  c.hasEntry (c.leadOf d) && chainsValid (c.reg d DLINK DLINK.CHAINS) (c.entry (c.leadOf d)).w

/-- Columns per driver. -/
def Chip.cpd (c : Chip) (d : Nat) : Nat := (c.entry (c.leadOf d)).w / c.chains d / c.chainDrivers d

/-- Symbols of one LINE packet: 14 and the payload (R306, R307). -/
def packetSymbols (n cpd : Nat) : Nat := 14 + (3 * n * cpd + 7) / 8

/-- Symbols that a line of `t` ns holds at rate code `k`, less the allowance of R311. -/
def lineRoom (t k : Nat) : Nat := 99 * t * 35 * 2 ^ k / 10000

/-- t_min of an entry. -/
def ModeEntry.tMin (e : ModeEntry) : Nat := e.frameCycles / e.vTotal

/-- DLINK.FIT.NEED (R311). -/
def Chip.fitNeed (c : Chip) (d : Nat) : Nat :=
  if c.chainsOk d then
    let s := 4 + c.chainDrivers d * packetSymbols (c.depth d) (c.cpd d)
    ((List.range 5).find? (fun k => decide (s ≤ lineRoom (c.entry (c.leadOf d)).tMin k))).getD 7
  else 7

/-- READY, STATE, FIT and DT_STATUS.DEPTH of a die after a change of CHAINS or of the entry (DLINK page). -/
def Chip.noteDlink (c : Chip) (d : Nat) : Chip :=
  let o := c.leadOf d
  let ready := if c.hasEntry o then c.chainsOk d else (c.die d).chainsSet
  let c := c.put d DLINK PAGE_STATUS 0 0 ready.toNat
  let c := (c.setState d DLINK (if c.chainsOk d then 2 else 1)).put d DLINK DLINK.FIT 2 0 (c.fitNeed d)
  c.put d PANEL_DT DT.STATUS 11 8 (c.depth d)

/-- An entry takes effect: GEOMETRY sets on each die whose chains it makes invalid (R328). -/
def Chip.dlinkGeometry (c : Chip) (o : Nat) : Chip :=
  c.each (c.gang o) fun c d =>
    let was := c.ready d DLINK
    let c := c.noteDlink d
    c.eventIf (was && !c.ready d DLINK) d DLINK 6

/-! ### Commits (R328) -/

/-- The entry that will be in effect at the step point of a commit on an output. -/
def Chip.nextEntry (c : Chip) (o : Nat) : Option ModeEntry :=
  if c.committing o TGEN ∧ c.isStaged o TGEN TGEN.ENTRY then some (modeEntry (bits (c.stagedReg o TGEN TGEN.ENTRY) 5 0))
  else if c.hasEntry o then some (c.entry o) else none

/-- The status of a PAGE_COMMIT on DLINK. -/
def Chip.dlinkStatus (c : Chip) (d : Nat) : Nat :=
  let changed := decide (c.stagedReg d DLINK DLINK.CHAINS ≠ c.reg d DLINK DLINK.CHAINS)
  let busy := (List.range 16).any (fun k => c.training d (8 + k) || c.isReady d (8 + k))
  let g := c.stagedReg d DLINK DLINK.GATE_CTRL
  let tMin := match c.nextEntry (c.leadOf d) with | some e => e.tMin | none => 240
  let gate := c.isStaged d DLINK DLINK.GATE_CTRL && (decide (bits g 3 0 < bits g 6 4) || decide (tMin ≤ bits g 23 16 + bits g 31 24))
  lowest [if changed && busy then STATE else OK, if gate then ARG else OK]

def Chip.retGet (c : Chip) (d k hi lo : Nat) : Nat := c.get d DLINK (DLINK.RET_STATUS + 4 * k) hi lo
def Chip.retPut (c : Chip) (d k hi lo v : Nat) : Chip := c.put d DLINK (DLINK.RET_STATUS + 4 * k) hi lo v

/-- The positions fitted on each chain of a die. -/
def Chip.positions (c : Chip) (d : Nat) : List Nat := List.range (c.chainDrivers d)

/-- Rates of a chain: the AND of its HELLO reports, 0x01 while one is missing (R317, R318). -/
def Chip.chainRates (c : Chip) (d k : Nat) : Nat :=
  (c.positions d).foldl (fun n p =>
    match n, (c.driver d k p).hello with
    | some a, some b => some (a &&& b)
    | _, _ => none) (some 31) |>.getD 1

/-- CHAINS takes effect in the cycle after the commit, and the RATES of a chain are those of its positions (R317). -/
def Chip.chainsStep (c : Chip) (d : Nat) : Chip :=
  if c.isStaged d DLINK DLINK.CHAINS then
    let c := c.setReg d DLINK DLINK.CHAINS (c.stagedReg d DLINK DLINK.CHAINS)
    let y := c.die d
    let c : Chip := { (c.setDie d { y with chainsSet := true }) with staged := KMap.erase c.staged (ra d DLINK DLINK.CHAINS) }
    (c.noteDlink d).each (List.range 16) fun c k =>
      c.when ((c.positions d).any fun p => (c.driver d k p).hello.isSome) fun c => c.retPut d k 20 16 (c.chainRates d k)
  else c

/-- GATE_CTRL takes effect, at a boundary or as R299 states. -/
def Chip.gateStep (c : Chip) (d : Nat) : Chip := (c.applyStaged d DLINK).clearCommit d DLINK

/-- Step point of DLINK outside a frame boundary. -/
def Chip.dlinkStepPoint (c : Chip) (d : Nat) : Chip :=
  let t := c.commitTime d DLINK
  let c := c.chainsStep d
  if !c.isStaged d DLINK DLINK.GATE_CTRL then c.clearCommit d DLINK
  else if !c.hasEntry (c.leadOf d) ∧ t + 1000 ≤ c.now then c.gateStep d else c

/-! ### Reports of drivers (R314 to R322) -/

/-- DRV_HOLD (R304). -/
def holdSyms : List Sym := [symCOM, symIDL, symIDL, symIDL]

/-- Lowest FOM over the positions that report at 28 or 56 Gbit/s (R210). -/
def Chip.chainFom (c : Chip) (d k : Nat) : Option Nat :=
  (c.positions d).foldl (fun m p =>
    if c.retGet d k (8 + p) (8 + p) = 1 then
      match m, (c.driver d k p).fom with
      | some a, some b => some (min a b)
      | none, x => x
      | x, none => x
    else m) none

/-- Every fitted position is locked, reports, and runs at the lane's rate (R318). -/
def Chip.chainLocked (c : Chip) (d k : Nat) : Bool :=
  (c.positions d).all (fun p => decide (c.retGet d k p p = 1) && decide (c.retGet d k (8 + p) (8 + p) = 1) &&
    decide ((c.driver d k p).rate = c.lrate d (8 + k)))

/-- Reports without errors cover 100 µs of this phase from every position (R318). -/
def Chip.chainClean (c : Chip) (d k : Nat) : Bool :=
  let since := (c.lane d (8 + k)).phaseAt
  (c.positions d).all (fun p =>
    let x := c.driver d k p
    x.cleanAt.any (fun t => decide (max t since + 100000 ≤ x.statusAt)))

/-- A chain trains by its reports (R199, R318, R322). -/
def Chip.chainTrain (c : Chip) (d k : Nat) : Chip :=
  let l := 8 + k
  let st := c.lstate d l
  if st = laneLOCK then
    if c.chainLocked d k then (c.lput d l LANE.STATUS 12 12 0).enterPhase d l laneCONFIRM else c
  else if st = laneCONFIRM ∧ c.sent16 d l ∧ c.chainClean d k ∧ c.fomAllows d l then
    let x := c.lane d l
    let granted := (c.positions d).all (fun p => (c.driver d k p).loop)
    let c := if x.far = 0 then c else c.setLane d l { x with far := if granted then 2 else 1 }
    let c := c.confirmEnd d l
    -- without an entry a READY lane carries DRV_HOLD (R59, R304)
    if c.isReady d l ∧ !c.hasEntry (c.leadOf d) then c.sendOn d l holdSyms else c
  else c

/-- A STATUS frame (R315 to R320). -/
def Chip.statusFrame (c : Chip) (d k p : Nat) (lock : Bool) (rate : Nat) (loop : Bool) (fom code crc : Nat) : Chip :=
  let l := 8 + k
  if c.chainDrivers d ≤ p then c.event d DLINK 7
  else
    let x := c.driver d k p
    let clean := if code = 0 ∧ crc = 0 then (if x.cleanAt.isSome then x.cleanAt else some c.now) else some c.now
    let c := c.setDriver d k p { x with rate := rate, loop := loop, fom := if 3 ≤ rate then some fom else none, statusAt := c.now,
                                        cleanAt := clean }
    let c := (c.retPut d k p p lock.toNat).retPut d k (8 + p) (8 + p) 1
    let c := ((c.countBy d DLINK DLINK.DRV_CODE_COUNT code).countBy d DLINK DLINK.DRV_CRC_COUNT crc).eventIf (decide (0 < crc)) d DLINK 0
    let ready := c.isReady d l
    let c := match c.chainFom d k with
      | some f => if 3 ≤ c.lrate d l ∧ (ready ∨ c.training d l ∨ c.lstate d l = laneLOOP) then c.judgeFom d l f else c
      | none => c
    let c := if ready ∧ !lock then c.signalLost d l 12 7 else c
    c.chainTrain d k

/-- A TEMP frame: the reports of the last 1 s are kept (R250, DLINK.TEMP_k). -/
def Chip.tempFrame (c : Chip) (d k p : Nat) (t : Int) : Chip :=
  if c.chainDrivers d ≤ p then c.event d DLINK 7
  else
    let x := c.driver d k p
    c.setDriver d k p { x with temps := x.temps.filter (fun y => decide (c.now ≤ y.2 + 1000000000)) ++ [(t, c.now)] }

def Chip.helloFrame (c : Chip) (d k p rates : Nat) : Chip :=
  if c.chainDrivers d ≤ p then c.event d DLINK 7
  else
    let x := c.driver d k p
    let c := c.setDriver d k p { x with hello := some rates }
    c.retPut d k 20 16 (c.chainRates d k)

/-- A position has sent no STATUS for 200 µs. -/
def Chip.retSilent (c : Chip) (d k p : Nat) : Chip :=
  if c.retGet d k (8 + p) (8 + p) = 1 then
    (c.retPut d k (8 + p) (8 + p) 0).when (decide (p < c.chainDrivers d)) fun c =>
      (c.count d DLINK DLINK.RET_SILENT_COUNT).event d DLINK 2
  else c

/-- A return frame that is not accepted (R315). -/
def Chip.retError (c : Chip) (d : Nat) : Chip := (c.count d DLINK DLINK.RET_ERR_COUNT).event d DLINK 1

/-! ### What the device sends on driver lanes (R303 to R307, R310) -/

/-- The FRM marker of a frame on driver lanes (R305). -/
def frmSyms (seq : Nat) (hold : Bool) : List Sym := markerSyms symFRM (leBytes 4 seq ++ leBytes 1 hold.toNat)

/-- The READY driver lanes of a die. -/
def Chip.drvReady (c : Chip) (d : Nat) : List Nat := ((List.range 16).map (fun k => 8 + k)).filter (fun l => c.isReady d l)

/-- Symbols go out on every READY driver lane of a die. -/
def Chip.sendDrv (c : Chip) (d : Nat) (syms : List Sym) : Chip := c.each (c.drvReady d) fun c l => c.sendMore d l syms

/-- The header of a driver-link packet (R306). -/
def drvHeader (type target line tag format count : Nat) : List Byte :=
  leBytes 1 type ++ leBytes 1 target ++ leBytes 2 line ++ leBytes 1 tag ++ leBytes 1 format ++ leBytes 2 count

/-- The channels of codes as one bit string, N bits for each channel, least significant bit first (R307). -/
def codeBytes (n : Nat) (px : List Px) : List Byte :=
  let chans := px.flatMap fun p => [p.ch 0, p.ch 1, p.ch 2]
  leBytes ((n * chans.length + 7) / 8) (chans.foldr (fun v acc => v + 2 ^ n * acc) 0)

/-- The LINE packet of one driver (R306, R307). -/
def linePacket (n pos line tag : Nat) (px : List Px) : List Sym :=
  packetSyms symSTP (drvHeader 1 pos line tag ((n - 8) / 2) px.length ++ codeBytes n px) symEND

/-- The LINE packets of a line on the chains of a die, in column order, but for those that are dropped (R310, R312). -/
def Chip.sendLines (c : Chip) (o d line : Nat) (lanes drop : List Nat) (codes : List Px) : Chip :=
  let cpc := (c.entry o).w / c.chains d
  c.each lanes fun c l =>
    let k := l - 8
    c.sendMore d l (((c.positions d).filter (fun p => !drop.contains (k * 8 + p))).flatMap fun p =>
      linePacket (c.depth d) p line (c.seq o % 256) ((codes.drop (k * cpc + p * c.cpd d)).take (c.cpd d)))

/-- The packet of a DRV_CMD: one CFG_WRITE of one pair, or one CFG_READ (R306, R307, R321). -/
def cfgPacket (x : DrvCmd) : List Sym :=
  let data := if x.read then 0 else x.data
  packetSyms symSTP (drvHeader (if x.read then 3 else 2) (x.pos + 8 * x.bcast.toNat) 0 x.tag 0 1 ++
    (leBytes 1 x.addr ++ leBytes 1 0 ++ leBytes 2 data)) symEND

/-! ### Configuration access (R321) -/

/-- The packet of a DRV_CMD goes out: in a vertical blanking line, or at once without an entry. -/
def Chip.drvSend (c : Chip) (d : Nat) : Chip :=
  let y := c.die d
  match y.drv with
  | some x =>
    if x.sent then c
    else (c.setDie d { y with drv := some { x with sent := true } }).sendMore d (8 + x.lane) (cfgPacket x)
  | none => c

/-- GO = 1 (R321): a TAG of its own, and STATUS 5 at once for a lane that is not READY. -/
def Chip.drvGo (c : Chip) (d : Nat) : Chip :=
  let w := c.reg d DLINK DLINK.DRV_CMD
  let tag := (bits w 7 0 + 1) % 256
  let c := (c.put d DLINK DLINK.DRV_CMD 7 0 tag).put d DLINK DLINK.DRV_RESULT 2 0 1
  let k := bits w 27 24
  let y := c.die d
  let x : DrvCmd := { lane := k, pos := bits w 22 20, bcast := bit w 29, read := bit w 30, tag := tag, addr := bits w 15 8, data := c.get d DLINK DLINK.DRV_DATA 15 0, sent := false,
                      answered := [], refused := false }
  let c := c.setDie d { y with drv := some x }
  if !c.isReady d (8 + k) then c.endDrv d 5
  else if c.hasEntry (c.leadOf d) then c else (c.sendOn d (8 + k) []).drvSend d

/-- A driver answers the command of a TAG; when every addressed driver has, the command ends. -/
def Chip.drvAnswer (c : Chip) (d k p tag : Nat) (read refused : Bool) : Chip :=
  let y := c.die d
  match y.drv with
  | some x =>
    if x.sent ∧ x.lane = k ∧ x.tag = tag ∧ x.read = read ∧ (x.bcast ∨ x.pos = p) then
      let z := { x with answered := if x.answered.contains p then x.answered else x.answered ++ [p], refused := x.refused || refused }
      let c := c.setDie d { y with drv := some z }
      if (if x.bcast then c.positions d else [x.pos]).all (fun q => z.answered.contains q) then c.endDrv d (if z.refused then 3 else 2) else c
    else c
  | none => c

def Chip.ackFrame (c : Chip) (d k p tag result : Nat) : Chip :=
  if 2 ≤ result then c.retError d
  else if c.chainDrivers d ≤ p then c.event d DLINK 7
  else c.drvAnswer d k p tag false (decide (result = 1))

def Chip.readFrame (c : Chip) (d k p tag addr data : Nat) : Chip :=
  if c.chainDrivers d ≤ p then c.event d DLINK 7
  else
    let mine := (c.die d).drv.any (fun x => x.sent && decide (x.lane = k ∧ x.tag = tag ∧ x.pos = p ∧ x.addr = addr) && x.read)
    if mine then (c.put d DLINK DLINK.DRV_RESULT 31 16 data).drvAnswer d k p tag true false else c

/-! ### The return line (R314, R315) -/

/-- The bits of Manchester code: low then high is 1, high then low is 0; a bit without its mid-bit transition is none. -/
def manchester : List Bool → Option (List Bool)
  | [] => some []
  | [_] => none
  | a :: b :: l => if a = b then none else (manchester l).map (b :: ·)

/-- Eight preamble bits and two start bits. -/
def retStart : List Bool := [false, true, false, true, false, true, false, true, true, true]

/-- The bytes of the 48 bits after the start bits, least significant bit first. -/
def retBytes (l : List Bool) : List Byte :=
  (List.range 6).map fun i => BitVec.ofNat 8 (((l.drop (8 * i)).take 8).foldr (fun b n => b.toNat + 2 * n) 0)

/-- The bits of bytes 0 to 4 that must be 0, by TYPE; a TYPE without them is reserved (R315). -/
def retReserved : Nat → Option Nat
  | 1 => some 0x000000E080
  | 2 => some 0xFFFF000080
  | 3 => some 0xF800F8E080
  | 4 => some 0xFFFF000080
  | 5 => some 0x0000000080
  | _ => none

/-- The bytes 0 to 4 of a good frame. -/
def retFrame (halves : List Bool) : Option (List Byte) :=
  match manchester halves with
  | some l =>
    let bs := retBytes (l.drop 10)
    let body := bs.take 5
    let good := decide (l.length = 58) && decide (l.take 10 = retStart) && decide (bs.getD 5 0 = crc8 body) &&
      (retReserved ((bs.getD 0 0).toNat % 16)).any (fun m => decide (leNat body &&& m = 0))
    if good then some body else none
  | none => none

/-- A good frame of a chain (R315 to R317). -/
def Chip.takeFrame (c : Chip) (d k : Nat) (bs : List Byte) : Chip :=
  let b (i : Nat) : Nat := (bs.getD i 0).toNat
  let w := BitVec.ofNat 32 (b 1)
  let p := b 0 / 16
  match b 0 % 16 with
  | 1 => c.statusFrame d k p (bit w 0) (bits w 3 1) (bit w 4) (b 2) (b 3) (b 4)
  | 2 => c.tempFrame d k p (BitVec.ofNat 16 (b 1 + 256 * b 2)).toInt
  | 3 => c.helloFrame d k p (b 1)
  | 4 => c.ackFrame d k p (b 1) (b 2)
  | _ => c.readFrame d k p (b 1) (b 2) (b 3 + 256 * b 4)

/-! ### Meanings -/

def execStatusFrameRx (d k p : Nat) (lock : Bool) (rate : Nat) (loop : Bool) (fom code crc : Nat) (s : State) :
    Host.Outcome State Fault Refusal :=
  onDriver s d k p fun s => s.up fun c => c.statusFrame d k p lock rate loop fom code crc

def execTempFrameRx (d k p : Nat) (t : Int) (s : State) : Host.Outcome State Fault Refusal :=
  onDriver s d k p fun s => s.up fun c => c.tempFrame d k p t

def execHelloFrameRx (d k p rates : Nat) (s : State) : Host.Outcome State Fault Refusal :=
  onDriver s d k p fun s => s.up fun c => c.helloFrame d k p rates

def execAckFrameRx (d k p tag result : Nat) (s : State) : Host.Outcome State Fault Refusal :=
  onDriver s d k p fun s => s.up fun c => c.ackFrame d k p tag result

def execReadDataFrameRx (d k p tag addr data : Nat) (s : State) : Host.Outcome State Fault Refusal :=
  onDriver s d k p fun s => s.up fun c => c.readFrame d k p tag addr data

def execRetSilent (d k p : Nat) (s : State) : Host.Outcome State Fault Refusal :=
  onDriver s d k p fun s => s.up fun c => c.retSilent d k p

/-- What a return pin receives as a frame: a good frame is taken as its TYPE says, any other is discarded (R315). -/
def execReturnFrameDiscard (x : RetRx) (s : State) : Host.Outcome State Fault Refusal :=
  onDriver s x.die x.chain 0 fun s => s.up fun c => match retFrame x.halves with
    | some bs => c.takeFrame x.die x.chain bs
    | none => c.retError x.die

/-- 1 ms has passed since the packet of a DRV_CMD (R321). -/
def execDrvCmdTimeout (d : Nat) (s : State) : Host.Outcome State Fault Refusal :=
  onDie s d fun s => s.up fun c => if (c.die d).drv.any (fun x => x.sent) then c.endDrv d 4 else c

end Sys2Proof.Machine
end

