-- ==== Sys2Proof/Machine/Modes.lean ====
section
/-! DEFINITION. The operating modes (R56 to R80): the planes that an output holds, OUTPUT_MODE, LIVE_SOURCE, the changes that
one frame boundary makes, and entry into SAFE. -/

namespace Sys2Proof.Machine

/-! ### Commands of an output -/

def isOutputMode (o : Nat) (r : Req) : Bool := match r.cmd with | .outputMode x _ _ _ => decide (x = o) && r.started | _ => false
def isTimingSet (o : Nat) (r : Req) : Bool := match r.cmd with | .timingSet x _ => decide (x = o) && r.started | _ => false
def isSafeExit (o : Nat) (r : Req) : Bool := match r.cmd with | .safeExit x _ => decide (x = o) && r.started | _ => false
/-- CAL_RUN, AGE_SCAN and MARGIN_SCAN of an output. -/
def isWindowCmd (o : Nat) (r : Req) : Bool :=
  match r.cmd with
  | .calRun p | .ageScan p | .marginScan p => decide (fieldAt p 0 1 = o) && r.started
  | _ => false

/-! ### The held plane (R67) -/

/-- A frame plane holds a complete frame. -/
def PlaneSt.holds (x : PlaneSt) : Bool := x.complete && x.frame.isSome

/-- The plane of the most recent complete frame. -/
def Chip.selectHeld (c : Chip) (o : Nat) : Option Nat :=
  let x := c.out o
  let age : Nat → Nat := fun p => match (x.planes.getD p {}).frame with | some f => (c.seq o + 2 ^ 32 - f.toNat) % 2 ^ 32 | none => 2 ^ 32
  match (x.planes.getD 0 {}).holds, (x.planes.getD 1 {}).holds with
  | true, true => if age 1 < age 0 then some 1 else some 0
  | true, false => some 0
  | false, true => some 1
  | false, false => none

/-- A channel of the gang is out of service. -/
def Chip.channelOut (c : Chip) (o : Nat) : Bool :=
  (c.gang o).any (fun d => decide (c.state d (memcPage 0) = mcLOST) || decide (c.state d (memcPage 1) = mcLOST))

/-- The condition of R69 for a return to LIVE, at the boundary that ends frame `f`. -/
def Chip.resumeMet (c : Chip) (o : Nat) (f : Nat) : Bool :=
  let x := c.out o
  decide (x.whole = some (BitVec.ofNat 32 f)) && decide (x.held ≠ some (f % 2)) && !c.channelOut o

/-! ### Legal changes (R61, R63) -/

/-- A mode may follow another by OUTPUT_MODE; `ret` is the return mode in MEASURE. -/
def legalChange (a m ret : Nat) : Bool :=
  if a = BRINGUP then decide (m = LIVE ∨ m = COMPOSE)
  else if a = LIVE then decide (m = COMPOSE ∨ m = HOLD ∨ m = MEASURE ∨ m = BRINGUP)
  else if a = COMPOSE then decide (m = LIVE ∨ m = HOLD ∨ m = MEASURE ∨ m = BRINGUP)
  else if a = HOLD then decide (m = LIVE ∨ m = COMPOSE ∨ m = MEASURE ∨ m = BRINGUP)
  else if a = MEASURE then decide (m = ret ∨ m = BRINGUP ∨ m = MEASURE)
  else false

/-- The driver lanes that the entry uses on a die. -/
def Chip.entryLanes (c : Chip) (d : Nat) : List Nat := (List.range (min 16 (c.chains d))).map (fun k => 8 + k)

/-- Set-up of R63 for a change out of BRINGUP. -/
def Chip.setupDone (c : Chip) (o m : Nat) : Bool :=
  c.hasEntry o &&
    (c.gang o).all (fun d =>
      (c.entryLanes d).all (fun l => c.isReady d l && decide ((c.entry o).minRate ≤ c.lrate d l)) &&
        c.serving d 0 && c.serving d 1 && c.ready d PANEL_OD && c.ready d PANEL_DM && c.ready d PANEL_DT) &&
    (if m = LIVE then (c.out o).live.isSome else (c.out o).layout)

/-- What OUTPUT_MODE needs for a legal change when it is accepted; otherwise BUSY. From HOLD to LIVE, a frame that has ended met both
conditions of R69; DEDUCED (assumption log 99): one that ended since the output entered HOLD. -/
def Chip.changeReady (c : Chip) (o a m : Nat) : Bool :=
  (decide (a ≠ BRINGUP) || c.setupDone o m) &&
    (decide (¬(a = COMPOSE ∧ m = LIVE)) || (c.out o).live.isSome) &&
    (decide (¬(a = HOLD ∧ m = LIVE)) || ((c.out o).resumable && !c.channelOut o)) &&
    (decide (m ≠ LIVE ∧ m ≠ COMPOSE) || !c.channelOut o)

/-- Return mode of MEASURE, AUTO_RESUME, and frames left in the window. -/
def Chip.returnMode (c : Chip) (o : Nat) : Nat := c.get o TGEN TGEN.OUT_STATE 6 4
def Chip.autoResume (c : Chip) (o : Nat) : Bool := c.flag o TGEN TGEN.OUT_STATE 7
def Chip.windowLeft (c : Chip) (o : Nat) : Nat := c.get o TGEN TGEN.OUT_STATE 15 8

/-- Put a field of OUT_STATE on every die of the gang. -/
def Chip.putOutState (c : Chip) (o hi lo v : Nat) : Chip := c.each (c.gang o) fun c d => c.put d TGEN TGEN.OUT_STATE hi lo v

/-- The status of an OUTPUT_MODE on arrival at its die (R61, R63, R65, R69, R375). -/
def Chip.outputStatus (c : Chip) (r : Req) (o m : Nat) : Nat :=
  let a := c.mode o
  let same := decide (m = a) && decide (m ≠ MEASURE)
  lowest [if same || legalChange a m (c.returnMode o) then OK else STATE,
    if (c.reqs (fun q => isOutputMode o q && decide (q.id ≠ r.id))) = [] then OK else BUSY,
    if same || !legalChange a m (c.returnMode o) || c.changeReady o a m then OK else BUSY]

/-- OUTPUT_MODE (R62 to R65): a change that is legal and ready waits for the next frame boundary; one accepted less
than 2 µs before a boundary may wait for the one after it. -/
def Chip.outputMode (c : Chip) (r : Req) (o m flags : Nat) : Chip :=
  let a := c.mode o
  let same := decide (m = a) && decide (m ≠ MEASURE)
  if c.outputStatus r o m ≠ OK then c.done r (c.outputStatus r o m)
  else if same then (c.putOutState o 7 7 (flags % 2)).finish r OK 0 (leBytes 4 (c.seq o))
  else if c.nearBoundary o ∧ Config.freeBool c.fresh then (c.setReq { r with aux := 1 }).tick
  else c

/-- LIVE_SOURCE (R63, R68). A loss that has happened already still leads to HOLD at the next boundary. -/
def Chip.liveSource (c : Chip) (r : Req) (o st : Nat) : Chip :=
  let x := c.out o
  ((c.setOut o { x with live := some st }).noteHeard o).done r OK

/-! ### Changing mode -/

/-- What a mode change does beside its report: the held plane, the count of R68, which begins with the line about to start, the
identity frame of R60, and MEASURE's fields. -/
def State.enterMode (s : State) (o m cause first : Nat) : State :=
  let a := s.chip.mode o
  let s := s.up fun c =>
    let x := c.out o
    let held := if m = HOLD ∨ m = MEASURE ∨ m = SAFE then c.selectHeld o else none
    let c := c.setOut o { x with held := held, heardAt := if m = LIVE then x.lineNo + 1 else x.heardAt, liveLost := false, resumable := false,
                                 odIdentity := x.odIdentity || decide (a = BRINGUP),
                                 splashShown := x.splashShown && decide (m = BRINGUP) && decide (a = BRINGUP),
                                 lossHold := decide (cause = 5) || (x.lossHold && (decide (m = MEASURE ∨ m = HOLD))),
                                 exitHold := decide (cause = 11) }
    let c := c.each (c.gang o) fun c d =>
      let y := c.die d
      c.setDie d { y with heldTiles := [], heldLate := [] }
    let c := if m = MEASURE then c.putOutState o 6 4 a else (c.putOutState o 6 4 0).putOutState o 15 8 0
    c
  s.changeMode o a m cause first

/-- A CAL_RUN ends without results: what it has put into effect on dies that were done is taken back (R71). -/
def Chip.dropCal (c : Chip) (o : Nat) : Chip :=
  let x := c.out o
  match x.cal with
  | none => c
  | some run => ((c.putBack run.undo).setOut o { x with cal := none }).each (c.gang o) fun c d => (c.setBusy d CAL false).setState d CAL 1

/-- A MARGIN_SCAN ends without results. -/
def Chip.dropScan (c : Chip) (o : Nat) : Chip :=
  let x := c.out o
  match x.scan with
  | none => c
  | some run => ((c.putBack run.undo).setOut o { x with scan := none }).each (c.gang o) fun c d =>
      c.each [0, 1] fun c ch => let x := c.chan d ch; c.setChan d ch { x with holding := false }

/-- CAL_RUN, AGE_SCAN and MARGIN_SCAN of an output end without results (R71, R425). -/
def Chip.dropWindow (c : Chip) (o status : Nat) : Chip :=
  if c.reqs (isWindowCmd o) = [] then c
  else (((c.finishAll (isWindowCmd o) status 0).dropCal o).dropScan o).each (c.gang o) fun c d => c.setState d AGE 1

/-- FW_ACTIVATE before its point of no return (R443). -/
def isFwOpen (r : Req) : Bool := match r.cmd with | .fwActivate _ _ _ => r.started && !r.pnr | _ => false

/-- Entry into SAFE (R66, R72, R73, R243, R271, R285, R425, R443). -/
def State.enterSafe (s : State) (o cause first : Nat) : State :=
  let s := s.up fun c =>
    let c := c.finishAll (fun r => isOutputMode o r || isTimingSet o r || (isLayerCommit o r && r.started && !r.pnr) || isFwOpen r) ABORTED 0
    let c := (c.dropWindow o ABORTED).dropCommit o
    let c := c.each [(PANEL_OD, 5), (PANEL_DM, 4), (PANEL_DT, 0)] fun c p =>
      if c.committing o p.1 then (c.panelAbort o p.1).event o p.1 p.2 else c
    -- a pending change of entry is discarded; what else the commit carries stays pending
    let c := if c.committing o TGEN ∧ c.isStaged o TGEN TGEN.ENTRY then
        let c : Chip := { c with staged := KMap.erase c.staged (ra o TGEN TGEN.ENTRY) }
        if c.stagedOf o TGEN = [] then c.clearCommit o TGEN else c
      else c
    let x := c.out o
    c.setOut o { x with safeDue := none, lossDue := false, splashShown := false }
  s.enterMode o SAFE cause first

/-! ### Automatic changes at a boundary (R66, R68 to R71, R375) -/

/-- The loss of a channel at the boundary that ends frame `f`. -/
def State.lossBoundary (s : State) (o f : Nat) : State :=
  let c := s.chip
  let x := c.out o
  if !x.lossDue then s
  else
    let s := s.up fun c => let x := c.out o; c.setOut o { x with lossDue := false }
    let m := c.mode o
    if m = BRINGUP then s
    else
      match c.selectHeld o with
      | some p =>
        if m = LIVE ∨ m = COMPOSE then s.enterMode o HOLD 5 (f + 1)
        else s.up fun c =>
          let x := c.out o
          let c := c.setOut o { x with held := some p, resumable := x.resumable && decide (x.held = some p) }
          if m = MEASURE then c.putOutState o 6 4 HOLD else c
      | none =>
        if m = SAFE then s.up fun c => let x := c.out o; c.setOut o { x with held := none }
        else s.enterSafe o 5 (f + 1)

/-- The end of a MEASURE window at the boundary that ends frame `f` (R70, R71). -/
def State.windowEnd (s : State) (o f cause : Nat) : State :=
  let s := s.up fun c => c.dropWindow o TIMEOUT
  let ret := s.chip.returnMode o
  s.enterMode o (if ret = LIVE ∧ !s.chip.resumeMet o f then HOLD else ret) cause (f + 1)

/-- The pending OUTPUT_MODE is judged against the mode that the automatic changes left (R66): a change that is legal from it takes
effect, unless a channel was lost since (R375). -/
def State.pendingMode (s : State) (o f : Nat) (r : Req) (m flags window : Nat) : State :=
  let c := s.chip
  let a := c.mode o
  let ret := c.returnMode o
  let payload := leBytes 4 ((f + 1) % 2 ^ 32)
  let keep := fun (s : State) => s.when (decide (m = LIVE ∨ m = HOLD)) fun s => s.up fun c => c.putOutState o 7 7 (flags % 2)
  if m = a ∧ m ≠ MEASURE then (s.up fun c => c.putOutState o 7 7 (flags % 2)).finish r OK 0 payload
  else if a = MEASURE ∧ m = MEASURE then s.done r STATE
  else if !legalChange a m ret then s.done r STATE
  else if (m = LIVE ∨ m = COMPOSE) ∧ c.channelOut o then s.done r BUSY
  else if a = MEASURE ∧ m = ret then (keep (s.windowEnd o f 1)).finish r OK 0 payload
  else
    let s := s.when (decide (a = MEASURE)) fun s => s.up fun c => c.dropWindow o TIMEOUT
    let s := (keep (s.enterMode o m 1 (f + 1))).when (decide (m = MEASURE)) fun s => s.up fun c => c.putOutState o 15 8 window
    s.finish r OK 0 payload

/-- The mode changes of the frame boundary that ends frame `f` (R66). -/
def State.boundaryModes (s : State) (o f : Nat) : State :=
  let s := match (s.chip.out o).safeDue with
    | some cause => if s.chip.mode o ≠ SAFE then s.enterSafe o cause (f + 1) else s
    | none => s
  let s := s.lossBoundary o f
  let m := s.chip.mode o
  let s :=
    if m = LIVE ∧ (s.chip.out o).liveLost then s.enterMode o HOLD 2 (f + 1)
    else if m = MEASURE then
      let left := s.chip.windowLeft o - 1
      let s := s.up fun c => c.putOutState o 15 8 left
      if left = 0 then s.windowEnd o f 4 else s
    else if m = HOLD ∧ s.chip.autoResume o ∧ s.chip.resumeMet o f then s.enterMode o LIVE 3 (f + 1)
    else s
  match (s.chip.reqs (isOutputMode o)).head? with
  | some r =>
    if r.aux = 1 then s.up fun c => c.setReq { r with aux := 0 }
    else
      match r.cmd with
      | .outputMode _ m flags window => s.pendingMode o f r m flags window
      | _ => s
  | none => s

end Sys2Proof.Machine
end

