-- ==== Sys2Proof/Machine/Faults.lean ====
section
/-! DEFINITION. Fatal causes, clearing them, the steward watchdog, and the availability counters' clear (R445 to R464). -/

namespace Sys2Proof.Machine

/-! ### Fatal causes (R446, R459) -/

/-- MODE_CHANGE cause of the entry into SAFE that a FAULT code brings about (R78). -/
def safeCause (code : Nat) : Nat := if code = 5 then 6 else if code = 4 then 7 else if code = 1 then 8 else 9

/-- FAULT.PAGE_FAULT_CODE and STATE follow LATCHED. -/
def Chip.noteFault (c : Chip) (d : Nat) : Chip :=
  let l := (List.range 5).filter (fun k => c.flag d FAULT FAULT.LATCHED k)
  (c.setCodes d FAULT (l.map (fun k => k + 1))).setState d FAULT (if l = [] then 1 else 2)

/-- The FAULT page takes a fatal cause. The output enters SAFE at its next line start (R72); without a timing entry it has none, and
enters at once. Before step 2 of boot there is no output to enter SAFE. -/
def State.fatalLatch (s : State) (d code : Nat) : State :=
  let c := s.chip
  let src := fatalSource code
  let o := c.leadOf d
  let safe := decide (c.mode o = SAFE)
  let entry := c.num d FAULT FAULT.LOG_HEAD
  let due := decide (c.power = .running) && !safe && !(c.out o).safeDue.isSome
  let s := s.up fun c =>
    let first := c.num d FAULT FAULT.LATCHED = 0
    let c := { c with fatals := c.fatals.filter (fun x => x ≠ (d, code)) }
    let c := (c.put d FAULT FAULT.LATCHED (code - 1) (code - 1) 1).noteFault d
    let c := if first then c.setNum d FAULT FAULT.FIRST (src.1 * 65536 + code) else c
    let x := c.out o
    let c := if due && c.hasEntry o then c.setOut o { x with safeDue := some (safeCause code) } else c
    (c.event d FAULT 0).record d 0x07 true
      (leBytes 2 src.1 ++ leBytes 1 code ++ leBytes 1 (c.faultCode d src.1) ++ leBytes 1 o ++ leBytes 1 (if safe then 2 else 1) ++
        leBytes 2 0 ++ leBytes 4 (c.num o TGEN TGEN.FRAME_SEQ) ++ leBytes 4 entry)
  let s := s.log d 0x01 src.1 code src.2
  if due && !s.chip.hasEntry o then s.enterSafe o (safeCause code) (s.chip.num o TGEN TGEN.FRAME_SEQ) else s

/-! ### Clearing (R447, R448) -/

/-- Reading of a temperature sensor with its tap, in °C (R424). -/
def Chip.tsRead (c : Chip) (d k : Nat) : Int := signed 8 (c.get d PWR (PWR.TS_READ + 4 * (k / 4)) (8 * (k % 4) + 7) (8 * (k % 4)))

/-- The sensors in use. -/
def Chip.sensors (c : Chip) (d : Nat) : List Nat := (List.range 8).filter (fun k => c.flag d PWR PWR.THERM_STATUS (8 + k))

/-- A cause is still present (R447). -/
def Chip.present (c : Chip) (d code : Nat) : Bool :=
  if code = 5 then (c.sensors d).any (fun k => decide (110 ≤ c.tsRead d k))
  else if code = 4 then (c.die d).avs.coreLow
  else if code = 3 then decide ((c.die d).avs.req = 850) && decide (signed 8 (c.get d PWR PWR.SLACK 15 8) < 0)
  else false

/-- A write of 1s to FAULT.LATCHED by a port that may (R447). -/
def State.latchedClear (s : State) (d : Nat) (w : Word) : State :=
  s.each (List.range 5) fun s k =>
    if bit w k ∧ s.chip.flag d FAULT FAULT.LATCHED k ∧ !s.chip.present d (k + 1) ∧ !s.chip.fatals.contains (d, k + 1) then
      (s.up fun c => (c.put d FAULT FAULT.LATCHED k k 0).noteFault d).log d 0x02 FAULT (k + 1) 0
    else s

/-- Status of CODE_CLEAR with GO = 1 for a page (R448). -/
def Chip.codeClearStatus (c : Chip) (d p : Nat) : Nat :=
  let code := c.faultCode d p
  if (pageKind p).isNone ∨ pageKind p = some .layer then ARG
  else if code = 0 then OK
  else if p = BASKET ∧ code = 2 then OK
  else if p = CODEC ∧ code = 1 then (if c.flag d FAULT FAULT.LATCHED 1 then BUSY else OK)
  else if p = PWR ∧ 2 ≤ code ∧ code ≤ 4 then (if c.flag d FAULT FAULT.LATCHED code then BUSY else OK)
  else ARG

/-- The code that a page shows is cleared. -/
def State.codeClear (s : State) (d p : Nat) : State :=
  let code := s.chip.faultCode d p
  if code = 0 then s else (s.up fun c => c.unlatchCode d p code).log d 0x02 p code 0

/-- A frame of `t` core cycles is added to the availability counter `k` of a gang lead: 1 LOST_NS, 2 LINK_NS, 3 HELD_NS (R460). -/
def Chip.addFrame (c : Chip) (o k t : Nat) : Chip :=
  if k = 1 then (c.count64 o FAULT FAULT.LOST_NS t).count o FAULT FAULT.LOST_FRAMES
  else if k = 2 then c.count64 o FAULT FAULT.LINK_NS t
  else if k = 3 then c.count64 o FAULT FAULT.HELD_NS t
  else c

/-- AVAIL_CLR.CLEAR (R462). A frame that is classified in the same cycle is added after the clear (R464). -/
def Chip.availClear (c : Chip) (d : Nat) : Chip :=
  let x := c.out d
  let c := c.each [FAULT.LOST_NS, FAULT.LOST_NS + 4, FAULT.LINK_NS, FAULT.LINK_NS + 4, FAULT.HELD_NS, FAULT.HELD_NS + 4, FAULT.LOST_FRAMES]
    fun c o => c.setNum d FAULT o 0
  if x.frameAt = c.now then c.addFrame d x.lastCount.1 x.lastCount.2 else c

/-! ### The steward and its watchdog (R452 to R455) -/

def Chip.setSteward (c : Chip) (d : Nat) (x : Steward) : Chip :=
  let y := c.die d
  c.setDie d { y with steward := x }

/-- The steward of a die starts or resumes: READY sets and the watchdog is armed (R452). -/
def Chip.stewardUp (c : Chip) (d : Nat) : Chip :=
  let y := c.die d
  (c.setDie d { y with steward := .running, wdogAt := c.now, wdogMs := min 1000 (c.get d STEWARD STEWARD.WDOG_CTRL 15 0) }).setReady d STEWARD true

/-- A kick: a store of the die's own steward to WDOG_KICK (R452). -/
def Chip.wdogKick (c : Chip) (d : Nat) (w : Word) : Chip :=
  let y := c.die d
  if w = 0xA5#32 ∧ y.steward = .running then
    c.setDie d { y with wdogAt := c.now, wdogMs := min 1000 (c.get d STEWARD STEWARD.WDOG_CTRL 15 0) }
  else c

/-- Expiries of the last 600 s. -/
def Chip.expiries (c : Chip) (d : Nat) : List Nat := (c.die d).expiries.filter (fun t => decide (c.now < t + 600000000000))

/-- The steward is held, and WDOG_ESCALATE latches (R454). -/
def State.escalate (s : State) (d : Nat) : State :=
  (s.up fun c => (c.setSteward d .held).put d STEWARD STEWARD.WDOG_STATUS 0 0 1).fatal d 1

/-- The watchdog expires (R453); a kick, or an activation, in the cycle in which TIMEOUT_MS has passed still wins (R464). Whether the retained image still has the digest of the latest IMAGE entry is free: the manual
does not say where in its baskets a steward keeps its image. -/
def State.wdogExpire (s : State) (d : Nat) : State :=
  let c := s.chip
  let y := c.die d
  if y.steward = .running ∧ y.wdogAt + y.wdogMs * 1000000 < c.now then
    let l := c.expiries d ++ [c.now]
    let up := l.length ≥ 3 || !Config.freeBool c.fresh
    let s := s.up fun c =>
      let y := c.die d
      let c := ((c.setDie d { y with steward := .restarting c.now, expiries := l }).setReady d STEWARD false).tick
      c.events d STEWARD (if up then [1] else [1, 2])
    let s := s.log d 0x04 STEWARD (if up then 2 else 1) l.length
    if up then s.escalate d
    else s.up fun c => c.put d STEWARD STEWARD.WDOG_STATUS 23 16 (min 255 (c.get d STEWARD STEWARD.WDOG_STATUS 23 16 + 1))
  else s

/-- FW_ACTIVATE past its point of no return (R434). -/
def isActivate (r : Req) : Bool := match r.cmd with | .fwActivate _ _ _ => r.started && r.pnr | _ => false

/-- A restarted or activated steward becomes READY (R434, R453); FW_ACTIVATE completes when every steward that it restarted has.
Firmware that starts on die 0 without a profile applied goes on to the profile. -/
def Chip.stewardReady (c : Chip) (d : Nat) : Chip :=
  match (c.die d).steward with
  | .restarting _ => c.stewardUp d
  | .activating =>
    let c := c.stewardUp d
    let valid := c.flag 0 SYS SYS.BOOT_STATUS 24
    let c := c.setStage d (if d = 0 ∧ valid then 6 else 5)
    let c := if d = 0 ∧ !valid then { c with boot := .profile } else c
    if c.dies'.any (fun e => decide ((c.die e).steward = .activating)) then c else c.finishAll isActivate OK 0
  | _ => c

/-! ### The rows -/

def execFatalCauseLatch (d code : Nat) (s : State) : Host.Outcome State Fault Refusal :=
  onDie s d fun s => if s.chip.fatals.contains (d, code) then s.fatalLatch d code else s

def execWdogKick (d : Nat) (w : Word) (s : State) : Host.Outcome State Fault Refusal :=
  onDie s d fun s => s.up fun c => c.wdogKick d w

def execWdogExpire (d : Nat) (s : State) : Host.Outcome State Fault Refusal := onDie s d fun s => s.wdogExpire d

def execWdogRestartTimeout (d : Nat) (s : State) : Host.Outcome State Fault Refusal :=
  onDie s d fun s =>
    match (s.chip.die d).steward with
    | .restarting t => if t + 100000000 < s.chip.now then s.escalate d else s
    | _ => s

def execStewardReady (d : Nat) (s : State) : Host.Outcome State Fault Refusal :=
  onDie s d fun s => s.up fun c => c.stewardReady d

end Sys2Proof.Machine
end

