-- ==== Sys2Proof/Machine/Avs.lean ====
section
/-! DEFINITION. The core voltage loop, the floor monitor and the thermal watch (R417 to R425). -/

namespace Sys2Proof.Machine

def Chip.avs (c : Chip) (d : Nat) : AvsSt := (c.die d).avs
def Chip.setAvs (c : Chip) (d : Nat) (x : AvsSt) : Chip :=
  let y := c.die d
  c.setDie d { y with avs := x }

/-! ### Limits in effect (R418): a value is held, and the register reads back what was written -/

/-- A voltage held between the hardware bounds. -/
def holdMv (v : Nat) : Nat := max 650 (min 850 v)
def heldLow (w : Word) : Nat := max 8 (bits w 7 0)
/-- WARN_C as held. -/
def heldWarn (w : Word) : Int := min 112 (signed 8 (bits w 7 0))

def Chip.loopOn (c : Chip) (d : Nat) : Bool := c.flag d PWR PWR.AVS_CTRL 0
def Chip.pinned (c : Chip) (d : Nat) : Bool := c.flag d PWR PWR.AVS_CTRL 1

/-- Status of a commit of the PWR page (R418). -/
def Chip.pwrCommitStatus (c : Chip) (d : Nat) : Nat :=
  let b := c.stagedReg d PWR PWR.AVS_BOUNDS
  let k := c.stagedReg d PWR PWR.AVS_SLACK
  if holdMv (bits b 25 16) < holdMv (bits b 9 0) ∨ bits k 15 8 ≤ heldLow k then ARG else OK

/-! ### The thermal watch (R424) -/

/-- Number of bits set. -/
def ones8 (m : Nat) : Nat := ((List.range 8).filter (fun k => m.testBit k)).length

/-- At least three sensors: the lowest outside the mask are added. -/
def floorOfThree (m : Nat) : Nat := (List.range 8).foldl (fun m k => if ones8 m < 3 ∧ !m.testBit k then m + 2 ^ k else m) m

/-- The sensors in use after a change of the mask or of the deselected ones. -/
def Chip.noteSensors (c : Chip) (d : Nat) : Chip :=
  let m := floorOfThree (c.get d PWR PWR.THERM 15 8)
  let off := c.get d PWR PWR.THERM_STATUS 23 16
  c.put d PWR PWR.THERM_STATUS 15 8 (m &&& (255 - off))

/-- The AON page takes a die temperature. -/
def Chip.aonTemp (c : Chip) (d : Nat) (t : Int) : Chip :=
  let c := c.put d AON AON.THERM_NOW 7 0 (unsigned 8 t)
  if signed 8 (c.get d AON AON.THERM_PEAK 7 0) < t then c.put d AON AON.THERM_PEAK 7 0 (unsigned 8 t) else c

/-- The die temperature from the latest readings, the warning and the trip. -/
def State.judgeTemp (s : State) (d : Nat) : State :=
  let c := s.chip
  let l := (c.sensors d).map (fun k => c.tsRead d k)
  let t := l.foldl max (l.headD 0)
  let s := s.up fun c =>
    let c := (c.put d PWR PWR.THERM_STATUS 7 0 (unsigned 8 t)).aonTemp d t
    c.eventIf (decide (heldWarn (c.reg d PWR PWR.THERM) ≤ t)) d PWR 4
  if 115 ≤ t then
    let was := (s.chip.codesOf d PWR).contains 4
    (s.fatal d 5).up fun c => c.eventIf (!was) d PWR 8
  else s

/-! ### The step point of the PWR page (R418, R424, R425) -/

/-- Holds of R418 and R424 that a staged set brings, one for each value held. -/
def Chip.holds (c : Chip) (d : Nat) : Nat :=
  let b := c.reg d PWR PWR.AVS_BOUNDS
  let pin := c.get d PWR PWR.AVS_CTRL 25 16
  (decide (holdMv (bits b 25 16) ≠ bits b 25 16)).toNat + (decide (holdMv (bits b 9 0) ≠ bits b 9 0)).toNat +
    (decide (holdMv pin ≠ pin)).toNat + (decide (bits (c.reg d PWR PWR.AVS_SLACK) 7 0 < 8)).toNat +
    (decide (112 < signed 8 (c.get d PWR PWR.THERM 7 0))).toNat + (decide (ones8 (c.get d PWR PWR.THERM 15 8) < 3)).toNat

/-- STATE of the PWR page: 1 loop disabled, 2 running, 3 pinned. -/
def Chip.notePwr (c : Chip) (d : Nat) : Chip := c.setState d PWR (if !c.loopOn d then 1 else if c.pinned d then 3 else 2)

def State.pwrStepPoint (s : State) (d : Nat) : State :=
  let c := s.chip
  if !c.committing d PWR then s
  else
    let was := c.loopOn d
    let therm := c.isStaged d PWR PWR.THERM
    let s := s.up fun c =>
      let c := (c.applyStaged d PWR).clearCommit d PWR
      let c := c.events d PWR (List.replicate (c.holds d) 0)
      let c := if therm then (c.put d PWR PWR.THERM_STATUS 23 16 0).noteSensors d else c
      let c := if c.loopOn d ∧ !was then c.setAvs d { c.avs d with start := true, above := 0, good := 0, crit := false } else c
      c.notePwr d
    if therm then s.judgeTemp d else s

/-! ### The loop (R417, R419 to R422) -/

/-- The request moves towards a value by at most 5 mV. -/
def towards (a b : Nat) : Nat := if a < b then min b (a + 5) else max b (a - 5)

/-- Dies on the rail of a die, and the die that drives its AVSBus (R422). -/
def Chip.railDies (c : Chip) (d : Nat) : List Nat := (List.range 8).filter (fun k => c.flag d PWR PWR.RAIL k)
def Chip.drivesRail (c : Chip) (d : Nat) : Bool := (c.railDies d).headD d = d

/-- A write of RAIL.SHARED sets DRIVER (R422). -/
def Chip.noteRail (c : Chip) (d : Nat) : Chip := c.put d PWR PWR.RAIL 8 8 (c.drivesRail d).toNat

/-- One period of the loop of a die whose worst slack was `worst` (R417, R419, R420): LOOP_MV, the request and its events. -/
def State.loopPeriod (s : State) (d : Nat) (worst : Int) : State :=
  let c := s.chip
  let x := c.avs d
  let k := c.reg d PWR PWR.AVS_SLACK
  let lo : Int := heldLow k
  let loop := c.get d PWR PWR.AVS_STATUS 9 0
  let above := if !c.pinned d ∧ (bits k 15 8 : Int) < worst then x.above + 1 else 0
  let loop := if c.pinned d then loop else if worst < lo then min 1023 (loop + 5) else if above = 10 then loop - 5 else loop
  let b := c.reg d PWR PWR.AVS_BOUNDS
  let target := if c.pinned d then holdMv (c.get d PWR PWR.AVS_CTRL 25 16)
    else clampTo (holdMv (bits b 9 0)) (holdMv (bits b 25 16)) (loop + c.get d PWR PWR.AVS_OFFSET 5 0)
  let frozen := (c.codesOf d PWR).contains 1
  let critical := decide (worst < 8)
  let good := if critical then 0 else if lo ≤ worst then x.good + 1 else 0
  let crit := critical || (x.crit && decide (good < 10))
  let req := if frozen then x.req
    else if critical then max x.req (min 850 (x.req + 5))
    else if crit then max x.req (towards x.req target) else towards x.req target
  let low := if req = 850 ∧ worst < 0 then x.low + 1 else 0
  let s := s.up fun c =>
    let c := (c.put d PWR PWR.AVS_STATUS 9 0 loop).setAvs d
      { x with above := if above = 10 then 0 else above, good := good, crit := crit, req := req, low := low }
    let c := c.events d PWR ((if critical then [0, 2] else []) ++ (if c.pinned d ∧ worst < lo then [1] else []))
    c
  if low = 10 then
    let was := (s.chip.codesOf d PWR).contains 2
    (s.fatal d 3).up fun c => c.eventIf (!was) d PWR 6
  else s

/-- The request goes out on the AVSBus of the rail (R421, R422): the driving die sends the highest request of the dies of its
mask. How many times a frame that was answered had to be sent is not known. -/
def State.avsSend (s : State) (d : Nat) (answered : Bool) : State :=
  let c := s.chip
  if (c.codesOf d PWR).contains 1 then s
  else if !c.drivesRail d then s.up fun c => c.put d PWR PWR.AVS_STATUS 25 16 (c.avs d).req
  else
    let mv := (c.railDies d).foldl (fun n e => max n (c.avs e).req) (c.avs d).req
    if answered then
      s.up fun c => ((c.put d PWR PWR.AVS_STATUS 25 16 mv).countBy d PWR PWR.AVS_WRITE_COUNT (1 + Config.freeNat c.fresh % 4)).tick
    else
      let s := s.up fun c =>
        (((c.setAvs d { c.avs d with req := c.get d PWR PWR.AVS_STATUS 25 16 }).countBy d PWR PWR.AVS_WRITE_COUNT 4).event d PWR 3)
      s.latch d PWR 1

/-- One period of 100 µs (R417). A commit that waits takes effect at its start; where the slack was critical, R419 acts
first (R425). -/
def State.avsPeriod (s : State) (d measured : Nat) (answered : Bool) : State :=
  let c := s.chip
  let now := signed 8 (c.get d PWR PWR.SLACK 15 8)
  let worst := (c.avs d).worst.getD now
  let s := s.up fun c =>
    (c.put d PWR PWR.SLACK 15 8 (unsigned 8 worst)).setAvs d { c.avs d with worst := none, coreLow := if answered then decide (measured < 620) else (c.avs d).coreLow }
  let first := worst < 8 && s.chip.loopOn d
  let s := if first then s else s.pwrStepPoint d
  let s := s.up fun c =>
    let x := c.avs d
    if x.start ∧ answered then (c.setAvs d { x with start := false, req := measured }).put d PWR PWR.AVS_STATUS 9 0 measured else c
  let s := if s.chip.loopOn d && !(s.chip.avs d).start then (s.loopPeriod d worst) else s
  let s := if s.chip.loopOn d then s.avsSend d answered else s
  if first then s.pwrStepPoint d else s

/-- Signed ps held to the 8 bits of SLACK. -/
def slackByte (v : Int) : Int := max (-128) (min 127 v)

/-! ### The rows -/

/-- The die's clocks and its core supply are up. -/
def Chip.dieRuns (c : Chip) (d : Nat) : Bool := decide (c.power = .running) && !c.inReset.contains d

def execAvsPeriod (d measured : Nat) (answered : Bool) (s : State) : Host.Outcome State Fault Refusal :=
  onDie s d fun s => if s.chip.dieRuns d then s.avsPeriod d measured answered else s

/-- Critical-path replicas report every 10 µs; SLACK.MIN keeps the lowest since its last read. -/
def execSlackReport (d : Nat) (slack : Int) (s : State) : Host.Outcome State Fault Refusal :=
  onDie s d fun s => s.up fun c =>
    if c.dieRuns d then
      let x := c.avs d
      let v := slackByte slack
      let c := c.setAvs d { x with worst := some (match x.worst with | some w => min w v | none => v) }
      if v < signed 8 (c.get d PWR PWR.SLACK 7 0) then c.put d PWR PWR.SLACK 7 0 (unsigned 8 v) else c
    else c

/-- A retry after AVS_LOST (R421): the code clears when a frame succeeds. -/
def execAvsRetry (d : Nat) (answered : Bool) (s : State) : Host.Outcome State Fault Refusal :=
  onDie s d fun s => s.up fun c =>
    if c.dieRuns d ∧ (c.codesOf d PWR).contains 1 then
      let c := c.count d PWR PWR.AVS_WRITE_COUNT
      if answered then c.unlatchCode d PWR 1 else c
    else c

/-- The floor monitor is armed from AON READY (R83). -/
def execVfloor (d : Nat) (s : State) : Host.Outcome State Fault Refusal :=
  onDie s d fun s =>
    if s.chip.ready d AON ∧ s.chip.power ≠ .standby then
      let was := (s.chip.codesOf d PWR).contains 3
      ((s.up fun c => c.setAvs d { c.avs d with coreLow := true }).fatal d 4).up fun c => c.eventIf (!was) d PWR 7
    else s

/-- A thermal sample (R424). In STANDBY only the AON page takes it: every sensor is selected, and nothing else of the die runs. -/
def execThermalSample (d : Nat) (temps : List Int) (s : State) : Host.Outcome State Fault Refusal :=
  onDie s d fun s =>
    if s.chip.ready d AON ∧ s.chip.power = .standby then s.up fun c => c.aonTemp d ((temps.take 8).foldl max (temps.headD 0))
    else if s.chip.ready d AON then
      let s := s.pwrStepPoint d
      (s.up fun c => c.each (temps.take 8).zipIdx fun c x =>
        c.put d PWR (PWR.TS_READ + 4 * (x.2 / 4)) (8 * (x.2 % 4) + 7) (8 * (x.2 % 4)) (unsigned 8 x.1)).judgeTemp d
    else s

/-- Insert a number in rising order. -/
def insertInt (a : Int) : List Int → List Int
  | [] => [a]
  | b :: l => if a ≤ b then a :: b :: l else b :: insertInt a l

/-- Twice the median of some readings. -/
def twiceMedian (l : List Int) : Int :=
  let s := l.foldl (fun s a => insertInt a s) []
  s.getD ((s.length - 1) / 2) 0 + s.getD (s.length / 2) 0

/-- A selected sensor has differed from the median by more than DRIFT_C for 1 s (R424). -/
def execTsDeselect (d k : Nat) (s : State) : Host.Outcome State Fault Refusal :=
  onDie s d fun s =>
    let c := s.chip
    let l := c.sensors d
    let far := decide (2 * c.get d PWR PWR.THERM 27 24 < (2 * c.tsRead d k - twiceMedian (l.map (fun i => c.tsRead d i))).natAbs)
    if c.ready d AON ∧ l.contains k ∧ far then
      if c.flag d PWR PWR.THERM 16 then s.up fun c => c.event d PWR 1
      else if 3 < l.length then
        (s.up fun c => ((c.put d PWR PWR.THERM_STATUS (16 + k) (16 + k) 1).noteSensors d).event d PWR 5).judgeTemp d
      else s
    else s

end Sys2Proof.Machine
end

