-- ==== Sys2Proof/Machine/Baskets.lean ====
section
/-! DEFINITION. The baskets (R380 to R395): which masters may write, handing baskets over, the aliases, and the rambler. -/

namespace Sys2Proof.Machine

/-! ### Writing (R383, R135) -/

/-- Status of a write to a word of a basket with owner `k` by a port or by the die's steward (R383, rules 1 to 4). -/
def Chip.basketStatus (c : Chip) (d b k : Nat) (steward : Bool) : Nat :=
  if c.dieMode d = SAFE ∧ (k = 2 ∨ k = 3 ∨ k = 4) then STATE
  else if steward then OK
  else if b < 2 then ARG
  else if k ≠ 5 then BUSY
  else OK

/-- A bit-set or bit-clear write (R135): the word is read with its check, and an uncorrectable one is left as it was. The
result is whether the write took place. -/
def State.aliasWrite (s : State) (d a : Nat) (set : Bool) (w : Word) : State × Bool :=
  let r := s.chip.checkWord d a .none
  let s := s.up fun _ => r.1
  if r.2 then
    let old := s.mem.word a
    (s.setWord a (if set then old ||| w else old &&& ~~~w), true)
  else (s, false)

/-! ### Owners (R382, R384) -/

/-- A block holds something that keeps a basket in use (R384). -/
def Chip.blockUses (c : Chip) (d code : Nat) : Bool :=
  let y := c.die d
  let has := fun (t : Tables) => decide (t.od ≠ []) || t.demura.isSome || t.defects.isSome || t.gamma.isSome || t.dither.isSome
  if code = 2 then (c.out (c.leadOf d)).layout || c.commitPending (c.leadOf d)
  else if code = 3 then decide (y.asm ≠ [])
  else if code = 4 then has y.active || has y.staged || has y.next || y.partialMap.isSome ||
    (c.inflight.any fun r => isTableLoad d r && r.started)
  else false

/-- A basket is in use by its block. -/
def Chip.basketInUse (c : Chip) (d b : Nat) : Bool :=
  let code := c.owner d b
  decide (KMap.get? (c.die d).room code = some b) && c.blockUses d code

/-- BASKET.IN_USE. -/
def Chip.inUse (c : Chip) (d : Nat) : Nat := (List.range 32).foldl (fun n b => n + (c.basketInUse d b).toNat * 2 ^ b) 0

/-- The baskets that a block owns. -/
def Chip.owned (c : Chip) (d code : Nat) : List Nat := (List.range 32).filter (fun b => c.owner d b = code)

/-- After a hand-over, a block whose basket is gone, or that had none, keeps its data in one of those it owns; the manual
does not say in which. -/
def Chip.chooseRoom (c : Chip) (d code : Nat) : Chip :=
  let y := c.die d
  let l := c.owned d code
  let keep := match KMap.get? y.room code with | some b => l.contains b | none => false
  if keep then c
  else if l = [] then c.setDie d { y with room := KMap.erase y.room code }
  else (c.setDie d { y with room := KMap.set y.room code (l.getD (Config.freeNat c.fresh % l.length) 0) }).tick

/-- A write of BASKET.OWNER_k (R384): its status, and the state after it. -/
def Chip.ownerStatus (c : Chip) (d k : Nat) (w : Word) : Nat :=
  let field := fun i => bits w (4 * i + 3) (4 * i)
  let bad := fun i => if k = 0 ∧ i < 2 then decide (field i ≠ 6) else decide (6 ≤ field i)
  if (List.range 8).any bad then ARG
  else if (List.range 8).any (fun i => decide (field i ≠ c.owner d (8 * k + i)) && c.basketInUse d (8 * k + i)) then BUSY
  else OK

def Chip.ownerWrite (c : Chip) (d k : Nat) (w : Word) : Chip :=
  (c.setReg d BASKET (BASKET.OWNER + 4 * k) w).each [2, 3, 4] fun c code => c.chooseRoom d code

/-! ### The rambler (R391 to R394) -/

def Chip.rambler (c : Chip) (d : Nat) : RamblerSt := KMap.getD c.ramblers d {}
def Chip.setRambler (c : Chip) (d : Nat) (x : RamblerSt) : Chip := { c with ramblers := KMap.put {} c.ramblers d x }
def Chip.rcount (c : Chip) (d o : Nat) : Chip := c.count d RAMBLER o

/-- Unused spares of a basket. -/
def Chip.spares (c : Chip) (d b : Nat) : Nat := c.get d RAMBLER (RAMBLER.SPARE_LEFT + 4 * (b / 8)) (4 * (b % 8) + 3) (4 * (b % 8))

/-- Number of region steps; the spares follow. -/
abbrev spareBase : Nat := 131072

/-- First step at or after `i` that a pass covers: regions of the masked baskets, then their unused spares (R391). -/
def nextStep (masked : Nat → Bool) (spares : Nat → Nat) : Nat → Nat → Option Nat
  | 0, _ => none
  | f + 1, i =>
    if i < spareBase then (if masked (i / 4096) then some i else nextStep masked spares f ((i / 4096 + 1) * 4096))
    else
      let b := (i - spareBase) / 8
      if 32 ≤ b then none
      else if masked b && decide ((i - spareBase) % 8 < spares b) then some i
      else nextStep masked spares f (spareBase + 8 * (b + 1))

def Chip.passStep (c : Chip) (d : Nat) : Option Nat :=
  nextStep (fun b => c.flag d RAMBLER RAMBLER.MASK b) (c.spares d) 66 (c.rambler d).step

/-- The region that the rambler starts now: an aborted one whose turn has come, else the next of the pass, else an aborted
one; with whether it comes from the pass, and its aborts so far. -/
def Chip.nextRegion (c : Chip) (d : Nat) : Option (Nat × Bool × Nat) :=
  let x := c.rambler d
  match x.retries.find? (fun r => r.2.1 = 0) with
  | some r => some (r.1, false, r.2.2)
  | none =>
    match c.passStep d with
    | some i => some (i, true, 0)
    | none => (x.retries.head?).map (fun r => (r.1, false, r.2.2))

/-- Basket of a step, and the words it covers; a spare has no address. -/
def stepBasket (i : Nat) : Nat := if i < spareBase then i / 4096 else (i - spareBase) / 8
def stepWords (d i : Nat) : List Nat :=
  if i < spareBase then wordAddrs (basketAddr d (i / 4096) (i % 4096 * 64)) 16 else []

/-- The place of a step as POSITION and LAST_FAIL show it; the manual gives a spare no region number. -/
def Chip.stepPlace (c : Chip) (i : Nat) : Nat :=
  stepBasket i * 65536 + (if i < spareBase then i % 4096 else Config.freeNat c.fresh % 4096)

/-- The rambler can start a region: enabled, clocked, past step 2 of boot, and INTERVAL_US after the region before (R391). -/
def Chip.ramblerOn (c : Chip) (d : Nat) : Bool :=
  decide (c.power = .running) && !c.inReset.contains d && c.ready d RAMBLER && c.flag d RAMBLER RAMBLER.CTRL 0 &&
    decide ((c.rambler d).next ≤ c.now)

/-- Start a region: POSITION shows it, and it leaves the lists of what is to come. -/
def Chip.startRegion (c : Chip) (d : Nat) (r : Nat × Bool × Nat) : Chip :=
  let x := c.rambler d
  let c := (c.setNum d RAMBLER RAMBLER.POSITION (c.stepPlace r.1)).setRambler d
    { step := if r.2.1 then r.1 + 1 else x.step, next := c.now + c.get d RAMBLER RAMBLER.INTERVAL 15 0 * 1000, retries := x.retries.filter (fun q => q.1 ≠ r.1) }
  if r.1 < spareBase then c else c.tick

/-- End of a pass (R391). -/
def Chip.passEnd (c : Chip) (d : Nat) : Chip :=
  if c.passStep d = none ∧ (c.rambler d).retries = [] then
    ((c.setRambler d { next := (c.rambler d).next }).setNum d RAMBLER RAMBLER.PASS_COUNT ((c.num d RAMBLER RAMBLER.PASS_COUNT + 1) % 2 ^ 32)).event d RAMBLER 0
  else c

/-- Retire a region that failed twice (R394). -/
def State.retire (s : State) (d i : Nat) : State :=
  let b := stepBasket i
  let n := s.chip.spares d b
  if n = 0 then
    (s.latch d BASKET 1).up fun c => ((c.setDegraded d BASKET true).event d BASKET 3).event d RAMBLER 4
  else
    let lost := (stepWords d i).any (fun a => s.chip.badWords.contains a)
    (s.when lost fun s => s.latch d BASKET 2).up fun c =>
      let c := { c with fixups := c.fixups.filter (fun a => !(stepWords d i).contains a) }
      let c := c.put d RAMBLER (RAMBLER.SPARE_LEFT + 4 * (b / 8)) (4 * (b % 8) + 3) (4 * (b % 8)) (n - 1)
      (c.rcount d RAMBLER.RETIRED_COUNT).event d RAMBLER 2

/-- One region is tested (R392): its words are read with check, and its content is kept. -/
def State.testRegion (s : State) (d : Nat) (fails1 fails2 : Bool) : State :=
  match s.chip.nextRegion d with
  | none => s
  | some r =>
    let s := s.up fun c => (((c.startRegion d r).wantWords 7 d (stepWords d r.1)).checkWords d (stepWords d r.1)).1
    let s := s.when fails1 fun s => s.up fun c =>
      (c.setNum d RAMBLER RAMBLER.LAST_FAIL (c.stepPlace r.1)).when (decide (spareBase ≤ r.1)) Chip.tick
    let s := s.when (fails1 && !(fails2 && s.chip.flag d RAMBLER RAMBLER.CTRL 1)) fun s => s.up fun c =>
      (c.rcount d RAMBLER.TEST_FAIL_COUNT).event d RAMBLER 1
    let s := s.when (fails1 && fails2 && s.chip.flag d RAMBLER RAMBLER.CTRL 1) fun s => s.retire d r.1
    s.up fun c =>
      let x := c.rambler d
      (c.setRambler d { x with retries := x.retries.map (fun q => (q.1, q.2.1 - 1, q.2.2)) }).passEnd d

/-- Accesses of masters abort the test of the region that the rambler holds, and wait (R393, R395); they see the region as it was. -/
def Chip.ramblerAbort (c : Chip) (d : Nat) (masters : List Nat) : Chip :=
  match c.nextRegion d with
  | none => c
  | some r =>
    let c := (c.startRegion d r).each masters fun c m => c.count d BASKET (BASKET.CONFLICT + 4 * m)
    let c := (c.rcount d RAMBLER.ABORT_COUNT).event d RAMBLER 3
    let x := c.rambler d
    let c := if 7 ≤ r.2.2 then c.rcount d RAMBLER.SKIP_COUNT
      else c.setRambler d { x with retries := x.retries ++ [(r.1, 16, r.2.2 + 1)] }
    c.passEnd d

/-! ### The rows -/

/-- The corrected word is written back, unless a write to the word came first (R381, R395). -/
def execCorrectionWriteBack (d : Nat) (a : Word) (s : State) : Host.Outcome State Fault Refusal :=
  onDie s d fun s => s.up fun c =>
    if a.toNat / 0x1000000 = d then { c with fixups := c.fixups.filter (fun x => x ≠ a.toNat) } else c

def execRamblerRegionTest (d : Nat) (fails1 fails2 : Bool) (s : State) : Host.Outcome State Fault Refusal :=
  onDie s d fun s => if s.chip.ramblerOn d then s.testRegion d fails1 fails2 else s

/-- Masters 0 to 6 can meet the rambler. A spare region has no address, so no access meets it. -/
def execRamblerAbort (d : Nat) (masters : List Nat) (s : State) : Host.Outcome State Fault Refusal :=
  onDie s d fun s => s.up fun c =>
    if c.ramblerOn d ∧ masters ≠ [] ∧ masters.all (fun m => decide (m < 7)) ∧ (c.nextRegion d).any (fun r => r.1 < spareBase) then c.ramblerAbort d masters else c

end Sys2Proof.Machine
end

