-- ==== Sys2Proof/Machine/Cal.lean ====
section
/-! DEFINITION. Self-calibration, ageing scans and margin scans (R396 to R416). -/

namespace Sys2Proof.Machine

/-! ### CAL_RUN (R397 to R401) -/

def isCalRun (o : Nat) (r : Req) : Bool := match r.cmd with | .calRun p => decide (fieldAt p 0 1 = o) && r.started | _ => false
def isAgeScan (o : Nat) (r : Req) : Bool := match r.cmd with | .ageScan p => decide (fieldAt p 0 1 = o) && r.started | _ => false

/-- A run is under way on a die. -/
def Chip.calBusy (c : Chip) (d : Nat) : Bool := (c.out (c.leadOf d)).cal.any (fun x => !x.done.contains d)

/-- CAL_RUN (R397). -/
def Chip.calRun (c : Chip) (r : Req) (o : Nat) (p : List Byte) : Chip :=
  let lanes := (List.range 8).filter (fun l => (fieldAt p 2 1).testBit l)
  let parked := (c.gang o).all fun d => lanes.all fun l => decide (c.lstate d l = lanePARKED)
  if (c.out o).cal.isSome ∨ ((fieldAt p 1 1).testBit 2 ∧ !parked) then c.done r BUSY
  else
    let x := c.out o
    (c.setOut o { x with cal := some {} }).each (c.gang o) fun c d =>
      let y := c.die d
      let quiet := (List.range 8).filter (fun l => c.lget d l LANE.STATUS 11 11 = 0)
      ((c.setDie d { y with calLos := quiet }).setBusy d CAL true).setState d CAL 2

/-- Distance of two numbers. -/
def gap (a b : Int) : Nat := (a - b).natAbs

/-- A tap of a sensor, and its factory tap. -/
def tapAt (w : Word) (k : Nat) : Int := signed 8 (bits w (8 * (k % 4) + 7) (8 * (k % 4)))
def Chip.factTap (c : Chip) (d k : Nat) : Int := tapAt (c.reg d CAL (CAL.TS_FACT + 4 * (k / 4))) k

/-- The range of R398 for a tap, and for a lane's termination and offset. -/
def Chip.tapOk (c : Chip) (d k : Nat) (t : Int) : Bool := decide (gap t (c.factTap d k) ≤ 16) && decide (-32 ≤ t) && decide (t ≤ 31)
def Chip.rxOk (c : Chip) (d l term off : Nat) : Bool :=
  let w := c.reg d CAL (CAL.LANE_RX + 4 * l)
  decide (gap term (bits w 20 16) ≤ 3) && decide (gap off (bits w 27 24) ≤ 3)

/-- The first failed column of R398: 0 none, 1 range, 2 spread, 3 condition. -/
def firstFail (range spread condition : Bool) : Nat := if !range then 1 else if !spread then 2 else if !condition then 3 else 0

def Chip.tsenseFail (c : Chip) (d : Nat) (l : List TsSample) : Nat :=
  firstFail (l.zipIdx.all (fun x => c.tapOk d x.2 x.1.tap)) (l.all (fun x => decide (x.spread ≤ 4))) (l.all (fun x => decide (x.refMove ≤ 4)))

def vrefFail (x : CalSamples) : Nat := firstFail (decide (x.vrefErrUv.natAbs ≤ 8000)) (decide (x.vrefSpread ≤ 2000)) true

/-- Failure of one stream lane. -/
def Chip.rxFail (c : Chip) (d l : Nat) (x : Nat × Nat × Nat) : Nat :=
  firstFail (c.rxOk d l x.1 x.2.1) (decide (x.2.2 ≤ 1)) (!(c.die d).calLos.contains l && decide (c.lget d l LANE.STATUS 11 11 = 1))

/-- Put the taps of a run into effect. -/
def Chip.putTaps (c : Chip) (d : Nat) (l : List TsSample) : Chip :=
  c.each l.zipIdx fun c x => c.put d CAL (CAL.TS_TRIM + 4 * (x.2 / 4)) (8 * (x.2 % 4) + 7) (8 * (x.2 % 4)) (unsigned 8 x.1.tap)

/-- The end of the run of a die (R398, R399): every plausible kind takes effect at once. -/
def Chip.calRunDone (c : Chip) (d : Nat) (x : CalSamples) : Chip :=
  let o := c.leadOf d
  match (c.out o).cal, (c.reqs (isCalRun o)).head? with
  | some run, some r =>
    if run.done.contains d then c
    else
      let p := match r.cmd with | .calRun p => p | _ => []
      let kinds := fieldAt p 1 1
      let named := fun (l : Nat) => (fieldAt p 2 1).testBit l
      let lanes := (x.laneRx.zipIdx.filter (fun y => named y.2)).take 8
      let badLanes := lanes.filter (fun y => c.rxFail d y.2 y.1 ≠ 0)
      let f0 := if kinds.testBit 0 then c.tsenseFail d (x.tsense.take 8) else 0
      let f1 := if kinds.testBit 1 then vrefFail x else 0
      let f2 := if kinds.testBit 2 then (match badLanes.head? with | some y => c.rxFail d y.2 y.1 | none => 0) else 0
      let bad := (decide (f0 ≠ 0)).toNat + (decide (f1 ≠ 0)).toNat * 2 + (decide (f2 ≠ 0)).toNat * 4
      let good := kinds &&& (7 - bad)
      let cause := if f0 ≠ 0 then f0 else if f1 ≠ 0 then f1 else f2
      let old := c
      let undo := (c.keep ((List.range 2).map (fun i => ra d CAL (CAL.TS_TRIM + 4 * i)) ++ (List.range 8).map (fun l => ra d CAL (CAL.LANE_RX + 4 * l)) ++
        [ra d CAL CAL.VREF, ra d CAL CAL.RESULT]))
      let c := if good.testBit 0 then c.putTaps d (x.tsense.take 8) else c
      let c := if good.testBit 1 then c.put d CAL CAL.VREF 1 0 x.vrefCell else c
      let c := if good.testBit 2 then c.each lanes fun c y =>
          (c.put d CAL (CAL.LANE_RX + 4 * y.2) 4 0 y.1.1).put d CAL (CAL.LANE_RX + 4 * y.2) 11 8 y.1.2.1
        else c
      let changed := decide (c.regs ≠ old.regs)
      let c := c.setNum d CAL CAL.RESULT (cause * 65536 + bad * 256 + good)
      let c := c.events d CAL (0 :: (if bad ≠ 0 then [1] else []) ++ (if changed then [2] else []))
      let c := (c.setBusy d CAL false).setState d CAL 1
      let run := { done := d :: run.done, applied := run.applied &&& good, implausible := run.implausible ||| bad,
                   refused := badLanes.foldl (fun n y => n ||| 2 ^ y.2) run.refused, undo := undo ++ run.undo : CalRun }
      let z := c.out o
      if (c.gang o).all (fun e => run.done.contains e) then
        (c.setOut o { z with cal := none }).finish r (if run.implausible = 0 then OK else FAIL) (if run.implausible = 0 then 0 else 1)
          (leBytes 1 run.applied ++ leBytes 1 run.implausible ++ leBytes 1 run.refused ++ [0#8])
      else c.setOut o { z with cal := some run }
  | _, _ => c

/-- Status of a commit of the CAL page (R397, R401). -/
def Chip.calCommitStatus (c : Chip) (d : Nat) : Nat :=
  let taps := (List.range 8).all fun k =>
    let w := c.stagedReg d CAL (CAL.TS_TRIM + 4 * (k / 4))
    w = c.reg d CAL (CAL.TS_TRIM + 4 * (k / 4)) || c.tapOk d k (tapAt w k)
  let rx := (List.range 8).all fun l =>
    let w := c.stagedReg d CAL (CAL.LANE_RX + 4 * l)
    w = c.reg d CAL (CAL.LANE_RX + 4 * l) || c.rxOk d l (bits w 4 0) (bits w 11 8)
  let free := (List.range 8).all fun l =>
    decide (mergeBits 0xF1F 0 (c.stagedReg d CAL (CAL.LANE_RX + 4 * l)) = mergeBits 0xF1F 0 (c.reg d CAL (CAL.LANE_RX + 4 * l))) ||
      (!c.training d l && !c.isReady d l)
  let cell := bits (c.stagedReg d CAL CAL.VREF) 1 0
  let vref := decide (cell = c.get d CAL CAL.VREF 1 0) || Config.vrefInRange d cell
  lowest [if taps && rx && vref then OK else ARG, if free then OK else STATE, if c.calBusy d then BUSY else OK]

/-! ### AGE_SCAN (R407 to R410) -/

def Chip.ageScan (c : Chip) (o : Nat) : Chip := c.each (c.gang o) fun c d => c.setState d AGE 2

/-- SLOW_PPM of a pair (R408). -/
def slowPpm (base ratio : Nat) : Nat := (base - ratio) * 1000000 / base

/-- Put one die's results into its AGE registers. -/
def Chip.ageResult (c : Chip) (d what : Nat) (x : AgeSamples) : Chip :=
  let c := if what.testBit 0 then c.each (x.ratios.take 8).zipIdx fun c y =>
      c.setNum d AGE (AGE.RO + 4 * y.2) (slowPpm (c.num d AGE (AGE.RO_BASE + 4 * y.2)) y.1)
    else c
  let c := if what.testBit 1 then c.each (x.drifts.take 8).zipIdx fun c y =>
      c.put d AGE (AGE.TS_DRIFT + 4 * (y.2 / 4)) (8 * (y.2 % 4) + 7) (8 * (y.2 % 4)) (match y.1 with | some t => unsigned 8 t | none => 0x80)
    else c
  let c := if what.testBit 2 then c.each (x.foms.take 24).zipIdx fun c y =>
      c.put d AGE (AGE.FOM_SAMPLE + 4 * (y.2 / 4)) (8 * (y.2 % 4) + 7) (8 * (y.2 % 4)) (if c.isReady d y.2 ∧ 3 ≤ c.lrate d y.2 then y.1 else 0)
    else c
  (c.setState d AGE 1).event d AGE 0

/-- The highest SLOW_PPM over a gang with its place, the first of the highest (R407). -/
def Chip.slowest (c : Chip) (o : Nat) : Nat × Nat :=
  (c.gang o).foldl (fun b d => (List.range 8).foldl (fun b k =>
    let v := c.num d AGE (AGE.RO + 4 * k)
    if b.1 < v then (v, d * 16 + k) else b) b) (0, o * 16)

/-- The largest drift over a gang. -/
def Chip.widestDrift (c : Chip) (o : Nat) : Nat :=
  (c.gang o).foldl (fun b d => (List.range 8).foldl (fun b k =>
    let v := c.get d AGE (AGE.TS_DRIFT + 4 * (k / 4)) (8 * (k % 4) + 7) (8 * (k % 4))
    if v = 0x80 then b else max b (signed 8 v).natAbs) b) 0

/-- The end of an ageing scan. What the payload holds for a kind that was not measured is not stated: a free value. -/
def Chip.ageScanDone (c : Chip) (o : Nat) (l : List AgeSamples) : Chip :=
  match (c.reqs (isAgeScan o)).head? with
  | none => c
  | some r =>
    let what := match r.cmd with | .ageScan p => fieldAt p 1 1 | _ => 0
    let c := c.each ((c.gang o).zip l) fun c x => c.ageResult x.1 what x.2
    let ro := if what.testBit 0 then leBytes 4 (c.slowest o).1 ++ leBytes 1 (c.slowest o).2
      else (List.range 5).map (fun i => Config.freeByte (c.fresh + i))
    let ts := if what.testBit 1 then leBytes 1 (c.widestDrift o) else [Config.freeByte (c.fresh + 5)]
    (c.finish r OK 0 (ro ++ ts ++ leBytes 2 0)).tick

/-! ### MARGIN_SCAN (R411 to R414) -/

/-- Physical ranks of a channel that are fitted and not failed. -/
def Chip.goodRanks (c : Chip) (d ch : Nat) : List Nat :=
  ((List.range (c.mget d ch MEMC.CFG 5 4)).filter (fun r => c.mget d ch MEMC.STATUS 29 28 ≠ r + 1)) ++
    (if c.mget d ch MEMC.CFG 3 3 = 1 ∧ c.mget d ch MEMC.STATUS 31 30 ≠ 3 then [2] else [])

/-- The start of a scan; BUSY while a named channel is not READY (R93). -/
def Chip.marginScan (c : Chip) (r : Req) (o : Nat) (p : List Byte) : Chip :=
  let chs := maskChannels (fieldAt p 2 1)
  let all := (c.gang o).flatMap fun d => chs.map fun ch => (d, ch)
  if (c.out o).scan.isSome ∨ all.any (fun x => !c.serving x.1 x.2) then c.done r BUSY
  else
    let c := c.each (c.gang o) fun c d => c.setState d AGE 2
    let x := c.out o
    let undo := c.keep ((c.gang o).flatMap fun d => [ra d AGE AGE.DQ_WIN, ra d AGE (AGE.DQ_WIN + 4), ra d AGE AGE.RETENTION])
    if fieldAt p 1 1 = 0 then
      let able := all.filter (fun x => c.mget x.1 x.2 MEMC.CFG 9 8 = 3)
      let todo := able.flatMap fun x => ((c.goodRanks x.1 x.2).filter (fun k => (fieldAt p 3 1).testBit k)).map fun k => scanKey x.1 x.2 k
      (c.setOut o { x with scan := some { todo := todo, bad := decide (able ≠ all), undo := undo } }).marginNote o
    else
      let free := fun (x : Nat × Nat) => decide (c.mget x.1 x.2 MEMC.STATUS 31 30 = 1) && !c.migrating x.1 x.2
      let run := all.filter free
      let codes := all.foldl (fun (m : KMap Nat) x =>
        KMap.set m (scanKey x.1 x.2 0) (if c.mget x.1 x.2 MEMC.STATUS 31 30 = 1 then 0 else 3)) []
      let c := c.each all fun c x => c.put x.1 AGE AGE.RETENTION (2 * x.2 + 1) (2 * x.2) (KMap.getD codes (scanKey x.1 x.2 0) 0)
      let c := c.each run fun c x => let y := c.chan x.1 x.2; c.setChan x.1 x.2 { y with holding := true }
      (c.setOut o { x with scan := some { todo := run.map (fun x => scanKey x.1 x.2 0), codes := codes, undo := undo } }).marginNote o

/-- Positions of a window. -/
def windowWidth : Option (Nat × Nat) → Nat
  | some x => x.2 + 1 - x.1
  | none => 0
def windowBytes : Option (Nat × Nat) → List Byte
  | some x => leBytes 1 x.1 ++ leBytes 1 x.2
  | none => [0#8, 0#8]

/-- The narrowest window of a rank. -/
def narrowest (l : List LaneWindow) : Nat := l.foldl (fun n w => min n (min (windowWidth w.read) (windowWidth w.write))) 0xFE

/-- The end of the scan of one rank (R412, R413). -/
def State.rankScanDone (s : State) (d ch rank : Nat) (l : List LaneWindow) : State :=
  let key := scanKey d ch rank
  if (s.chip.out (s.chip.leadOf d)).scan.any (fun m => m.todo.contains key) ∧ !(s.chip.chan d ch).holding then
    let n := narrowest l
    let s := s.up fun c =>
      let o := c.leadOf d
      let x := c.out o
      let got := (l.flatMap fun w => windowBytes w.read ++ windowBytes w.write).take 32
      let c := c.setOut o { x with scan := x.scan.map fun m =>
        { m with todo := m.todo.filter (fun k => k ≠ key), got := KMap.set m.got key got } }
      (c.put d AGE (AGE.DQ_WIN + 4 * ch) (8 * rank + 7) (8 * rank) n).eventIf (decide (n < 4)) d AGE 1
    let s := if n < 4 then s.uncorrectable d ch rank else s
    s.up fun c => c.marginNote (c.leadOf d)
  else s

/-! ### What the firmware image plans after a window (R416) -/

/-- The AVS offset of a die: never lowered. -/
def Chip.planOffset (c : Chip) (d : Nat) : Nat :=
  let worst := (List.range 8).foldl (fun n k => max n (c.get d AGE (AGE.RO + 4 * k) 23 0)) 0
  max (c.get d PWR PWR.AVS_OFFSET 5 0) (min 60 ((worst + 499) / 500))

/-- The ceiling of a lane at rate code `k`, from its FOM sample and the first sample of its trend history. -/
def planCeiling (k plan accept fom first : Nat) : Nat := if fom < accept + 8 ∧ 4 * fom < 3 * first then k - 1 else plan

/-- A delay, from the window of its byte lane. -/
def planDelay (now left right : Nat) : Nat :=
  let mid := (left + right) / 2
  if 2 ≤ gap mid now ∧ gap mid now ≤ 16 then mid else now

/-- The refresh pin of a channel: never returned to 0. -/
def Chip.planPin (c : Chip) (d ch : Nat) : Nat :=
  if c.get d AGE AGE.RETENTION (2 * ch + 1) (2 * ch) = 2 then 2 else c.mget d ch MEMC.REFRESH 9 8

/-! ### The rows -/

def execCalRunDone (d : Nat) (x : CalSamples) (s : State) : Host.Outcome State Fault Refusal :=
  onDie s d fun s => s.up fun c => c.calRunDone d x

def execAgeScanDone (o : Nat) (l : List AgeSamples) (s : State) : Host.Outcome State Fault Refusal :=
  onOutput s o fun s => s.up fun c => c.ageScanDone o l

def execRankScanDone (d ch rank : Nat) (l : List LaneWindow) (s : State) : Host.Outcome State Fault Refusal :=
  onChannel s d ch fun s => s.rankScanDone d ch rank l

/-- The pattern of a retention scan has been read back (R414). -/
def execRetentionHoldEnd (d ch : Nat) (pass : Bool) (s : State) : Host.Outcome State Fault Refusal :=
  onChannel s d ch fun s => s.up fun c =>
    if (c.chan d ch).holding then (c.retentionResult d ch (if pass then 1 else 2)).eventIf (!pass) d AGE 2 else c

end Sys2Proof.Machine
end

