-- ==== Sys2Proof/Machine/Link.lean ====
section
/-! DEFINITION. The stream link (R157 to R187) and forwarding over the slice bridge (R40, R41): pixel packets, markers,
the assembly of layer tiles (R344, R345), the command channel's acknowledgements, SKP ordered sets, and the commit of
the lane group layout. -/

namespace Sys2Proof.Machine

/-! ### Pixel packets (R173 to R179) -/

/-- Bits per pixel of a source format (R174); none: reserved. -/
def formatBits : Nat → Option Nat
  | 1 => some 24
  | 2 => some 30
  | 3 => some 36
  | _ => none

/-- A channel of a source format as a canonical code (R174). -/
def canonical (format v : Nat) : Nat :=
  if format = 1 then v * 16 + v / 16 else if format = 2 then v * 4 + v / 256 else v

/-- The canonical pixels of a payload (R174, R175). -/
def payloadPixels (format count : Nat) (bs : List Byte) : List Px :=
  let x := leNat bs
  let n := (formatBits format).getD 36 / 3
  let ch := fun k => canonical format (bitsOf x (n * k) n)
  (List.range count).map fun i => pxOf (ch (3 * i)) (ch (3 * i + 1)) (ch (3 * i + 2))

/-- The header fields of a packet. -/
structure PktHead where
  stream : Nat
  line   : Nat
  x      : Nat
  count  : Nat
  format : Nat
  seq    : Nat
  resent : Bool
  /-- a reserved field or bit is not 0 -/
  bad    : Bool
  deriving DecidableEq, Repr

def pktHead (h : List Byte) : PktHead :=
  { stream := fieldAt h 0 2 % 4096, line := fieldAt h 2 2 % 32768, x := fieldAt h 4 2 % 32768,
    count := fieldAt h 6 2 % 2048, format := fieldAt h 8 1, seq := fieldAt h 9 1, resent := fieldAt h 10 1 % 2 = 1,
    bad := decide (4096 ≤ fieldAt h 0 2) || decide (32768 ≤ fieldAt h 2 2) || decide (32768 ≤ fieldAt h 4 2) ||
      decide (2048 ≤ fieldAt h 6 2) || decide (2 ≤ fieldAt h 10 1) || decide (fieldAt h 11 5 ≠ 0) }

/-- A SEQ extended against the current frame of an output (R177): the frame number, and whether it lies in the window. -/
def extendSeq (seq cur : Nat) : Nat × Bool :=
  let d := signed 8 ((seq + 256 - cur % 256) % 256)
  (unsigned 32 ((cur : Int) + d), decide (-1 ≤ d) && decide (d ≤ 2))

/-- A use of a stream: the live stream of an output, or the feed of a layer (R177). -/
inductive Use where
  | live (output : Nat)
  | layer (n : Nat)
  deriving DecidableEq, Repr

/-- The uses of a stream (R176, R231). -/
def Chip.uses (c : Chip) (st : Nat) : List Use :=
  (c.outputs.filter (fun o => (c.out o).live = some st)).map Use.live ++
    (c.layers.filter (fun kv => kv.2.words.fed && decide (kv.2.words.stream = st))).map (fun kv => Use.layer kv.1)

def Chip.useOutput (c : Chip) : Use → Nat
  | .live o => o
  | .layer n => (c.layer n).words.output

/-- A pixel packet after its STP, by checks 1 to 4 of R176: its header and payload, or the counter of SLINK that it counts in and
the event bit. A COUNT above 1024 gives no end position and is judged when the header has arrived; DEDUCED (assumption log 95): so is
a reserved FORMAT, which gives none either. -/
def pktCheck (syms : List (Option Sym)) : Except (Nat × List Nat) (PktHead × List Byte) :=
  let data := takeData syms
  let bytes := data.1
  let h := pktHead (bytes.take 16)
  if bytes.length < 16 then .error (SLINK.SYMBOL_ERR_COUNT, [1])
  else match formatBits h.format with
    | none => .error (SLINK.HDR_ERR_COUNT, [2])
    | some b =>
      let n := 16 + (h.count * b + 7) / 8
      let stop := data.2.head?
      if 1024 < h.count then .error (SLINK.HDR_ERR_COUNT, [2])
      else if bytes.length ≠ n + 4 ∨ (stop ≠ some (some symEND) ∧ stop ≠ some (some symEDB)) then .error (SLINK.SYMBOL_ERR_COUNT, [1])
      else if stop = some (some symEDB) then .error (SLINK.NULLIFIED_COUNT, [])
      else if (crc32c (bytes.take n)).toNat ≠ fieldAt bytes n 4 then .error (SLINK.CRC_ERR_COUNT, [0])
      else if h.bad ∨ h.count = 0 ∨ 32768 < h.x + h.count then .error (SLINK.HDR_ERR_COUNT, [2])
      else .ok (h, (bytes.take n).drop 16)

/-- A packet counted against a check. -/
def Chip.pktFail (c : Chip) (d : Nat) (v : Nat × List Nat) : Chip := (c.count d SLINK v.1).events d SLINK v.2

/-! ### Assembling layer tiles (R344, R345) -/

/-- Pixels of a layer inside a tile. -/
def Desc.tileArea (w : Desc) (tx ty : Nat) : Nat := min 64 (w.width - 64 * tx) * min 16 (w.height - 16 * ty)

/-- Take the least recently touched open tile that meets a test out of a list. -/
def takeFirst (p : OpenTile → Bool) : List OpenTile → Option (OpenTile × List OpenTile)
  | [] => none
  | t :: ts => if p t then some (t, ts) else (takeFirst p ts).map (fun r => (r.1, t :: r.2))

/-- The lowest spill slot that is free; slot `i` lies in channel `i` modulo 2, which must serve (R356, R375). -/
def Chip.spillPlace (c : Chip) (d : Nat) : Option Nat :=
  (List.range 8192).find? fun i => c.serving d (i % 2) && !(c.die d).asm.any (fun t => decide (t.spill = some i))

/-- The least recently touched tile in an on-die buffer goes to a spill slot. -/
def spillFirst (i : Nat) : List OpenTile → List OpenTile
  | [] => []
  | t :: ts => if t.spill.isSome then t :: spillFirst i ts else { t with spill := some i } :: ts

/-- An on-die buffer is free for a tile (R345): with none free the least recently touched tile spills, and with no spill slot free
either the least recently touched tile of all is discarded before. -/
def Chip.makeRoom (c : Chip) (d : Nat) : Chip :=
  if ((c.die d).asm.filter (fun t => t.spill.isNone)).length < 256 then c
  else
    let y := c.die d
    let c := if c.spillPlace d = none then
        ((c.setDie d { y with asm := y.asm.drop 1 }).count d CODEC CODEC.ASM_DROP_COUNT).event d CODEC 4
      else c
    let y := c.die d
    match c.spillPlace d with
    | some i =>
      if (y.asm.filter (fun t => t.spill.isNone)).length < 256 then c
      else ((c.setDie d { y with asm := spillFirst i y.asm }).count d CODEC CODEC.ASM_SPILL_COUNT).event d CODEC 3
    | none => c

/-- Pixels of one tile row of one tile arrive (R344, R376). `at_`: place of the first pixel within the tile. A complete
tile queues for encoding. -/
def Chip.assemble (c : Chip) (d n : Nat) (w : Desc) (frame : Nat) (resent : Bool) (tx ty at_ : Nat) (px : List Px) : Chip :=
  let answer := if resent then c.resends.find? (fun r => decide (r.layer = n ∧ r.tx = tx ∧ r.ty = ty ∧ r.frame.toNat = frame)) else none
  let slot := match answer with | some r => r.slot | none => w.write + ty * w.tw + tx
  let f := BitVec.ofNat 32 frame
  let mine := fun (t : OpenTile) => decide (t.layer = n ∧ t.frame = f ∧ t.tx = tx ∧ t.ty = ty ∧ t.slot = slot)
  let y := c.die d
  let found := takeFirst mine y.asm
  let old := match found with
    | some x => x.1
    | none => { layer := n, frame := f, tx := tx, ty := ty, slot := slot, resend := answer.isSome, pixels := [], spill := none }
  let c := match found with | some x => c.setDie d { y with asm := x.2 } | none => c
  let c := if found.isNone ∨ old.spill.isSome then c.makeRoom d else c
  let pixels := (px.zipIdx).foldl (fun m p => KMap.set m (at_ + p.2) p.1) old.pixels
  let y := c.die d
  if pixels.length = w.tileArea tx ty then
    let job : EncJob := { layer := some n, plane := 0, slot := layerSlot slot, tx := tx, ty := ty, owner := n,
                          seq := frame % 256, subst := false,
                          pixels := some ((List.range 1024).map (fun i => KMap.getD pixels i blackPx)) }
    let c := c.setDie d { y with encQ := y.encQ ++ [job] }
    if old.resend then c
    else
      let z := c.layer n
      let key := w.write * 2 ^ 32 + frame
      let done := KMap.getD z.tiles key []
      c.setLayer n { z with tiles := KMap.set z.tiles key (if done.contains (ty * 512 + tx) then done else done ++ [ty * 512 + tx]) }
  else c.setDie d { y with asm := y.asm ++ [{ old with pixels := pixels, spill := none }] }

/-! ### Routing (R40, R41) -/

/-- Cut a packet's pixels at the 64-column boundaries of the output, which contain the slice edges: output column and
pixels of each part. -/
def parts (col : Nat) (px : List Px) : Nat → List (Nat × List Px)
  | 0 => []
  | fuel + 1 =>
    if px = [] then []
    else
      let n := 64 - col % 64
      (col, px.take n) :: parts (col + n) (px.drop n) fuel

/-- Dies that a packet's parts for an output go to, with the drop of those that meet no bandwidth (R41) or no path. -/
def Chip.forward (c : Chip) (d : Nat) (dies noRoom : List Nat) : Chip :=
  c.each (dies.filter (fun e => decide (e ≠ d) && noRoom.contains e)) fun c _ =>
    (c.count d BRIDGE BRIDGE.FWD_DROP_COUNT).event d BRIDGE 2

/-- A part reaches its die. -/
def Chip.arrives (c : Chip) (d e : Nat) (noRoom : List Nat) : Bool := e = d || (!noRoom.contains e && c.reach d e)

/-- Numbers without repeats, in ascending order. -/
def ascending (l : List Nat) : List Nat := (l.foldl (fun (m : KMap Unit) n => KMap.set m n ()) []).map (fun kv => kv.1)

/-- Pixels of the live stream of an output for frame `f` (R67, R178, R292): kept until their line is shown. Pixels that
come after the segment's deadline, or for a frame that is over, are dropped. -/
def Chip.livePixels (c : Chip) (d o f line x : Nat) (px : List Px) (noRoom : List Nat) : Chip :=
  let e := c.entry o
  let cur := c.seq o
  let mode := c.mode o
  let now := decide (f = cur)
  let at_ := c.get o TGEN TGEN.POSITION 31 16
  let late := now && decide (at_ < e.vActive) && (decide (line < at_) || (decide (line = at_) && (c.out o).closed))
  if !c.hasEntry o ∨ e.vActive ≤ line ∨ (now ∧ mode ≠ LIVE ∧ mode ≠ HOLD ∧ mode ≠ MEASURE) ∨
      (!now ∧ extendSeq (f % 256) cur = (f, true) ∧ (f + 1) % 2 ^ 32 = cur) ∨ late then c
  else
    let ps := parts x px 18
    let c := c.forward d (ascending (ps.map (fun p => c.colDie o p.1))) noRoom
    c.each ps fun c p =>
      let t := c.colDie o p.1
      let col := p.1 % e.w
      if e.hActive ≤ p.1 ∨ !c.arrives d t noRoom then c
      else
        let y := c.die t
        if now ∧ (KMap.get? y.substs (line * 64 + col / 64)).isSome then c
        else
          c.setDie t { y with livePx := (p.2.zipIdx).foldl (fun m q => KMap.set m ((f * 32768 + line) * 4096 + col + q.2) q.1) y.livePx }

/-- Pixels of a stream bound to a layer (R232, R344). -/
def Chip.layerPixels (c : Chip) (d n f : Nat) (h : PktHead) (px : List Px) (noRoom : List Nat) : Chip :=
  let w := (c.layer n).words
  let o := w.output
  let c := c.layerHeard n
  if w.height ≤ h.line ∨ w.width < h.x + h.count then ((c.count d COMP COMP.SIZE_DROP_COUNT).event d COMP 3).notice n 4 (c.seq o)
  else if h.format ≠ w.format then ((c.count d COMP COMP.FORMAT_DROP_COUNT).event d COMP 4).notice n 5 (c.seq o)
  else if !c.hasEntry o then c
  else
    let ps := parts (w.x + h.x) px 18
    let c := c.forward d (ascending (ps.map (fun p => c.colDie o p.1))) noRoom
    c.each ps fun c p =>
      let t := c.colDie o p.1
      if c.arrives d t noRoom ∧ t < dieCount c.member then
        let lx := p.1 - w.x
        c.assemble t n w f h.resent (lx / 64) (h.line / 16) (h.line % 16 * 64 + lx % 64) p.2
      else c

/-- The parser runs: the package runs and the die's output is not in SAFE (R73), and the group is READY. -/
def Chip.parses (c : Chip) (d f : Nat) : Bool :=
  c.power = .running && !c.inReset.contains d && c.dieMode d ≠ SAFE && c.firstReady d f

/-- The current frame of an output when a packet's STP arrived, `ago` ns before its end (R177). -/
def Chip.seqAgo (c : Chip) (o ago : Nat) : Nat :=
  if c.hasEntry o ∧ !(c.out o).starting ∧ c.now < (c.out o).frameAt + ago then (c.seq o + 2 ^ 32 - 1) % 2 ^ 32 else c.seq o

/-- The stream of a packet is noted as carried by a group (R68, R129). -/
def Chip.noteCarried (c : Chip) (st d f : Nat) : Chip :=
  let l := KMap.getD c.carried st []
  { c with via := KMap.put 0 c.via st (d * 8 + f + 1),
           carried := KMap.put [] c.carried st (if l.contains (d * 8 + f) then l else l ++ [d * 8 + f]) }

/-- A pixel packet received whole, after its STP (R176 to R179). An output in SAFE takes nothing (R73). -/
def Chip.pixelPacket (c : Chip) (d f : Nat) (syms : List (Option Sym)) (ago : Nat) (noRoom : List Nat) : Chip :=
  if !c.parses d f then c
  else
    match pktCheck syms with
    | .error v => c.pktFail d v
    | .ok (h, payload) =>
      let uses := c.uses h.stream
      if uses = [] then c.pktFail d (SLINK.STREAM_OFF_COUNT, [4])
      else
        let frame := fun c u => extendSeq h.seq (Chip.seqAgo c (Chip.useOutput c u) ago)
        let taken := uses.filter (fun u => (frame c u).2)
        if taken = [] then c.pktFail d (SLINK.SEQ_DROP_COUNT, [3])
        else
          let c := (c.count d SLINK SLINK.PKT_COUNT).noteCarried h.stream d f
          let px := payloadPixels h.format h.count payload
          let long := decide (64 < h.count) && taken.any (fun u => match u with | .live o => decide (c.mode o = LIVE) | .layer _ => false)
          let c := if long then (c.count d SLINK SLINK.LIVE_LONG_COUNT).event d SLINK 5 else c
          c.each taken fun c u =>
            let n := (frame c u).1
            if c.mode (c.useOutput u) = SAFE then c
            else match u with
            | .live o =>
              (c.noteHeard o).livePixels d o n h.line h.x px noRoom
            | .layer k => c.layerPixels d k n h px noRoom

/-! ### Markers (R180, R233) -/

/-- A marker that fails is counted as a symbol error. -/
def Chip.badMarker (c : Chip) (d : Nat) : Chip := (c.count d SLINK SLINK.SYMBOL_ERR_COUNT).event d SLINK 1

/-- The range that received a frame, by its first slot: one that holds every tile if there is one, otherwise one that holds some
tile, otherwise the write range (R244). -/
def LayerSt.received (y : LayerSt) (frame : Nat) : Nat :=
  let got := y.tiles.filter (fun kv => decide (kv.1 % 2 ^ 32 = frame))
  match got.find? (fun kv => decide (kv.2.length = y.words.slots)), got.head? with
  | some kv, _ => kv.1 / 2 ^ 32
  | none, some kv => kv.1 / 2 ^ 32
  | none, none => y.words.write

/-- A layer's source frame is closed (R233): open tiles of it are discarded, and INCOMPLETE is raised unless every tile
of the range that received it was completed. -/
def Chip.closeFrame (c : Chip) (n frame : Nat) : Chip :=
  let y := c.layer n
  let w := y.words
  let base := y.received frame
  let whole := decide ((KMap.getD y.tiles (base * 2 ^ 32 + frame) []).length = w.slots)
  let f := BitVec.ofNat 32 frame
  let c := c.each c.dies' fun c d =>
    let z := c.die d
    c.setDie d { z with asm := z.asm.filter (fun t => !decide (t.layer = n ∧ t.frame = f) || t.resend) }
  let c := c.setLayer n { y with tiles := y.tiles.filter (fun kv => decide (kv.1 % 2 ^ 32 ≠ frame)), closed := some (f, whole, base) }
  if whole then c else c.notice n 6 (c.seq w.output)

/-- A source FRM marker, after its symbol (R180). -/
def Chip.sourceFrm (c : Chip) (d f : Nat) (syms : List (Option Sym)) : Chip :=
  let bs := (takeData syms).1
  if !c.parses d f then c
  else if bs.length ≠ 4 ∨ crc8 (bs.take 3) ≠ bs.getD 3 0 ∨ 4096 ≤ fieldAt bs 0 2 then c.badMarker d
  else
    let st := fieldAt bs 0 2
    let uses := c.uses st
    if uses = [] then c.count d SLINK SLINK.STREAM_OFF_COUNT
    else
      c.each uses fun c u =>
        match u with
        | .layer n =>
          if c.mode (c.useOutput u) = SAFE then c else c.closeFrame n (extendSeq (fieldAt bs 2 1) (c.seq (c.useOutput u))).1
        | .live _ => c

/-! ### Markers that the device sends (R180, R181) -/

/-- The reverse FRM marker of an output's boundary: the frame that starts. -/
def Chip.frmReverse (c : Chip) (o : Nat) : List Sym := markerSyms symFRM (leBytes 1 o ++ leBytes 4 (c.seq o))

/-- A LNM marker of a line. -/
def lnmSyms (line : Nat) : List Sym := markerSyms symLNM (leBytes 2 (line % 32768))

/-- The READY groups of a die, by their lowest lanes. -/
def Chip.readyGroups (c : Chip) (d : Nat) : List Nat := (c.groups d).filter (fun f => c.firstReady d f)

/-- A marker goes out on every READY group of the dies of a gang. -/
def Chip.markGroups (c : Chip) (o : Nat) (syms : List Sym) : Chip :=
  c.each (c.gang o) fun c d => c.each (c.readyGroups d) fun c f => c.sendMore d f syms

/-- The symbols that each lane of a group's map carries of what the group sent last (R168). -/
def Chip.stripes (c : Chip) (d f : Nat) : List (Nat × List Sym) := stripe (c.txMap d f) (c.wire d f)

/-! ### The command channel (R182 to R184) -/

/-- A command-channel packet (R182). -/
def scpSyms (kind cseq : Nat) (message : List Byte) (stop : Sym) : List Sym :=
  packetSyms symSCP (leBytes 1 kind ++ leBytes 1 cseq ++ message) stop

/-- Messages of an in-band port that are on the link and not acknowledged: at most 64 (R183). -/
def PortSt.sent (x : PortSt) : Nat := min 64 x.out.length

/-- The MESSAGE packets of a group that are on the link and kept until they are acknowledged, oldest first. -/
def Chip.onLink (c : Chip) (d f : Nat) : List (List Sym) :=
  let x := c.port (.inband d f)
  ((x.out.take x.sent).zipIdx).map fun m => scpSyms 0 ((x.txBase + m.2) % 256) m.1.bytes symEND

/-- The last `n` packets on the link are sent again, in order (R183). -/
def Chip.replay (c : Chip) (d f n : Nat) : Chip :=
  if n = 0 then c
  else
    let l := c.onLink d f
    ((c.countBy d SLINK SLINK.REPLAY_COUNT n).event d SLINK 10).sendOn d f (l.drop (l.length - n)).flatten

/-- A NAK for the packet before the one expected, once until that one arrives. -/
def Chip.sendNak (c : Chip) (d f : Nat) : Chip :=
  let p := Port.inband d f
  let x := c.port p
  if x.nakSent then c
  else (c.setPort p { x with nakSent := true }).sendOn d f (scpSyms 2 ((x.rxExpect + 255) % 256) [] symEND)

/-- What the receiver does with a MESSAGE packet whose CRC is good (R183); the second result says whether the message is
delivered. -/
def Chip.scpMessage (c : Chip) (d f cseq : Nat) : Chip × Bool :=
  let p := Port.inband d f
  let x := c.port p
  let back := (x.rxExpect + 256 - cseq) % 256
  if back = 0 then ((c.setPort p { x with rxExpect := (x.rxExpect + 1) % 256, nakSent := false }).sendOn d f (scpSyms 1 cseq [] symEND), true)
  else if back ≤ 128 then (c.sendOn d f (scpSyms 1 ((x.rxExpect + 255) % 256) [] symEND), false)
  else (c.sendNak d f, false)

/-- Deliver the first `n` messages of a port's queue. -/
def Chip.deliverN (c : Chip) (p : Port) (n : Nat) : Chip := (List.range n).foldl (fun c _ => c.delivered p) c

/-- An ACK: every packet up to its CSEQ is delivered (R183, R184). -/
def Chip.scpAck (c : Chip) (d f cseq : Nat) : Chip :=
  let p := Port.inband d f
  let x := c.port p
  let n := (cseq + 256 - x.txBase) % 256 + 1
  if n ≤ x.sent then
    let c := c.deliverN p n
    let y := c.port p
    c.setPort p { y with txBase := (x.txBase + n) % 256 }
  else c

/-- A NAK n: every packet after n is sent again. -/
def Chip.scpNak (c : Chip) (d f cseq : Nat) : Chip :=
  let x := c.port (.inband d f)
  let n := (cseq + 256 - x.txBase + 1) % 256
  if n ≤ x.sent then c.replay d f (x.sent - n) else c

/-- A command-channel packet after its SCP (R182, R183, R185), with the message that it delivers. An EDB nullifies it; a CRC that does
not match asks for it again unless it is an ACK or a NAK; a reserved KIND is discarded. -/
def Chip.scpReceived (c : Chip) (d f : Nat) (syms : List (Option Sym)) : Chip × Option (List Byte) :=
  let data := takeData syms
  let bytes := data.1
  let n := bytes.length - 4
  let kind := fieldAt bytes 0 1
  let cseq := fieldAt bytes 1 1
  let stop := data.2.head?
  if stop = some (some symEDB) then (c.count d SLINK SLINK.NULLIFIED_COUNT, none)
  else if stop ≠ some (some symEND) ∨ bytes.length < 6 then (c.pktFail d (SLINK.SYMBOL_ERR_COUNT, [1]), none)
  else if (crc32c (bytes.take n)).toNat ≠ fieldAt bytes n 4 then
    let c := c.pktFail d (SLINK.CRC_ERR_COUNT, [0])
    (if kind = 1 ∨ kind = 2 then c else c.sendNak d f, none)
  else if kind = 0 then let r := c.scpMessage d f cseq; (r.1, if r.2 then some ((bytes.take n).drop 2) else none)
  else if kind = 1 then (c.scpAck d f cseq, none)
  else if kind = 2 then (c.scpNak d f cseq, none)
  else (c, none)

/-! ### SKP ordered sets (R169 to R171) -/

/-- The lanes of a group retrain after a skew error (R170). -/
def Chip.skewError (c : Chip) (d f : Nat) : Chip :=
  let c := (c.loseStreams d f).groupDown d f
  let c := c.event d SLINK 8
  c.each (c.groupLanes d f) fun c l => if c.isReady d l then c.depart d l false else c

/-- A group becomes READY (R170): every lane but the spare is READY at one rate, the set has deskewed them and their
LMAP values agree. `got`: the lanes that the set came on, and the map that it carries. -/
def Chip.groupReadyNow (c : Chip) (d f : Nat) (got : List Nat) (carried : Nat) : Chip :=
  let ls := c.groupLanes d f
  let core := ls.filter (fun l => !c.isSpare d l)
  let rate := c.lrate d (core.headD f)
  if core.all (fun l => c.isReady d l && decide (c.lrate d l = rate) && got.contains (l - f)) then
    let g := c.groupNumber d f
    let on := ls.filter (fun l => c.isReady d l && decide (c.lrate d l = rate))
    let map := on.foldl (fun n l => n + 2 ^ (l - f)) 0
    let short := decide (on.length < ls.length)
    let c := (c.put d SLINK SLINK.GROUP_READY g g 1).put d SLINK SLINK.GROUP_READY (8 + g) (8 + g) short.toNat
    let c := (c.setNum d SLINK (SLINK.GROUP_LMAP + 4 * g) (rate * 256 + map)).setRxMap d f carried
    ((c.setDegraded d SLINK (decide (c.get d SLINK SLINK.GROUP_READY 15 8 ≠ 0))).setPort (.inband d f) {}).noteInband d
  else c

/-- The skew limit of R170: 8 ns or 40 symbol times of 10 bits, whichever is less. `skew`: arrivals in ps. -/
def skewExceeded (rate : Nat) (skew : List Nat) : Bool :=
  let spread := skew.foldl max 0 - skew.foldl min (skew.foldl max 0)
  decide (8000 < spread) || decide (800000 < spread * 7 * 2 ^ rate)

/-- Code errors on the lanes of a group count (CODE_ERR_COUNT). -/
def Chip.countCodeErrors (c : Chip) (d f : Nat) (lanes : List LaneRx) : Chip :=
  c.each lanes fun c l => if codeErrors l = 0 ∨ 8 ≤ f + l.pos then c else c.countBy d (lanePage (f + l.pos)) LANE.CODE_ERR_COUNT (codeErrors l)

/-- An SKP ordered set arrives on a group (R162, R169, R170): one to five SKP on each lane. -/
def Chip.skpReceived (c : Chip) (d f : Nat) (lanes : List LaneRx) (skew : List Nat) : Chip :=
  let ready := c.firstReady d f
  let cuts := lanes.map cutLane
  let whole := cuts.all (fun l => decide (l.head = []) && decide (l.sets.length = 1) && l.sets.all (fun s => decide (s.2 = [])))
  let maps := cuts.flatMap fun l => l.sets.map (fun s => s.1)
  if c.power ≠ .running then c
  else
    let c := c.countCodeErrors d f lanes
    if cuts = [] ∨ !whole then c
    else if skewExceeded (c.lrate d f) skew then (if ready ∨ c.coreReady d f then c.skewError d f else c)
    else if !maps.all (fun (m : Byte) => decide (m = maps.headD 0)) then (c.count d SLINK SLINK.LMAP_ERR_COUNT).event d SLINK 9
    else if ready then c.setRxMap d f (maps.headD 0).toNat
    else c.groupReadyNow d f (cuts.map (fun l => l.pos)) (maps.headD 0).toNat

/-- What the lanes of a READY group carry, as one run of symbols: code errors count, the lane map follows the sets inside, and sets
whose LMAP values differ count (R169, R170). -/
def Chip.hearGroup (c : Chip) (d f : Nat) (lanes : List LaneRx) : Chip × Heard :=
  let h := hear (c.rxMap d f) (lanes.map cutLane)
  let c := (c.countCodeErrors d f lanes).setRxMap d f h.lmap
  (if h.torn = 0 then c else (c.countBy d SLINK SLINK.LMAP_ERR_COUNT h.torn).events d SLINK (List.replicate h.torn 9), h)

/-- ns that a packet has taken to arrive: one symbol of 10 bits on each lane per row (R168, R188). -/
def Chip.rowTime (c : Chip) (d f : Nat) (lanes : List LaneRx) : Nat :=
  (lanes.map (fun l => l.groups.length)).foldl max 0 * 20 / (7 * 2 ^ c.lrate d f)

/-! ### Committing the group layout (R187) -/

/-- Lowest lane of the group of lane `l` under a GROUP_START word. -/
def firstOf (w : Word) (l : Nat) : Nat := ((List.range (l + 1)).reverse.find? (fun i => i = 0 || bit w i)).getD 0
def lanesOf (w : Word) (l : Nat) : List Nat := (List.range 8).filter (fun i => firstOf w i = firstOf w l)

/-- The status of a PAGE_COMMIT on SLINK. -/
def Chip.slinkStatus (c : Chip) (d : Nat) : Nat :=
  let gs := c.stagedReg d SLINK SLINK.GROUP_START
  let sp := c.stagedReg d SLINK SLINK.SPARE
  let old := c.reg d SLINK SLINK.GROUP_START
  let oldSp := c.reg d SLINK SLINK.SPARE
  let busy := fun l => c.training d l || c.isReady d l
  let invalid := (List.range 8).any fun l =>
    let ls := lanesOf gs l
    decide (1 < (ls.filter (fun i => bit sp i)).length) || (decide (ls.length = 1) && bit sp l)
  let moved := (List.range 8).any fun l => decide (lanesOf gs l ≠ lanesOf old l) && busy l
  let spared := (List.range 8).any fun l => (bit sp l != bit oldSp l) && busy l
  lowest [if invalid then ARG else OK, if moved || spared then STATE else OK]

/-- The layout takes effect: groups that keep their lanes keep their link under their new number; the others start
fresh. -/
def Chip.slinkStepPoint (c : Chip) (d : Nat) : Chip :=
  let old := c.reg d SLINK SLINK.GROUP_START
  let oldGroups := c.groups d
  -- per old group: lowest lane, READY and DEGRADED bits, LMAP, enable bit, EVENT_ROUTE, DISCARD_COUNT, EVENTS_LOST
  let kept := oldGroups.map fun f =>
    let g := c.groupNumber d f
    (f, c.get d SLINK SLINK.GROUP_READY g g, c.get d SLINK SLINK.GROUP_READY (8 + g) (8 + g),
      c.reg d SLINK (SLINK.GROUP_LMAP + 4 * g), c.get d PORT_INB PORT_INB.GROUP_ENABLE g g,
      c.reg d PORT_INB (PORT_INB.EVENT_ROUTE + 4 * g), c.reg d PORT_INB (PORT_INB.DISCARD_COUNT + 4 * g),
      c.reg d PORT_INB (PORT_INB.EVENTS_LOST + 4 * g))
  let c := (c.applyStaged d SLINK).clearCommit d SLINK
  let new := c.reg d SLINK SLINK.GROUP_START
  let c := c.each (List.range 8) fun c l =>
    if lanesOf new l = lanesOf old l then c else c.losePort d l
  let c := c.setNum d SLINK SLINK.GROUP_READY 0
  let c := c.each (List.range 8) fun c g =>
    let f := (c.groups d).getD g 8
    match kept.find? (fun k => decide (k.1 = f) && decide (lanesOf new f = lanesOf old f)) with
    | some k =>
      let c := (c.put d SLINK SLINK.GROUP_READY g g k.2.1).put d SLINK SLINK.GROUP_READY (8 + g) (8 + g) k.2.2.1
      let c := (c.setReg d SLINK (SLINK.GROUP_LMAP + 4 * g) k.2.2.2.1).put d PORT_INB PORT_INB.GROUP_ENABLE g g k.2.2.2.2.1
      let c := c.setReg d PORT_INB (PORT_INB.EVENT_ROUTE + 4 * g) k.2.2.2.2.2.1
      (c.setReg d PORT_INB (PORT_INB.DISCARD_COUNT + 4 * g) k.2.2.2.2.2.2.1).setReg d PORT_INB (PORT_INB.EVENTS_LOST + 4 * g) k.2.2.2.2.2.2.2
    | none =>
      let c := (c.setNum d SLINK (SLINK.GROUP_LMAP + 4 * g) 0).put d PORT_INB PORT_INB.GROUP_ENABLE g g 1
      let c := c.setNum d PORT_INB (PORT_INB.EVENT_ROUTE + 4 * g) 0xFE
      (c.setNum d PORT_INB (PORT_INB.DISCARD_COUNT + 4 * g) 0).setNum d PORT_INB (PORT_INB.EVENTS_LOST + 4 * g) 0
  (c.setDegraded d SLINK (decide (c.get d SLINK SLINK.GROUP_READY 15 8 ≠ 0))).noteInband d

/-! ### Meanings -/

/-- No ACK within 8 µs: every unacknowledged packet is sent again (R183). -/
def execScpReplayTimeout (d g : Nat) (s : State) : Host.Outcome State Fault Refusal :=
  onGroup s d g fun s f => s.up fun c => if c.firstReady d f then c.replay d f (c.port (.inband d f)).sent else c

def execSkpOrderedSetRx (d g : Nat) (lanes : List LaneRx) (skew : List Nat) (s : State) : Host.Outcome State Fault Refusal :=
  onGroup s d g fun s f => s.up fun c => c.skpReceived d f lanes skew

/-- The device sends an SKP ordered set on every lane of a READY group (R161, R169, R171), or on a READY driver lane, with
LMAP = 0x01 (R303). -/
def execSkpOrderedSetSend (d l : Nat) (s : State) : Host.Outcome State Fault Refusal :=
  onLane s d l fun s => s.up fun c =>
    if l < 8 then (if c.firstReady d (c.groupFirst d l) then c.sendSkp d (c.groupFirst d l) else c)
    else if c.isReady d l then c.sendOn d l (skpSyms 1) else c

end Sys2Proof.Machine
end

