-- ==== Sys2Proof/Machine/Gang.lean ====
section
/-! DEFINITION. Gangs and the slice bridge (R29 to R45, R91): the gang map, timing tokens of followers, flit retries and
links that are declared down. -/

namespace Sys2Proof.Machine

/-! ### The gang map (R29 to R31) -/

/-- Width code of a die in a gang map. -/
def widthCode (w : Word) (d : Nat) : Nat := bits w (2 * d + 1) (2 * d)

/-- A gang map is valid for `n` dies (R30). -/
def mapValid (n : Nat) (w : Word) : Bool :=
  (List.range n).all fun d =>
    let k := widthCode w d
    let lo := d / 2 ^ k * 2 ^ k
    (List.range (2 ^ k)).all fun i => decide (lo + i < n) && decide (widthCode w (lo + i) = k)

/-- Dies whose width code a map changes. -/
def Chip.recoded (c : Chip) (w : Word) : List Nat := c.dies'.filter (fun d => widthCode w d ≠ c.gangCode d)

/-- Status of a PAGE_COMMIT on BRIDGE (R30, R31); dies 1 to 7 have nothing staged. -/
def Chip.bridgeStatus (c : Chip) (d : Nat) : Nat :=
  let w := c.stagedReg 0 BRIDGE BRIDGE.GANG_MAP
  if d ≠ 0 then OK
  else if !mapValid (dieCount c.member) w then ARG
  else if (c.recoded w).any (fun e => decide (c.dieMode e ≠ BRINGUP)) then STATE
  else OK

/-- A lane of a die whose width code changed trains again from 3.5 Gbit/s (R91). -/
def Chip.laneAgain (c : Chip) (d l : Nat) : Chip :=
  if c.isReady d l then c.depart d l false else if c.training d l then c.startAttempt d l else c

/-- Take an output apart (R31): its pending commands are aborted, and what its pages have staged and pending is discarded. -/
def Chip.takeApart (c : Chip) (o : Nat) : Chip :=
  let c := (c.dropWindow o ABORTED).dropCommit o
  let c := c.finishAll (fun r => cmdOutput r.cmd = some o) ABORTED 0
  let c := c.each (c.waiting.filter (fun r => decide (cmdOutput r.cmd = some o))) fun c r => c.reply r ABORTED 0 []
  let c := c.each [PANEL_OD, PANEL_DM, PANEL_DT] fun c p => c.panelAbort o p
  c.each (c.gang o) fun c d => (c.abortPage d TGEN).abortPage d DLINK

/-- Form an output anew in BRINGUP (R31, R78 cause 0x0A): its timing stands still, with no entry, and it has not had its first light
(R97). The backlight PWM of the lead goes on (R287). A fatal cause that waits for a line start of a die's former output takes the
new one into SAFE at once, since it has no line (R72). `due`: such dies, each with the cause. -/
def State.formOutput (s : State) (o : Nat) (due : List (Nat × Nat)) : State :=
  let s := s.up fun c =>
    let c := c.setOut o { pwmAt := (c.out o).pwmAt }
    let c := c.each (c.gang o) fun c d =>
      let c := c.setNum d SYS SYS.FIRST_LIGHT_US 0
      let c := if d = o then c else c.setOut d {}
      let c := (c.setNum d TGEN TGEN.ENTRY 0).setNum d TGEN TGEN.FRAME_SEQ 0
      let c := ((c.setNum d TGEN TGEN.POSITION 0).setReady d TGEN false).setState d TGEN 1
      let y := c.die d
      let c := c.setDie d { y with livePx := [], substs := [], failed := [], composed := [], picture := [], line := {}, prev := [],
                                   heldTiles := [], heldLate := [], fetched := [], dmRows := [], dmFailed := [], halo := [],
                                   txCodes := none, txDrop := [], sigCrcs := [], misses := 0, cutOff := false, holdLine := 0 }
      (c.noteDlink d).notePanel d
    c.noteLineMax o
  let s := s.changeMode o BRINGUP BRINGUP 10 0
  match due.find? (fun x => (s.chip.gang o).contains x.1) with
  | some x => s.enterSafe o x.2 0
  | none => s

/-- The dies whose fatal cause waits for a line start of their output: those that hold it latched, or the whole gang once it is
cleared. -/
def Chip.fatalDue (c : Chip) : List (Nat × Nat) :=
  c.dies'.filterMap fun d =>
    let holds := fun e => decide (c.num e FAULT FAULT.LATCHED ≠ 0)
    match (c.out (c.leadOf d)).safeDue with
    | some cause => if holds d || !(c.gang (c.leadOf d)).any holds then some (d, cause) else none
    | none => none

/-- The committed map takes effect (R31), if every output that it takes apart is still in BRINGUP. DEDUCED (assumption log 100): otherwise
the commit lapses and the map stays staged. -/
def State.gangApply (s : State) : State :=
  let c := s.chip
  let w := c.stagedReg 0 BRIDGE BRIDGE.GANG_MAP
  let changed := c.recoded w
  if !c.committing 0 BRIDGE then s
  else if changed.any (fun d => decide (c.dieMode d ≠ BRINGUP)) then s.up fun c => c.clearCommit 0 BRIDGE
  else
    let s := s.up fun c =>
      let c := c.each (c.outputs.filter (fun o => changed.contains o)) fun c o => c.takeApart o
      let c := (c.applyStaged 0 BRIDGE).clearCommit 0 BRIDGE
      c.each changed fun c d => c.each (List.range 24) fun c l => c.laneAgain d l
    let s := s.each (s.chip.outputs.filter (fun o => changed.contains o)) fun s o => s.formOutput o c.fatalDue
    s.up fun c => c.event 0 BRIDGE 4

/-! ### Timing tokens (R33 to R35) -/

/-- A die whose timing follows the tokens of its gang lead. -/
def Chip.isFollower (c : Chip) (d : Nat) : Bool :=
  decide (c.leadOf d ≠ d) && c.hasEntry (c.leadOf d) && decide (c.power = .running) && !c.inReset.contains d

/-- A token arrives in time. -/
def Chip.tokenRx (c : Chip) (d : Nat) (frame : Option Word) : Chip :=
  if !c.isFollower d then c
  else
    let y := c.die d
    let c := c.setDie d { y with misses := 0, cutOff := false }
    match frame with
    | some f => if c.reg d TGEN TGEN.FRAME_SEQ = f then c else (c.setReg d TGEN TGEN.FRAME_SEQ f).event d BRIDGE 3
    | none => c

/-- A token has not arrived by its effective cycle. -/
def Chip.tokenMiss (c : Chip) (d : Nat) : Chip :=
  if !c.isFollower d then c
  else
    let y := c.die d
    let n := y.misses + 1
    let c := (c.setDie d { y with misses := n, cutOff := y.cutOff || decide (16 ≤ n) }).count d BRIDGE BRIDGE.TIMING_MISS_COUNT
    c.eventIf (decide (n = 16)) d BRIDGE 3

/-! ### Links (R37, R44) -/

/-- The link numbers of a die's two sides: link `n` joins die `n` and the next. -/
def sideLink (n d : Nat) : Side → Nat
  | .next => if n = 2 then 0 else d
  | .prev => if n = 2 then 0 else (d + n - 1) % n

/-- LINK_STATUS of a die follows the links. -/
def Chip.noteLinks (c : Chip) (d : Nat) : Chip :=
  let n := dieCount c.member
  (c.put d BRIDGE BRIDGE.LINK_STATUS 0 0 (c.linkUp (sideLink n d .prev)).toNat).put d BRIDGE BRIDGE.LINK_STATUS 1 1
    (c.linkUp (sideLink n d .next)).toNat

/-- Whether traffic of a die takes the long way when link `l` alone is down: the link lies on the one shortest path to some die,
or on one of two to the die opposite, of which the manual does not say which is taken. -/
def Chip.detours (c : Chip) (d l : Nat) : Bool :=
  let n := dieCount c.member
  let k := (l + n - d) % n
  let far := if k < n / 2 then k else n - 1 - k
  if far + 1 < n / 2 then true else Config.freeBool (c.fresh + d)

/-- A link is declared down (R44). -/
def Chip.linkDown (c : Chip) (l : Nat) : Chip :=
  let n := dieCount c.member
  let l := if n = 2 then 0 else l % n
  if c.linksDown.contains l then c
  else
    let first := c.linksDown = []
    let ends := if n = 2 then [0, 1] else [l, (l + 1) % n]
    let live := fun d => !c.inReset.contains d
    let c := { c with linksDown := l :: c.linksDown }
    let c := c.each c.dies' Chip.noteLinks
    let c := c.each (ends.filter live) fun c d => c.event d BRIDGE 0
    if n = 2 ∨ !first then c.each (c.dies'.filter live) fun c d => c.event d BRIDGE 5
    else
      (c.each (c.dies'.filter live) fun c d =>
        if c.detours d l then (c.put d BRIDGE BRIDGE.LINK_STATUS 2 2 1).event d BRIDGE 1 else c).tick

/-! ### The rows -/

def execTimingTokenRx (d : Nat) (frame : Option Word) (s : State) : Host.Outcome State Fault Refusal :=
  onDie s d fun s => s.up fun c => c.tokenRx d frame

def execTimingTokenMiss (d : Nat) (s : State) : Host.Outcome State Fault Refusal := onDie s d fun s => s.up fun c => c.tokenMiss d

/-- A flit of a side's link is sent again (R37); the bridge runs whenever the package does. -/
def execFlitRetry (d : Nat) (side : Side) (s : State) : Host.Outcome State Fault Refusal :=
  onDie s d fun s => s.up fun c =>
    if c.power = .running ∧ !c.inReset.contains d ∧ c.linkUp (sideLink (dieCount c.member) d side) then
      c.count d BRIDGE BRIDGE.RETRY_COUNT
    else c

def execLinkDown (l : Nat) (s : State) : Host.Outcome State Fault Refusal :=
  onDie s l fun s => s.up fun c => if c.power = .running then c.linkDown l else c

def execGangMapApply (s : State) : Host.Outcome State Fault Refusal := .next s.gangApply

end Sys2Proof.Machine
end

