-- ==== Sys2Proof/Machine/Shake.lean ====
section
/-! DEFINITION. SHAKE256 of FIPS 202, which R427 names for every digest: the sponge of rate 136 bytes over the permutation of 24
rounds. Its tables are derived here: the offsets of rho from the walk over the lanes, the constants of iota from the shift register
of FIPS 202. -/

namespace Sys2Proof.Machine

/-- The five lanes of one value of y. -/
structure Plane where
  l0 : BitVec 64 := 0
  l1 : BitVec 64 := 0
  l2 : BitVec 64 := 0
  l3 : BitVec 64 := 0
  l4 : BitVec 64 := 0
  deriving DecidableEq, Repr

/-- The plane whose lane x is the lane x + 1. -/
def Plane.turn (p : Plane) : Plane := ⟨p.l1, p.l2, p.l3, p.l4, p.l0⟩

def Plane.xor (p q : Plane) : Plane := ⟨p.l0 ^^^ q.l0, p.l1 ^^^ q.l1, p.l2 ^^^ q.l2, p.l3 ^^^ q.l3, p.l4 ^^^ q.l4⟩

def Plane.map (f : BitVec 64 → BitVec 64) (p : Plane) : Plane := ⟨f p.l0, f p.l1, f p.l2, f p.l3, f p.l4⟩

/-- The step chi: bits of a row, two apart, through an inverted AND. -/
def Plane.chi (p : Plane) : Plane :=
  let q := p.turn.map (fun x => ~~~x)
  let r := p.turn.turn
  p.xor ⟨q.l0 &&& r.l0, q.l1 &&& r.l1, q.l2 &&& r.l2, q.l3 &&& r.l3, q.l4 &&& r.l4⟩

def Plane.lane (p : Plane) (x : Nat) : BitVec 64 :=
  match x with
  | 0 => p.l0 | 1 => p.l1 | 2 => p.l2 | 3 => p.l3 | _ => p.l4

def Plane.withLane (p : Plane) (x : Nat) (v : BitVec 64) : Plane :=
  match x with
  | 0 => { p with l0 := v } | 1 => { p with l1 := v } | 2 => { p with l2 := v } | 3 => { p with l3 := v } | _ => { p with l4 := v }

/-- The state of the permutation, a plane for each y of 0 to 4. -/
abbrev Planes := List Plane

/-- The step theta: every column takes the parities of the columns beside it. -/
def theta (g : Planes) : Planes :=
  let parity := g.foldl Plane.xor {}
  let beside := parity.turn.turn.turn.turn.xor (parity.turn.map (·.rotateLeft 1))
  g.map beside.xor

/-- The steps rho and pi along the walk of rho from (x, y): the lane after t steps of the walk turns by (t + 1)(t + 2) / 2 and goes to
the next place of the walk. -/
def walk (g : Planes) : Nat → Nat → Nat → Nat → Planes → Planes
  | 0, _, _, _, out => out
  | n + 1, t, x, y, out =>
    let turned := ((g.getD y {}).lane x).rotateLeft ((t + 1) * (t + 2) / 2 % 64)
    let y' := (2 * x + 3 * y) % 5
    walk g n (t + 1) y y' (out.set y' ((out.getD y' {}).withLane y turned))

/-- One clock of the shift register of iota: x^8 + x^6 + x^5 + x^4 + 1. -/
def iotaClock (r : Byte) : Byte := if r.msb then (r <<< 1) ^^^ 0x71 else r <<< 1

/-- The constant of a round, and the register for the next round: seven bits, at the places 2^j - 1. -/
def iotaBits : List Nat → Byte → BitVec 64 → BitVec 64 × Byte
  | [], r, k => (k, r)
  | j :: js, r, k => iotaBits js (iotaClock r) (if r.getLsbD 0 then k ||| BitVec.twoPow 64 j else k)

/-- Rounds of the permutation. -/
def rounds : Nat → Byte → Planes → Planes
  | 0, _, g => g
  | n + 1, r, g =>
    let t := theta g
    let k := iotaBits [0, 1, 3, 7, 15, 31, 63] r 0
    match (walk t 24 0 1 0 t).map Plane.chi with
    | [] => []
    | p :: rest => rounds n k.2 ({ p with l0 := p.l0 ^^^ k.1 } :: rest)

/-- A plane of a block: 40 bytes, each lane with its least significant byte first; what lies past the rate is 0. -/
def blockPlane (block : List Byte) (y : Nat) : Plane :=
  let at_ := fun x => BitVec.ofNat 64 (fieldAt block (40 * y + 8 * x) 8)
  ⟨at_ 0, at_ 1, at_ 2, at_ 3, at_ 4⟩

/-- Absorb whole blocks of 136 bytes. -/
def absorb : Nat → List Byte → Planes → Planes
  | 0, _, g => g
  | n + 1, bs, g => absorb n (bs.drop 136) (rounds 24 1 (g.zipWith Plane.xor ((List.range 5).map (blockPlane (bs.take 136)))))

/-- What follows a message: the bits 1111 of SHAKE, then 1, zeros and a last 1 up to a whole block. -/
def shakeTail (length : Nat) : List Byte :=
  match 135 - length % 136 with
  | 0 => [0x9F]
  | k + 1 => 0x1F :: (List.replicate k 0 ++ [0x80])

/-- The first `n` output bytes, at most one block: SHAKE256-256 has 32, SHAKE256-512 has 64. -/
def shake256 (n : Nat) (bs : List Byte) : List Byte :=
  let out := absorb (bs.length / 136 + 1) (bs ++ shakeTail bs.length) (List.replicate 5 {})
  (out.flatMap fun p => [p.l0, p.l1, p.l2, p.l3, p.l4].flatMap fun l => leBytes 8 l.toNat).take n

end Sys2Proof.Machine
end

