-- ==== Sys2Proof/Machine/Firmware.lean ====
section
/-! DEFINITION. Boot images and identity (R85 to R90, R99, R100, R426 to R444): the flash directory, envelopes, one-time-programmable
memory, measurements, starting and activating firmware, the board profile, the flash commands, and quotes. -/

namespace Sys2Proof.Machine

/-! ### The flash directory (R87, R88) -/

/-- An entry of the directory. -/
structure DirEntry where
  type   : Nat
  flags  : Nat
  offset : Nat
  length : Nat
  crc    : Nat
  deriving DecidableEq, Repr

def dirEntry (bs : List Byte) (k : Nat) : DirEntry :=
  let f := fun i n => fieldAt bs (16 + 16 * k + i) n
  { type := f 0 1, flags := f 1 1, offset := f 4 4, length := f 8 4, crc := f 12 4 }

/-- The entries in use of a directory copy. -/
def dirEntries (bs : List Byte) : List DirEntry := (List.range (fieldAt bs 6 2)).map (dirEntry bs)

/-- No two entries share a type or overlap. -/
def disjointEntries : List DirEntry → Bool
  | [] => true
  | e :: l => l.all (fun x => decide (x.type ≠ e.type) && (decide (x.offset + x.length ≤ e.offset) || decide (e.offset + e.length ≤ x.offset))) &&
      disjointEntries l

/-- A copy of 256 bytes is valid (R87). -/
def dirValid (bs : List Byte) : Bool :=
  let n := fieldAt bs 6 2
  let l := dirEntries bs
  decide (fieldAt bs 0 4 = 0x50444E50) && decide (fieldAt bs 4 2 = 1) && decide (1 ≤ n ∧ n ≤ 14) && decide (fieldAt bs 12 4 = 0) &&
    decide (fieldAt bs 240 12 = 0) && decide ((crc32c (bs.take 252)).toNat = fieldAt bs 252 4) &&
    ((bs.drop (16 + 16 * n)).take (224 - 16 * n)).all (fun x => decide (x = 0)) &&
    (List.range n).all (fun k => decide (fieldAt bs (16 + 16 * k + 2) 2 = 0)) && disjointEntries l &&
    l.all fun e => decide (1 ≤ e.type ∧ e.type ≤ 7) && decide (e.flags < 4) && decide (e.offset % 4096 = 0 ∧ 0x2000 ≤ e.offset) &&
      (e.flags.testBit 0 || decide (e.crc = 0)) && (!e.flags.testBit 1 || decide (e.type ≤ 2))

/-- The directory in use: the valid copy with the higher SEQ, compared as in R11, the primary copy at the same SEQ. -/
def chooseDirectory (a b : List Byte) : Option (List DirEntry) :=
  let va := dirValid a
  let vb := dirValid b
  let newer := (fieldAt b 8 4 + 2 ^ 32 - fieldAt a 8 4) % 2 ^ 32
  if va ∧ vb then some (dirEntries (if 0 < newer ∧ newer < 2 ^ 31 then b else a))
  else if va then some (dirEntries a) else if vb then some (dirEntries b) else none

def State.directory (s : State) : Option (List DirEntry) :=
  chooseDirectory (s.mem.flashBytes s.chip.fresh 0 256) (s.mem.flashBytes s.chip.fresh 0x1000 256)

/-- Bytes of a region. -/
def State.region (s : State) (e : DirEntry) : List Byte := s.mem.flashBytes s.chip.fresh e.offset e.length

/-- The bytes of an image region, unless it is missing, too large or fails its RCRC (R88). -/
def State.imageBytes (s : State) (kind : Nat) : Option (List Byte) :=
  match s.directory with
  | none => none
  | some l =>
    match l.find? (fun e => e.type = kind) with
    | none => none
    | some e =>
      if 0x100000 < e.length then none
      else
        let bs := s.region e
        if e.flags.testBit 0 ∧ (crc32c bs).toNat ≠ e.crc then none else some bs

/-- The order in which images are tried (R88). -/
def imageOrder (l : List DirEntry) : List Nat :=
  let preferred := fun k => l.any (fun e => e.type = k && e.flags.testBit 1)
  if preferred 2 ∧ !preferred 1 then [2, 1] else [1, 2]

/-! ### Envelopes (R426 to R428) -/

/-- Bit of MEMBERS. -/
def memberBit : Member → Nat
  | .pn9802 => 0
  | .pn9804 => 1
  | .pn9808 => 2

def envPayload (e : List Byte) : Nat := fieldAt e 12 4
def envSvn (e : List Byte) : Nat := fieldAt e 8 1
def envKey (e : List Byte) : Nat := fieldAt e 7 1

/-- The image digest (R427). -/
def envDigest (e : List Byte) : List Byte := shake256 32 (e.take (2016 + envPayload e))

def rootDigest : List Byte := (List.range 32).map Config.rootDigestByte

/-- A context string. -/
def ctxEV : List Byte := [0x50, 0x4E, 0x39, 0x38, 0x45, 0x56]
def ctxAT : List Byte := [0x50, 0x4E, 0x39, 0x38, 0x41, 0x54]

/-- Check an envelope of a type (1 image, 2 profile) against a die's OTP, in the order of R428: 0, or the result code of the first
check that fails. -/
def envCheck (m : Member) (otp : OtpSt) (type : Nat) (e : List Byte) : Nat :=
  let form := decide (fieldAt e 0 4 = 0x56454E50) && decide (fieldAt e 4 2 = 1) && decide (fieldAt e 6 1 = type) && decide (envKey e ≤ 1) &&
    decide (fieldAt e 9 1 < 8) && decide (fieldAt e 11 1 = 0) && decide (fieldAt e 28 36 = 0) && decide (envSvn e ≤ 64) &&
    (decide (type ≠ 2) || decide (envSvn e = 0)) && decide (fieldAt e 16 4 < envPayload e) && decide (5325 + envPayload e = e.length)
  let fits_ := (fieldAt e 9 1).testBit (memberBit m) && (decide (fieldAt e 10 1 = 0) || decide (fieldAt e 10 1 = chipId m % 256))
  let pub := (e.drop 64).take 1952
  let digest := shake256 32 pub
  let key := if envKey e = 0 then !(otp.enrolled && otp.require) && decide (digest = rootDigest)
    else otp.enrolled && decide (leNat digest = otp.owner)
  let message := e.take 64 ++ shake256 64 ((e.drop 2016).take (envPayload e))
  let signature := (e.drop (2016 + envPayload e)).take 3309
  if !form ∨ !fits_ ∨ !key ∨ !Config.mldsaVerify pub ctxEV message signature then 4
  else if type = 1 ∧ envSvn e < otp.counter then 5 else 0

/-! ### OTP (R429 to R432) -/

def Chip.otpOf (c : Chip) (d : Nat) : OtpSt := KMap.getD c.otp d {}
def Chip.setOtp (c : Chip) (d : Nat) (x : OtpSt) : Chip := { c with otp := KMap.put {} c.otp d x }

/-- OTP programming runs on a die. -/
def Chip.otpBusy (c : Chip) (d : Nat) : Bool := (c.otpOf d).prog.isSome

/-- The staged owner digest. -/
def Chip.ownerStage (c : Chip) (d : Nat) : Nat :=
  (List.range 8).foldl (fun n k => n + c.num d SEC (SEC.OWNER_STAGE + 4 * k) * 2 ^ (32 * k)) 0

/-- Status of a write of OTP_CTRL (R430, R431). -/
def Chip.otpCtrlStatus (c : Chip) (d : Nat) (w : Word) : Nat :=
  let x := c.otpOf d
  let enroll := bit w 0
  let require := bit w 1
  let stage := c.ownerStage d
  lowest [if (enroll || require) && c.outputs.any (fun o => c.mode o ≠ BRINGUP) then STATE else OK,
    if (enroll && (x.enrolled || decide (stage = 0))) || (require && !x.enrolled) then ARG else OK,
    if c.otpBusy d then BUSY else OK,
    if enroll && decide (x.owner &&& stage ≠ x.owner) then FAIL else OK]

/-- A refusal for partial bits shows in OTP_RESULT (R430, OTP_RESULT.STATUS 3). -/
def Chip.otpRefused (c : Chip) (d : Nat) : Chip := (c.setNum d SEC SEC.OTP_RESULT 0x13).event d SEC 1

/-- Programming starts. -/
def Chip.otpStart (c : Chip) (d : Nat) (op : OtpOp) : Chip :=
  let x := c.otpOf d
  let code := match op with | .enroll _ => 1 | .requireOwner => 2 | .counter _ => 3
  (((c.setOtp d { x with prog := some (op, c.now) }).setNum d SEC SEC.OTP_RESULT (code * 16 + 1)).setBusy d SEC true).setState d SEC 2

def Chip.otpCtrlWrite (c : Chip) (d : Nat) (w : Word) : Chip :=
  if bit w 0 then c.otpStart d (.enroll (c.ownerStage d)) else if bit w 1 then c.otpStart d .requireOwner else c

/-- Status of a write of ROLLBACK (R431, R443). -/
def Chip.rollbackStatus (c : Chip) (d : Nat) (w : Word) : Nat :=
  let upTo := bits w 7 0
  let go := bit w 31
  let fw := c.inflight.any isFwOpen
  lowest [if 64 < upTo then ARG else OK, if c.otpBusy d then BUSY else OK, if go && fw then BUSY else OK,
    if go && decide ((c.otpOf d).counter < upTo) && decide (c.get d SEC SEC.RUNNING 7 0 < upTo) then ARG else OK]

def Chip.rollbackWrite (c : Chip) (d : Nat) (w : Word) : Chip :=
  let c := c.put d SEC SEC.ROLLBACK 7 0 (bits w 7 0)
  if bit w 31 ∧ (c.otpOf d).counter < bits w 7 0 then c.otpStart d (.counter (bits w 7 0)) else c

/-- Programming ends. What an operation whose field does not read back as meant has left programmed is not stated. -/
def Chip.otpEnd (c : Chip) (d : Nat) (good : Bool) : Chip :=
  let x := c.otpOf d
  match x.prog with
  | none => c
  | some (op, _) =>
    let part := Config.freeNat c.fresh
    let y : OtpSt := match op with
      | .enroll g => { x with prog := none, owner := x.owner ||| (if good then g else g &&& part), enrolled := x.enrolled || good }
      | .requireOwner => { x with prog := none, require := x.require || good || part.testBit 0 }
      | .counter upTo => { x with prog := none, counter := if good then max x.counter upTo else x.counter + part % (upTo - x.counter + 1) }
    let c := ((c.setOtp d y).put d SEC SEC.OTP_RESULT 2 0 (if good then 2 else 4)).tick
    ((c.setBusy d SEC false).setState d SEC 1).event d SEC (if good then 0 else 1)

/-- Reset during programming (R430, R431, R443): some of the bits to program are programmed. -/
def Chip.otpCut (c : Chip) (d : Nat) : Chip :=
  let x := c.otpOf d
  match x.prog with
  | none => c
  | some (op, _) =>
    let part := Config.freeNat c.fresh
    let y : OtpSt := match op with
      | .enroll g => { x with prog := none, owner := x.owner ||| (g &&& part) }
      | .requireOwner => { x with prog := none, require := x.require || part.testBit 0 }
      | .counter upTo => { x with prog := none, counter := x.counter + part % (upTo - x.counter + 1) }
    (c.setOtp d y).tick

/-- Dies differ in counter, owner digest or REQUIRE_OWNER (R432). -/
def Chip.otpDiffers (c : Chip) : Bool :=
  let view := fun d => let x := c.otpOf d; (x.counter, if x.enrolled then x.owner else 0, x.enrolled, x.require)
  c.dies'.any (fun d => decide (view d ≠ view 0))

/-! ### Measurements (R437, R438) -/

/-- Words of a page as bytes, and bytes put into words of a page. -/
def Chip.pageBytes (c : Chip) (d p o n : Nat) : List Byte := (List.range n).flatMap (fun k => leBytes 4 (c.num d p (o + 4 * k)))
def Chip.putBytes (c : Chip) (d p o : Nat) (bs : List Byte) : Chip :=
  c.each (wordsOf bs).zipIdx fun c x => c.setReg d p (o + 4 * x.2) x.1

/-- MRi of a die. -/
def Chip.mr (c : Chip) (d i : Nat) : List Byte := c.pageBytes d SEC (SEC.MR + 0x20 * i) 8
def Chip.logCount (c : Chip) (d : Nat) : Nat := c.get d SEC SEC.LOG_COUNT 5 0

/-- Extend a register, and add the log entry. -/
def Chip.extend (c : Chip) (d i type : Nat) (digest : List Byte) : Chip :=
  let n := c.logCount d
  let c := c.putBytes d SEC (SEC.MR + 0x20 * i) (shake256 32 (c.mr d i ++ digest))
  let c := c.putBytes d SEC (SEC.LOG + 0x28 * n) (leBytes 1 d ++ leBytes 1 i ++ leBytes 1 type ++ leBytes 1 n ++ leBytes 4 0 ++ digest)
  c.put d SEC SEC.LOG_COUNT 5 0 (n + 1)

def romDigest : List Byte := (List.range 32).map Config.romDigestByte

/-- The device extends MR1 at a start from flash or at a wake, restarting a full log first (R438). -/
def Chip.extendImage (c : Chip) (d : Nat) (wake : Bool) (digest : List Byte) : Chip :=
  if c.logCount d < 32 then c.extend d 1 (if wake then 3 else 2) digest
  else
    let c := (c.putBytes d SEC SEC.MR (List.replicate 128 0#8)).putBytes d SEC SEC.LOG (List.replicate 1280 0#8)
    let c := (c.put d SEC SEC.LOG_COUNT 5 0 0).extend d 0 1 romDigest
    let c := c.extend d 1 2 digest
    let c := if wake then c.extend d 1 3 digest else c
    { c with logRestarted := true }.event d SEC 3

/-- Status and effect of a write of EXT_CTRL (R437). -/
def Chip.extCtrlStatus (c : Chip) (d : Nat) (w : Word) : Nat :=
  let type := bits w 15 8
  lowest [if bits w 1 0 < 2 ∨ (type < 16 ∧ type ≠ 4) then ARG else OK,
    if bit w 31 ∧ c.logCount d = 32 then FAIL else OK]

def Chip.extCtrlWrite (c : Chip) (d : Nat) (w : Word) : Chip :=
  let c := (c.put d SEC SEC.EXT_CTRL 15 8 (bits w 15 8)).put d SEC SEC.EXT_CTRL 1 0 (bits w 1 0)
  if bit w 31 then c.extend d (bits w 1 0) (bits w 15 8) (c.pageBytes d SEC SEC.EXT_DATA 8) else c

/-! ### Recovery and starting stewards (R99, R100, R433) -/

/-- An error of boot leads to recovery: die 0 stays in its boot ROM, which hands B2 to B31 to PORT (R385), and the other dies wait
for an image. -/
def Chip.enterRecovery (c : Chip) (error : Nat) : Chip :=
  let c := { c with boot := .idle }
  let waits := fun d => decide (d ≠ 0) && decide ((c.die d).steward = .off ∨ (c.die d).steward = .booting 0 ∨ (c.die d).steward = .booting 1)
  let c := c.each (c.dies'.filter waits) fun c d => (c.setSteward d .off).setStage d 8
  let c := (((c.setSteward 0 .off).setStage 0 7).setError 0 error).setNum 0 BASKET BASKET.OWNER 0x55555566
  c.each [1, 2, 3] fun c k => c.setNum 0 BASKET (BASKET.OWNER + 4 * k) 0x55555555

/-- A steward starts an image: RUNNING, IMAGE, MR1, and READY. -/
def Chip.startImage (c : Chip) (d image : Nat) (e : List Byte) : Chip :=
  let c := (c.extendImage d false (envDigest e)).setNum d SEC SEC.RUNNING (envKey e * 256 + envSvn e)
  let c := (c.put d SYS SYS.BOOT_STATUS 7 4 image).setError d 0
  let c := (c.stewardUp d).setStage d (if d = 0 ∧ c.flag 0 SYS SYS.BOOT_STATUS 24 then 6 else 5)
  if d = 0 ∧ !c.flag 0 SYS SYS.BOOT_STATUS 24 then { c with boot := .profile } else c

/-- Result of an image kind on a die (IMG_A_RESULT, IMG_B_RESULT). -/
def Chip.imageResult (c : Chip) (d kind v : Nat) : Chip :=
  if kind = 1 then c.put d SYS SYS.BOOT_STATUS 11 8 v else c.put d SYS SYS.BOOT_STATUS 15 12 v

/-- The boot ROM goes on to the next image of a list, recording those that are not fit to be tried. -/
def Chip.tryImages (c : Chip) (fit : Nat → Bool) (attempt : Nat) : List Nat → Chip
  | [] => c.enterRecovery 5
  | k :: rest => if fit k then { c with boot := .image attempt k } else (c.imageResult 0 k 3).tryImages fit (attempt + 1) rest

/-- The image that die 0 chooses and verifies for a restart from flash: the first of R88 that passes. -/
def State.chosen (s : State) : Option ImageCopy :=
  match s.directory with
  | none => none
  | some l => (imageOrder l).findSome? fun k =>
      match s.imageBytes k with
      | some e => if envCheck s.chip.member (s.chip.otpOf 0) 1 e = 0 then some ⟨k, e⟩ else none
      | none => none

def Chip.setCopy (c : Chip) (d : Nat) (x : Option ImageCopy) : Chip := let y := c.die d; c.setDie d { y with copy := x }

/-- What a die finds in the copy it received: of a copy damaged on the bridge, a form or a signature that is not right (R85, R428). -/
def State.copyResult (s : State) (d : Nat) (good : Bool) (x : ImageCopy) : Nat :=
  if good ∨ d = 0 then envCheck s.chip.member (s.chip.otpOf d) 1 x.bytes else 4

/-- A die has checked the image it received (R433, R85, R99, R74). The other dies get the copy that die 0 verified; die 0 sends it
again, once, to a die that refuses it. The manual does not say what STAGE of dies 1 to 7 shows while die 0 goes through the stages 3
to 6 of its boot: it stays 2 (log 104). -/
def State.imageVerify (s : State) (d : Nat) (copyGood : Bool) : State :=
  let c := s.chip
  match (if d = 0 then c.boot else .idle), (c.die d).steward with
  | .image attempt k, _ =>
    let e := (s.imageBytes k).getD []
    let r := envCheck c.member (c.otpOf 0) 1 e
    if r = 0 then
      s.up fun c =>
        let c := { (c.imageResult 0 k 1) with boot := .idle }
        (c.startImage 0 k e).each (c.dies'.filter (fun x => decide (x ≠ 0) && decide ((c.die x).steward = .off))) fun c x =>
          (c.setSteward x (.booting 0)).setCopy x (some ⟨k, e⟩)
    else
      let rest := if attempt = 0 then (match s.directory with | some l => (imageOrder l).drop 1 | none => []) else []
      let fit := fun x => (s.imageBytes x).isSome
      s.up fun c => (c.imageResult 0 k r).tryImages fit 1 rest
  | _, .booting n =>
    match (match (c.die d).copy with | some x => some x | none => s.chosen) with
    | some x =>
      let r := s.copyResult d copyGood x
      if r = 0 then s.up fun c => ((c.imageResult d x.kind 1).startImage d x.kind x.bytes).setCopy d none
      else s.up fun c =>
        let c := c.imageResult d x.kind r
        if n = 0 then ((c.setSteward d (.booting 1)).setStage d 8).setCopy d (some x)
        else ((c.setSteward d .unbooted).setError d 8).setCopy d none
    | none => s.up fun c => (c.setSteward d .unbooted).setError d (if d = 0 then 5 else 8)
  | _, _ => s

/-- A steward is released and boots from flash (R74, R454). -/
def Chip.rebootSteward (c : Chip) (d : Nat) : Chip :=
  let c := ((c.setSteward d (.booting 0)).setReady d STEWARD false).put d STEWARD STEWARD.WDOG_STATUS 0 0 0
  ((c.unlatchCode d STEWARD 1).setStage d 4).setCopy d none

/-! ### The flash commands (R123, R124) -/

/-- FLASH_READ. -/
def State.flashRead (s : State) (r : Req) (a n : Nat) : State :=
  s.finish r OK 0 ((List.range n).map fun i => s.mem.flashByte s.chip.fresh ((a + i) % 2 ^ 32))

def isFlashWrite (r : Req) : Bool := match r.cmd with | .flashWrite _ _ => r.started | _ => false

/-- Erase a sector. -/
def Mem.eraseSector (m : Mem) (a : Nat) : Mem :=
  let mine := fun x => decide (a ≤ x ∧ x < a + 4096)
  { m with flash := m.flash.filter (fun kv => !mine kv.1), flashOpen := m.flashOpen.filter (fun x => !mine x) }

/-- The content of bytes becomes unspecified. -/
def Mem.spoilFlash (m : Mem) (a n : Nat) : Mem :=
  { m with flashOpen := (List.range n).map (fun i => a + i) ++ m.flashOpen.filter (fun x => !decide (a ≤ x ∧ x < a + n)) }

/-- Program one byte without erase. The manual does not say what a byte that is not erased then holds. -/
def Mem.programByte (m : Mem) (a : Nat) (b : Byte) : Mem :=
  if m.flashOpen.contains a then m
  else if KMap.getD m.flash a 0xFF = 0xFF ∨ KMap.getD m.flash a 0xFF = b then m.setFlash a b
  else { m with flashOpen := a :: m.flashOpen }

def Mem.programBytes (m : Mem) : Nat → List Byte → Mem
  | _, [] => m
  | a, b :: bs => (m.programByte a b).programBytes (a + 1) bs

/-- The region of a flash write that does not end as meant (R101, R124). -/
def State.spoilWrite (s : State) (r : Req) : State :=
  match r.cmd with
  | .flashWrite a ds => if r.started then s.mapMem (fun m => m.spoilFlash (if ds = [] then a.toNat else a.toNat / 256 * 256) (if ds = [] then 4096 else 256)) else s
  | _ => s

/-- The flash finishes (R124). -/
def State.flashWriteDone (s : State) : State :=
  match (s.chip.reqs isFlashWrite).head? with
  | none => s
  | some r =>
    match r.cmd with
    | .flashWrite a ds => (s.mapMem fun m => if ds = [] then m.eraseSector a.toNat else m.programBytes a.toNat ds).done r OK
    | _ => s

/-! ### FW_ACTIVATE (R434, R435) -/

/-- The boot ROM of die 0 carries out the commands of R100: in recovery, and when a restart left die 0 unbooted (R74). -/
def Chip.romServes (c : Chip) : Bool := c.recovery || decide ((c.die 0).steward = .unbooted)

/-- The dies to which step 1 applies. -/
def Chip.fwDies (c : Chip) : List Nat := if c.romServes then c.dies'.filter (fun d => d ≠ 0) else c.dies'

/-- The status of FW_ACTIVATE before its first step. -/
def Chip.fwStatus (c : Chip) (source : Nat) (a : Word) (n : Nat) : Nat :=
  let lo := basketAddr 0 2 0
  let copy := basketAddr 0 28 0
  let bad := source = 2 ∧ (a.toNat % 4 ≠ 0 ∨ n < 5325 ∨ 0x100000 < n ∨ a.toNat < lo ∨ 0x1000000 < a.toNat + n ∨
    (!c.romServes ∧ copy < a.toNat + n))
  lowest [if bad then ARG else OK,
    if c.fwDies.any (fun d => [28, 29, 30, 31].any fun b => decide (c.owner d b ≠ 0)) then BUSY else OK,
    if c.fwDies.any (fun d => c.logCount d = 32) then FAIL else OK]

/-- The command starts; it stays in flight until the restart. -/
def Chip.fwActivate (c : Chip) (r : Req) (source : Nat) (a : Word) (n : Nat) : Chip :=
  let st := c.fwStatus source a n
  if st = OK then c else c.finish r st (if st = FAIL then 6 else 0) []

/-- The envelope is read, distributed and checked, and every steward restarts (steps 2 to 4). -/
def State.fwRestart (s : State) : State :=
  match (s.chip.reqs isFwOpen).head? with
  | none => s
  | some r =>
    match r.cmd with
    | .fwActivate source a n =>
      let c := s.chip
      let rom := c.romServes
      if c.dies'.any (fun d => !c.answers 0 d) then s
      else
        let words := if source = 2 then wordAddrs a.toNat ((n + 3) / 4) else []
        let read := (c.wantWords 1 0 words).checkWords 0 words
        let s := s.up fun _ => read.1
        let env := if source = 2 then (if read.2 then some (s.mem.basketBytes a.toNat n) else none) else s.imageBytes (source + 1)
        match env with
        | none => s.finish r FAIL (if source = 2 then 4 else 3) []
        | some e =>
          let s := s.each (c.dies'.filter (fun d => !(rom && decide (d = 0 ∧ source = 2)))) fun s d => s.setBytes (basketAddr d 28 0) e
          let c := s.chip
          match c.dies'.find? (fun d => envCheck c.member (c.otpOf d) 1 e ≠ 0) with
          | some d => s.finish r FAIL (d * 256 + envCheck c.member (c.otpOf d) 1 e) []
          | none =>
            s.up fun c =>
              let c := c.setReq { r with pnr := true }
              let c := c.each (c.dies'.filter (fun d => (c.die d).steward ≠ .held)) fun c d =>
                let c := ((c.setSteward d .activating).setReady d STEWARD false).extend d 1 2 (envDigest e)
                let c := (c.setNum d SEC SEC.RUNNING (envKey e * 256 + envSvn e)).put d SYS SYS.BOOT_STATUS 7 4
                  (if source = 2 then 4 else source + 1)
                let c := c.setError d 0
                if c.get d SYS SYS.BOOT_STATUS 3 0 ≥ 7 then c.setStage d 4 else c
              if rom then { c with boot := .idle } else c
    | _ => s

/-! ### Identity and quotes (R439 to R442) -/

/-- The identity public key, and its digest. -/
def Chip.publicKey (c : Chip) : List Byte := (List.range 1952).map (Config.mldsaPublicKey ((c.otpOf 0).seed.getD 0))
def Chip.idDigest (c : Chip) : List Byte := shake256 32 c.publicKey

/-- The header of the certificate (R440). -/
def Chip.certHeader (c : Chip) : List Byte :=
  leBytes 4 0x54524543 ++ leBytes 2 1 ++ leBytes 2 0 ++ leBytes 4 (chipId c.member) ++ (List.range 8).map Config.serialByte ++ c.idDigest ++
    List.replicate 12 0#8

/-- Byte of the identity blob (R440). -/
def Chip.blobByte (c : Chip) (i : Nat) : Byte :=
  let x := c.otpOf 0
  if i < 1952 then (if c.flag 0 SEC SEC.OTP_STATE 0 then Config.mldsaPublicKey (x.seed.getD 0) i else 0)
  else if !x.cert then 0
  else if i < 2016 then c.certHeader.getD (i - 1952) 0
  else if i < 5325 then Config.certByte (i - 2016) else 0

/-- Die 0 derives its key pair at boot; at the first boot after manufacture it programs the seed first (R439). -/
def State.deriveIdentity (s : State) (entropyOk : Bool) : State :=
  let c := s.chip
  if c.power ≠ .running ∨ c.inReset.contains 0 ∨ c.ready 0 SEC ∨ (c.codesOf 0 SEC).contains 1 then s
  else
    let x := c.otpOf 0
    let seed := if x.seed.isSome then x.seed else if !x.booted ∧ entropyOk then some (Config.freeNat c.fresh) else none
    let s := s.up fun c => (c.setOtp 0 { x with seed := seed, booted := true }).tick
    if seed.isSome then s.up fun c => (c.put 0 SEC SEC.OTP_STATE 0 0 1).setReady 0 SEC true
    else s.latch 0 SEC 1

def isAttest (r : Req) : Bool := match r.cmd with | .attest _ => r.started | _ => false

/-- The quote for a nonce, from the registers as they are (R441). -/
def Chip.buildQuote (c : Chip) (nonce : List Byte) : List Byte :=
  let n := dieCount c.member
  let x := c.otpOf 0
  let logs := c.dies'.flatMap fun d => c.pageBytes d SEC SEC.LOG (10 * c.logCount d)
  let total := 128 + 128 * n + logs.length
  leBytes 4 0x544F5551 ++ leBytes 2 1 ++ leBytes 1 n ++ [0#8] ++ leBytes 4 (chipId c.member) ++ leBytes 4 total ++ nonce ++ c.idDigest ++
    leBytes 32 (if x.enrolled then x.owner else 0) ++ leBytes 1 x.counter ++
    leBytes 1 (x.require.toNat + 2 * c.otpSkew.toNat + 4 * c.logRestarted.toNat) ++ List.replicate 14 0#8 ++
    (c.dies'.flatMap fun d => c.pageBytes d SEC SEC.MR 32) ++ logs

/-- The SEC block starts the next queued quote. -/
def Chip.nextQuote (c : Chip) : Chip :=
  match (c.reqs isAttest).head? with
  | some r => match r.cmd with | .attest nonce => { c with quote := some (r.id, c.buildQuote nonce) } | _ => c
  | none => { c with quote := none }

/-- ATTEST (R439, R442). -/
def Chip.attest (c : Chip) (r : Req) : Chip :=
  if (c.codesOf 0 SEC).contains 1 then c.finish r FAIL 1 []
  else if !c.ready 0 SEC then c.done r BUSY
  else if 4 ≤ (c.reqs (fun q => isAttest q && decide (q.id ≠ r.id))).length then c.done r BUSY
  else if c.quote.isNone then c.nextQuote else c

/-- A quote is signed; the next one starts. -/
def Chip.quoteSigned (c : Chip) : Chip :=
  match c.quote with
  | none => c
  | some (id, q) =>
    let sign := (List.range 3309).map (Config.mldsaSign ((c.otpOf 0).seed.getD 0) ctxAT q)
    let c := match (c.reqs (fun r => isAttest r && decide (r.id = id))).head? with
      | some r => c.finish r OK 0 (q ++ sign)
      | none => c
    c.nextQuote

/-! ### Calibration records (R402 to R406) -/

/-- The section of a die in a record. -/
def calSection (bs : List Byte) (d : Nat) : List Byte := (bs.drop (64 + 1024 * d)).take 1024

/-- The word of MEMPHYc.LANE_DLY for a timing set, rank and byte lane: its offset on the page, and its place in a section (R403). -/
def delayWords : List (Nat × Nat) :=
  (List.range 2).flatMap fun t => (List.range 3).flatMap fun r => (List.range 8).map fun b =>
    (MEMPHY.LANE_DLY + 0x80 * t + 0x20 * r + 4 * b, 0x60 * t + 0x20 * r + 4 * b)

def zeros (bs : List Byte) (at_ n : Nat) : Bool := ((bs.drop at_).take n).all (fun b => decide (b = 0))

/-- The trims, plans and pins of a section lie in their ranges, and its reserved bytes and bits are 0 (R403, R404). -/
def Chip.sectionOk (c : Chip) (d : Nat) (x : List Byte) : Bool :=
  (List.range 8).all (fun k => c.tapOk d k (signed 8 (fieldAt x k 1))) &&
    decide (fieldAt x 8 1 < 4) && Config.vrefInRange d (fieldAt x 8 1) && decide (fieldAt x 9 1 ≤ 60) &&
    decide (fieldAt x 10 1 < 16) && decide (fieldAt x 10 1 % 4 ≤ 2) && decide (fieldAt x 10 1 / 4 ≤ 2) &&
    zeros x 0x00B 5 && zeros x 0x038 8 && zeros x 0x280 0x180 &&
    (List.range 8).all (fun l =>
      let w := fieldAt x (0x10 + 2 * l) 2
      decide (w / 32 % 8 = 0) && decide (w / 4096 = 0) && c.rxOk d l (w % 32) (w / 256 % 16)) &&
    (List.range 24).all (fun l => decide (fieldAt x (0x20 + l) 1 ≤ 4))

/-- A record is valid (R402, R404). -/
def Chip.recordOk (c : Chip) (bs : List Byte) : Bool :=
  let n := dieCount c.member
  decide (64 + 1024 * n + 4 ≤ bs.length) && decide (fieldAt bs 0 4 = 0x4C414343) && decide (fieldAt bs 4 2 = 1) && decide (fieldAt bs 6 1 = n) &&
    zeros bs 7 1 && decide ((bs.drop 12).take 8 = c.idDigest.take 8) && decide (fieldAt bs 20 4 = 1024 * n) && zeros bs 24 40 &&
    decide ((crc32c (bs.take (64 + 1024 * n))).toNat = fieldAt bs (64 + 1024 * n) 4) &&
    c.dies'.all (fun d => c.sectionOk d (calSection bs d))

/-- The record in a slot, if it is valid. -/
def State.slotRecord (s : State) (slot : Nat) : Option (List Byte) :=
  (((s.directory.getD []).find? (fun e => e.type = 6 + slot)).map s.region).filter s.chip.recordOk

/-- The record that firmware applies: the one that CAL.RECORD names if it is still valid with that SEQ, else the valid record with
the higher SEQ, slot 0 where they are equal (R404, R406). -/
def State.calRecord (s : State) : Option (List Byte) :=
  let a := s.slotRecord 0
  let b := s.slotRecord 1
  let named := if s.chip.flag 0 CAL CAL.RECORD 1 then (if s.chip.flag 0 CAL CAL.RECORD 0 then b else a) else none
  match named.filter (fun r => fieldAt r 8 4 = s.chip.num 0 CAL CAL.RECORD_SEQ) with
  | some r => some r
  | none =>
    match a, b with
    | some x, some y => some (let newer := (fieldAt y 8 4 + 2 ^ 32 - fieldAt x 8 4) % 2 ^ 32; if 0 < newer ∧ newer < 2 ^ 31 then y else x)
    | some x, none => some x
    | none, y => y

/-- Where firmware stores the next record, and with which SEQ (R405): not in the slot of the newest valid record. -/
def State.storeSlot (s : State) : Nat × Nat :=
  let a := (s.slotRecord 0).map fun r => fieldAt r 8 4
  let b := (s.slotRecord 1).map fun r => fieldAt r 8 4
  match a, b with
  | some x, some y =>
    let newer := (y + 2 ^ 32 - x) % 2 ^ 32
    if 0 < newer ∧ newer < 2 ^ 31 then (0, (y + 1) % 2 ^ 32) else (1, (x + 1) % 2 ^ 32)
  | some x, none => (1, (x + 1) % 2 ^ 32)
  | none, some y => (0, (y + 1) % 2 ^ 32)
  | none, none => (0, 1)

/-- The section of a die with what is in effect (R403); `history`: the firmware area. -/
def Chip.sectionOf (c : Chip) (d : Nat) (history : List Byte) : List Byte :=
  let word := fun (w : Word) => leBytes 4 w.toNat
  word (c.reg d CAL CAL.TS_TRIM) ++ word (c.reg d CAL (CAL.TS_TRIM + 4)) ++
    leBytes 1 (c.get d CAL CAL.VREF 1 0) ++ leBytes 1 (c.get d PWR PWR.AVS_OFFSET 5 0) ++
    leBytes 1 (c.mget d 0 MEMC.REFRESH 9 8 + 4 * c.mget d 1 MEMC.REFRESH 9 8) ++ leBytes 5 0 ++
    ((List.range 8).flatMap fun l => leBytes 2 (c.get d CAL (CAL.LANE_RX + 4 * l) 15 0)) ++
    ((List.range 24).flatMap fun l => leBytes 1 (c.lget d l LANE.CEILING 10 8)) ++ leBytes 8 0 ++
    (history ++ leBytes 192 0).take 192 ++
    ([0, 1].flatMap fun ch => delayWords.flatMap fun o => word (c.reg d (memphyPage ch) o.1)) ++ leBytes 384 0

/-- A calibration record with what is in effect (R402). -/
def Chip.recordBytes (c : Chip) (seq : Nat) (history : Nat → List Byte) : List Byte :=
  let n := dieCount c.member
  let head := leBytes 4 0x4C414343 ++ leBytes 2 1 ++ leBytes 1 n ++ leBytes 1 0 ++ leBytes 4 seq ++ c.idDigest.take 8 ++ leBytes 4 (1024 * n) ++
    leBytes 40 0
  let body := head ++ c.dies'.flatMap fun d => c.sectionOf d (history d)
  body ++ leBytes 4 (crc32c body).toNat

/-- The section of a record takes effect on its die (R401, R403, R404). -/
def Chip.applySection (c : Chip) (d : Nat) (x : List Byte) : Chip :=
  let c := c.each (List.range 8) fun c k => c.put d CAL (CAL.TS_TRIM + 4 * (k / 4)) (8 * (k % 4) + 7) (8 * (k % 4)) (fieldAt x k 1)
  let c := (c.put d CAL CAL.VREF 1 0 (fieldAt x 8 1)).put d PWR PWR.AVS_OFFSET 5 0 (fieldAt x 9 1)
  let c := c.each [0, 1] fun c ch => c.mput d ch MEMC.REFRESH 9 8 (fieldAt x 10 1 / 4 ^ ch % 4)
  let c := c.each (List.range 8) fun c l =>
    let w := fieldAt x (0x10 + 2 * l) 2
    (c.put d CAL (CAL.LANE_RX + 4 * l) 4 0 (w % 32)).put d CAL (CAL.LANE_RX + 4 * l) 11 8 (w / 256 % 16)
  let c := c.each (List.range 24) fun c l => (c.lput d l LANE.CEILING 10 8 (fieldAt x (0x20 + l) 1)).noteCeiling d l
  c.each [0, 1] fun c ch => c.each delayWords fun c o => c.setNum d (memphyPage ch) o.1 (fieldAt x (0x100 + 0xC0 * ch + o.2) 4)

/-- Without a record: the factory trims, AVS offset 0, PLAN 4, refresh pin 0 and the board profile's delays (R404). -/
def Chip.applyFactory (c : Chip) (p : Profile) : Chip :=
  let c := c.each c.dies' fun c d =>
    let c := c.each [0, 1] fun c j => c.setReg d CAL (CAL.TS_TRIM + 4 * j) (c.reg d CAL (CAL.TS_FACT + 4 * j))
    let c := (c.put d CAL CAL.VREF 1 0 (c.get d CAL CAL.VREF 5 4)).put d PWR PWR.AVS_OFFSET 5 0 0
    let c := c.each [0, 1] fun c ch => c.mput d ch MEMC.REFRESH 9 8 0
    let c := c.each (List.range 8) fun c l =>
      let w := c.reg d CAL (CAL.LANE_RX + 4 * l)
      (c.put d CAL (CAL.LANE_RX + 4 * l) 4 0 (bits w 20 16)).put d CAL (CAL.LANE_RX + 4 * l) 11 8 (bits w 27 24)
    c.each (List.range 24) fun c l => (c.lput d l LANE.CEILING 10 8 4).noteCeiling d l
  c.each p.channels fun c x => c.each x.delays fun c w => c.setReg x.die (memphyPage (fieldAt x.config 0 1)) w.1 w.2

/-- Firmware applies the calibration record as it boots, before it powers any stream lane (R401, R404). The manual gives the time no
closer: the model applies it with the board profile (log 103). -/
def State.calApply (s : State) (p : Profile) : State :=
  match s.calRecord with
  | some r => s.up fun c => (c.each c.dies' fun c d => c.applySection d (calSection r d)).put 0 SYS SYS.BOOT_STATUS 27 27 1
  | none => s.up fun c => (c.applyFactory p).put 0 SYS SYS.BOOT_STATUS 27 27 0

/-! ### The board profile (R90) -/

/-- The channels of a profile: a DRAM_CONFIG that R370 takes, one for a channel, and both channels of a die fitted alike. -/
def profileChannelsOk (n : Nat) (l : List ProfileChannel) : Bool :=
  l.all fun x => decide (x.die < n) && formOk (.dramConfig x.config) &&
    x.delays.all (fun w => delayWords.any fun o => decide (o.1 = w.1)) &&
    l.all fun y => decide (y.die ≠ x.die) || decide (y = x) ||
      (decide (fieldAt y.config 0 1 ≠ fieldAt x.config 0 1) && decide ((y.config.drop 1).take 2 = (x.config.drop 1).take 2))

/-- The supplies of a profile: bounds that a commit takes (R418), and equal masks on all dies of a rail (R422). -/
def profileRailsOk (n : Nat) (l : List ProfileRail) : Bool :=
  l.all fun x => decide (x.die < n) && decide (x.address < 128) && decide (x.shared < 2 ^ n) && x.shared.testBit x.die &&
    decide (holdMv (bits x.bounds 9 0) ≤ holdMv (bits x.bounds 25 16)) &&
    l.all fun y => !x.shared.testBit y.die || decide (y.shared = x.shared)

/-- Every item of a profile passes its checks (R90). -/
def profileOk (m : Member) (splashThere : Bool) (p : Profile) : Bool :=
  mapValid (dieCount m) p.gangMap && decide (p.gangMap.toNat < 4 ^ dieCount m) && decide (25 ≤ p.spiMhz ∧ p.spiMhz ≤ 133) &&
    p.outputs.all (fun o =>
      let e := modeEntry o.modeNumber
      decide (o.output < dieCount m) && decide (o.modeNumber < 64) && decide (e.gang = widthCode p.gangMap o.output) &&
        decide (o.output % 2 ^ e.gang = 0) && (!o.splash || splashThere) && decide (o.panelDelayMs ≤ 60) && decide (o.backlightMs ≤ 500) &&
        decide (o.teMode ≤ 2) && decide (e.minRate ≤ o.ceiling) && decide (o.ceiling ≤ 4) && decide (o.chains.length = 2 ^ e.gang) &&
        o.chains.all (fun w => decide (bits w 13 12 ≠ 3))) &&
    p.streams.all (fun x => decide (x.1 < dieCount m) && decide (x.2 < 256)) &&
    profileChannelsOk (dieCount m) p.channels && profileRailsOk (dieCount m) p.rails &&
    p.groups.all (fun g => decide (g.1 < dieCount m) &&
      (List.range 8).all fun l =>
        let ls := lanesOf g.2.1 l
        decide ((ls.filter (fun i => bit g.2.2 i)).length ≤ 1))

/-- The region of a type, unless it is missing or fails its RCRC. -/
def State.regionOf (s : State) (type : Nat) : Option (List Byte) :=
  match (s.directory.getD []).find? (fun e => e.type = type) with
  | none => none
  | some e => let bs := s.region e; if e.flags.testBit 0 ∧ (crc32c bs).toNat ≠ e.crc then none else some bs

/-- The profile's envelope is there and its signature verifies (R90, R428). -/
def State.profileSigned (s : State) : Bool :=
  match s.regionOf 3 with
  | none => false
  | some e => decide (envCheck s.chip.member (s.chip.otpOf 0) 2 e = 0)

/-- The items of a profile that firmware applies by writing registers (R90): fill colours, TE modes, driver chains, lane groups, and the
core supplies, whose step point is still to come (R418). -/
def Chip.profileWrites (c : Chip) (p : Profile) : Chip :=
  let c := c.each p.outputs fun c x =>
    let f := x.fill
    let c := (c.setNum x.output TGEN TGEN.FILL_RG (f.ch 1 * 65536 + f.ch 0)).setNum x.output TGEN TGEN.FILL_B (f.ch 2)
    let c := c.put x.output TGEN TGEN.TE_CTRL 1 0 x.teMode
    c.each x.chains.zipIdx fun c w =>
      let d := x.output + w.2
      let c := c.stage d DLINK DLINK.CHAINS w.1
      if c.dlinkStatus d = OK then c.chainsStep d else c.unstage d DLINK
  let c := c.each p.groups fun c g =>
    let c := (c.stage g.1 SLINK SLINK.GROUP_START g.2.1).stage g.1 SLINK SLINK.SPARE g.2.2
    if c.slinkStatus g.1 = OK then c.slinkStepPoint g.1 else c.unstage g.1 SLINK
  c.each p.rails fun c r =>
    let c := (c.put r.die PWR PWR.RAIL 7 0 r.shared).noteRail r.die
    (c.stage r.die PWR PWR.AVS_BOUNDS r.bounds).setCommit r.die PWR

/-- Firmware has read the profile: it applies all of it, or none (R90). What it applies by commands (TIMING_SET, LANE_POWER, LANE_TRAIN,
DRAM_CONFIG, BL_PWM) it sends through its mailbox (R96), from the profile that the state keeps. -/
def State.profileApply (s : State) (p : Profile) : State :=
  let c := s.chip
  if c.boot ≠ .profile ∨ (c.die 0).steward ≠ .running then s
  else if !s.profileSigned || !profileOk c.member (s.regionOf 5).isSome p then s.up fun c => { (c.setError 0 6) with boot := .idle }
  else
    let same := c.reg 0 BRIDGE BRIDGE.GANG_MAP = p.gangMap
    let tables := (s.regionOf 4).isSome
    let s := s.up fun c => if same then c else (c.stage 0 BRIDGE BRIDGE.GANG_MAP p.gangMap).setCommit 0 BRIDGE
    let s := s.gangApply.up fun c =>
      let c := c.profileWrites p
      let old := c
      let c := { c with boot := .idle, profile := some p }
      let c := if c.get 0 SYS SYS.BOOT_STATUS 23 16 = 6 then c.setError 0 0 else c
      let c := c.put 0 SYS SYS.BOOT_STATUS 24 24 1
      let c := (Chip.noteReady old c 0).setStage 0 6
      if tables then c else c.setError 0 7
    s.calApply p

/-! ### The rows -/

/-- The boot ROM reads both directory copies (R87, R88, R99). -/
def execDirectoryRead (s : State) : Host.Outcome State Fault Refusal :=
  .next (if s.chip.boot = .directory then
    match s.directory with
    | none => s.up fun c => c.enterRecovery 4
    | some l => s.up fun c => (c.setStage 0 4).tryImages (fun k => (s.imageBytes k).isSome) 0 (imageOrder l)
  else s)

def execImageVerify (x : CopyCheck) (s : State) : Host.Outcome State Fault Refusal := onDie s x.die fun s => s.imageVerify x.die x.good

def execProfileApply (board : Board) (outputs : List ProfileOutput) (s : State) : Host.Outcome State Fault Refusal :=
  .next (s.profileApply { board with outputs := outputs })

def execFwActivateRestart (s : State) : Host.Outcome State Fault Refusal := .next s.fwRestart

def execFlashWriteDone (s : State) : Host.Outcome State Fault Refusal := .next s.flashWriteDone

def execOtpProgramDone (d : Nat) (readBackOk : Bool) (s : State) : Host.Outcome State Fault Refusal :=
  onDie s d fun s => s.up fun c => c.otpEnd d readBackOk

def execIdentityDerive (entropyOk : Bool) (s : State) : Host.Outcome State Fault Refusal := .next (s.deriveIdentity entropyOk)

def execQuoteSigned (s : State) : Host.Outcome State Fault Refusal := .next (s.up Chip.quoteSigned)

end Sys2Proof.Machine
end

