-- ==== Sys2Proof/Machine/Power.lean ====
section
/-! DEFINITION. Supplies, reset, clocks, STANDBY and WAKE (R54, R74 to R77, R81 to R84, R99 to R104, R471), and SAFE_EXIT. -/

namespace Sys2Proof.Machine

/-! ### OFF (R77, R101, R471) -/

/-- VDDQ_MEM stays as it is on the board: PHY_STATUS.VDDQ_OK keeps its level. -/
def Chip.keepVddq (old c : Chip) : Chip :=
  c.each c.dies' fun c d => c.each [0, 1] fun c ch =>
    c.put d (memphyPage ch) MEMPHY.PHY_STATUS 2 2 (old.get d (memphyPage ch) MEMPHY.PHY_STATUS 2 2)

/-- Everything but the member, the supplies, the fuses and the test port goes back to its reset value. -/
def Chip.powerOff (c : Chip) : Chip :=
  let c := c.each c.dies' Chip.otpCut
  Chip.keepVddq c
    { Chip.reset with
      member     := c.member
      porN       := c.porN
      now        := c.now
      startAt    := c.now
      fresh      := c.fresh
      fuseOpen   := c.fuseOpen
      inReset    := c.inReset
      otp        := c.otp
      jtagIr     := c.jtagIr
      jtagCredit := c.jtagCredit
      jtagDr     := c.jtagDr }

/-- The package goes to OFF at once: commands in flight are lost, and a flash write under way leaves its region unspecified. -/
def State.powerOff (s : State) : State :=
  let s := s.each s.chip.inflight fun s r => s.spoilWrite r
  (s.mapMem fun m => { m with baskets := [], dram := [] }).up Chip.powerOff

/-- A brown-out acts as an assertion of POR_N, and holds the die in internal reset. -/
def State.brownOut (s : State) (d : Nat) : State :=
  s.powerOff.up fun c => { c with inReset := if c.inReset.contains d then c.inReset else d :: c.inReset }

/-- The boot sequence begins at step 1. -/
def Chip.startUp (c : Chip) : Chip := { c with power := .starting, porAt := c.now, startAt := c.now }

/-- POR_N is released; a rise that follows no taken assertion has no effect (R101). -/
def Chip.porRelease (c : Chip) : Chip :=
  if c.porN then c
  else
    let c := { c with porN := true }
    if c.inReset = [] then c.startUp else c

/-- The last rail is back above its threshold plus the hysteresis for 1 ms. -/
def Chip.resetEnd (c : Chip) : Chip :=
  if c.inReset = [] then c
  else
    let c := { c with inReset := [] }
    if c.porN then c.startUp else c

/-! ### Steps 1 and 2 of boot -/

/-- Step 1 on a die (R83, R104). -/
def State.aonUp (s : State) (d : Nat) (temp : Option Int) : State :=
  let s := s.up fun c =>
    let c := c.setNum d AON AON.STATUS 1
    let c := ((c.setState d AON 1).setState d FAULT 1).setState d PWR 1
    (((c.setReady d AON true).setReady d FAULT true).setReady d PWR true).setStage d 1
  match temp with
  | none => s
  | some t =>
    let s := s.up fun c => (c.put d PWR PWR.THERM_STATUS 7 0 (unsigned 8 t)).aonTemp d t
    if 115 ≤ t then (s.fatal d 5).up fun c => c.event d PWR 8 else s

/-- Step 1 is over: AON runs, and the clocks do not. -/
def Chip.awaitsClocks (c : Chip) : Bool := decide (c.power = .starting) && c.ready 0 AON

/-- Boot waits at the clock stage: some junction tripped at step 1, and not every junction is below 110 °C yet (R83). -/
def Chip.clockHeld (c : Chip) : Bool :=
  c.dies'.any (fun d => (c.codesOf d PWR).contains 4) && c.dies'.any (fun d => decide (110 ≤ signed 8 (c.get d AON AON.THERM_NOW 7 0)))

/-- Pages that are READY from step 2 on, with their STATE. -/
def stepTwo : List (Nat × Nat) :=
  [(CLK, 1), (SLINK, 1), (SCAN, 1), (CODEC, 1), (BASKET, 1), (RAMBLER, 1), (CAL, 1), (AGE, 1), (MODES, 0)]

/-- Pages that have a STATE from step 2 on, and are not READY yet. -/
def stepTwoState : List Nat := [TGEN, COMP, PANEL_OD, PANEL_DM, PANEL_DT, DLINK, SEC, memcPage 0, memcPage 1, memphyPage 0, memphyPage 1]

/-- The core and memory PLLs lock on every die, and every block that needs nothing else runs. The manual does not say when ERROR goes
back to 0: NO_REFCLK does here, on every die (log 105). -/
def Chip.clocksUp (c : Chip) : Chip :=
  let c : Chip := { c with power := .running }
  let c := c.each c.dies' fun c d =>
    let c := (c.put d AON AON.STATUS 1 1 1).setNum d CLK CLK.PLL_STATUS 7
    let c := c.each stepTwo fun c x => (c.setReady d x.1 true).setState d x.1 x.2
    let c := c.each stepTwoState fun c p => c.setState d p 1
    let c := if d = 0 then c.setReady 0 PORT_SVC true else c.setReady d SEC true
    let c := ((c.notePhy d 0).notePhy d 1).noteLinks d
    (c.setError d 0).setStage d 2
  c

/-- Every output starts in BRINGUP, and the log says that the package started (R57, R78, R457). -/
def State.formAll (s : State) (old : Nat) : State :=
  let s := s.each s.chip.outputs fun s o => s.changeMode o old BRINGUP 10 0
  s.each s.chip.dies' fun s d => s.log d 0x07 SYS (s.chip.get d SYS SYS.BOOT_STATUS 7 4) (s.chip.get d SYS SYS.BOOT_STATUS 3 0)

/-- Step 2 of boot (R83, R84, R432, R437). -/
def State.pllLock (s : State) : State :=
  if !s.chip.awaitsClocks || s.chip.clockHeld then s
  else
    let s := s.up fun c =>
      let c : Chip := { c with cycleAt := c.now, boot := .sfdp }
      let c := c.clocksUp
      let c := c.each c.dies' fun c d => c.extend d 0 1 romDigest
      if c.otpDiffers then { c with otpSkew := true }.event 0 SEC 2 else c
    s.formAll 0

/-- A retry of REFCLK (R99). The manual does not say which die shows NO_REFCLK: every die does (log 105). -/
def Chip.refclkRetry (c : Chip) (there : Bool) : Chip :=
  if !c.awaitsClocks then c
  else c.each c.dies' fun c d =>
    let c := c.put d AON AON.STATUS 1 1 there.toNat
    if there then c else c.setError d 1

/-- The boot ROM of die 0 reads SFDP (R99). -/
def Chip.sfdpRead (c : Chip) (signature fastRead fourByte : Bool) : Chip :=
  if c.boot ≠ .sfdp then c
  else
    let c := c.setStage 0 3
    if !signature then c.enterRecovery 2
    else if !fastRead || !fourByte then c.enterRecovery 3
    else { c with boot := .directory }

/-! ### STANDBY (R75, R76, R390) -/

def isStandby (r : Req) : Bool := match r.cmd with | .pkgStandby => r.started | _ => false

/-- PANEL_PWR_ENn and BL_ENn go inactive (R287). -/
def Chip.pinsOff (c : Chip) (o : Nat) : Chip :=
  let x := c.out o
  (c.put o TGEN TGEN.PINS 1 0 0).setOut o { x with goodbye := 3, pinsWere := c.get o TGEN TGEN.PINS 1 0 }

/-- A PKG_STANDBY that ends in TIMEOUT leaves every output as it found it (R116). -/
def Chip.standbyUndo (c : Chip) : Chip :=
  c.each c.outputs fun c o =>
    let x := c.out o
    let c := if x.goodbye = 3 then c.put o TGEN TGEN.PINS 1 0 x.pinsWere else c
    c.setOut o { x with goodbye := 0 }

/-- Every command that is waiting, running or in its broadcast phases completes with a status. -/
def Chip.endAll (c : Chip) (status : Nat) : Chip :=
  { (c.each (c.inflight ++ c.waiting) fun c r => c.reply r status 0 []) with bcast := none }

/-- Step 1 of R75 has taken place on the last output: PKG_STANDBY completes, and every other command is aborted. -/
def Chip.standbyNote (c : Chip) : Chip :=
  match (c.reqs isStandby).head? with
  | some r => if c.outputs.all (fun o => decide ((c.out o).goodbye = 3)) then (c.done r OK).endAll ABORTED else c
  | none => c

/-- PKG_STANDBY, which is BUSY from its acceptance until the package is in STANDBY (R75). An output without an entry sends DRV_HOLD already, and takes step 1 at once. -/
def Chip.pkgStandby (c : Chip) (r : Req) : Chip :=
  if c.outputs.any (fun o => decide ((c.out o).goodbye ≠ 0)) then c.done r BUSY
  else
    (c.each c.outputs fun c o =>
      if c.hasEntry o then let x := c.out o; c.setOut o { x with goodbye := 1 } else c.pinsOff o).standbyNote

/-- The image of a die's steward is kept: its baskets are retained, and it has an IMAGE entry to be compared with (R76). -/
def Chip.retains (c : Chip) (d : Nat) : Bool :=
  (List.range 32).all fun b => c.flag d BASKET BASKET.RETAIN b || (decide (2 ≤ b) && decide (c.owner d b ≠ 0))

/-- Digest of the latest IMAGE entry of a die's log (R438). -/
def Chip.lastImage (c : Chip) (d : Nat) : Option (List Byte) :=
  let entry := fun k => c.pageBytes d SEC (SEC.LOG + 0x28 * k) 10
  (((List.range (c.logCount d)).map entry).reverse.find? (fun e => fieldAt e 2 1 = 2)).map (fun e => e.drop 8)

/-- Registers held in AON (R104, R406, R438, R462), and those of a retained image and log. -/
def heldInAon (a : Nat) : Bool :=
  let p := a / 0x1000 % 0x1000
  let o := a % 0x1000
  decide (p = AON) || (decide (p = CAL) && (decide (o = CAL.RECORD) || decide (o = CAL.RECORD_SEQ))) ||
    (decide (p = SEC) && (decide (0x100 ≤ o ∧ o < 0x800) || decide (o = SEC.LOG_COUNT) || decide (o = SEC.RUNNING))) ||
    (decide (p = FAULT) && (decide (o = FAULT.LOG_HEAD) || decide (0x060 ≤ o ∧ o ≤ FAULT.LOST_FRAMES)))

/-- All that STANDBY keeps: AON, the queues of the service and test ports, and the fuses. -/
def Chip.sleep (c : Chip) : Chip :=
  let c := c.each c.dies' Chip.otpCut
  let x := Chip.keepVddq c
    { Chip.reset with
      member       := c.member
      power        := .standby
      porN         := c.porN
      now          := c.now
      porAt        := c.porAt
      cycleAt      := c.cycleAt
      startAt      := c.now
      fresh        := c.fresh
      fuseOpen     := c.fuseOpen
      regs         := c.regs.filter (fun kv => heldInAon kv.1)
      ports        := c.ports.filter (fun kv => decide (kv.1 < 2))
      nextReq      := c.nextReq
      badWords     := c.badWords.filter (fun a => c.flag (a / 0x1000000) BASKET BASKET.RETAIN (basketOf a))
      fixups       := c.fixups.filter (fun a => c.flag (a / 0x1000000) BASKET BASKET.RETAIN (basketOf a))
      otp          := c.otp
      otpSkew      := c.otpSkew
      logRestarted := c.logRestarted
      jtagIr       := c.jtagIr
      jtagCredit   := c.jtagCredit
      jtagDr       := c.jtagDr }
  x.each x.dies' fun x d =>
    let x := if c.retains d ∧ (c.lastImage d).isSome then x.setSteward d .asleep else x.setNum d SEC SEC.RUNNING 0
    let x := if c.flag d BASKET BASKET.RETAIN 1 then x else x.setNum d FAULT FAULT.LOG_HEAD 0
    let x := (x.put d AON AON.STATUS 2 2 1).setState d AON 2
    x.setNum d AON AON.STANDBY_COUNT ((x.num d AON AON.STANDBY_COUNT + 1) % 2 ^ 32)

/-- Steps 2 and 3 of R75. -/
def State.standbyDown (s : State) : State :=
  let c := s.chip
  if c.power ≠ .running ∨ c.outputs.any (fun o => decide ((c.out o).goodbye ≠ 3)) then s
  else
    let s := s.each c.inflight fun s r => s.spoilWrite r
    let s := s.up fun c =>
      (c.endAll ABORTED).each c.dies' fun c d => c.each (List.range 24) fun c l => if c.lstate d l = laneOFF then c else c.laneOff d l
    let keep := fun a => s.chip.flag (a / 0x1000000) BASKET BASKET.RETAIN (basketOf a)
    (s.mapMem fun m => { m with baskets := m.baskets.filter (fun kv => keep kv.1), dram := [] }).up Chip.sleep

/-! ### WAKE (R76, R102, R438) -/

/-- Whether the retained image still has its digest is free: the manual does not say where in its baskets a steward keeps its
image. -/
def State.wakeDie (s : State) (d : Nat) : State :=
  match (s.chip.die d).steward, s.chip.lastImage d with
  | .asleep, some digest =>
    if Config.freeBool (s.chip.fresh + d) then
      s.up fun c => ((c.setSteward d .activating).put d SYS SYS.BOOT_STATUS 7 4 3).extendImage d true digest
    else s.up fun c => (c.setSteward d .off).setNum d SEC SEC.RUNNING 0
  | _, _ => s.up fun c => c.setSteward d .off

def State.wake (s : State) (r : Req) : State :=
  let s := s.up fun c =>
    let c : Chip := { c with startAt := c.now }
    c.clocksUp.each c.dies' fun c d =>
      let c := ((c.put d AON AON.STATUS 2 2 0).setState d AON 1).event d AON 0
      let c := (c.setState d FAULT 1).setState d PWR 1
      (c.setReady d FAULT true).setReady d PWR true
  let s := s.formAll 1
  let s := s.each s.chip.dies' State.wakeDie
  s.up fun c =>
    let c : Chip := { c with fresh := c.fresh + 8 }
    let c := if (c.die 0).steward = .off then { c with boot := .sfdp }
      else c.each c.dies' fun c d => if (c.die d).steward = .off then c.setSteward d (.booting 0) else c
    c.done r OK

/-! ### SAFE_EXIT (R74, R454) -/

def Chip.safeExitStatus (c : Chip) (r : Req) (o flags : Nat) : Nat :=
  lowest [if c.mode o = SAFE then OK else STATE,
    if c.reqs (fun q => isSafeExit o q && decide (q.id ≠ r.id)) ≠ [] then BUSY else OK,
    if (c.gang o).any (fun d => (c.sensors d).any (fun k => decide (110 < c.tsRead d k)) || (c.die d).avs.coreLow ||
        decide (c.num d FAULT FAULT.LATCHED ≠ 0)) then BUSY else OK,
    if flags % 2 = 0 ∧ (c.gang o).any (fun d => decide ((c.die d).steward = .held)) then BUSY else OK]

/-- The output leaves SAFE. A fatal cause that has latched since the command was accepted sends it back at the next line start
(R72). -/
def State.safeLeave (s : State) (r : Req) (o flags first : Nat) : State :=
  let s := s.enterMode o BRINGUP 11 first
  let s := s.up fun c =>
    let c := if flags % 2 = 1 then c.each (c.gang o) Chip.rebootSteward else c
    match (c.gang o).find? (fun d => c.num d FAULT FAULT.LATCHED ≠ 0) with
    | some d => let x := c.out o; c.setOut o { x with safeDue := some (safeCause (c.faultCode d FAULT)) }
    | none => c
  s.finish r OK 0 (leBytes 4 (first % 2 ^ 32))

/-- SAFE_EXIT; an output without an entry has no frame boundary, and leaves at once. -/
def State.safeExit (s : State) (r : Req) (o flags : Nat) : State :=
  let c := s.chip
  let st := c.safeExitStatus r o flags
  if st ≠ OK then s.done r st
  else if !c.hasEntry o then s.safeLeave r o flags (c.seq o)
  else if c.nearBoundary o ∧ Config.freeBool c.fresh then s.up fun c => (c.setReq { r with aux := 1 }).tick
  else s

/-- The boundary that ends frame `f`. -/
def State.safeExitBoundary (s : State) (o f : Nat) : State :=
  match (s.chip.reqs (isSafeExit o)).head? with
  | some r =>
    if r.aux = 1 then s.up fun c => c.setReq { r with aux := 0 }
    else match r.cmd with
      | .safeExit _ flags => if s.chip.mode o = SAFE then s.safeLeave r o flags (f + 1) else s
      | _ => s
  | none => s

/-! ### PLLs (R54) -/

/-- Lanes that lane PLL `k` serves. -/
def pllLanes (k : Nat) : List Nat := (List.range 4).map (fun i => 4 * k + i)

/-- A PLL of a die loses lock. -/
def State.pllLoss (s : State) (d : Nat) (p : Pll) : State :=
  if !s.chip.dieRuns d then s
  else
    let s := s.up fun c => (c.count d CLK CLK.PLL_LOSS_COUNT).event d CLK 0
    match p with
    | .core => s.brownOut d
    | .mem ch =>
      if s.chip.state d (memcPage ch) = mcFREQ then s
      else s.up fun c => (c.put d CLK CLK.PLL_STATUS (1 + ch) (1 + ch) 0).notePhy d ch
    | .lane k => s.up fun c =>
      (c.put d CLK CLK.PLL_STATUS (8 + k) (8 + k) 0).each (pllLanes k) fun c l =>
        if c.lstate d l = laneOFF then c else c.signalLost d l 12 7

/-- A PLL gains lock. -/
def Chip.pllRelock (c : Chip) (d : Nat) (p : Pll) : Chip :=
  if !c.dieRuns d then c
  else match p with
    | .core => c
    | .mem ch => (c.put d CLK CLK.PLL_STATUS (1 + ch) (1 + ch) 1).notePhy d ch
    | .lane k =>
      let on := (pllLanes k).filter (fun l => c.lstate d l ≠ laneOFF)
      if on = [] then c
      else
        (c.put d CLK CLK.PLL_STATUS (8 + k) (8 + k) 1).each on fun c l =>
          (c.lput d l LANE.STATUS 12 12 0).finishAll (isPowerOn (d * 24 + l)) OK 0

/-! ### The rows -/

def execPorAssert (s : State) : Host.Outcome State Fault Refusal :=
  .next ({ s with chip := { s.chip with porN := false } }.powerOff)

def execPorRelease (s : State) : Host.Outcome State Fault Refusal := .next (s.up Chip.porRelease)

/-- A rail of a die falls below its threshold for 1 µs (R471). -/
def execBrownOut (d : Nat) (_rail : Rail) (s : State) : Host.Outcome State Fault Refusal :=
  onDie s d fun s => s.brownOut d

def execInternalResetEnd (s : State) : Host.Outcome State Fault Refusal := .next (s.up Chip.resetEnd)

def execAonReady (temps : List Int) (s : State) : Host.Outcome State Fault Refusal :=
  .next (if s.chip.power = .starting ∧ !s.chip.ready 0 AON then s.each s.chip.dies' fun s d => s.aonUp d temps[d]? else s)

def execRefclkRetry (there : Bool) (s : State) : Host.Outcome State Fault Refusal := .next (s.up fun c => c.refclkRetry there)

def execPllLock (s : State) : Host.Outcome State Fault Refusal := .next s.pllLock

def execSfdpRead (signature fastRead fourByte : Bool) (s : State) : Host.Outcome State Fault Refusal :=
  .next (s.up fun c => c.sfdpRead signature fastRead fourByte)

def execStandbyPowerDown (s : State) : Host.Outcome State Fault Refusal := .next s.standbyDown

def execPllLoss (d : Nat) (pll : Pll) (s : State) : Host.Outcome State Fault Refusal :=
  match pll with
  | .mem ch => onChannel s d ch fun s => s.pllLoss d pll
  | .lane k => if d < dieCount s.chip.member ∧ k < 6 then .next (s.pllLoss d pll) else .fault .noSuchUnit
  | .core => onDie s d fun s => s.pllLoss d pll

def execPllRelock (d : Nat) (pll : Pll) (s : State) : Host.Outcome State Fault Refusal :=
  match pll with
  | .mem ch => onChannel s d ch fun s => s.up fun c => c.pllRelock d pll
  | .lane k => if d < dieCount s.chip.member ∧ k < 6 then .next (s.up fun c => c.pllRelock d pll) else .fault .noSuchUnit
  | .core => onDie s d fun s => s.up fun c => c.pllRelock d pll

end Sys2Proof.Machine
end

