-- ==== Sys2Proof/Machine/Scan.lean ====
section
/-! DEFINITION. The pixel path of a die line by line (R46 to R50, R67, R290 to R297, R310 to R313, R341, R348, R461): the source
of stage 5, the stages up to the driver codes, the frame-plane write, held tiles, the splash, the tolerance and the
signature. -/

namespace Sys2Proof.Machine

/-! ### Segments and tiles -/

/-- The segments of a slice line, 64 columns each (R292, R347). -/
def Chip.segs (c : Chip) (o : Nat) : List Nat := List.range ((c.entry o).w / 64)

/-- The pixels of a tile on a line. -/
def tileRow (tile : List Px) (line : Nat) : List Px := (tile.drop (line % 16 * 64)).take 64

/-- The fill colour on `n` columns. -/
def Chip.fillRun (c : Chip) (o n : Nat) : List Px := List.replicate n (c.fillPx o)

/-- Live pixels of a segment, when all 64 have come. -/
def DieSt.segLive (y : DieSt) (f line seg : Nat) : Option (List Px) :=
  (List.range 64).mapM fun i => KMap.get? y.livePx ((f * 32768 + line) * 4096 + 64 * seg + i)

/-- The output shows the held plane. -/
def heldMode (m : Nat) : Bool := decide (m = HOLD ∨ m = MEASURE ∨ m = SAFE)

/-! ### Substitution (R292) -/

/-- A late segment is shown with the previous frame's pixels of the segment, or with fill colour. -/
def Chip.segmentLate (c : Chip) (o d line seg : Nat) : Chip :=
  let y := c.die d
  let px := match KMap.getD y.prev (line / 16 * 64 + seg) none with
    | some tile => tileRow tile line
    | none => c.fillRun o 64
  let x := c.out o
  let c := (c.setDie d { y with substs := KMap.set y.substs (line * 64 + seg) px }).setOut o { x with spoiled := true }
  (c.count d SCAN SCAN.LIVE_UNDERRUN_COUNT).event d SCAN 0

/-- The line of an output that is in progress and has not been passed on; none in blanking. -/
def Chip.openLine (c : Chip) (o : Nat) : Option Nat :=
  let n := c.get o TGEN TGEN.POSITION 31 16
  if c.hasEntry o ∧ n < (c.entry o).vActive ∧ !(c.out o).closed ∧ !(c.out o).bound then some n else none

/-- The deadline of a segment has come. -/
def Chip.deadline (c : Chip) (o d line seg : Nat) : Chip :=
  let y := c.die d
  if c.mode o = LIVE ∧ !(c.out o).black ∧ seg < (c.entry o).w / 64 ∧ (KMap.get? y.substs (line * 64 + seg)).isNone ∧
      (y.segLive (c.seq o) line seg).isNone then c.segmentLate o d line seg
  else c

/-! ### Stage 5 (R290, R291) -/

/-- A segment of the held plane. -/
def Chip.heldSeg (c : Chip) (o d line seg : Nat) : List Px :=
  let y := c.die d
  if (c.out o).held.isNone ∨ y.line.fill.contains seg then c.fillRun o 64
  else match KMap.getD y.heldTiles (line / 16 * 64 + seg) none with
    | some tile => tileRow tile line
    | none => c.fillRun o 64

/-- A segment of the splash, as both planes hold it (R97, R295). -/
def State.splashSeg (s : State) (o d line seg : Nat) : List Px :=
  let c := s.chip
  let bs := c.slotBytes s.mem d (c.planeSlot d 0 (c.entry o).w seg (line / 16))
  match readHamper bs (fieldAt bs 4 2) none with
  | .ok px => if c.reads d 0 then tileRow px line else c.fillRun o 64
  | .error _ => c.fillRun o 64

/-- The pixels that stage 5 supplies for a line of a slice. -/
def State.stage5 (s : State) (o d line : Nat) : List Px :=
  let c := s.chip
  let y := c.die d
  let m := c.mode o
  if m = LIVE then
    (c.segs o).flatMap fun seg =>
      match KMap.get? y.substs (line * 64 + seg) with
      | some px => px
      | none => (y.segLive (c.seq o) line seg).getD (c.fillRun o 64)
  else if m = COMPOSE then
    match KMap.get? y.composed line with
    | some px => px
    | none => c.fillRun o (c.entry o).w
  else if heldMode m then (c.segs o).flatMap fun seg => c.heldSeg o d line seg
  else if (c.out o).splashShown then (c.segs o).flatMap fun seg => s.splashSeg o d line seg
  else c.fillRun o (c.entry o).w

/-! ### The driver codes (R249 to R264, R304, R310 to R313) -/

/-- Segment check and code check of R347: CRC-32C of the pixels, and of the codes, of 64 columns of a line. The state holds the pixels of
a segment whole from stage to stage, so its check is this function of them, and two checks differ only where a stage's two copies
do (PAIR_MISMATCH); the verdict is `DieSt.failedSeg` (R348). -/
def segCheck (px : List Px) : Word := crc32c (rawBytes px)
def codeCheck (n : Nat) (codes : List Px) : Word := crc32c (codeBytes n codes)

/-- A segment's verdict has failed by stage 9, or before stage 6 (R348). -/
def DieSt.failedSeg (y : DieSt) (line seg : Nat) : Bool :=
  y.failed.contains ((line * 64 + seg) * 2) || y.failed.contains ((line * 64 + seg) * 2 + 1)

/-- The codes of a line of a slice: stages 7 to 9, and code 0 for a group whose verdict fails. -/
def Chip.lineCodes (c : Chip) (o d line : Nat) (px : List Px) : List Px :=
  let y := c.die d
  let subst := fun seg => decide (c.mode o = LIVE) && (KMap.get? y.substs (line * 64 + seg)).isSome
  let codes := c.ditherLine o d line (c.defectLine o d line (c.demuraLine o d line (c.odLine d line subst px)))
  (c.segs o).flatMap fun seg =>
    if y.failedSeg line seg then List.replicate 64 blackPx else (codes.drop (64 * seg)).take 64

/-- A die sends DRV_HOLD in place of the LINE packets of a line (R34, R59, R75, R282, R283, R328). -/
def Chip.sendsHold (c : Chip) (o d : Nat) : Bool :=
  (c.out o).black || decide (2 ≤ (c.out o).goodbye) || !(c.out o).lit || (c.die d).cutOff || !c.chainsOk d

/-- What a die does for the line that starts (R304): 0 it sends LINE packets, 1 DRV_HOLD, 2 DRV_HOLD because it is without timing or a
chain is not as the entry needs it (R34, R328). -/
def Chip.holdFor (c : Chip) (o d : Nat) : Nat :=
  if (c.die d).cutOff || !c.chainsOk d then 2 else if c.sendsHold o d then 1 else 0

/-- LINE packets that a chain has no time for in its line, by position (R311, R312). `t`: length of the line. -/
def Chip.dropped (c : Chip) (d k t : Nat) : List Nat :=
  let fit := (lineRoom t (c.lrate d (8 + k)) - 4) / packetSymbols (c.depth d) (c.cpd d)
  (c.positions d).filter (fun p => decide (fit ≤ p))

/-- Length of an active line in core cycles (R275). -/
def ModeEntry.activeLine (e : ModeEntry) (line : Nat) : Nat := e.lineCycles (e.vActive - 1 - line)

/-- Some column of a 64-column group goes out: its chain's lane is READY and its LINE packet is not dropped (R313, R327). -/
def Chip.groupSent (c : Chip) (d : Nat) (lanes drop : List Nat) (seg : Nat) : Bool :=
  (List.range 64).any fun i =>
    let p := (64 * seg + i) / max 1 (c.cpd d)
    let k := p / c.chainDrivers d
    lanes.contains (8 + k) && !drop.contains (k * 8 + p % c.chainDrivers d)

/-- The packetiser sends a line, unless the line started with DRV_HOLD. -/
def Chip.sendLine (c : Chip) (o d line : Nat) (px : List Px) : Chip :=
  if (c.die d).holdLine ≠ 0 then
    let y := c.die d
    c.setDie d { y with txLine := line, txCodes := none, txDrop := [] }
  else
    let lanes := (c.entryLanes d).filter (fun l => c.isReady d l)
    let drop := lanes.flatMap fun l => (c.dropped d (l - 8) ((c.entry o).activeLine line)).map (fun p => (l - 8) * 8 + p)
    let bad := (c.segs o).filter (fun seg => (c.die d).failedSeg line seg && c.groupSent d lanes drop seg)
    let y := c.die d
    let codes := c.lineCodes o d line px
    let c := (c.setDie d { y with txLine := line, txCodes := some codes, txDrop := drop }).sendLines o d line lanes drop codes
    let c := (c.countBy d DLINK DLINK.HANDOVER_COUNT bad.length).countBy d DLINK DLINK.FIT_SHORT_COUNT drop.length
    c.events d DLINK ((drop.map fun _ => 3) ++ (bad.map fun _ => 4))

/-! ### Dark pixels (R461) -/

/-- Internal and link dark pixels of a line of a slice. -/
def Chip.darkLine (c : Chip) (o d line : Nat) : Nat × Nat :=
  let x := c.out o
  let w := (c.entry o).w
  let m := c.mode o
  let y := c.die d
  if x.black then (0, 0)
  else
    let link := ((c.entryLanes d).filter (fun l => !c.isReady d l)).length * (w / max 1 (c.chains d))
    let fill := if !heldMode m then 0
      else if x.held.isNone then (if m = SAFE ∨ x.lossHold then w else 0)
      else 64 * y.line.fill.length
    let bad := 64 * ((c.segs o).filter (fun seg => y.failedSeg line seg && !y.line.fill.contains seg)).length
    (if y.holdLine = 2 then w else if y.holdLine = 1 then 0 else min w (fill + bad), link)

/-! ### Frame planes (R49, R67, R341) -/

/-- Stage 6 begins to write frame `f` into its plane. -/
def Chip.openPlane (c : Chip) (o f : Nat) : Chip :=
  let x := c.out o
  let p := x.planes.getD (f % 2) {}
  let e := c.entry o
  if p.content = some (BitVec.ofNat 32 f) then c
  else
    let q : PlaneSt := { frame := p.frame, content := some (BitVec.ofNat 32 f), complete := false, good := true,
                         left := e.hActive / 64 * (e.vActive / 16) }
    c.setOut o { x with planes := x.planes.setIfInBounds (f % 2) q, splash := false }

/-- A tile of frame `f` goes to the encoders. -/
def Chip.pushTile (c : Chip) (o d f tx ty : Nat) (subst : Bool) (px : Option (List Px)) : Chip :=
  let c := c.openPlane o f
  let p := f % 2
  let y := c.die d
  let job : EncJob := { layer := none, plane := p, slot := c.planeSlot d p (c.entry o).w tx ty, tx := tx, ty := ty,
                        owner := planeOwner o p, seq := f % 256, subst := subst, pixels := px }
  c.setDie d { y with encQ := y.encQ ++ [job] }

/-- A tile of a frame plane has been written. -/
def Chip.planeWritten (c : Chip) (o : Nat) (j : EncJob) (good : Bool) : Chip :=
  let x := c.out o
  let p := x.planes.getD j.plane {}
  match p.content with
  | some f =>
    if f.toNat % 256 = j.seq ∧ 0 < p.left then
      let ok := p.good && good
      let last := decide (p.left = 1)
      let q : PlaneSt := { p with left := p.left - 1, good := ok, frame := if last then some f else p.frame, complete := last && ok }
      c.setOut o { x with planes := x.planes.setIfInBounds j.plane q }
    else c
  | none => c

/-- Take the first job of a tile out of a queue. -/
def takeJob (tx ty : Nat) : List EncJob → Option (EncJob × List EncJob)
  | [] => none
  | j :: l => if j.tx = tx ∧ j.ty = ty then some (j, l) else (takeJob tx ty l).map fun r => (r.1, j :: r.2)

/-- A layer tile that could not be written is not complete after all (R233). -/
def Chip.tileUnwritten (c : Chip) (n : Nat) (j : EncJob) : Chip :=
  let z := c.layer n
  let place := j.ty * 512 + j.tx
  let base := j.slot % 2 ^ 24 * 2 + j.slot / 2 ^ 24 - (j.ty * z.words.tw + j.tx)
  c.setLayer n { z with tiles := z.tiles.map fun kv =>
    if kv.1 / 2 ^ 32 = base ∧ kv.1 % 256 = j.seq then (kv.1, kv.2.filter (fun t => t ≠ place)) else kv }

/-- An encoder finishes a tile (R341, R343, R344, R376). -/
def State.encoded (s : State) (d tx ty : Nat) (checkFails : Bool) : State :=
  let y := s.chip.die d
  match takeJob tx ty y.encQ with
  | none => s
  | some (j, rest) =>
    let s := s.up fun c => c.setDie d { y with encQ := rest }
    let up := s.chip.reads d (j.slot / 2 ^ 24)
    let s := match j.pixels with
      | some px => s.storeTile d j.slot j.owner j.seq (j.ctrl.getD (s.chip.codecCtrl d)) j.subst checkFails px
      | none => s.putHamper d j.slot (emptyHamper j.owner j.seq)
    match j.layer with
    | some n => s.up fun c =>
      if !up then c.tileUnwritten n j
      else if c.resends.any (fun r => decide (r.layer = n ∧ r.tx = tx ∧ r.ty = ty ∧ layerSlot r.slot = j.slot ∧ r.frame.toNat % 256 = j.seq)) then
        c.endResend n tx ty
      else c
    | none => s.up fun c => c.planeWritten (c.leadOf d) j (up && !j.subst && j.pixels.isSome)

/-! ### The end of a line and of a tile row -/

/-- Pixels of a tile from the lines of the picture. -/
def DieSt.pictureTile (y : DieSt) (row tx : Nat) : List Px :=
  (List.range 16).flatMap fun i => ((KMap.getD y.picture (16 * row + i) []).drop (64 * tx)).take 64

/-- A tile of the live stream, when each of its segments has come (R67). -/
def DieSt.liveTile (y : DieSt) (f row tx : Nat) : Option (List Px) :=
  ((List.range 16).mapM fun i => y.segLive f (16 * row + i) tx).map List.flatten

/-- The CRC that a tile contributes to the signature (R297). -/
def Chip.tileSig (c : Chip) (o d row tx : Nat) : Word :=
  let y := c.die d
  if heldMode (c.mode o) then
    match (c.out o).held, KMap.getD y.heldTiles (row * 64 + tx) none with
    | some _, some tile => crc32c (rawBytes tile)
    | _, _ => crc32c (rawBytes (c.fillRun o 1024))
  else crc32c (rawBytes (y.pictureTile row tx))

/-- The last line of a tile row has left stage 5: its tiles add to the signature and, where the mode writes a frame plane, go to
the encoders. -/
def Chip.rowEnd (c : Chip) (o d row : Nat) : Chip :=
  let f := c.seq o
  let m := c.mode o
  let x := c.out o
  let lines := (List.range 16).map (fun i => 16 * row + i)
  if x.black then c
  else
    let y := c.die d
    let c := c.setDie d { y with sigCrcs := y.sigCrcs ++ (c.segs o).map (fun tx => c.tileSig o d row tx) }
    let c := c.each (c.segs o) fun c tx =>
      let y := c.die d
      let failed := lines.any (fun l => y.failed.contains ((l * 64 + tx) * 2 + 1))
      if m = LIVE ∨ m = COMPOSE then
        let subst := decide (m = LIVE) && lines.any (fun l => (KMap.get? y.substs (l * 64 + tx)).isSome)
        c.pushTile o d f tx row subst (if failed then none else some (y.pictureTile row tx))
      else if (m = HOLD ∨ m = MEASURE) ∧ x.live.isSome ∧ x.held ≠ some (f % 2) then
        c.pushTile o d f tx row false (if failed then none else y.liveTile f row tx)
      else c
    let y := c.die d
    c.setDie d { y with picture := [],
                        livePx := y.livePx.filter (fun kv => !decide (kv.1 / 4096 / 32768 = f ∧ kv.1 / 4096 % 32768 / 16 ≤ row)) }

/-- A line leaves one die (R292, R310). -/
def State.closeDie (s : State) (o line d : Nat) : State :=
  let m := s.chip.mode o
  let s := s.up fun c =>
    if m = LIVE then c.each (c.segs o) fun c seg => c.deadline o d line seg
    else if m = HOLD ∨ m = MEASURE then
      let x := c.out o
      if (c.segs o).any (fun seg => ((c.die d).segLive (c.seq o) line seg).isNone) then c.setOut o { x with spoiled := true } else c
    else c
  let px := s.stage5 o d line
  s.up fun c =>
    let y := c.die d
    let c := c.setDie d { y with picture := KMap.set y.picture line px }
    let k := c.darkLine o d line
    let x := c.out o
    let c := (c.setOut o { x with dark := x.dark + k.1, linkDark := x.linkDark + k.2 }).sendLine o d line px
    if line % 16 = 15 then c.rowEnd o d (line / 16) else c

/-- The line in progress ends on every die of the gang. -/
def State.closeLine (s : State) (o : Nat) : State :=
  match s.chip.openLine o with
  | none => s
  | some line =>
    (s.each (s.chip.gang o) fun s d => s.closeDie o line d).up fun c =>
      let x := c.out o
      c.setOut o { x with closed := true }

/-! ### The start of a line (R33, R237, R254, R259, R291) -/

/-- Held tiles that are not verified at a line start show fill colour on that line. -/
def Chip.settleHeld (c : Chip) (o d line : Nat) : Chip :=
  let y := c.die d
  let fill := if heldMode (c.mode o) ∧ (c.out o).held.isSome then
      (c.segs o).filter (fun tx => (KMap.getD y.heldTiles (line / 16 * 64 + tx) none).isNone) else []
  c.setDie d { y with line := { y.line with fill := fill } }

/-- Held tiles of a row that are late, each counted once. -/
def Chip.heldRow (c : Chip) (o d row : Nat) : Chip :=
  let y := c.die d
  let late := (c.segs o).filter (fun tx =>
    (KMap.get? y.heldTiles (row * 64 + tx)).isNone && !y.heldLate.contains (row * 64 + tx))
  if late = [] then c
  else
    let c := c.setDie d { y with heldLate := y.heldLate ++ late.map (fun tx => row * 64 + tx) }
    (c.countBy d SCAN SCAN.HELD_LATE_COUNT late.length).events d SCAN (late.map fun _ => 1)

/-- The deadline of a tile row is two lines before its first line; rows that have begun are past theirs. -/
def Chip.heldDeadline (c : Chip) (o d line : Nat) : Chip :=
  let e := c.entry o
  let rows := (if line < e.vActive then [line / 16] else []) ++
    (if line + 2 = (c.out o).lines then [0] else if line + 2 < e.vActive ∧ (line + 2) % 16 = 0 then [(line + 2) / 16] else [])
  if heldMode (c.mode o) ∧ (c.out o).held.isSome then c.each rows fun c r => c.heldRow o d r else c

/-- The line that follows the one in progress; none when the frame boundary comes first (R280). -/
def Chip.nextLine (c : Chip) (o : Nat) : Option Nat :=
  let n := c.get o TGEN TGEN.POSITION 31 16
  let v := (c.entry o).vActive
  if (c.out o).bound then some v
  else if n + 1 = v then none
  else if n + 1 = (c.out o).lines then some 0
  else some (n + 1)

/-- Nothing has gone out yet on the lanes of a gang in this step. -/
def Chip.hush (c : Chip) (o : Nat) : Chip := { c with wires := c.wires.filter fun kv => !(c.gang o).contains (kv.1 / 24) }

/-- A line starts on every die of the gang: LNM goes out on the driver lanes, with DRV_HOLD in the lines of a DRV_HOLD frame, and on
the stream lane groups (R181, R304, R305). -/
def Chip.openNext (c : Chip) (o line : Nat) : Chip :=
  let e := c.entry o
  let active := decide (line < e.vActive)
  let x := c.out o
  let c := c.setOut o { x with lineAt := c.now, closed := !active, bound := false, lineNo := x.lineNo + 1 }
  let c := c.each (c.gang o) fun c d =>
    let c := c.put d TGEN TGEN.POSITION 31 16 line
    let c := c.heldDeadline o d line
    let hold := c.holdFor o d
    let y := c.die d
    let c := (c.setDie d { y with holdLine := hold }).sendDrv d (lnmSyms line ++ if hold = 0 then [] else holdSyms)
    if active then ((c.settleOd o d line).settleDemura o d line).settleHeld o d line else c.drvSend d
  let c := c.markGroups o (lnmSyms line)
  if c.mode o ≠ COMPOSE ∨ (c.out o).black then c
  else if line + 1 < e.vActive then c.startCompose o (line + 1)
  else if line + 1 = (c.out o).lines then c.startCompose o 0
  else c

def State.lineStart (s : State) (o : Nat) : State :=
  if s.chip.power ≠ .running ∨ !s.chip.hasEntry o then s
  else
    match s.chip.nextLine o with
    | none => s
    | some line =>
      let s := (s.up fun c => c.hush o).closeLine o
      let s := match (s.chip.out o).safeDue with
        | some cause => if s.chip.mode o = SAFE then s else s.enterSafe o cause (s.chip.seq o)
        | none => s
      s.up fun c => c.openNext o line

/-! ### Held tiles, and copy disagreements -/

/-- A held-plane tile comes back (R291, R340). -/
def State.heldTile (s : State) (d tx ty : Nat) : State :=
  let c := s.chip
  let o := c.leadOf d
  let e := c.entry o
  match (c.out o).held with
  | none => s
  | some p =>
    match ((c.out o).planes.getD p {}).frame with
    | none => s
    | some f =>
      if c.hasEntry o ∧ heldMode (c.mode o) ∧ tx < e.w / 64 ∧ ty < e.vActive / 16 ∧ c.reads d p ∧
          (KMap.get? (c.die d).heldTiles (ty * 64 + tx)).isNone then
        let slot := c.planeSlot d p e.w tx ty
        match readHamper (c.slotBytes s.mem d slot) (planeOwner o p) (some (f.toNat % 256)) with
        | .ok px => s.up fun c => let y := c.die d; c.setDie d { y with heldTiles := KMap.set y.heldTiles (ty * 64 + tx) (some px) }
        | .error cause =>
          (s.readFailed d slot (slot % 2 ^ 24) 3 cause).up fun c =>
            let y := c.die d
            ((c.setDie d { y with heldTiles := KMap.set y.heldTiles (ty * 64 + tx) none }).count d SCAN SCAN.HELD_CRC_COUNT).event d SCAN 2
      else s

/-- The two copies of a stage disagree (R348, R349); which segment of the line in progress it was is free. -/
def State.pairEvent (s : State) (d stage : Nat) : State :=
  let o := s.chip.leadOf d
  if !s.chip.dieRuns d ∨ !([2, 5, 7, 8, 9].contains stage) then s
  else
    let s := s.up fun c =>
      match c.openLine o with
      | none => c
      | some line =>
        let seg := Config.freeNat c.fresh % ((c.entry o).w / 64)
        let y := c.die d
        (c.setDie d { y with failed := ((line * 64 + seg) * 2 + (if stage ≤ 5 then 1 else 0)) :: y.failed }).tick
    s.pairMismatch d stage

/-! ### The latency tolerance (R293, R294) -/

/-- Cycles from the start of a line to the boundary that ends its frame of `lines` lines (R275). -/
def ModeEntry.leftFrom (e : ModeEntry) (lines line : Nat) : Nat :=
  let k := if line < e.vActive then e.vActive - 1 - line else lines - 1 - (line - e.vActive)
  (k + 1) * e.frameCycles / e.vTotal

/-- Cycles until a line of this frame starts, 0 when it has started, or until one of the next frame does, which is taken to have the
nominal porch. -/
def Chip.untilLine (c : Chip) (o line : Nat) (next : Bool) : Nat :=
  let e := c.entry o
  let left := (c.timeToBoundary o).getD 0
  if next then left + (e.frameCycles - e.leftFrom e.vTotal line) else left - e.leftFrom (c.out o).lines line

/-- Two lines before a line, in a frame of `lines` lines. -/
def twoBefore (lines line : Nat) : Nat := if 2 ≤ line then line - 2 else lines + line - 2

/-- The tolerance of a stream: its units of this frame that are not over, each with the line whose start is its deadline and the
granules not yet read; with none, `after` is its first unit of the next frame. A unit all of whose reads are back is over, also where
one of them failed (assumption log 109). -/
def Chip.streamTol (c : Chip) (o : Nat) (units : List (Nat × Nat)) (after : Nat × Nat) : Nat :=
  match units with
  | u :: _ => c.untilLine o u.1 false - u.2
  | [] => c.untilLine o after.1 true - after.2

/-- The units of tiles that are not over, a hamper not yet read being 73 granules. -/
def tileUnits (units : List (Nat × Nat)) : List (Nat × Nat) := (units.filter (fun u => decide (u.2 ≠ 0))).map fun u => (u.1, 73 * u.2)

/-- Rows of tiles from the one in progress on, of a fetch whose reads that are back are listed (R253, R291). -/
def Chip.rowsTol (c : Chip) (o : Nat) (back : Nat → Bool) : Nat :=
  let e := c.entry o
  let line := c.get o TGEN TGEN.POSITION 31 16
  let first := if line < e.vActive then line / 16 else 0
  let rows := (List.range (e.vActive / 16)).drop first
  c.streamTol o (tileUnits (rows.map fun r => (twoBefore (c.out o).lines (16 * r), ((c.segs o).filter (fun tx => !back (r * 64 + tx))).length)))
    (twoBefore e.vTotal 0, 73 * (c.segs o).length)

/-- The demura rows from the one in use on (R259): of the first that is not over, `rowRead` granules have been read. -/
def Chip.demuraTol (c : Chip) (o d rowRead : Nat) : Nat :=
  let e := c.entry o
  let y := c.die d
  let line := c.get o TGEN TGEN.POSITION 31 16
  let first := if line < e.vActive then (mapRowsOf (c.mapRows o) line).1 else 0
  let g := recordGranules (c.mapCols o)
  let use := fun n => if n ≤ 1 then 0 else 8 * n - 4
  let left := ((List.range (c.mapRows o)).drop first).filter (fun n => !((KMap.get? y.dmRows n).isSome || y.dmFailed.contains n))
  c.streamTol o (left.map fun n => (twoBefore (c.out o).lines (use n), g - rowRead)) (twoBefore e.vTotal 0, g - rowRead)

/-- The compositor's lines from the next one on; it starts line n at the start of line n - 1 (R48, R237). -/
def Chip.composeTol (c : Chip) (o d : Nat) : Nat :=
  let e := c.entry o
  let before := fun (lines n : Nat) => if n = 0 then lines - 1 else n - 1
  let y := c.die d
  let all := fun n => 73 * ((c.lineTiles o d n).filter (fun t => !t.2.2.2)).length
  let left := fun n => ((c.lineTiles o d n).filter (fun t =>
    !t.2.2.2 && !y.isOff t.1 n && (KMap.get? y.fetched (tileKey t.1 t.2.1 t.2.2.1)).isNone)).length
  c.streamTol o (tileUnits (((List.range e.vActive).drop (c.nextCompose o)).map fun n => (before (c.out o).lines n, left n)))
    (before e.vTotal 0, all 0)

/-- The tolerance of each stream that runs on a die in the present mode (R293). -/
def Chip.tolerances (c : Chip) (d rowRead : Nat) : List Nat :=
  let o := c.leadOf d
  let y := c.die d
  if !c.hasEntry o then []
  else
    (if !c.odOff d then [c.rowsTol o fun k => (KMap.get? y.prev k).isSome] else []) ++
    (if heldMode (c.mode o) ∧ (c.out o).held.isSome then [c.rowsTol o fun k => (KMap.get? y.heldTiles k).isSome] else []) ++
    (if c.demuraOn d then [c.demuraTol o d rowRead] else []) ++
    (if c.mode o = COMPOSE ∧ !(c.out o).black then [c.composeTol o d] else [])

/-- The engine states its tolerance; with no stream running it is 0xFF_FFFF (R293, R294). -/
def Chip.tolUpdate (c : Chip) (d rowRead : Nat) : Chip :=
  if !c.dieRuns d then c
  else
    let t := (c.tolerances d rowRead).foldl min 0xFFFFFF
    let was := c.get d SCAN SCAN.LAT_TOL 23 0
    let c := c.put d SCAN SCAN.LAT_TOL 23 0 t
    (c.put d SCAN SCAN.TOL_MIN 23 0 (min t (c.get d SCAN SCAN.TOL_MIN 23 0))).eventIf (decide (t = 0 ∧ was ≠ 0)) d SCAN 3

/-! ### The signature (R297) -/

/-- The signature of the frame that has just ended. -/
def Chip.frameSig (c : Chip) (o : Nat) : Word :=
  if (c.out o).black then 0#32
  else crc32c ((c.gang o).flatMap fun d => leBytes 4 (crc32c ((c.die d).sigCrcs.flatMap fun w => leBytes 4 w.toNat)).toNat)

def Chip.signatureReady (c : Chip) (o : Nat) : Chip :=
  let x := c.out o
  match x.sigReady with
  | some (sig, frame) => ((c.setReg o SCAN SCAN.SIGNATURE sig).setReg o SCAN SCAN.SIG_FRAME frame).setOut o { x with sigReady := none }
  | none => c

/-! ### The splash (R295) -/

/-- Status of a write of SPLASH_CTRL.LOAD = 1 on a die. -/
def Chip.splashStatus (c : Chip) (d : Nat) : Nat :=
  if c.leadOf d ≠ d then ARG
  else if c.mode d = BRINGUP ∧ (c.gang d).all (fun e => c.serving e 0 && c.serving e 1) then OK else STATE

/-- The load starts. -/
def Chip.splashStart (c : Chip) (d : Nat) : Chip := c.put d SCAN SCAN.SPLASH_CTRL 9 8 1

/-- Parse `n` hampers of a block from an offset on: their bytes, or the cause of the first that fails, and where the block
ends. -/
def splashBlock (byte : Nat → Byte) : Nat → Nat → Except Nat (List (List Byte) × Nat)
  | 0, at_ => .ok ([], at_)
  | n + 1, at_ =>
    let head := (List.range 16).map (fun i => byte (at_ + i))
    let len := 16 + fieldAt head 2 2
    let bs := (List.range (min len 4624)).map (fun i => byte (at_ + i))
    match readHamper bs (fieldAt head 4 2) none with
    | .error cause => .error cause
    | .ok _ =>
      match splashBlock byte n (at_ + (len + 3) / 4 * 4) with
      | .error cause => .error cause
      | .ok (l, e) => .ok (bs :: l, e)

/-- Where a block must end: at the next block, if there is one. -/
def blockEnd (offsets : List Nat) (at_ : Nat) : Option Nat :=
  (offsets.filter (fun x => decide (at_ < x))).foldl (fun b x => match b with | none => some x | some y => some (min x y)) none

/-- The splash region as the dies of an output take it: for each die its hampers; otherwise the die and the cause of a failed tile,
if a tile failed. -/
def State.readSplash (s : State) (o : Nat) : Except (Option (Nat × Nat)) (List (List (List Byte))) :=
  let c := s.chip
  let a := c.num o SCAN SCAN.SPLASH_ADDR
  let byte := fun i => s.mem.flashByte c.fresh ((a + i) % 2 ^ 32)
  let head := (List.range 64).map byte
  let e := c.entry o
  let n := (c.gang o).length
  let offsets := (List.range n).map (fun k => fieldAt head (8 + 4 * k) 4)
  if fieldAt head 0 4 ≠ 0x50534C48 ∨ fieldAt head 6 2 ≠ 1 ∨ fieldAt head 60 4 ≠ (crc32c (head.take 60)).toNat ∨ !c.hasEntry o ∨
      fieldAt head 4 1 ≠ c.get o TGEN TGEN.ENTRY 29 24 ∨ fieldAt head 5 1 ≠ n then .error none
  else
    offsets.zipIdx.foldr (fun x (r : Except (Option (Nat × Nat)) (List (List (List Byte)))) =>
      match splashBlock byte (e.w / 64 * (e.vActive / 16)) x.1 with
      | .error cause => .error (some (o + x.2, cause))
      | .ok (l, stop) => if (blockEnd offsets x.1).any (fun y => y ≠ stop) then .error none else r.map (fun ls => l :: ls)) (.ok [])

/-- The load ends. What a load that fails has left in the planes is not stated: they hold no frame afterwards. -/
def State.splashDone (s : State) (o : Nat) : State :=
  if s.chip.get o SCAN SCAN.SPLASH_CTRL 9 8 ≠ 1 then s
  else
    let tiles := (s.chip.entry o).w / 64
    match s.readSplash o with
    | .error failed => s.up fun c =>
      let x := c.out o
      let c := (c.setOut o { x with planes := #v[{}, {}], splash := false }).put o SCAN SCAN.SPLASH_CTRL 9 8 3
      let c := match failed with
        | some (d, cause) => c.countFail d 0 4 cause
        | none => c
      (c.put 0 SYS SYS.BOOT_STATUS 26 26 0).event o SCAN 5
    | .ok blocks =>
      let s := s.each ((s.chip.gang o).zip blocks) fun s b =>
        s.each b.2.zipIdx fun s h =>
          s.each [0, 1] fun s p =>
            s.putHamper b.1 (s.chip.planeSlot b.1 p (s.chip.entry o).w (h.2 % tiles) (h.2 / tiles)) (toGranules h.1)
      s.up fun c =>
        let x := c.out o
        let c := (c.setOut o { x with planes := #v[{}, {}], splash := decide (c.mode o = BRINGUP) }).put o SCAN SCAN.SPLASH_CTRL 9 8 2
        (c.put 0 SYS SYS.BOOT_STATUS 26 26 1).event o SCAN 4

/-! ### The rows -/

def execLineStart (o : Nat) (s : State) : Host.Outcome State Fault Refusal := onOutput s o fun s => s.lineStart o

def execLiveSegmentDeadline (d line seg : Nat) (s : State) : Host.Outcome State Fault Refusal :=
  onDie s d fun s => s.up fun c =>
    if c.openLine (c.leadOf d) = some line then c.deadline (c.leadOf d) d line seg else c

def execHeldTileDone (d tx ty : Nat) (s : State) : Host.Outcome State Fault Refusal := onDie s d fun s => s.heldTile d tx ty

def execHamperEncodeDone (d tx ty : Nat) (checkFails : Bool) (s : State) : Host.Outcome State Fault Refusal :=
  onDie s d fun s => s.encoded d tx ty checkFails

def execPairMismatch (d stage : Nat) (s : State) : Host.Outcome State Fault Refusal := onDie s d fun s => s.pairEvent d stage

def execTolUpdate (d rowRead : Nat) (s : State) : Host.Outcome State Fault Refusal := onDie s d fun s => s.up fun c => c.tolUpdate d rowRead

def execSignatureReady (o : Nat) (s : State) : Host.Outcome State Fault Refusal := onOutput s o fun s => s.up fun c => c.signatureReady o

def execSplashLoadDone (o : Nat) (s : State) : Host.Outcome State Fault Refusal := onOutput s o fun s => s.splashDone o

/-- 64 line times have passed without a valid packet of the live stream (R68); HOLD follows at the next boundary. -/
def execLiveStreamLoss (o : Nat) (s : State) : Host.Outcome State Fault Refusal :=
  onOutput s o fun s => s.up fun c =>
    let x := c.out o
    if c.mode o = LIVE ∧ x.heardAt + 65 ≤ x.lineNo then c.setOut o { x with liveLost := true } else c

end Sys2Proof.Machine
end

