-- ==== Sys2Proof/Machine/Timing.lean ====
section
/-! DEFINITION. The timing generator (R12, R62, R97, R279 to R289, R299, R460): frame boundaries, the start, changes of entry, the TE
input, and the classification of frames. -/

namespace Sys2Proof.Machine

/-! ### Commits of the TGEN page (R281, R299) -/

/-- Lowest rate code among the READY driver lanes of an output; 0 when none is READY. -/
def Chip.driverRate (c : Chip) (o : Nat) : Nat :=
  ((c.gang o).flatMap fun d => ((List.range 16).filter (fun k => c.isReady d (8 + k))).map (fun k => c.lrate d (8 + k))).foldl
    (fun m r => match m with | none => some r | some a => some (min a r)) none |>.getD 0

/-- Mode number staged on a die. -/
def Chip.stagedEntry (c : Chip) (o : Nat) : Nat := bits (c.stagedReg o TGEN TGEN.ENTRY) 5 0

/-- The staged mode number is the one in effect. -/
def Chip.sameEntry (c : Chip) (o : Nat) : Bool := c.hasEntry o && decide (c.get o TGEN TGEN.ENTRY 29 24 = c.stagedEntry o)

/-- The checks of R281 on a staged entry. -/
def Chip.entryStatus (c : Chip) (o : Nat) : Nat :=
  let e := modeEntry (c.stagedEntry o)
  let m := c.mode o
  if c.leadOf o ≠ o then ARG
  else if c.sameEntry o then OK
  else lowest [if e.gang = c.gangCode o then OK else ARG, if m = MEASURE ∨ m = SAFE then STATE else OK,
    if (m = LIVE ∨ m = COMPOSE) ∧ c.driverRate o < e.minRate then STATE else OK, if c.committing o TGEN then BUSY else OK]

/-- A staged TE_CTRL holds a reserved encoding (R19, R288). -/
def Chip.teBad (c : Chip) (o : Nat) : Bool :=
  let w := c.stagedReg o TGEN TGEN.TE_CTRL
  c.isStaged o TGEN TGEN.TE_CTRL && (decide (bits w 11 8 = 0) || decide (bits w 1 0 = 3))

/-- Status of a commit of the page. -/
def Chip.tgenStatus (c : Chip) (o : Nat) : Nat :=
  lowest [if c.leadOf o = o then OK else ARG, if c.isStaged o TGEN TGEN.ENTRY then c.entryStatus o else OK,
    if c.teBad o then ARG else OK]

/-- The commit: a number that is in effect already is no change. -/
def Chip.tgenCommit (c : Chip) (o : Nat) : Chip :=
  let c : Chip := if c.isStaged o TGEN TGEN.ENTRY ∧ c.sameEntry o then { c with staged := KMap.erase c.staged (ra o TGEN TGEN.ENTRY) } else c
  if c.isStaged o TGEN TGEN.ENTRY ∨ c.stagedChange o TGEN then c.setCommit o TGEN else c.unstage o TGEN

/-- TIMING_SET: write NUMBER, commit the page, and wait for the entry to take effect. -/
def Chip.timingSet (c : Chip) (r : Req) (o n : Nat) : Chip :=
  if c.committing o TGEN then (c.done r (lowest [BUSY, (c.stage o TGEN TGEN.ENTRY (BitVec.ofNat 32 n)).entryStatus o])).event o TGEN 6
  else
    let c := c.stage o TGEN TGEN.ENTRY (BitVec.ofNat 32 n)
    let st := c.tgenStatus o
    if st ≠ OK then (c.done r st).eventIf (decide (c.entryStatus o ≠ OK)) o TGEN 6
    else if c.sameEntry o then (c.tgenCommit o).finish r OK 0 (leBytes 4 (c.num o TGEN TGEN.CHANGEOVER_FRAME))
    else c.tgenCommit o

/-- What else a commit carries takes effect at once while no entry is in effect (R299). -/
def Chip.tgenStepPoint (c : Chip) (o : Nat) : Chip :=
  if !c.hasEntry o ∧ !c.isStaged o TGEN TGEN.ENTRY ∧ c.commitTime o TGEN + 1000 ≤ c.now then (c.applyStaged o TGEN).clearCommit o TGEN
  else c

/-- A commit of a page is pending and at least 2 µs old. -/
def Chip.commitDue (c : Chip) (d p : Nat) : Bool := c.committing d p && decide (c.commitTime d p + 2000 ≤ c.now)

/-! ### The TE input (R288, R289) -/

/-- Signed distance of a line from the expected edge line, the short way round a frame of `t` lines. -/
def teDistance (t line offset : Nat) : Int :=
  let m := ((line : Int) - (offset : Int)) % (t : Int)
  if 2 * m ≤ (t : Int) then m else m - (t : Int)

def Chip.teMode (c : Chip) (o : Nat) : Nat := c.get o TGEN TGEN.TE_CTRL 1 0
def Chip.teFrom (c : Chip) (o line : Nat) : Int := teDistance (c.out o).lines line (c.get o TGEN TGEN.TE_CTRL 30 16)

/-- An edge arrives. -/
def Chip.teEdge (c : Chip) (o : Nat) : Chip :=
  if c.power ≠ .running ∨ !c.hasEntry o ∨ c.teMode o = 0 then c
  else
    let x := c.out o
    let line := c.get o TGEN TGEN.POSITION 31 16
    let e := c.teFrom o line
    let w : Int := c.get o TGEN TGEN.TE_CTRL 11 8
    let inside := decide (e.natAbs ≤ w.toNat)
    let hit := inside && !x.teInside
    let early := x.teFirst.isNone && decide (e < -w)
    let c := c.setOut o { x with teFirst := if x.teFirst.isNone then some line else x.teFirst, teInside := x.teInside || inside }
    let c := if hit || early then c.put o TGEN TGEN.TE_STATUS 30 16 line else c
    let c := c.eventIf hit o TGEN 2
    if early then (c.count o TGEN TGEN.TE_EARLY_COUNT).event o TGEN 4 else c

/-- The frame ends with no edge inside the window. -/
def Chip.teMissing (c : Chip) (o : Nat) : Chip :=
  if c.teMode o ≠ 0 ∧ !(c.out o).teInside then (c.count o TGEN TGEN.TE_MISSING_COUNT).event o TGEN 3 else c

/-- Porch trim and front porch of the next frame. -/
def Chip.nextPorch (c : Chip) (o : Nat) : Nat × Nat :=
  let trim := c.get o TGEN TGEN.TE_STATUS 15 8
  if c.teMode o ≠ 1 then (26, 26)
  else match (c.out o).teFirst with
    | none => (trim, trim)
    | some line =>
      let e := c.teFrom o line
      let t := if 0 < e then min 34 (trim + 1) else if e < 0 then max 18 (trim - 1) else trim
      (t, ((t : Int) + max (-8) (min 8 e)).toNat)

/-! ### Picture time (R460) -/

/-- Counter of the frame that has just ended: 0 none, 1 LOST_NS, 2 LINK_NS, 3 HELD_NS. -/
def Chip.frameClass (c : Chip) (o : Nat) : Nat :=
  let x := c.out o
  let e := c.entry o
  let limit := (e.hActive * e.vActive + 1023) / 1024
  let m := c.mode o
  if x.black then 0
  else if m = BRINGUP then (if x.exitHold then 1 else 0)
  else if limit ≤ x.dark then 1
  else if limit ≤ x.linkDark then 2
  else if m = SAFE ∨ (x.lossHold ∧ (m = HOLD ∨ m = MEASURE)) then 3
  else 0

/-- The frame that has just ended is classified and counted. -/
def State.classify (s : State) (o : Nat) : State :=
  let x := s.chip.out o
  let k := s.chip.frameClass o
  let s := s.up fun c =>
    let c := (c.setNum o FAULT FAULT.DARK_PX x.dark).setNum o FAULT FAULT.LINK_PX x.linkDark
    let c := c.setOut o { x with counted := if k = 3 then 0 else k, lastCount := (k, c.now - x.frameAt) }
    (c.addFrame o k (c.now - x.frameAt)).eventIf (decide (k = 1)) o FAULT 1
  if (k = 1 ∨ k = 2) ∧ x.counted ≠ k then s.log o 0x06 FAULT k 0 else s

/-! ### A change of entry (R282 to R284) -/

/-- An entry takes effect with frame `f`, and the TIMING_SET that asked for it completes. -/
def Chip.putEntry (c : Chip) (o n f : Nat) : Chip :=
  let c := (c.put o TGEN TGEN.ENTRY 29 24 n).put o TGEN TGEN.ENTRY 31 31 1
  ((c.setNum o TGEN TGEN.CHANGEOVER_FRAME f).event o TGEN 1).finishAllWith (isTimingSet o) (leBytes 4 (f % 2 ^ 32))

/-- Both planes lose their frames, and every slot of the tiles of the old entry gets an EMPTY header (R284, R342). -/
def State.losePlanes (s : State) (o : Nat) (old : ModeEntry) : State :=
  let takes := fun d => [0, 1].filter (s.chip.reads d)
  let s' := s.each (s.chip.gang o) fun s d => s.mapMem fun m => m.dropSlots d (fun slot => (takes d).any fun p => s.chip.inPlane d p slot)
  s'.up fun c =>
    let x := c.out o
    let c := c.setOut o { x with planes := #v[{}, {}], held := none, splash := false, splashShown := false }
    c.each (c.gang o) fun c d =>
      let y := c.die d
      let kept := y.emptied.filter fun p => !(takes d).contains p
      (c.setDie d { y with emptied := kept ++ takes d, encQ := y.encQ.filter (fun j => j.layer.isSome) }).countBy d CODEC
        CODEC.GRANULE_COUNT ((takes d).length * (old.w / 64 * (old.vActive / 16)))

/-- In HOLD, driver lanes that are slower than the new entry needs retrain (R283). -/
def Chip.rateShort (c : Chip) (o : Nat) : Chip :=
  let slow := (c.gang o).flatMap fun d => ((List.range 16).filter (fun k => c.isReady d (8 + k) && decide (c.lrate d (8 + k) < (c.entry o).minRate))).map
    (fun k => (d, 8 + k))
  if c.mode o ≠ HOLD ∨ slow = [] then c
  else
    let x := c.out o
    let c := (c.setOut o { x with rateShort := true }).event o TGEN 5
    c.each slow fun c l => c.depart l.1 l.2 false

/-- The changeover boundary that ends frame `f`. -/
def State.changeover (s : State) (o f : Nat) : State :=
  let c := s.chip
  if !c.isStaged o TGEN TGEN.ENTRY then s
  else
    let old := c.entry o
    let s := s.up fun c => c.putEntry o (c.stagedEntry o) ((f + 1) % 2 ^ 32)
    let new := s.chip.entry o
    let s := s.when (decide (old.hActive ≠ new.hActive ∨ old.vActive ≠ new.vActive)) fun s => (s.losePlanes o old).up fun c => c.panelGeometry o
    s.up fun c =>
      let x := c.out o
      ((((c.setOut o { x with black := true, rateShort := false }).dlinkGeometry o).rateShort o).noteLineMax o)

/-! ### First light (R97, R283) -/

/-- Every driver lane that the entry uses is READY at its minimum rate or above, or DOWN. -/
def Chip.lanesSettled (c : Chip) (o : Nat) : Bool :=
  (c.gang o).all fun d => (c.entryLanes d).all fun l =>
    (c.isReady d l && decide ((c.entry o).minRate ≤ c.lrate d l)) || decide (c.lstate d l = laneDOWN)

def Chip.anyLit (c : Chip) (o : Nat) : Bool := (c.gang o).any fun d => (c.entryLanes d).any fun l => c.isReady d l

/-- DRV_HOLD ends: with first light, or with the retraining of R283. -/
def Chip.light (c : Chip) (o : Nat) : Chip :=
  let c := if (c.out o).lit ∨ !c.lanesSettled o ∨ !c.anyLit o then c
    else
      let x := c.out o
      ((c.setOut o { x with lit := true }).setNum o SYS SYS.FIRST_LIGHT_US ((c.now - c.startAt) / 1000)).event o SYS 11
  let x := c.out o
  let splash := x.splash && decide (c.mode o = BRINGUP)
  let up := (c.gang o).all (fun d => c.serving d 0 && c.serving d 1)
  c.setOut o { x with splash := splash, splashShown := splash && x.lit && up }

/-! ### The boundary -/

/-- What a die keeps of one frame only. `f`: the frame that has ended. -/
def Chip.clearFrame (c : Chip) (d f : Nat) : Chip :=
  let y := c.die d
  let soon := fun k => decide (k = (f + 1) % 2 ^ 32) || decide (k = (f + 2) % 2 ^ 32)
  c.setDie d { y with livePx := y.livePx.filter (fun kv => soon (kv.1 / 134217728)), substs := [], failed := [], composed := [],
                      picture := [], line := {}, prev := [], heldTiles := [], heldLate := [], fetched := [], offLayers := [],
                      dmRows := [], dmFailed := [], halo := [], sigCrcs := [], pairs := [] }

/-- Panel pages that were committed at least 2 µs ago take effect (R267), before a change of entry judges the demura maps (R272). -/
def State.panelDue (s : State) (o : Nat) : State :=
  s.each [PANEL_OD, PANEL_DM, PANEL_DT] fun s p => if s.chip.commitDue o p then s.panelStep o p else s

/-- Fields and tables that were committed at least 2 µs ago take effect (R230, R299, R328). -/
def Chip.commitsDue (c : Chip) (o f : Nat) : Chip :=
  let c := if c.commitDue o TGEN then (c.applyStaged o TGEN).clearCommit o TGEN else c
  let c := c.each (c.gang o) fun c d => if c.commitDue d DLINK then (c.chainsStep d).gateStep d else c
  (c.commitEffect o ((f + if (c.out o).black then 2 else 1) % 2 ^ 32)).bankSelect o

/-- A frame begins: its porch, its first line, its identity overdrive, and the pages of the gang. -/
def Chip.beginFrame (c : Chip) (o : Nat) (porch : Nat × Nat) : Chip :=
  let porch := if c.teMode o ≠ 1 then (26, 26) else porch
  let e := c.entry o
  let c := (c.put o TGEN TGEN.TE_STATUS 15 8 porch.1).put o TGEN TGEN.TE_STATUS 7 0 porch.2
  let x := c.out o
  let c := c.setOut o { x with lines := e.vActive + porch.2 + 14, bound := true, closed := true, frameAt := c.now, lineAt := c.now,
                               dark := 0, linkDark := 0, spoiled := false, teFirst := none, teInside := false,
                               odNext := x.odNext || x.black,
                               held := if heldMode (c.mode o) ∧ x.held.isNone then c.selectHeld o else x.held,
                               pwmAt := if c.flag o TGEN TGEN.BL_PWM 31 then c.now else x.pwmAt }
  c.each (c.gang o) fun c d =>
    let c := c.put d TGEN TGEN.POSITION 31 16 e.vActive
    (c.setState d TGEN (if x.black then 4 else if d = o then 2 else 3)).notePanel d

/-- The picture of frame `f` is over: its signature, its layers, its count, and the record of a whole live frame. -/
def State.endFrame (s : State) (o f : Nat) : State :=
  let s := (s.closeLine o).up fun c => c.teMissing o
  let s := s.classify o
  s.up fun c =>
    let x := c.out o
    let m := c.mode o
    let whole := x.live.isSome && (decide (m = LIVE) || decide (m = HOLD) || decide (m = MEASURE)) && !x.spoiled && !x.black
    let c := c.setOut o { x with sigReady := some (c.frameSig o, BitVec.ofNat 32 f),
                                 whole := if whole then some (BitVec.ofNat 32 f) else x.whole,
                                 resumable := x.resumable || (decide (m = HOLD) && whole && decide (x.held ≠ some (f % 2))),
                                 odIdentity := x.odNext, odNext := false,
                                 black := x.rateShort && !c.lanesSettled o,
                                 rateShort := x.rateShort && !c.lanesSettled o }
    let c := c.each (c.layers.filter (fun kv => decide (kv.2.words.output = o))) fun c kv =>
      -- in SAFE no layer is watched (R242)
      let c := c.layerFrameEnd kv.1 f
      if m = SAFE then c else c.layerQuiet kv.1 f
    let c := c.each (c.gang o) fun c d => c.setNum d TGEN TGEN.FRAME_SEQ ((f + 1) % 2 ^ 32)
    if (c.out o).starting then
      let x := c.out o
      (c.setOut o { x with starting := false }).each (c.gang o) fun c d => c.setReady d TGEN true
    else c

/-- The DRV_HOLD frame before STANDBY begins, or has been sent (R75). -/
def Chip.goodbyeStep (c : Chip) (o : Nat) : Chip :=
  let x := c.out o
  if x.goodbye = 1 then c.setOut o { x with goodbye := 2 }
  else if x.goodbye = 2 then (c.pinsOff o).standbyNote else c

/-- The markers of a frame boundary: FRM with the number of the frame that starts, on the driver lanes and on the stream lane groups
(R181, R305). -/
def Chip.frameMarks (c : Chip) (o : Nat) : Chip :=
  (c.each (c.gang o) fun c d => c.sendDrv d (frmSyms (c.seq o) (decide (c.holdFor o d ≠ 0)))).markGroups o (c.frmReverse o)

/-- A frame boundary of an output: the last active line ends, and the next frame begins (R12, R280, R298). A changeover returns the
porch to its nominal lines (R288). -/
def State.frameBoundary (s : State) (o : Nat) : State :=
  let c := s.chip
  if c.power ≠ .running ∨ !c.hasEntry o ∨ (c.out o).bound ∨ c.get o TGEN TGEN.POSITION 31 16 + 1 ≠ (c.entry o).vActive then s
  else
    let f := c.seq o
    let s := (s.up fun c => c.hush o).endFrame o f
    let porch := s.chip.nextPorch o
    let s := s.up fun c => c.each (c.gang o) fun c d => c.clearFrame d f
    let s := ((s.boundaryModes o f).safeExitBoundary o f).panelDue o
    let changes := s.chip.commitDue o TGEN && s.chip.isStaged o TGEN TGEN.ENTRY
    let s := s.when changes fun s => s.changeover o f
    let porch := if changes then (26, 26) else porch
    s.up fun c => (((((c.commitsDue o f).light o).beginFrame o porch).goodbyeStep o).frameMarks o)

/-- The start of the timing of an output (R279). -/
def State.timingStart (s : State) (o : Nat) : State :=
  let c := s.chip
  if c.power ≠ .running ∨ c.hasEntry o ∨ !c.commitDue o TGEN ∨ !c.isStaged o TGEN TGEN.ENTRY then s
  else (s.panelDue o).up fun c =>
    let c := (c.hush o).putEntry o (c.stagedEntry o) 0
    let c := c.each (c.gang o) fun c d => (c.setNum d TGEN TGEN.FRAME_SEQ 0).clearFrame d (2 ^ 32 - 1)
    let x := c.out o
    let c := c.setOut o { x with starting := true, black := false, lineNo := 0, heardAt := 0, odIdentity := true, odNext := true }
    let c := ((c.panelGeometry o).dlinkGeometry o).noteLineMax o
    (((c.commitsDue o (2 ^ 32 - 1)).light o).beginFrame o (26, 26)).frameMarks o

/-! ### The output pins (R22, R280, R287, R323 to R326): a die that is not a gang lead holds them inactive -/

/-- Level of VSYNCn_OUT: active in the 8 sync lines, on the lead. -/
def Chip.vsyncOut (c : Chip) (o : Nat) : Bool :=
  let line := c.get o TGEN TGEN.POSITION 31 16
  let t := (c.out o).lines
  let sync := c.formed o && c.hasEntry o && decide (t ≤ line + 14) && decide (line + 6 < t)
  if c.flag o TGEN TGEN.PINS 2 then !sync else sync

/-- Levels of PANEL_PWR_ENn and BL_ENn. -/
def Chip.panelPwrEn (c : Chip) (o : Nat) : Bool := c.formed o && c.flag o TGEN TGEN.PINS 0
def Chip.blEn (c : Chip) (o : Nat) : Bool := c.formed o && c.flag o TGEN TGEN.PINS 1

/-- Level of BL_PWMn. -/
def Chip.blPwm (c : Chip) (o : Nat) : Bool :=
  let period := 100 * c.get o TGEN TGEN.BL_PWM 30 16
  c.formed o && decide (period ≠ 0) && decide ((c.now - (c.out o).pwmAt) % period * 65536 < period * c.get o TGEN TGEN.BL_PWM 15 0)

/-- Fields of GATE_CTRL: P, H and the lines of the start pulse. -/
def Chip.gatePhases (c : Chip) (d : Nat) : Nat := c.get d DLINK DLINK.GATE_CTRL 3 0 + 1
def Chip.gateHigh (c : Chip) (d : Nat) : Nat := c.get d DLINK DLINK.GATE_CTRL 6 4 + 1
def Chip.stvLines (c : Chip) (d : Nat) : Nat := c.get d DLINK DLINK.GATE_CTRL 10 8

/-- The gate pins of a die run (R326). -/
def Chip.gatesRun (c : Chip) (d : Nat) : Bool := c.formed d && c.hasEntry d && c.flag d DLINK DLINK.GATE_CTRL 7

/-- Gate clock `k` is active during a timing line: the line lies in the window of a gate row of its phase (R324). -/
def Chip.clockLine (c : Chip) (d k line : Nat) : Bool :=
  let t := (c.out d).lines
  (List.range (c.gateHigh d)).any fun j =>
    let q := (line + t + c.gateHigh d - 2 - j) % t
    decide (q < (c.entry d).vActive) && decide (q % c.gatePhases d = k)

/-- STVd_A is active during a timing line (R325). -/
def Chip.startLine (c : Chip) (d line : Nat) : Bool :=
  let t := (c.out d).lines
  decide ((line + t + c.gateHigh d + c.stvLines d - 2) % t < c.stvLines d)

/-- A gate pin whose lines are `on` is active now: from RISE after the start of the first line of a stretch to FALL before the end of its
last line (R324). -/
def Chip.pulse (c : Chip) (d : Nat) (on : Nat → Bool) : Bool :=
  let e := c.entry d
  let x := c.out d
  let t := x.lines
  let line := c.get d TGEN TGEN.POSITION 31 16
  let length := e.leftFrom t line - (if line + 1 = e.vActive then 0 else e.leftFrom t ((line + 1) % t))
  let rise := c.get d DLINK DLINK.GATE_CTRL 23 16
  let fall := c.get d DLINK DLINK.GATE_CTRL 31 24
  c.gatesRun d && on line && (on ((line + t - 1) % t) || decide (x.lineAt + rise ≤ c.now)) &&
    (on ((line + 1) % t) || decide (c.now + fall < x.lineAt + length))

/-- Levels of GCKd_k, STVd_A and STVd_B (R323 to R326); with POL = 1 every gate pin is active low. -/
def Chip.gateLevel (c : Chip) (d : Nat) (active : Bool) : Bool := active != c.flag d DLINK DLINK.GATE_CTRL 15
def Chip.gck (c : Chip) (d k : Nat) : Bool := c.gateLevel d (c.pulse d (c.clockLine d k))
def Chip.stvA (c : Chip) (d : Nat) : Bool := c.gateLevel d (c.pulse d (c.startLine d))
def Chip.stvB (c : Chip) (d : Nat) : Bool :=
  c.gateLevel d (decide (c.get d DLINK DLINK.GATE_CTRL 13 12 = 0) && c.pulse d (c.startLine d))

/-! ### The rows -/

def execFrameBoundary (o : Nat) (s : State) : Host.Outcome State Fault Refusal := onOutput s o fun s => s.frameBoundary o

def execTimingStart (o : Nat) (s : State) : Host.Outcome State Fault Refusal := onOutput s o fun s => s.timingStart o

def execTeEdge (o : Nat) (s : State) : Host.Outcome State Fault Refusal := onOutput s o fun s => s.up fun c => c.teEdge o

end Sys2Proof.Machine
end

