-- ==== Sys2Proof/Machine/Regs.lean ====
section
/-! DEFINITION. Register pages (R13 to R22, R132 to R156): what a read returns and clears, what a write is judged by and does,
committing and aborting a page, and the same for the baskets. -/

namespace Sys2Proof.Machine

/-! ### Computed registers -/

/-- Every PLL in use of a die is locked. -/
def Chip.pllsLocked (c : Chip) (d : Nat) : Bool :=
  decide (c.get d CLK CLK.PLL_STATUS 2 0 = 7) &&
    (List.range 6).all fun k => c.flag d CLK CLK.PLL_STATUS (8 + k) || (pllLanes k).all (fun l => decide (c.lstate d l = laneOFF))

/-- PAGE_STATUS (R147): FAULT and the BUSY of a pending commit are computed, and so is STATE of the CLK page. -/
def Chip.pageStatusWord (c : Chip) (d p : Nat) : Word :=
  let w := setBits (c.reg d p PAGE_STATUS) 2 2 (decide (c.faultCode d p ≠ 0)).toNat
  let w := if c.committing d p then setBits w 1 1 1 else w
  let w := if (p = memphyPage 0 ∧ c.relocking d 0) ∨ (p = memphyPage 1 ∧ c.relocking d 1) then setBits w 0 0 0 else w
  if p = CLK ∧ bit w 0 then setBits w 15 8 (if c.pllsLocked d then 1 else 2) else w

/-- The output is in HOLD and no packet of its live stream comes in: what R53 calls static content. -/
def Chip.staticHold (c : Chip) (o : Nat) : Bool :=
  decide (c.mode o = HOLD) && ((c.out o).live.isNone || decide ((c.out o).heardAt + 65 ≤ c.lineNow o))

/-- CLK_RUN (R51 to R53). DEDUCED (assumption log 51), from what the chapters say uses a block: the compositor, COMPOSE or a layout
that waits for its step point; the codec, a picture, a held plane, open tiles or tiles to encode; the parser, a READY group, but not
in HOLD with static content; and the blocks from overdrive to the packetiser, an output with an entry. -/
def Chip.clkRun (c : Chip) (d : Nat) : Nat :=
  let o := c.leadOf d
  let m := c.mode o
  let y := c.die d
  let timing := c.hasEntry o
  let comp := decide (m = COMPOSE) || c.commitPending o
  let codec := decide (m = LIVE ∨ m = COMPOSE) || (timing && (c.out o).held.isSome) || !y.asm.isEmpty || !y.encQ.isEmpty
  let slink := (c.groups d).any (c.firstReady d) && !c.staticHold o
  if !c.dieRuns d then 0
  else 1024 + (c.chanRuns d 1).toNat * 512 + (c.chanRuns d 0).toNat * 256 + timing.toNat * 248 + comp.toNat * 4 + codec.toNat * 2 +
    slink.toNat

/-- SVC_STATUS. -/
def Chip.svcStatus (c : Chip) : Nat :=
  let x := c.port .service
  (c.ready 0 PORT_SVC).toNat * 262144 + c.faultN.toNat * 131072 + c.eventN.toNat * 65536 + min 255 x.out.length * 256 + (64 - x.tags.length)

/-- PEEK_STATE of the COMP page. -/
def Chip.peekState (c : Chip) (d : Nat) : Nat :=
  let n := c.get d COMP COMP.PEEK_ID 11 0
  let y := c.layer n
  if n / 512 ≠ d then 0
  else y.words.enable.toNat * 2 ^ 31 + y.off.toNat * 2 ^ 30 + y.frozen.toNat * 2 ^ 29 + y.lost.toNat * 2 ^ 28 +
    (decide (c.stagedDesc n ≠ y.words)).toNat * 2 ^ 27 + y.words.output * 2 ^ 24 + y.words.show_

/-- TEMP_k of the DLINK page: highest and lowest report of a chain within 1 s. -/
def Chip.tempWord (c : Chip) (d k : Nat) : Nat :=
  let l := (c.positions d).flatMap fun p => ((c.driver d k p).temps.filter (fun t => decide (c.now ≤ t.2 + 1000000000))).map (fun t => t.1)
  match l with
  | [] => 0
  | t :: rest => unsigned 16 (rest.foldl max t) * 65536 + unsigned 16 (rest.foldl min t)

/-- OTP_STATE of the SEC page. -/
def Chip.otpState (c : Chip) (d : Nat) : Nat :=
  let x := c.otpOf d
  x.counter * 65536 + x.cert.toNat * 16 + x.require.toNat * 8 + (!x.enrolled && decide (x.owner ≠ 0)).toNat * 4 + x.enrolled.toNat * 2 +
    c.get d SEC SEC.OTP_STATE 0 0

/-- Four bytes as a register word. -/
def wordAt (byte : Nat → Byte) (o : Nat) : Nat := leNat ((List.range 4).map (fun i => byte (o + i)))

/-- Registers of a page whose value is computed from the state; none: the word in effect, and the staged word of RWS bits. -/
def Chip.computed (c : Chip) (d p : Nat) (k : PageKind) (o : Nat) : Option Nat :=
  if k ≠ .layer ∧ o = PAGE_STATUS then some (c.pageStatusWord d p).toNat
  else if k ≠ .layer ∧ (o = PAGE_EVENT_FORCE ∨ o = PAGE_COMMIT) then some 0
  else match k with
    | .sys =>
      if o = SYS.READY_MAP then some (c.readyMap d)
      else if o = SYS.BOOT_STATUS then some (setBits (c.reg d p o) 25 25 ((c.readyMap d).testBit 5).toNat).toNat else none
    | .aon =>
      let t := if c.power = .off then 0 else (c.now - c.porAt) / 1000
      if o = AON.UPTIME_LO then some (t % 2 ^ 32) else if o = AON.UPTIME_HI then some (t / 2 ^ 32 % 2 ^ 32) else none
    | .clk =>
      let t := if c.dieRuns d then c.now - c.cycleAt else 0
      if o = CLK.CYCLE_LO then some (t % 2 ^ 32) else if o = CLK.CYCLE_HI then some (t / 2 ^ 32 % 2 ^ 32)
      else if o = CLK.CLK_RUN then some (c.clkRun d)
      else if o = CLK.PLL_STATUS then
        some ([0, 1].foldl (fun w ch => if c.relocking d ch then setBits w (1 + ch) (1 + ch) 0 else w) (c.reg d p o)).toNat
      else none
    | .fault => if c.leadOf d ≠ d ∧ FAULT.LOST_NS ≤ o ∧ o ≤ FAULT.AVAIL_CLR then some 0 else none
    | .sec =>
      if o = SEC.OTP_STATE then some (c.otpState d)
      else if SEC.ROOT_DIGEST ≤ o ∧ o < SEC.ROOT_DIGEST + 32 then some (wordAt Config.rootDigestByte (o - SEC.ROOT_DIGEST))
      else if SEC.OWNER_DIGEST ≤ o ∧ o < SEC.OWNER_DIGEST + 32 then
        some ((if (c.otpOf d).enrolled then (c.otpOf d).owner else 0) >>> (8 * (o - SEC.OWNER_DIGEST)) % 2 ^ 32)
      else if SEC.BLOB ≤ o then some (if d = 0 then wordAt c.blobByte (2048 * c.get d SEC SEC.BLOB_SEL 1 0 + (o - SEC.BLOB)) else 0)
      else none
    | .steward =>
      if o = STEWARD.WDOG_STATUS then some (setBits (c.reg d p o) 31 24 (min 255 (c.expiries d).length)).toNat else none
    | .portSvc => if d = 0 ∧ o = PORT_SVC.SVC_STATUS then some c.svcStatus else if d ≠ 0 then some 0 else none
    | .portInb =>
      if PORT_INB.CREDITS ≤ o ∧ o < PORT_INB.CREDITS + 32 then
        some (match (c.groups d)[(o - PORT_INB.CREDITS) / 4]? with | some f => 32 - (c.port (.inband d f)).tags.length | none => 32)
      else none
    | .bridge => if o = BRIDGE.GANG_MAP ∧ d ≠ 0 then some (c.num 0 BRIDGE BRIDGE.GANG_MAP) else none
    | .dlink => if DLINK.TEMP ≤ o ∧ o < DLINK.TEMP + 64 then some (c.tempWord d ((o - DLINK.TEMP) / 4)) else none
    | .tgen =>
      let l := c.leadOf d
      if o = TGEN.POSITION then some (setBits (c.reg d p o) 15 0 (if c.hasEntry l then c.now - (c.out l).lineAt else 0)).toNat
      else if l ≠ d ∧ TGEN.ENTRY ≤ o ∧ o ≠ TGEN.OUT_STATE ∧ o ≠ TGEN.FRAME_SEQ ∧ o ≤ TGEN.CHANGEOVER_FRAME then
        some (mergeBits (rwsMask p o) (c.reg l p o) (c.stagedReg l p o)).toNat
      else none
    | .comp => if o = COMP.PEEK_STATE then some (c.peekState d) else none
    | .codec =>
      let l := (c.die d).asm
      if o = CODEC.POOL then some (min 16 (c.die d).encQ.length * 65536 + Config.freeNat c.fresh % 25)
      else if o = CODEC.ASM then some (l.length * 65536 + (l.filter (fun t => t.spill.isNone)).length) else none
    | .memc =>
      let n := fun r => min 255 (c.rankErrors d (p - 0x050) r)
      if o = MEMC.ERR_RANK then some (n 0 + 256 * n 1 + 65536 * n 2) else none
    | .memphy =>
      let ch := p - memphyPage 0
      if o = MEMPHY.PHY_STATUS then
        some (setBits (setBits (c.reg d p o) 0 0 (c.phySet d ch)) 1 1 (if c.relocking d ch then 0 else c.get d p o 1 1)).toNat
      else none
    | .basket => if o = BASKET.IN_USE then some (c.inUse d) else none
    | _ => none

/-- What a read of a register returns (R15, R18). -/
def Chip.view (c : Chip) (d p o : Nat) : Word :=
  match pageKind p with
  | none => 0#32
  | some k =>
    match c.computed d p k o with
    | some v => BitVec.ofNat 32 v
    | none => mergeBits (rwsMask p o) (c.reg d p o) (c.stagedReg d p o)

/-- Registers whose value is partly free: each read takes its own. -/
def freeReg (p o : Nat) : Bool := decide (p = CODEC ∧ o = CODEC.POOL)

/-- RC bits of a register, as a mask. -/
def rcMask (p o : Nat) : Nat := match pageKind p with | some k => (regAt k o).rc | none => 0

/-- A read clears RC fields to their reset value (R15, R17). A follower's view of its lead's TGEN page clears nothing. -/
def Chip.clearRead (c : Chip) (d p o : Nat) : Chip :=
  let c := if rcMask p o = 0 then c else c.setReg d p o (mergeBits (rcMask p o) (c.reg d p o) (resetAt c.member (ra d p o)))
  if freeReg p o then c.tick else c

/-- Place of a port in the order in which the writes of one cycle to one register are applied (R115): in-band ports by the lowest
global lane of their groups, the steward port, the service port, the test port. -/
def portRank : Port → Nat
  | .inband d f => 24 * d + f
  | .steward _ => 1000
  | .service => 2000
  | .test => 3000

/-- The writes of the present cycle to a register, latest first (R115). -/
def Chip.cycleWrites (c : Chip) (d p o : Nat) : List CycleWrite :=
  if c.wroteAt = c.now then c.wrote.filter (fun w => decide (w.addr = ra d p o)) else []

/-- A port writes a register in this cycle. -/
def Chip.noteWrite (c : Chip) (port : Port) (d p o : Nat) : Chip :=
  { c with wroteAt := c.now, wrote := { port := port, addr := ra d p o, before := c.view d p o } :: (if c.wroteAt = c.now then c.wrote else []) }

/-- What a port reads: the value from before the writes that other ports make in the same cycle (R115). A port that has itself
written the register in this cycle reads what stands there (R114). -/
def Chip.readsAs (c : Chip) (port : Port) (d p o : Nat) : Word :=
  let l := c.cycleWrites d p o
  if l.any (fun w => decide (w.port = port)) then c.view d p o else (l.getLast?.map (fun w => w.before)).getD (c.view d p o)

/-- A port reads one word at an offset of a die's window; none: the basket word is uncorrectable (R381). -/
def State.readWord (s : State) (port : Port) (d x : Nat) : State × Option Word :=
  match place d x with
  | .reg p o => (s.up fun c => c.clearRead d p o, some (s.chip.readsAs port d p o))
  | .word a | .setAlias a | .clearAlias a =>
    let r := (s.chip.wantBasket 5 d (basketOf a)).checkWord d a .none
    (s.up fun _ => r.1, if r.2 then some (s.mem.word a) else none)
  | .unmapped => (s, none)

/-- Read words in ascending order. -/
def State.readWords (s : State) (port : Port) (d : Nat) : List Nat → State × Option (List Word)
  | [] => (s, some [])
  | x :: rest =>
    let r := s.readWord port d x
    let q := State.readWords r.1 port d rest
    (q.1, match r.2, q.2 with | some w, some l => some (w :: l) | _, _ => none)

/-! ### Commits and aborts of a page (R16, R149 to R151) -/

/-- Local lane of a lane page. -/
def laneOf (p : Nat) : Nat := if p < 0x020 then p - 0x010 else p - 0x020 + 8

/-- A page whose commit or abort acts only on a gang lead (R156, R267, R299). -/
def leadPage (k : PageKind) : Bool := k = .tgen || k = .od || k = .dm || k = .dt

/-- Something is staged on the page, on the gang of the die for the panel pages. -/
def Chip.hasStaged (c : Chip) (d p : Nat) (k : PageKind) : Bool :=
  match k with
  | .od | .dm | .dt => (c.gang d).any (fun e => c.panelStaged e p)
  | .tgen => c.isStaged d TGEN TGEN.ENTRY || c.stagedChange d TGEN
  | .dlink => c.isStaged d DLINK DLINK.CHAINS || c.stagedChange d DLINK
  | _ => c.stagedChange d p

/-- The checks of the block on what a commit would put into effect. -/
def Chip.blockStatus (c : Chip) (d p : Nat) (k : PageKind) : Nat :=
  match k with
  | .bridge => c.bridgeStatus d
  | .laneS | .laneD => c.laneCommitStatus d (laneOf p)
  | .slink => c.slinkStatus d
  | .dlink => c.dlinkStatus d
  | .tgen => c.tgenStatus d
  | .od | .dm | .dt => c.panelStatus d p
  | .memphy => c.memphyStatus d (p - 0x052)
  | .cal => c.calCommitStatus d
  | .pwr => c.pwrCommitStatus d
  | _ => OK

/-- Status of a write of PAGE_COMMIT. -/
def Chip.commitWriteStatus (c : Chip) (d p : Nat) (k : PageKind) (w : Word) : Nat :=
  if bits w 1 0 = 3 then ARG
  else if bits w 1 0 = 0 then OK
  else if leadPage k ∧ c.leadOf d ≠ d then ARG
  else if bit w 1 then OK
  else lowest [if c.hasStaged d p k then c.blockStatus d p k else OK, if c.committing d p then BUSY else OK]

/-- COMMIT = 1. -/
def Chip.commitPage (c : Chip) (d p : Nat) (k : PageKind) : Chip :=
  if k = .tgen then c.tgenCommit d
  -- a panel page may be committed with nothing staged (R269)
  else if c.hasStaged d p k ∨ k = .od ∨ k = .dm ∨ k = .dt then c.setCommit d p else c.unstage d p

/-- The pending change of entry of an output is discarded; what else the commit carries stays pending. -/
def Chip.dropEntry (c : Chip) (o : Nat) : Chip :=
  let c : Chip := { c with staged := KMap.erase c.staged (ra o TGEN TGEN.ENTRY) }
  if c.stagedOf o TGEN = [] then c.clearCommit o TGEN else c

/-- The step point of the page's pending commit is a frame boundary less than 2 µs away (R150). -/
def Chip.stepNear (c : Chip) (d p : Nat) : Bool :=
  let o := c.leadOf d
  c.committing d p &&
    match c.timeToBoundary o with
    | some t => decide (t < 2000) && decide (c.commitTime d p + 2000 ≤ c.now + t)
    | none => false

/-- ABORT = 1. -/
def Chip.abortCommit (c : Chip) (d p : Nat) (k : PageKind) : Chip :=
  match k with
  | .comp => c.each c.layerIds fun c n => if n / 512 = d then c.setStagedDesc n (c.layer n).words else c
  | .od | .dm | .dt => if c.stepNear d p then c else c.panelAbort d p
  | .tgen =>
    if c.stepNear d p then c
    else (c.abortPage d p).finishAll (isTimingSet d) ABORTED 0
  | .dlink => if c.stepNear d p then c else c.abortPage d p
  | .memphy =>
    let x := c.chan d (p - 0x052)
    (c.abortPage d p).setChan d (p - 0x052) { x with delays := [] }
  | _ => c.abortPage d p

/-- The step point of a page (R149): the values of its pending commit take effect. -/
def State.stepPoint (s : State) (d p : Nat) : State :=
  let c := s.chip
  if !c.committing d p then s
  else match pageKind p with
    | none => s
    | some k =>
      match k with
      | .bridge => s.gangApply
      | .pwr => s.pwrStepPoint d
      | .laneS | .laneD => s.up fun c => (c.laneStepPoint d (laneOf p)).clearCommit d p
      | .slink => s.up fun c => c.slinkStepPoint d
      | .dlink => s.up fun c => c.dlinkStepPoint d
      | .tgen => s.up fun c => c.tgenStepPoint d
      | .od | .dm | .dt => if !s.chip.hasEntry d ∧ s.chip.commitTime d p + 1000 ≤ s.chip.now then s.panelStep d p else s
      | .codec => s.up fun c => (c.codecStepPoint d).clearCommit d p
      | .memc => s.up fun c => c.memcStepPoint d (p - 0x050)
      | .memphy => s.up fun c => c.memphyStepPoint d (p - 0x052)
      | _ => s.up fun c => (c.applyStaged d p).clearCommit d p

/-! ### Judging a register write (R19, R20, R73, R107, R124, R149) -/

/-- Pages that nothing may write on a die in SAFE (R73). -/
def safePage (k : PageKind) : Bool :=
  k = .comp || k = .od || k = .dm || k = .dt || k = .tgen || k = .scan || k = .codec || k = .layer

/-- Events that a page has; forced bits outside have no meaning (R18). -/
def eventMask : PageKind → Nat
  | .sys => 0x1F03 | .aon | .clk | .dt => 1 | .pwr => 0x1FF | .fault | .cal | .age => 7 | .sec | .steward | .portSvc | .basket => 0xF
  | .portInb => 0xFFFFFFFF | .bridge | .scan | .od => 0x3F | .laneS => 0x1FFF | .laneD => 0x1EFF | .slink => 0x7FF | .dlink => 0xFF
  | .tgen | .comp | .codec => 0x7F | .dm | .rambler => 0x1F | .memc => 0x7FFF | .memphy | .layer | .modes => 0

/-- The port may clear FAULT.LATCHED (R447). -/
def Chip.mayClear (c : Chip) (p : Port) : Bool := decide (p = .service) || (decide (p = .test) && c.fuseOpen)

/-- The writer is a steward, whose writes stop at the OTP fields (R107). -/
def isSteward : Port → Bool
  | .steward _ => true
  | _ => false

/-- Class that a write of a register needs (R20, R148). -/
def needClass (k : PageKind) (o : Nat) : Nat := if k ≠ .layer ∧ o = PAGE_EVENT_FORCE then max SERVICE (pageAuth k) else pageAuth k

/-- What a block says of a value written to one of its registers: reserved encodings and conditions of its chapter. `direct`: a
store of the die's own steward. -/
def Chip.valueStatus (c : Chip) (p : Port) (direct : Bool) (d pg : Nat) (k : PageKind) (o : Nat) (w : Word) : Nat :=
  match k with
  | .fault =>
    if o = FAULT.LATCHED then (if c.mayClear p && !direct then OK else AUTH)
    else if o = FAULT.CODE_CLEAR ∧ bit w 31 then c.codeClearStatus d (bits w 10 0) else OK
  | .cal =>
    if (o = CAL.TS_TRIM ∨ o = CAL.TS_TRIM + 4) ∧ (List.range 4).any (fun i => decide (tapAt w i < -32) || decide (31 < tapAt w i)) then ARG
    else OK
  | .pwr =>
    if (o = PWR.AVS_OFFSET ∧ 60 < bits w 5 0) ∨ (o = PWR.THERM ∧ bits w 27 24 = 0) then ARG else OK
  | .sec =>
    if SEC.OWNER_STAGE ≤ o ∧ o < SEC.OWNER_STAGE + 32 then (if isSteward p then AUTH else OK)
    else if o = SEC.OTP_CTRL then lowest [if isSteward p then AUTH else OK, if bits w 1 0 = 0 then OK else c.otpCtrlStatus d w]
    else if o = SEC.ROLLBACK then c.rollbackStatus d w
    else if o = SEC.EXT_CTRL then c.extCtrlStatus d w
    else if o = SEC.BLOB_SEL ∧ bits w 1 0 = 3 then ARG else OK
  | .steward =>
    if o = STEWARD.WDOG_CTRL ∧ bits w 15 0 < 10 then ARG
    else if o = STEWARD.WDOG_KICK ∧ !direct then ARG else OK
  | .bridge =>
    if o = BRIDGE.GANG_MAP ∧ d = 0 then
      let n := dieCount c.member
      let top := match c.member with | .pn9808 => 3 | .pn9804 => 2 | .pn9802 => 1
      if (List.range n).any (fun e => decide (top < widthCode w e)) then ARG else OK
    else OK
  | .laneS | .laneD =>
    if o = LANE.CEILING ∧ (4 < bits w 2 0 ∨ 4 < bits w 10 8) then ARG
    else if o = LANE.TX_PRESET ∧ 7 < (if k = .laneS then bits w 7 4 else bits w 3 0) then ARG
    else if o = LANE.RETRY ∧ 1 ≤ bits w 15 0 ∧ bits w 15 0 ≤ 9 then ARG
    else if o = LANE.LOOP ∧ (4 < bits w 18 16 ∨ 3 < bits w 11 8) then ARG else OK
  | .dlink =>
    if o = DLINK.CHAINS ∧ (bits w 13 12 = 3 ∨ bits w 4 0 = 0 ∨ 16 < bits w 4 0) then ARG
    else if o = DLINK.GATE_CTRL ∧ (c.leadOf d ≠ d ∨ bits w 3 0 = 0 ∨ bits w 10 8 = 0 ∨ bits w 10 8 = 7 ∨ 2 ≤ bits w 13 12) then ARG
    else if o = DLINK.DRV_CMD then
      lowest [if bit w 29 && bit w 30 then ARG else OK, if bit w 31 && (c.die d).drv.isSome then BUSY else OK]
    else OK
  | .tgen =>
    if c.leadOf d ≠ d ∧ TGEN.ENTRY ≤ o ∧ o ≤ TGEN.CHANGEOVER_FRAME ∧ o ≠ TGEN.OUT_STATE ∧ o ≠ TGEN.FRAME_SEQ ∧ o ≠ TGEN.POSITION then ARG
    else if o = TGEN.TE_CTRL ∧ bits w 1 0 = 3 then ARG else OK
  | .scan => if o = SCAN.SPLASH_CTRL ∧ bit w 0 then c.splashStatus d else OK
  | .comp => if o = COMP.PEEK_ID ∧ bits w 11 0 / 512 ≠ d then ARG else OK
  | .dt => if o = DT.CTRL ∧ bits w 5 4 = 3 then ARG else OK
  | .memc =>
    let ch := pg - 0x050
    let set := fun (base : Nat) => decide (base ≤ o) && decide (o < base + 12)
    if o = MEMC.POLICY ∧ bits w 5 4 = 3 then ARG
    else if o = MEMC.REFRESH ∧ bits w 9 8 = 3 then ARG
    else if set MEMC.TSET_A || set MEMC.TSET_B then
      lowest [if c.chanRuns d ch ∧ (if set MEMC.TSET_A then 0 else 1) = c.mget d ch MEMC.CFG 0 0 then STATE else OK,
        if (o = MEMC.TSET_A ∨ o = MEMC.TSET_B) ∧ 3 < bits w 26 24 then ARG else OK]
    else OK
  | .basket => if BASKET.OWNER ≤ o ∧ o < BASKET.OWNER + 16 then c.ownerStatus d ((o - BASKET.OWNER) / 4) w else OK
  | .layer => if o % 64 = 0 ∧ !bit w 1 ∧ (bits w 31 24 = 0 ∨ 3 < bits w 31 24) then ARG else OK
  | _ => OK

/-- The status of a write of one register. -/
def Chip.regStatus (c : Chip) (p : Port) (direct : Bool) (d pg o : Nat) (w : Word) : Nat :=
  match pageKind pg with
  | none => ARG
  | some k =>
    let dead := decide (k = .portSvc) && decide (d ≠ 0)
    lowest [if safePage k ∧ c.dieMode d = SAFE then STATE else OK, if c.portClass p < needClass k o then AUTH else OK,
      if dead then OK else if k ≠ .layer ∧ o = PAGE_COMMIT then c.commitWriteStatus d pg k w else c.valueStatus p direct d pg k o w,
      if k ≠ .layer ∧ rwsMask pg o ≠ 0 ∧ c.committing (if leadPage k then c.leadOf d else d) pg then BUSY else OK]

/-- The owner by which a port's access is judged: in the cycle of a hand-over, the old one (R384, R395). -/
def Chip.ownerFor (c : Chip) (p : Port) (d b : Nat) : Nat :=
  bits (c.readsAs p d BASKET (BASKET.OWNER + 4 * (b / 8))) (4 * (b % 8) + 3) (4 * (b % 8))

/-- The status of a write of one word of a die's window (R124, R134, R136, R383). -/
def Chip.writeStatus (c : Chip) (p : Port) (direct : Bool) (d x : Nat) (w : Word) : Nat :=
  match place d x with
  | .reg pg o => c.regStatus p direct d pg o w
  | .word a | .setAlias a | .clearAlias a =>
    lowest [if c.portClass p < SERVICE then AUTH else OK, c.basketStatus d (basketOf a) (c.ownerFor p d (basketOf a)) direct]
  | .unmapped => ARG

/-- A write that would commit or abort a page and stage one of its RWS fields (R151). -/
def commitsAndStages (x : Nat) (ws : List Word) : Bool :=
  let l := (wordAddrs x ws.length).zip ws
  let p := x / 0x1000
  decide (x < 0x111000) && decide (pageKind p ≠ some .layer) &&
    l.any (fun a => decide (a.1 % 0x1000 = PAGE_COMMIT) && decide (bits a.2 1 0 ≠ 0)) &&
    l.any (fun a => decide (rwsMask p (a.1 % 0x1000) ≠ 0))

/-- A REG_WRITE is judged whole. -/
def Chip.writesStatus (c : Chip) (p : Port) (d x : Nat) (ws : List Word) : Nat :=
  lowest ((if commitsAndStages x ws then ARG else OK) :: ((wordAddrs x ws.length).zip ws).map (fun a => c.writeStatus p false d a.1 a.2))

/-! ### What a register write does -/

/-- Store the writable bits of a word: RW bits take effect at once, RWS bits are staged (R15). -/
def Chip.storeWord (c : Chip) (d pg : Nat) (k : PageKind) (o : Nat) (w : Word) : Chip :=
  let r := regAt k o
  let c := if r.rw = 0 then c else c.setReg d pg o (mergeBits r.rw (c.reg d pg o) w)
  if r.rws = 0 then c
  else if k = .layer then c.setReg d pg o (mergeBits r.rws (c.reg d pg o) w)
  else c.stage d pg o (mergeBits r.rws (c.reg d pg o) w)

/-- Clear PAGE_EVENT bits (R152). -/
def Chip.clearEvents (c : Chip) (d p : Nat) (w : Word) : Chip := c.setReg d p PAGE_EVENT (c.reg d p PAGE_EVENT &&& ~~~w)

/-- Sets of PAGE_EVENT bits that meet a clear in the same cycle; `old`: PAGE_EVENT before the clear. A bit that was 1 and is
set as well stays 1, and the first of its sets counts as neither lost nor new (R152, R128). -/
def Chip.setsMeetClear (c : Chip) (d p : Nat) (old : Word) (sets : List Nat) : Chip :=
  let now := c.reg d p PAGE_EVENT
  let kept := (List.range 32).filter (fun b => bit old b && !bit now b && sets.contains b)
  (c.setReg d p PAGE_EVENT (now ||| BitVec.ofNat 32 (kept.foldl (fun n b => n + 2 ^ b) 0))).events d p (kept.foldl (fun l b => l.erase b) sets)

/-- A near-end loop runs at the rate in LOOP.LOOP_RATE (R213). -/
def Chip.loopRate (c : Chip) (d l : Nat) : Chip :=
  let near := decide (c.lstate d l = laneLOOP) && decide (c.lget d l LANE.LOOP 1 0 = 1 ∨ c.lget d l LANE.LOOP 1 0 = 2)
  c.when (near && decide (c.lrate d l ≠ c.lget d l LANE.LOOP 18 16)) fun c => c.setRate d l (c.lget d l LANE.LOOP 18 16)

/-- Registers whose write does more than store bits, or other than that. -/
def State.actWrite (s : State) (d pg : Nat) (k : PageKind) (o : Nat) (w : Word) : State :=
  let store := s.up fun c => c.storeWord d pg k o w
  match k with
  | .fault =>
    if o = FAULT.LATCHED then s.latchedClear d w
    else if o = FAULT.CODE_CLEAR ∧ bit w 31 then store.codeClear d (bits w 10 0)
    else if o = FAULT.AVAIL_CLR ∧ bit w 0 ∧ s.chip.leadOf d = d then s.up fun c => c.availClear d else store
  | .sec =>
    if o = SEC.OTP_CTRL then s.up fun c => c.otpCtrlWrite d w
    else if o = SEC.ROLLBACK then s.up fun c => c.rollbackWrite d w
    else if o = SEC.EXT_CTRL then s.up fun c => c.extCtrlWrite d w else store
  | .steward =>
    if o = STEWARD.WDOG_KICK then s.up fun c => c.wdogKick d w
    else if o = STEWARD.WDOG_CTRL then store.up fun c => c.eventIf (decide (1000 < bits w 15 0)) d STEWARD 3 else store
  | .pwr => if o = PWR.RAIL then store.up fun c => c.noteRail d else store
  | .bridge =>
    if o ≠ BRIDGE.GANG_MAP then store
    else if d ≠ 0 then s
    else s.up fun c => c.storeWord d pg k o (w &&& BitVec.ofNat 32 (2 ^ (2 * dieCount c.member) - 1))
  | .laneS | .laneD =>
    if o = LANE.CEILING then store.up fun c => c.setWork d (laneOf pg) 4
    else if o = LANE.LOOP then store.up fun c => c.loopRate d (laneOf pg) else store
  | .dlink => if o = DLINK.DRV_CMD ∧ bit w 31 then store.up fun c => c.drvGo d else store
  | .tgen =>
    if o = TGEN.BL_PWM ∧ !bit w 31 then store.up fun c => let x := c.out d; c.setOut d { x with pwmAt := c.now } else store
  | .scan => if o = SCAN.SPLASH_CTRL ∧ bit w 0 then s.up fun c => c.splashStart d else store
  | .basket => if BASKET.OWNER ≤ o ∧ o < BASKET.OWNER + 16 then s.up fun c => c.ownerWrite d ((o - BASKET.OWNER) / 4) w else store
  | .rambler => if o = RAMBLER.CTRL then store.up fun c => c.setState d RAMBLER (if bit w 0 then 1 else 2) else store
  | _ => store

/-- The failed commits that a page reports with an event (R281). -/
def Chip.noteRefused (c : Chip) (d x : Nat) (w : Word) : Chip :=
  match place d x with
  | .reg pg o =>
    c.eventIf (decide (pg = TGEN) && decide (o = PAGE_COMMIT) && bit w 0 && c.isStaged d TGEN TGEN.ENTRY && decide (c.entryStatus d ≠ OK)) d TGEN 6
  | _ => c

/-- Write one register. -/
def State.writeReg (s : State) (d pg o : Nat) (w : Word) : State :=
  match pageKind pg with
  | none => s
  | some k =>
    if k = .portSvc ∧ d ≠ 0 then s
    else if k = .layer then s.actWrite d pg k o w
    else if o = PAGE_EVENT then s.up fun c => c.clearEvents d pg w
    else if o = PAGE_EVENT_FORCE then s.up fun c => c.events d pg (bitList (w.toNat &&& eventMask k))
    else if o = PAGE_COMMIT then
      s.up fun c => if bit w 1 then c.abortCommit d pg k else if bit w 0 then c.commitPage d pg k else c
    else s.actWrite d pg k o w

/-- The fields that a write stores stand as they did in an earlier state. -/
def Chip.keepStored (c old : Chip) (d pg o : Nat) : Chip :=
  match pageKind pg with
  | none => c
  | some k =>
    let c := c.setReg d pg o (mergeBits (regAt k o).rw (c.reg d pg o) (old.reg d pg o))
    if (regAt k o).rws = 0 then c
    else if k = .layer then c.setReg d pg o (mergeBits (regAt k o).rws (c.reg d pg o) (old.reg d pg o))
    else { c with staged := match KMap.get? old.staged (ra d pg o) with
                            | some v => KMap.set c.staged (ra d pg o) v
                            | none => KMap.erase c.staged (ra d pg o) }

/-- A port writes one register. Of the values that several ports write to it in one cycle, the one of the port that comes last in the
order of R115 stays. -/
def State.portWrite (s : State) (port : Port) (d pg o : Nat) (w : Word) : State :=
  let stronger := (s.chip.cycleWrites d pg o).any (fun v => decide (portRank port < portRank v.port))
  ((s.writeReg d pg o w).when stronger fun t => t.up fun c => c.keepStored s.chip d pg o).up fun c =>
    { c with wroteAt := s.chip.now, wrote := (s.chip.noteWrite port d pg o).wrote }

/-- A port writes one word of a die's window; false: an alias write met an uncorrectable word (R135). `master`: who wants the
basket (R382). -/
def State.writeWord (s : State) (port : Port) (master d x : Nat) (w : Word) : State × Bool :=
  let want := fun a => s.up fun c => c.wantBasket master d (basketOf a)
  match place d x with
  | .reg pg o => (s.portWrite port d pg o w, true)
  | .word a => ((want a).setWord a w, true)
  | .setAlias a => (want a).aliasWrite d a true w
  | .clearAlias a => (want a).aliasWrite d a false w
  | .unmapped => (s, true)

/-- Write words, each at its offset, in the order of the list. -/
def State.writeList (s : State) (port : Port) (d : Nat) (l : List (Nat × Word)) : State × Bool :=
  l.foldl (fun (r : State × Bool) a => let q := r.1.writeWord port 5 d a.1 a.2; (q.1, r.2 && q.2)) (s, true)

/-- Write words in ascending order (R124). -/
def State.writeWords (s : State) (port : Port) (d x : Nat) (ws : List Word) : State × Bool :=
  s.writeList port d ((wordAddrs x ws.length).zip ws)

/-- Write words all in one cycle (R142): what PAGE_EVENT_EN held at its start decides which events raise records (R153). -/
def State.writeAtOnce (s : State) (port : Port) (d x : Nat) (ws : List Word) : State × Bool :=
  let enables := fun (a : Nat × Word) => decide (a.1 % 0x1000 = PAGE_EVENT_EN)
  let l := (wordAddrs x ws.length).zip ws
  s.writeList port d (l.filter (fun a => !enables a) ++ l.filter enables)

/-! ### REG_READ and REG_WRITE at their die (R124, R142 to R145) -/

/-- Words as payload bytes. -/
def wordBytes (ws : List Word) : List Byte := ws.flatMap (fun w => leBytes 4 w.toNat)

def State.regRead (s : State) (r : Req) (d x n : Nat) : State :=
  let q := s.readWords r.port d (wordAddrs x n)
  match q.2 with
  | some ws => q.1.finish r OK 0 (wordBytes ws)
  | none => q.1.done r FAIL

def State.regWrite (s : State) (r : Req) (d x : Nat) (ws : List Word) : State :=
  let st := s.chip.writesStatus r.port d x ws
  if st ≠ OK then
    (s.up fun c => ((wordAddrs x ws.length).zip ws).foldl (fun c a => c.noteRefused d a.1 a.2) c).done r st
  else
    let q := s.writeWords r.port d x ws
    q.1.done r (if q.2 then OK else FAIL)

/-- A broadcast read (R144, R145). -/
def State.bcastRead (s : State) (r : Req) (x n : Nat) : State :=
  let as := wordAddrs x n
  let rc := as.any fun a => match place 0 a with | .reg p o => decide (rcMask p o ≠ 0) | _ => false
  if rc then s.done r ARG
  else
    let dies := s.chip.dies'
    let read := dies.foldl (fun (q : State × List (Option (List Word))) d => let y := q.1.readWords r.port d as; (y.1, q.2 ++ [y.2])) (s, [])
    let s := read.1
    if read.2.any (fun y => y.isNone) then s.done r FAIL
    else
      let words := fun d => ((read.2.getD d none).getD [])
      let diff := dies.filter (fun d => decide (words d ≠ words 0))
      let s := if diff = [] then s
        else
          let first := ((List.range n).find? (fun i => diff.any (fun d => decide ((words d)[i]? ≠ (words 0)[i]?)))).getD 0
          s.up fun c =>
            (c.setNum 0 SYS SYS.BCAST_MISMATCH ((diff.foldl (fun m d => m + 2 ^ d) 0) * 2 ^ 24 + (x + 4 * first) % 2 ^ 24)).event 0 SYS 0
      s.finish r OK 0 (wordBytes (words 0))

/-- A broadcast write is checked on every die; die 0 then names the apply cycle (R142). -/
def State.bcastWrite (s : State) (r : Req) (x : Nat) (ws : List Word) : State :=
  let c := s.chip
  let st := lowest (c.dies'.map (fun d => c.writesStatus r.port d x ws))
  if st ≠ OK then
    (s.up fun c => c.each c.dies' fun c d => ((wordAddrs x ws.length).zip ws).foldl (fun c a => c.noteRefused d a.1 a.2) c).done r st
  else s.up fun c => { c with bcast := some { req := r, offset := x, words := ws, checked := c.now } }

/-- Direct accesses of a steward (R140, R141): the refusal is recorded. -/
def Chip.refuseDirect (c : Chip) (d : Nat) (a : Word) (status : Nat) : Chip :=
  let c := c.setReg d STEWARD STEWARD.REFUSED_ADDR a
  let n := c.get d STEWARD STEWARD.REFUSED_STATUS 15 8
  let c := (c.put d STEWARD STEWARD.REFUSED_STATUS 15 8 (min 255 (n + 1))).put d STEWARD STEWARD.REFUSED_STATUS 2 0 status
  c.event d STEWARD 0

/-- A whole aligned word of a die's own window that is mapped (R13, R138, R141). `size`: bytes of the access. -/
def inWindow (d : Nat) (a : Word) (size : Nat) : Bool :=
  decide (size = 4) && decide (a.toNat / 0x1000000 = d) && decide (a.toNat % 4 = 0) && decide (place d (a.toNat % 0x1000000) ≠ .unmapped)

/-- The steward of a die can load and store: its image runs. -/
def Chip.stewardRuns (c : Chip) (d : Nat) : Bool := c.dieRuns d && decide ((c.die d).steward = .running)

/-- A reader latches DATA_LOST for an uncorrectable word (R381). -/
def State.dataLost (s : State) (d : Nat) : State := s.latch d BASKET 2

/-- A direct load. A load that the check finds uncorrectable raises a load access fault, which is the steward's to see. -/
def State.directLoad (s : State) (d : Nat) (a : Word) (x : DirectLoad) : State :=
  if !s.chip.stewardRuns d then s
  else if !inWindow d a x.size then s.up fun c => c.refuseDirect d a ARG
  else
    match place d (a.toNat % 0x1000000) with
    | .reg p o => s.up fun c => c.clearRead d p o
    | .word b | .setAlias b | .clearAlias b =>
      let r := (s.chip.wantBasket 0 d (basketOf b)).checkWord d b x.upset
      let s := s.up fun _ => r.1
      if r.2 then s else s.dataLost d
    | .unmapped => s

/-- A direct store. -/
def State.directStore (s : State) (d : Nat) (a : Word) (store : DirectStore) : State :=
  let w := store.value
  let x := a.toNat % 0x1000000
  if !s.chip.stewardRuns d then s
  else if !inWindow d a store.size then s.up fun c => c.refuseDirect d a ARG
  else
    let st := s.chip.writeStatus (.steward d) true d x w
    if st ≠ OK then s.up fun c => (c.noteRefused d x w).refuseDirect d a st
    else
      let q := s.writeWord (.steward d) 0 d x w
      if q.2 then q.1 else (q.1.dataLost d).up fun c => c.refuseDirect d a FAIL

/-! ### The rows that no port carries -/

def execStewardDirectLoad (d : Nat) (a : Word) (x : DirectLoad) (s : State) : Host.Outcome State Fault Refusal :=
  onDie s d fun s => s.directLoad d a x

def execStewardDirectStore (d : Nat) (a : Word) (x : DirectStore) (s : State) : Host.Outcome State Fault Refusal :=
  onDie s d fun s => s.directStore d a x

def execCommitStepPoint (d p : Nat) (s : State) : Host.Outcome State Fault Refusal := onDie s d fun s => s.stepPoint d p

end Sys2Proof.Machine
end

