-- ==== Sys2Proof/Machine/Ports.lean ====
section
/-! DEFINITION. The control ports (R105 to R131): commands arriving, judged, started, aborted and timed out, and the transports of
the test, service, in-band and steward ports. -/

namespace Sys2Proof.Machine

/-! ### What a port hears -/

/-- Time limit of a command in ms, when AUX carries none (R123); 0: the end of the MEASURE window. -/
def Chip.defaultLimit (c : Chip) (die : Nat) : Cmd → Nat
  | .regRead _ _ | .regWrite _ _ | .abort _ _ | .signatureRead _ _ | .logRead _ _ => 1
  | .wake | .liveSource _ _ | .lanePower _ _ | .laneLoop _ _ | .dramFreq _ _ | .flashRead _ _ => 10
  | .pkgStandby | .outputMode _ _ _ _ | .safeExit _ _ | .timingSet _ _ | .layerCommit _ _ | .laneTrain _ _ => 100
  | .tableLoad _ _ _ _ _ => 4000
  | .dramConfig _ | .fwActivate _ _ _ => 200
  | .rankSpare _ _ => 5000
  | .calRun _ | .ageScan _ | .marginScan _ => if c.mode die = BRINGUP then 1000 else 0
  | .flashWrite _ _ => 400
  | .attest _ => 1000

/-- The time limit of a command has passed; an effect in the cycle in which it expires still counts (R116). A command of a MEASURE window whose completion is lost waits for the window's end. -/
def Chip.overdue (c : Chip) (r : Req) : Bool :=
  if r.limit = 0 then decide (r.cmd = .wake) && decide (c.mode r.die ≠ MEASURE) else decide (r.accepted + r.limit * 1000000 < c.now)

/-- A port can take a message. Only AON runs in STANDBY and from step 1 to step 2 of boot (R76, R83); an in-band port needs its
group READY and enabled, and a steward port its steward running. -/
def Chip.hears (c : Chip) (p : Port) : Bool :=
  match p with
  | .test | .service => decide (c.power = .running) || decide (c.power = .standby) || (decide (c.power = .starting) && c.ready 0 AON)
  | .inband d f =>
    c.dieRuns d && (c.groups d).contains f && c.firstReady d f && c.flag d PORT_INB PORT_INB.GROUP_ENABLE (c.groupNumber d f)
  | .steward d => c.stewardRuns d

/-- A register access that lies in the AON page of die 0. -/
def aonPage (a : Word) : Bool := decide (a.toNat / 0x1000 = AON)

/-- While the clocks do not run, the service port accepts WAKE (in STANDBY only), accesses to the AON page of die 0, and ABORT;
every other command is STATE (R76, R80 note a, R83, R99). -/
def Chip.asleepStatus (c : Chip) (a : Arrival) : Nat :=
  if c.power = .running then OK
  else match a.cmd with
    | some .wake => if c.power = .standby then OK else STATE
    | some (.abort _ _) => OK
    | some (.regRead x _) | some (.regWrite x _) => if a.port = .service ∧ aonPage x then OK else STATE
    | some _ => STATE
    | none => if [0x01, 0x02, 0x03, 0x08].contains a.opcode then OK else STATE

/-! ### Judging a command at its target (R79, R80, R93, R112) -/

/-- Modes of a command's target: of every output for a package command, of an output, of the die of a lane, or of the die
(R57, R79). -/
def Chip.modesOf (c : Chip) (die : Nat) (cmd : Cmd) : List Nat :=
  match cmd with
  | .pkgStandby | .fwActivate _ _ _ => c.outputs.map c.mode
  | _ =>
    match cmdOutput cmd, cmdLane cmd with
    | some o, _ => if c.formed o then [c.mode o] else []
    | none, some l => if l / 24 < dieCount c.member then [c.dieMode (l / 24)] else []
    | none, none => [c.dieMode die]

/-- The mode matrix of R80, STANDBY apart. -/
def legalIn (m : Nat) : Cmd → Bool
  | .regRead _ _ | .regWrite _ _ | .abort _ _ | .flashRead _ _ | .signatureRead _ _ | .logRead _ _ | .attest _ => true
  | .wake => false
  | .pkgStandby => decide (m = BRINGUP ∨ m = HOLD ∨ m = SAFE)
  | .outputMode _ _ _ _ | .liveSource _ _ | .layerCommit _ _ | .tableLoad _ _ _ _ _ | .rankSpare _ _ | .flashWrite _ _ => decide (m ≠ SAFE)
  | .safeExit _ _ => decide (m = SAFE)
  | .timingSet _ _ | .fwActivate _ _ _ => decide (m = BRINGUP ∨ m = LIVE ∨ m = COMPOSE ∨ m = HOLD)
  | .laneTrain l _ | .lanePower l _ => if l % 24 < 8 then decide (m ≠ SAFE) else decide (m = BRINGUP)
  | .laneLoop l _ => if l % 24 < 8 then decide (m = BRINGUP ∨ m = HOLD ∨ m = MEASURE) else decide (m = BRINGUP)
  | .dramConfig _ => decide (m = BRINGUP)
  | .dramFreq _ _ => decide (m = BRINGUP ∨ m = HOLD ∨ m = MEASURE)
  | .calRun _ | .marginScan _ => decide (m = BRINGUP ∨ m = MEASURE)
  | .ageScan _ => decide (m = MEASURE)

/-- Commands that the boot ROM of die 0 carries out in place of firmware (R74, R100). -/
def romCarries : Cmd → Bool
  | .flashRead _ _ | .flashWrite _ _ | .fwActivate _ _ _ => true
  | _ => false

/-- A firmware command meets a die whose steward is not READY (R93, R100). -/
def Chip.firmwareAway (c : Chip) (die : Nat) (cmd : Cmd) : Bool :=
  isFirmware cmd && !c.ready die STEWARD && !(c.romServes && romCarries cmd)

/-- Statuses of the words of a REG_WRITE whose address is not allowed: those in the unit of the first word, on the die that the
address names, or on every die for a broadcast (R124). -/
def Chip.strayWords (c : Chip) (p : Port) : Cmd → List Nat
  | .regWrite a ws =>
    let d := a.toNat / 0x1000000
    let x := a.toNat % 0x1000000
    let words := ((wordAddrs x ws.length).zip ws).filter (fun y => decide (y.1 / 0x1000 = x / 0x1000))
    (if d = 8 then c.dies' else c.dies'.filter (fun e => e = d)).flatMap fun e => words.map fun y => c.writeStatus p false e y.1 y.2
  | _ => []

/-- The status with which a command is refused before its own rules are looked at. -/
def Chip.targetStatus (c : Chip) (r : Req) : Nat :=
  let names := namesOk c r.die r.cmd
  lowest ((if (c.modesOf r.die r.cmd).all (fun m => legalIn m r.cmd) then OK else STATE) :: (if names then OK else ARG) ::
    (if c.firmwareAway r.die r.cmd then BUSY else OK) :: if names then [] else c.strayWords r.port r.cmd)

/-- Reasons that a command itself gives to be refused, which may be lower than those of `targetStatus` (R21). -/
def Chip.ownStatus (c : Chip) (r : Req) : Nat :=
  let at_ := fun o (st : Nat) => if c.formed o then st else OK
  match r.cmd with
  | .outputMode o m _ _ => at_ o (c.outputStatus r o m)
  | .safeExit o flags => at_ o (c.safeExitStatus r o flags)
  | .timingSet o n => at_ o ((c.stage o TGEN TGEN.ENTRY (BitVec.ofNat 32 n)).entryStatus o)
  | .dramConfig p => c.dramStatus r.die p
  | .rankSpare ch rank => c.rankStatus r.die ch rank
  | .fwActivate source a n => if c.fwStatus source a n = FAIL then OK else c.fwStatus source a n
  | _ => OK

/-! ### SIGNATURE_READ and LOG_READ (R123, R297, R458) -/

def Chip.signatureRead (c : Chip) (r : Req) (o what : Nat) : Chip :=
  if what = 1 then (if c.ready 0 SEC then c.finish r OK 0 c.idDigest else c.done r BUSY)
  else c.finish r OK 0 (leBytes 4 (c.num o SCAN SCAN.SIG_FRAME) ++ leBytes 4 (c.num o SCAN SCAN.SIGNATURE))

/-- Entries of the log that are held: the latest 12,288. -/
def Chip.logHeld (c : Chip) (d i : Nat) : Bool :=
  let n := c.num d FAULT FAULT.LOG_HEAD
  decide (i < n) && decide (n ≤ i + 12288)

/-- Words that the engine reads from the mailbox baskets of a die. An uncorrectable word latches DATA_LOST (R381); what the engine
then makes of it is not stated, so it is a free value. -/
def State.engineRead (s : State) (d a n : Nat) : State × List Word :=
  (wordAddrs a n).foldl (fun (x : State × List Word) b =>
    let r := x.1.chip.checkWord d b .none
    let s := x.1.up fun _ => r.1
    if r.2 then (s, x.2 ++ [s.mem.word b])
    else ((s.latch d BASKET 2).up Chip.tick, x.2 ++ [Config.freeWord s.chip.fresh])) (s, [])

def State.logRead (s : State) (r : Req) (index n : Nat) : State :=
  if (List.range n).all (fun k => s.chip.logHeld r.die (index + k)) then
    let q := (List.range n).foldl (fun (x : State × List Word) k =>
      let y := x.1.engineRead r.die (basketAddr r.die 1 (0x10000 + 16 * ((index + k) % 12288))) 4
      (y.1, x.2 ++ y.2)) (s, [])
    q.1.finish r OK 0 (wordBytes q.2)
  else s.finish r FAIL 1 []

/-! ### ABORT (R126) -/

/-- A LAYER_COMMIT is due at the next boundary, less than 2 µs away (R230). -/
def Chip.layoutNear (c : Chip) (o : Nat) : Bool :=
  match (c.out o).armedAt, c.timeToBoundary o with
  | some t, some left => decide (left < 2000) && decide (t + 2000 ≤ c.now + left)
  | _, _ => false

/-- The command has not passed its point of no return, and its die can be reached. -/
def Chip.abortable (c : Chip) (r : Req) : Bool :=
  c.answers (portDie r.port) r.die && !r.orphan &&
    match r.cmd with
    | .regRead _ _ | .regWrite _ _ | .signatureRead _ _ | .abort _ _ => false
    | .outputMode o _ _ _ | .safeExit o _ => !r.started || r.aux = 1 || !c.nearBoundary o
    | .timingSet o _ => !r.started || !c.stepNear o TGEN
    | .layerCommit o _ => !r.started || (!r.pnr && !c.layoutNear o)
    | .fwActivate _ _ _ => !r.started || !r.pnr
    | _ => !r.started

/-- What an aborted command leaves behind is taken back. -/
def Chip.withdraw (c : Chip) (r : Req) : Chip :=
  if !r.started then c
  else match r.cmd with
    | .timingSet o _ => c.dropEntry o
    | .layerCommit o _ => if r.pnr then c else c.dropCommit o
    | _ => c

/-- ABORT: DETAIL is the number of commands aborted. -/
def Chip.abort (c : Chip) (r : Req) (scope tag : Nat) : Chip :=
  let hit := fun (q : Req) => decide (q.id ≠ r.id) && decide (q.port = r.port) && (decide (scope = 1) || decide (q.tag.toNat = tag)) && c.abortable q
  let l := (c.inflight ++ c.waiting).filter hit
  (c.each l fun c q => (c.withdraw q).reply q ABORTED 0 []).finish r OK l.length []

/-! ### Starting a command -/

/-- A command that nothing refuses does what its rules say. FLASH_WRITE and AGE_SCAN stay in flight until they are done. -/
def State.run (s : State) (r : Req) : State :=
  match r.cmd with
  | .regRead a n => if a.toNat / 0x1000000 = 8 then s.bcastRead r (a.toNat % 0x1000000) n else s.regRead r r.die (a.toNat % 0x1000000) n
  | .regWrite a ws =>
    if a.toNat / 0x1000000 = 8 then s.bcastWrite r (a.toNat % 0x1000000) ws else s.regWrite r r.die (a.toNat % 0x1000000) ws
  | .abort scope tag => s.up fun c => c.abort r scope tag
  | .wake => s.wake r
  | .pkgStandby => s.up fun c => c.pkgStandby r
  | .outputMode o m flags _ => s.up fun c => c.outputMode r o m flags
  | .safeExit o flags => s.safeExit r o flags
  | .timingSet o n => s.up fun c => c.timingSet r o n
  | .liveSource o st => s.up fun c => c.liveSource r o st
  | .layerCommit o _ => s.layerCommit r o
  | .tableLoad t _ _ _ _ => s.up fun c => c.tableLoad r t
  | .laneTrain l ceiling => s.up fun c => (c.setReq { r with aux := c.lget r.die (l % 24) LANE.CEILING 2 0 }).laneTrain r r.die (l % 24) ceiling
  | .lanePower l on => s.up fun c => c.lanePower r r.die (l % 24) on
  | .laneLoop l loop => s.up fun c => c.laneLoop r r.die (l % 24) loop
  | .dramConfig p => s.dramConfig r r.die p
  | .dramFreq mask t => s.dramFreq r r.die mask t
  | .rankSpare ch rank => s.rankSpare r r.die ch rank
  | .calRun p => s.up fun c => c.calRun r (fieldAt p 0 1) p
  | .ageScan p => s.up fun c => c.ageScan (fieldAt p 0 1)
  | .marginScan p => s.up fun c => c.marginScan r (fieldAt p 0 1) p
  | .flashRead a n => s.flashRead r a.toNat n
  | .flashWrite _ _ => s
  | .fwActivate source a n => s.up fun c =>
    if c.inflight.any (fun q => (isFwOpen q || isActivate q) && decide (q.id ≠ r.id)) then c.done r BUSY else c.fwActivate r source a n
  | .signatureRead o what => s.up fun c => c.signatureRead r o what
  | .logRead i n => s.logRead r i.toNat n
  | .attest _ => s.up fun c => c.attest r

def isBcast : Cmd → Bool
  | .regRead a _ | .regWrite a _ => decide (a.toNat / 0x1000000 = 8)
  | _ => false

def isBcastWrite : Cmd → Bool
  | .regWrite a _ => decide (a.toNat / 0x1000000 = 8)
  | _ => false

/-- A command starts at its die, or is refused with the lowest status that applies (R21). One whose die does not answer waits for
its time limit (R146). DESIGN CHOICE (assumption log 108): a broadcast write that waits so has not begun, and does not hold back what
its port sends after it. -/
def State.launch (s : State) (r : Req) : State :=
  let c := s.chip
  let dies := if isBcast r.cmd then c.dies' else [r.die]
  if dies.any (fun d => !c.answers (portDie r.port) d) then s.up fun c => { c with inflight := c.inflight ++ [r] }
  else
    let r := { r with started := true }
    let s := s.up fun c => { c with inflight := c.inflight ++ [r] }
    let st := s.chip.targetStatus r
    if st = OK then s.run r else s.done r (lowest [st, s.chip.ownStatus r])

/-- A command waits behind a broadcast write of its port (R143), and a broadcast write behind another one. -/
def Chip.mustWait (c : Chip) (r : Req) : Bool :=
  c.waiting.any (fun q => decide (q.port = r.port)) || c.bcast.any (fun b => decide (b.req.port = r.port)) || (isBcastWrite r.cmd && c.bcast.isSome)

/-- A command starts, or waits. -/
def State.offer (s : State) (r : Req) : State :=
  if s.chip.mustWait r then s.up fun c => { c with waiting := c.waiting ++ [r] } else s.launch r

/-- A broadcast write is over: the commands that waited start in the order of their arrival. -/
def State.release (s : State) : State :=
  (s.up fun c => { c with waiting := [] }).each s.chip.waiting State.offer

/-! ### Arrival (R109 to R112, R117, R125) -/

/-- A message is discarded (R111, R117, R119): it counts, but for STANDBY, in which only AON runs (R76). -/
def Chip.discarded (c : Chip) (p : Port) (bit : Nat) : Chip := if c.power = .standby then c else c.discard p bit bit

/-- The command of an accepted message. -/
def Chip.request (c : Chip) (a : Arrival) (cmd : Cmd) : Req :=
  { id := c.nextReq, port := a.port, tag := a.tag, opcode := a.opcode, die := a.die,
    limit := if a.limit = 0 then c.defaultLimit a.die cmd else a.limit, cmd := cmd, accepted := c.now, started := false, pnr := false, aux := 0, orphan := false }

/-- A command message reaches a port. -/
def State.accept (s : State) (a : Arrival) : State :=
  let c := s.chip
  let x := c.port a.port
  if !c.hears a.port then s
  else if portCredits a.port ≤ x.tags.length then s.up fun c => c.discarded a.port 0
  else if x.tags.contains a.tag then s.up fun c => c.discarded a.port 1
  else
    let s := s.up fun c => { (c.setPort a.port { x with tags := x.tags ++ [a.tag] }) with nextReq := c.nextReq + 1 }
    let refuse := fun st => s.up fun c => c.answer a.port a.opcode a.tag a.die st 0 []
    let st := lowest [arrivalStatus c a, c.asleepStatus a]
    match a.cmd with
    | none => refuse st
    | some cmd =>
      if st ≠ OK then refuse st
      else if c.power = .running then s.offer (c.request a cmd)
      else
        let r := { c.request a cmd with started := true }
        let s := s.up fun c => { c with inflight := c.inflight ++ [r] }
        if namesOk c r.die cmd then s.run r else s.done r ARG

/-- A command that a row of the table names with its header. A port of a die that the member does not have cannot be. -/
def State.command (s : State) (h : Hdr) (cmd : Cmd) : Host.Outcome State Fault Refusal :=
  if portDie h.port < dieCount s.chip.member then .next (s.accept (Hdr.message h cmd)) else .fault .noSuchUnit

/-! ### Time limits (R116, R123, R146) -/

/-- The command has taken effect and goes on to its completion, or has no limit of its own. -/
def lasts (r : Req) : Bool :=
  match r.cmd with
  | .layerCommit _ _ | .dramFreq _ _ | .fwActivate _ _ _ => r.started && r.pnr
  | _ => false

/-- The ageing page of the gang is idle again unless another scan of the output runs. -/
def Chip.ageIdle (c : Chip) (r : Req) (o : Nat) : Chip :=
  if c.inflight.any (fun q => (isAgeScan o q || isMargin o q) && decide (q.id ≠ r.id)) then c
  else c.each (c.gang o) fun c d => c.setState d AGE 1

/-- What a command that has timed out leaves: the values in effect before it, or what its own description states. -/
def State.timedOut (s : State) (r : Req) : State :=
  if !r.started then s
  else match r.cmd with
    | .regWrite _ _ => s.up fun c => if c.bcast.any (fun b => decide (b.req.id = r.id)) then { c with bcast := none } else c
    | .pkgStandby => s.up Chip.standbyUndo
    | .timingSet o _ => s.up fun c => c.dropEntry o
    | .layerCommit o _ => s.up fun c => c.dropCommit o
    | .tableLoad t _ _ _ _ => s.up fun c => c.dropPartial r.die t
    | .laneTrain l ceiling => s.up fun c =>
      if c.lget r.die (l % 24) LANE.CEILING 2 0 = ceiling then (c.lput r.die (l % 24) LANE.CEILING 2 0 r.aux).noteCeiling r.die (l % 24) else c
    | .lanePower l _ => s.up fun c => c.laneOff r.die (l % 24)
    | .laneLoop l _ => s.up fun c => let x := c.lane r.die (l % 24); if x.far = 1 then c.setLane r.die (l % 24) { x with far := 0 } else c
    | .dramConfig p => s.up fun c => c.setState r.die (memcPage (fieldAt p 0 1)) mcIDLE
    | .calRun p => s.up fun c => c.dropCal (fieldAt p 0 1)
    | .ageScan p => s.up fun c => c.ageIdle r (fieldAt p 0 1)
    | .marginScan p => s.up fun c => (c.dropScan (fieldAt p 0 1)).ageIdle r (fieldAt p 0 1)
    | .flashWrite _ _ => s.spoilWrite r
    | _ => s

/-- The limit of a command of a port expires. -/
def State.timeLimit (s : State) (p : Port) (tag : Byte) : State :=
  let c := s.chip
  let late := fun (r : Req) => decide (r.port = p) && decide (r.tag = tag) && c.overdue r && !lasts r
  match (c.inflight ++ c.waiting).find? late with
  | none => s
  | some r =>
    let s := (s.up fun c => c.reply r TIMEOUT 0 []).timedOut r
    if c.bcast.any (fun b => decide (b.req.id = r.id)) then s.release else s

/-! ### Broadcast writes (R142) -/

/-- The apply cycle arrives, at least 512 cycles after the last die has answered (R142). DESIGN CHOICE (assumption log 106): a die that has
entered SAFE since it answered writes the words all the same. -/
def State.bcastApply (s : State) (late : List Nat) : State :=
  let c := s.chip
  match c.bcast with
  | none => s
  | some b =>
    if c.dies'.any (fun d => !c.answers 0 d) ∨ c.now < b.checked + 512 then s
    else
      let q := c.dies'.foldl (fun (q : State × Bool) d =>
        let y := q.1.writeAtOnce b.req.port d b.offset b.words
        (y.1.up fun c => c.eventIf (late.contains d) d SYS 1, q.2 && y.2)) (s, true)
      let s := q.1.up fun c => { c with bcast := none }
      let s := match (s.chip.reqs (fun r => decide (r.id = b.req.id))).head? with
        | some r => s.done r (if q.2 then OK else FAIL)
        | none => s
      s.release

/-! ### The service port (R118, R119) -/

def State.msgWrite (s : State) (bs : List Byte) : State :=
  let c := s.chip
  if !c.hears .service then s
  else if 8 ≤ bs.length ∧ bs.length = 8 + fieldAt bs 3 1 then s.accept (readMessage .service bs)
  else s.up fun c => c.discarded .service 2

/-- The device sends the oldest message and 0x00 after its end, `clocked` bytes in all, or 0x00 when none is queued. A message leaves
the queue only when its last byte has been clocked out. -/
def Chip.msgRead (c : Chip) (clocked : Nat) : Chip :=
  if !c.hears .service then c
  else
    let bytes := ((c.port .service).out.head?.map Msg.bytes).getD []
    let c : Chip := { c with svcOut := (List.range clocked).map (fun i => bytes.getD i 0) }
    if bytes.length ≤ clocked then c.delivered .service else c

/-- STATUS_READ: the device sends SVC_STATUS. -/
def Chip.statusRead (c : Chip) : Chip := if c.hears .service then { c with svcOut := leBytes 4 c.svcStatus } else c

/-! ### The test port (R120, R482) -/

/-- The instruction in effect: with the test fuse blown, those that drive pins act as BYPASS unless POR_N is low, and every code that
the table does not list acts as BYPASS. -/
def Chip.jtagActs (c : Chip) : Nat :=
  let drives := [0x00, 0x03, 0x04, 0x05, 0x06]
  if drives.contains c.jtagIr then (if !c.fuseOpen && c.porN then 0xFF else c.jtagIr)
  else if [0x01, 0x02, 0x20].contains c.jtagIr then c.jtagIr else 0xFF

/-- IDCODE of the member. -/
def idcode : Member → Word
  | .pn9808 => 0xB98085D3#32
  | .pn9804 => 0xB98045D3#32
  | .pn9802 => 0xB98025D3#32

/-- Contents of the data register between TDI and TDO, where the manual gives them, low bits first: IDCODE (R482), and the message
register with OUT_VALID and CREDIT (R120). -/
def Chip.tapData (c : Chip) : List Byte :=
  if c.jtagActs = 0x01 then leBytes 4 (idcode c.member).toNat
  else if c.jtagActs = 0x20 then
    (List.range 64).map (fun i => c.jtagDr.1.getD i 0) ++ leBytes 2 (c.jtagDr.2.toNat + 2 * c.jtagCredit.toNat)
  else []

def Chip.setIr (c : Chip) (code : Nat) : Chip := { c with jtagIr := code }

/-- Capture-DR. DESIGN CHOICE (assumption log 107): a message counts as delivered when it is captured, and CREDIT shows what the port held
before that. -/
def Chip.msgIoCapture (c : Chip) : Chip :=
  if c.jtagActs ≠ 0x20 then c
  else
    let x := c.port .test
    let dr := match x.out with | m :: _ => (m.bytes, true) | [] => ([], false)
    let c : Chip := { c with jtagDr := dr, jtagCredit := c.hears .test && decide (x.tags = []) }
    c.delivered .test

/-- Update-DR. -/
def State.msgIoUpdate (s : State) (bs : List Byte) : State :=
  if s.chip.jtagActs = 0x20 ∧ s.chip.jtagCredit ∧ fieldAt bs 2 1 % 4 = 0 then s.accept (readMessage .test bs) else s

/-! ### The steward port (R122, R387, R388) -/

/-- The engine takes a message from B0. -/
def State.mailboxTake (s : State) (d : Nat) : State :=
  if !s.chip.stewardRuns d then s
  else
    let heads := s.engineRead d (basketAddr d 0 0) 2
    let s := heads.1
    let tail := heads.2.getD 1 0#32
    if heads.2.getD 0 0#32 = tail then s
    else
      let slot := s.engineRead d (basketAddr d 0 (0x1000 + 64 * (tail.toNat % 64))) 16
      (slot.1.setWord (basketAddr d 0 4) (tail + 1#32)).accept (readMessage (.steward d) (wordBytes slot.2))

/-- The engine writes a message into B1. -/
def State.mailboxOut (s : State) (d : Nat) : State :=
  if !s.chip.dieRuns d then s
  else
    match (s.chip.port (.steward d)).out with
    | [] => s
    | m :: _ =>
      let heads := s.engineRead d (basketAddr d 1 0) 2
      let s := heads.1
      let head := heads.2.getD 0 0#32
      if (head - heads.2.getD 1 0#32).toNat = 128 then s
      else
        let s := s.setBytes (basketAddr d 1 (0x1000 + 64 * (head.toNat % 128))) m.bytes
        (s.setWord (basketAddr d 1 0) (head + 1#32)).up fun c => c.delivered (.steward d)

/-! ### Deliveries (R111, R117, R184) -/

/-- The last part of the completion of a tag is delivered, when it is the oldest message of its port. -/
def Chip.completionDelivered (c : Chip) (p : Port) (tag : Byte) : Chip :=
  let x := c.port p
  match x.out with
  | m :: _ =>
    if m.event ∨ m.more ∨ m.tag ≠ tag then c
    else
      match p with
      | .inband d f =>
        if c.firstReady d f then
          let c := c.delivered p
          let y := c.port p
          c.setPort p { y with txBase := (y.txBase + 1) % 256 }
        else c
      | _ => if c.power = .off then c else c.delivered p
  | [] => c

/-! ### The rows of the transports -/

def execBcastApply (late : List Nat) (s : State) : Host.Outcome State Fault Refusal := .next (s.bcastApply late)

def execCommandTimeLimit (p : Port) (tag : Byte) (s : State) : Host.Outcome State Fault Refusal :=
  onDie s (portDie p) fun s => s.timeLimit p tag

def execMsgWrite (bs : List Byte) (s : State) : Host.Outcome State Fault Refusal := .next (s.msgWrite bs)

def execMsgRead (clocked : Nat) (s : State) : Host.Outcome State Fault Refusal := .next (s.up fun c => c.msgRead clocked)

def execStatusRead (s : State) : Host.Outcome State Fault Refusal := .next (s.up Chip.statusRead)

def execMsgIoCapture (s : State) : Host.Outcome State Fault Refusal := .next (s.up Chip.msgIoCapture)

def execMsgIoUpdate (bs : List Byte) (s : State) : Host.Outcome State Fault Refusal := .next (s.msgIoUpdate bs)

/-- The boundary-scan instructions (R482): the instruction register takes their code. The cells that they drive and sample are pads
of the package, whose levels are no state of this block. -/
def execExtest (s : State) : Host.Outcome State Fault Refusal := .next (s.up fun c => c.setIr 0x00)
def execIdcode (s : State) : Host.Outcome State Fault Refusal := .next (s.up fun c => c.setIr 0x01)
def execSamplePreload (s : State) : Host.Outcome State Fault Refusal := .next (s.up fun c => c.setIr 0x02)
def execExtestPulse (s : State) : Host.Outcome State Fault Refusal := .next (s.up fun c => c.setIr 0x03)
def execExtestTrain (s : State) : Host.Outcome State Fault Refusal := .next (s.up fun c => c.setIr 0x04)
def execHighz (s : State) : Host.Outcome State Fault Refusal := .next (s.up fun c => c.setIr 0x05)
def execClamp (s : State) : Host.Outcome State Fault Refusal := .next (s.up fun c => c.setIr 0x06)
def execMsgIo (s : State) : Host.Outcome State Fault Refusal := .next (s.up fun c => c.setIr 0x20)
def execBypass (code : Byte) (s : State) : Host.Outcome State Fault Refusal := .next (s.up fun c => c.setIr code.toNat)

def execMailboxCmdTake (d : Nat) (s : State) : Host.Outcome State Fault Refusal := onDie s d fun s => s.mailboxTake d

def execMailboxOutWrite (d : Nat) (s : State) : Host.Outcome State Fault Refusal := onDie s d fun s => s.mailboxOut d

def execCompletionDelivered (p : Port) (tag : Byte) (s : State) : Host.Outcome State Fault Refusal :=
  onDie s (portDie p) fun s => s.up fun c => c.completionDelivered p tag

end Sys2Proof.Machine
end

