-- ==== Sys2Proof/Machine/Commands.lean ====
section
/-! DEFINITION. The rows of the table that are command messages: each reaches the port that its header names (R109, R123). A row
that is a write of one register is a REG_WRITE of one word. -/

namespace Sys2Proof.Machine

/-- Control address of a register of a page. -/
def regWord (d p o : Nat) : Word := BitVec.ofNat 32 (ra d p o)

/-- A REG_WRITE of one word to a register of the die that the header names. -/
def State.writeOne (s : State) (h : Hdr) (p o : Nat) (w : Word) : Host.Outcome State Fault Refusal :=
  s.command h (.regWrite (regWord h.die p o) [w])

/-! ### Registers -/

def execRegRead (h : Hdr) (a : Word) (n : Nat) (s : State) : Host.Outcome State Fault Refusal := s.command h (.regRead a n)

def execRegWrite (h : Hdr) (a : Word) (ws : List Word) (s : State) : Host.Outcome State Fault Refusal := s.command h (.regWrite a ws)

/-- A REG_WRITE to the broadcast window (R142). -/
def execBcastRegWrite (h : Hdr) (x : Nat) (ws : List Word) (s : State) : Host.Outcome State Fault Refusal :=
  s.command h (.regWrite (BitVec.ofNat 32 (0x08000000 + x)) ws)

/-- A REG_READ of the broadcast window (R144). -/
def execBcastRegRead (h : Hdr) (x n : Nat) (s : State) : Host.Outcome State Fault Refusal :=
  s.command h (.regRead (BitVec.ofNat 32 (0x08000000 + x)) n)

/-- A write to an address of the bit-set alias (R135). -/
def execBitSetAliasWrite (h : Hdr) (a w : Word) (s : State) : Host.Outcome State Fault Refusal := s.command h (.regWrite a [w])

/-- A write to an address of the bit-clear alias (R135). -/
def execBitClearAliasWrite (h : Hdr) (a w : Word) (s : State) : Host.Outcome State Fault Refusal := s.command h (.regWrite a [w])

/-- PAGE_COMMIT with COMMIT = 1 (R149). -/
def execPageCommitCommit (h : Hdr) (p : Nat) (s : State) : Host.Outcome State Fault Refusal := s.writeOne h p PAGE_COMMIT 1#32

/-- PAGE_COMMIT with ABORT = 1 (R16, R149). -/
def execPageCommitAbort (h : Hdr) (p : Nat) (s : State) : Host.Outcome State Fault Refusal := s.writeOne h p PAGE_COMMIT 2#32

def execPageEventForce (h : Hdr) (p : Nat) (bits : Word) (s : State) : Host.Outcome State Fault Refusal :=
  s.writeOne h p PAGE_EVENT_FORCE bits

/-- A write of PAGE_EVENT, which meets the sets that the block makes in the same cycle (R152). -/
def execPageEventClear (h : Hdr) (p : Nat) (bits : Word) (sets : List Nat) (s : State) : Host.Outcome State Fault Refusal :=
  match s.writeOne h p PAGE_EVENT bits with
  | .next t =>
    .next (if h.die < dieCount s.chip.member ∧ sets ≠ [] ∧ s.chip.dieRuns h.die then
      t.up fun c => c.setsMeetClear h.die p (s.chip.reg h.die p PAGE_EVENT) sets else t)
  | r => r

/-! ### The package and its outputs -/

def execAbort (h : Hdr) (scope tag : Nat) (s : State) : Host.Outcome State Fault Refusal := s.command h (.abort scope tag)
def execWake (h : Hdr) (s : State) : Host.Outcome State Fault Refusal := s.command h .wake
def execPkgStandby (h : Hdr) (s : State) : Host.Outcome State Fault Refusal := s.command h .pkgStandby
def execOutputMode (h : Hdr) (o m f w : Nat) (s : State) : Host.Outcome State Fault Refusal := s.command h (.outputMode o m f w)
def execSafeExit (h : Hdr) (o f : Nat) (s : State) : Host.Outcome State Fault Refusal := s.command h (.safeExit o f)
def execTimingSet (h : Hdr) (o n : Nat) (s : State) : Host.Outcome State Fault Refusal := s.command h (.timingSet o n)
def execLiveSource (h : Hdr) (o st : Nat) (s : State) : Host.Outcome State Fault Refusal := s.command h (.liveSource o st)
def execLayerCommit (h : Hdr) (o : Nat) (id : Word) (s : State) : Host.Outcome State Fault Refusal := s.command h (.layerCommit o id)

def execTableLoad (h : Hdr) (t b source : Nat) (a : Word) (n : Nat) (s : State) : Host.Outcome State Fault Refusal :=
  s.command h (.tableLoad t b source a n)

/-! ### Lanes and memory -/

def execLaneTrain (h : Hdr) (l ceiling : Nat) (s : State) : Host.Outcome State Fault Refusal := s.command h (.laneTrain l ceiling)
def execLanePower (h : Hdr) (l on : Nat) (s : State) : Host.Outcome State Fault Refusal := s.command h (.lanePower l on)
def execLaneLoop (h : Hdr) (l loop : Nat) (s : State) : Host.Outcome State Fault Refusal := s.command h (.laneLoop l loop)
def execDramConfig (h : Hdr) (p : List Byte) (s : State) : Host.Outcome State Fault Refusal := s.command h (.dramConfig p)
def execDramFreq (h : Hdr) (mask t : Nat) (s : State) : Host.Outcome State Fault Refusal := s.command h (.dramFreq mask t)
def execRankSpare (h : Hdr) (ch rank : Nat) (s : State) : Host.Outcome State Fault Refusal := s.command h (.rankSpare ch rank)
def execCalRun (h : Hdr) (p : List Byte) (s : State) : Host.Outcome State Fault Refusal := s.command h (.calRun p)
def execAgeScan (h : Hdr) (p : List Byte) (s : State) : Host.Outcome State Fault Refusal := s.command h (.ageScan p)
def execMarginScan (h : Hdr) (p : List Byte) (s : State) : Host.Outcome State Fault Refusal := s.command h (.marginScan p)

/-! ### Flash, firmware and what the package tells of itself -/

def execFlashRead (h : Hdr) (a : Word) (n : Nat) (s : State) : Host.Outcome State Fault Refusal := s.command h (.flashRead a n)
def execFlashWrite (h : Hdr) (a : Word) (ds : List Byte) (s : State) : Host.Outcome State Fault Refusal := s.command h (.flashWrite a ds)

def execFwActivate (h : Hdr) (source : Nat) (a : Word) (n : Nat) (s : State) : Host.Outcome State Fault Refusal :=
  s.command h (.fwActivate source a n)

def execSignatureRead (h : Hdr) (o what : Nat) (s : State) : Host.Outcome State Fault Refusal := s.command h (.signatureRead o what)
def execLogRead (h : Hdr) (i : Word) (n : Nat) (s : State) : Host.Outcome State Fault Refusal := s.command h (.logRead i n)
def execAttest (h : Hdr) (nonce : List Byte) (s : State) : Host.Outcome State Fault Refusal := s.command h (.attest nonce)

/-! ### Writes of one register -/

/-- DRV_CMD of the DLINK page (R321). -/
def execDrvCmd (h : Hdr) (w : Word) (s : State) : Host.Outcome State Fault Refusal := s.writeOne h DLINK DLINK.DRV_CMD w

/-- SPLASH_CTRL.LOAD (R295). -/
def execSplashLoad (h : Hdr) (s : State) : Host.Outcome State Fault Refusal := s.writeOne h SCAN SCAN.SPLASH_CTRL 1#32

/-- OWNER_k holds the owners of baskets 8k to 8k + 7 (R384); `k` names the register. -/
def execBasketOwnerWrite (h : Hdr) (k : Nat) (w : Word) (s : State) : Host.Outcome State Fault Refusal :=
  s.writeOne h BASKET (BASKET.OWNER + 4 * k) w

/-- FAULT.LATCHED, W1C (R447). -/
def execFaultLatchedClear (h : Hdr) (bits : Word) (s : State) : Host.Outcome State Fault Refusal := s.writeOne h FAULT FAULT.LATCHED bits

/-- FAULT.CODE_CLEAR with GO = 1 (R448). -/
def execCodeClear (h : Hdr) (p : Nat) (s : State) : Host.Outcome State Fault Refusal :=
  s.writeOne h FAULT FAULT.CODE_CLEAR (BitVec.ofNat 32 (2 ^ 31 + p))

/-- FAULT.AVAIL_CLR with CLEAR = 1 (R462). -/
def execAvailClr (h : Hdr) (s : State) : Host.Outcome State Fault Refusal := s.writeOne h FAULT FAULT.AVAIL_CLR 1#32

/-- SEC.OTP_CTRL with ENROLL = 1 (R430). -/
def execOtpEnroll (h : Hdr) (s : State) : Host.Outcome State Fault Refusal := s.writeOne h SEC SEC.OTP_CTRL 1#32

/-- SEC.OTP_CTRL with REQUIRE_OWNER = 1 (R430). -/
def execOtpRequireOwner (h : Hdr) (s : State) : Host.Outcome State Fault Refusal := s.writeOne h SEC SEC.OTP_CTRL 2#32

/-- SEC.ROLLBACK with GO = 1 (R431). -/
def execRollbackAdvance (h : Hdr) (target : Nat) (s : State) : Host.Outcome State Fault Refusal :=
  s.writeOne h SEC SEC.ROLLBACK (BitVec.ofNat 32 (2 ^ 31 + target))

/-- SEC.EXT_CTRL with GO = 1 (R437). -/
def execMeasurementExtend (h : Hdr) (mr type : Nat) (s : State) : Host.Outcome State Fault Refusal :=
  s.writeOne h SEC SEC.EXT_CTRL (BitVec.ofNat 32 (2 ^ 31 + 256 * type + mr))

/-- TGEN.BL_PWM (R287). -/
def execBlPwmWrite (h : Hdr) (w : Word) (s : State) : Host.Outcome State Fault Refusal := s.writeOne h TGEN TGEN.BL_PWM w

end Sys2Proof.Machine
end

