-- ==== Sys2Proof/Machine/LinkRx.lean ====
section
/-! DEFINITION. What a READY stream lane group receives (R157 to R185): the symbols of its rows are brought together, and what they
begin with says which receiver takes them. -/

namespace Sys2Proof.Machine

/-- Idle rows and the rest of a row are passed over (R168). -/
def dropIdle : List (Option Sym) → List (Option Sym)
  | some x :: l => if x = symIDL ∨ x = symPAD then dropIdle l else some x :: l
  | l => l

/-- The control symbols that a source may send (R159). -/
def sourceSyms : List Sym := [symCOM, symSKP, symIDL, symTS, symSTP, symSCP, symFRM, symEND, symEDB, symPAD]

/-- A group hears one packet or marker. A packet that spans a set with differing LMAP values is discarded (R170), and a control symbol
that a source has no use for is a symbol error (R159). -/
def State.linkRx (s : State) (d f : Nat) (lanes : List LaneRx) (noRoom : List Nat) : State :=
  let c := s.chip
  if !c.dieRuns d || !c.firstReady d f then s
  else
    let r := c.hearGroup d f lanes
    let s := s.up fun _ => r.1
    if r.2.torn ≠ 0 then s
    else
      match dropIdle r.2.syms with
      | some x :: rest =>
        if x = symSTP then s.up fun c => c.pixelPacket d f rest (c.rowTime d f lanes) noRoom
        else if x = symFRM then s.up fun c => c.sourceFrm d f rest
        else if x = symSCP then
          let q := s.chip.scpReceived d f rest
          let s := s.up fun _ => q.1
          match q.2 with
          | some message => s.accept (readMessage (.inband d f) message)
          | none => s
        else s.up fun c => c.when (symControl x && !sourceSyms.contains x && c.parses d f) fun c => c.badMarker d
      | _ => s

/-! ### Command packets on their way (R157, R168, R182, R185) -/

/-- What arrives of the code groups of one lane. -/
def onTheWay (hits : List Hit) (pos : Nat) (groups : List CodeGroup) : List CodeGroup :=
  groups.zipIdx.flatMap fun g =>
    match hits.find? (fun x => decide (x.pos = pos) && decide (x.index = g.2)) with
    | some x => x.groups
    | none => [g.1]

/-- What the lanes of a group receive of a packet that the partner sends in rows of the map by which the group receives. -/
def Chip.arriving (c : Chip) (d f : Nat) (syms : List Sym) (hits : List Hit) : List LaneRx :=
  (stripe (c.rxMap d f) syms).map fun p => { pos := p.1, plus := false, groups := onTheWay hits p.1 (encodeLane false p.2) }

/-! ### The rows -/

def execPixelPacketRx (d g : Nat) (lanes : List LaneRx) (noRoom : List Nat) (s : State) : Host.Outcome State Fault Refusal :=
  onGroup s d g fun s f => s.linkRx d f lanes noRoom

def execSourceFrmRx (d g : Nat) (lanes : List LaneRx) (s : State) : Host.Outcome State Fault Refusal :=
  onGroup s d g fun s f => s.linkRx d f lanes []

def execScpMessageRx (d g cseq : Nat) (message : List Byte) (stop : Sym) (hits : List Hit) (s : State) :
    Host.Outcome State Fault Refusal :=
  onGroup s d g fun s f => s.linkRx d f (s.chip.arriving d f (scpSyms 0 cseq message stop) hits) []

def execScpAckRx (d g cseq : Nat) (hits : List Hit) (s : State) : Host.Outcome State Fault Refusal :=
  onGroup s d g fun s f => s.linkRx d f (s.chip.arriving d f (scpSyms 1 cseq [] symEND) hits) []

def execScpNakRx (d g cseq : Nat) (hits : List Hit) (s : State) : Host.Outcome State Fault Refusal :=
  onGroup s d g fun s f => s.linkRx d f (s.chip.arriving d f (scpSyms 2 cseq [] symEND) hits) []

end Sys2Proof.Machine
end

