-- ==== Sys2Proof/Machine/Dispatch.lean ====
section
/-! DEFINITION. One arm for each command and event of the table. -/

namespace Sys2Proof.Machine

/-- The effect of a command or event on everything but the queue. -/
def exec (i : Instr) (s : State) : Host.Outcome State Fault Refusal :=
  match i with
  | .regRead h address count => Sys2Proof.Machine.execRegRead h address count s
  | .regWrite h address words => Sys2Proof.Machine.execRegWrite h address words s
  | .bcastRegWrite h offset words => Sys2Proof.Machine.execBcastRegWrite h offset words s
  | .bcastApply late => Sys2Proof.Machine.execBcastApply late s
  | .bcastRegRead h offset count => Sys2Proof.Machine.execBcastRegRead h offset count s
  | .bitSetAliasWrite h address value => Sys2Proof.Machine.execBitSetAliasWrite h address value s
  | .bitClearAliasWrite h address value => Sys2Proof.Machine.execBitClearAliasWrite h address value s
  | .stewardDirectLoad die address access => Sys2Proof.Machine.execStewardDirectLoad die address access s
  | .stewardDirectStore die address access => Sys2Proof.Machine.execStewardDirectStore die address access s
  | .pageCommitCommit h page => Sys2Proof.Machine.execPageCommitCommit h page s
  | .pageCommitAbort h page => Sys2Proof.Machine.execPageCommitAbort h page s
  | .commitStepPoint die page => Sys2Proof.Machine.execCommitStepPoint die page s
  | .pageEventForce h page bits => Sys2Proof.Machine.execPageEventForce h page bits s
  | .pageEventClear h page bits sets => Sys2Proof.Machine.execPageEventClear h page bits sets s
  | .abort h scope tag => Sys2Proof.Machine.execAbort h scope tag s
  | .wake h => Sys2Proof.Machine.execWake h s
  | .pkgStandby h => Sys2Proof.Machine.execPkgStandby h s
  | .standbyPowerDown => Sys2Proof.Machine.execStandbyPowerDown s
  | .outputMode h output mode flags window => Sys2Proof.Machine.execOutputMode h output mode flags window s
  | .safeExit h output flags => Sys2Proof.Machine.execSafeExit h output flags s
  | .timingSet h output number => Sys2Proof.Machine.execTimingSet h output number s
  | .liveSource h output stream => Sys2Proof.Machine.execLiveSource h output stream s
  | .layerCommit h output commitId => Sys2Proof.Machine.execLayerCommit h output commitId s
  | .layoutArmed output => Sys2Proof.Machine.execLayoutArmed output s
  | .tableLoad h table bank source address bytes => Sys2Proof.Machine.execTableLoad h table bank source address bytes s
  | .laneTrain h lane ceiling => Sys2Proof.Machine.execLaneTrain h lane ceiling s
  | .lanePower h lane on => Sys2Proof.Machine.execLanePower h lane on s
  | .laneLoop h lane loop => Sys2Proof.Machine.execLaneLoop h lane loop s
  | .dramConfig h payload => Sys2Proof.Machine.execDramConfig h payload s
  | .dramFreq h mask tset => Sys2Proof.Machine.execDramFreq h mask tset s
  | .rankSpare h channel rank => Sys2Proof.Machine.execRankSpare h channel rank s
  | .calRun h payload => Sys2Proof.Machine.execCalRun h payload s
  | .calRunDone die samples => Sys2Proof.Machine.execCalRunDone die samples s
  | .ageScan h payload => Sys2Proof.Machine.execAgeScan h payload s
  | .marginScan h payload => Sys2Proof.Machine.execMarginScan h payload s
  | .rankScanDone die channel rank windows => Sys2Proof.Machine.execRankScanDone die channel rank windows s
  | .retentionHoldEnd die channel pass => Sys2Proof.Machine.execRetentionHoldEnd die channel pass s
  | .flashRead h address count => Sys2Proof.Machine.execFlashRead h address count s
  | .flashWrite h address data => Sys2Proof.Machine.execFlashWrite h address data s
  | .fwActivate h source address bytes => Sys2Proof.Machine.execFwActivate h source address bytes s
  | .fwActivateRestart => Sys2Proof.Machine.execFwActivateRestart s
  | .signatureRead h output what => Sys2Proof.Machine.execSignatureRead h output what s
  | .logRead h index count => Sys2Proof.Machine.execLogRead h index count s
  | .attest h nonce => Sys2Proof.Machine.execAttest h nonce s
  | .quoteSigned => Sys2Proof.Machine.execQuoteSigned s
  | .commandTimeLimit port tag => Sys2Proof.Machine.execCommandTimeLimit port tag s
  | .msgWrite bytes => Sys2Proof.Machine.execMsgWrite bytes s
  | .msgRead clocked => Sys2Proof.Machine.execMsgRead clocked s
  | .statusRead => Sys2Proof.Machine.execStatusRead s
  | .msgIoCapture => Sys2Proof.Machine.execMsgIoCapture s
  | .msgIoUpdate bytes => Sys2Proof.Machine.execMsgIoUpdate bytes s
  | .extest => Sys2Proof.Machine.execExtest s
  | .idcode => Sys2Proof.Machine.execIdcode s
  | .samplePreload => Sys2Proof.Machine.execSamplePreload s
  | .extestPulse => Sys2Proof.Machine.execExtestPulse s
  | .extestTrain => Sys2Proof.Machine.execExtestTrain s
  | .highz => Sys2Proof.Machine.execHighz s
  | .clamp => Sys2Proof.Machine.execClamp s
  | .bypass code => Sys2Proof.Machine.execBypass code s
  | .msgIo => Sys2Proof.Machine.execMsgIo s
  | .mailboxCmdTake die => Sys2Proof.Machine.execMailboxCmdTake die s
  | .mailboxOutWrite die => Sys2Proof.Machine.execMailboxOutWrite die s
  | .completionDelivered port tag => Sys2Proof.Machine.execCompletionDelivered port tag s
  | .porAssert => Sys2Proof.Machine.execPorAssert s
  | .porRelease => Sys2Proof.Machine.execPorRelease s
  | .brownOut die rail => Sys2Proof.Machine.execBrownOut die rail s
  | .aonReady temps => Sys2Proof.Machine.execAonReady temps s
  | .pllLock => Sys2Proof.Machine.execPllLock s
  | .refclkRetry present => Sys2Proof.Machine.execRefclkRetry present s
  | .sfdpRead signature fastRead fourByte => Sys2Proof.Machine.execSfdpRead signature fastRead fourByte s
  | .directoryRead => Sys2Proof.Machine.execDirectoryRead s
  | .imageVerify check => Sys2Proof.Machine.execImageVerify check s
  | .profileApply board outputs => Sys2Proof.Machine.execProfileApply board outputs s
  | .pllLoss die pll => Sys2Proof.Machine.execPllLoss die pll s
  | .frameBoundary output => Sys2Proof.Machine.execFrameBoundary output s
  | .timingStart output => Sys2Proof.Machine.execTimingStart output s
  | .lineStart output => Sys2Proof.Machine.execLineStart output s
  | .timingTokenRx die frame => Sys2Proof.Machine.execTimingTokenRx die frame s
  | .timingTokenMiss die => Sys2Proof.Machine.execTimingTokenMiss die s
  | .teEdge output => Sys2Proof.Machine.execTeEdge output s
  | .flitRetry die side => Sys2Proof.Machine.execFlitRetry die side s
  | .linkDown link => Sys2Proof.Machine.execLinkDown link s
  | .gangMapApply => Sys2Proof.Machine.execGangMapApply s
  | .pixelPacketRx die group lanes noRoom => Sys2Proof.Machine.execPixelPacketRx die group lanes noRoom s
  | .sourceFrmRx die group lanes => Sys2Proof.Machine.execSourceFrmRx die group lanes s
  | .freezeDigest layer => Sys2Proof.Machine.execFreezeDigest layer s
  | .scpMessageRx die group cseq message stop hits => Sys2Proof.Machine.execScpMessageRx die group cseq message stop hits s
  | .scpAckRx die group cseq hits => Sys2Proof.Machine.execScpAckRx die group cseq hits s
  | .scpNakRx die group cseq hits => Sys2Proof.Machine.execScpNakRx die group cseq hits s
  | .scpReplayTimeout die group => Sys2Proof.Machine.execScpReplayTimeout die group s
  | .skpOrderedSetRx die group lanes skew => Sys2Proof.Machine.execSkpOrderedSetRx die group lanes skew s
  | .tsOrderedSetRx die lane heard => Sys2Proof.Machine.execTsOrderedSetRx die lane heard s
  | .rateChange die lane => Sys2Proof.Machine.execRateChange die lane s
  | .phaseLimit die lane => Sys2Proof.Machine.execPhaseLimit die lane s
  | .attemptDown die lane => Sys2Proof.Machine.execAttemptDown die lane s
  | .laneRetry die lane => Sys2Proof.Machine.execLaneRetry die lane s
  | .losDeclared die lane => Sys2Proof.Machine.execLosDeclared die lane s
  | .losCleared die lane => Sys2Proof.Machine.execLosCleared die lane s
  | .lolDeclared die lane => Sys2Proof.Machine.execLolDeclared die lane s
  | .fomMeasured die lane fom ctle vga dfe => Sys2Proof.Machine.execFomMeasured die lane fom ctle vga dfe s
  | .adaptIdleHold die lane => Sys2Proof.Machine.execAdaptIdleHold die lane s
  | .adaptHoldEnd die lane => Sys2Proof.Machine.execAdaptHoldEnd die lane s
  | .loopLock die run => Sys2Proof.Machine.execLoopLock die run s
  | .loopErr die lane bits => Sys2Proof.Machine.execLoopErr die lane bits s
  | .liveStreamLoss output => Sys2Proof.Machine.execLiveStreamLoss output s
  | .statusFrameRx die chain pos lock rate loop fom codeErr crcErr => Sys2Proof.Machine.execStatusFrameRx die chain pos lock rate loop fom codeErr crcErr s
  | .tempFrameRx die chain pos temp => Sys2Proof.Machine.execTempFrameRx die chain pos temp s
  | .helloFrameRx die chain pos rates => Sys2Proof.Machine.execHelloFrameRx die chain pos rates s
  | .ackFrameRx die chain pos tag result => Sys2Proof.Machine.execAckFrameRx die chain pos tag result s
  | .readDataFrameRx die chain pos tag addr data => Sys2Proof.Machine.execReadDataFrameRx die chain pos tag addr data s
  | .retSilent die chain pos => Sys2Proof.Machine.execRetSilent die chain pos s
  | .drvCmd h word => Sys2Proof.Machine.execDrvCmd h word s
  | .drvCmdTimeout die => Sys2Proof.Machine.execDrvCmdTimeout die s
  | .releaseDrainDone output => Sys2Proof.Machine.execReleaseDrainDone output s
  | .tileFetchDone die layer tx ty => Sys2Proof.Machine.execTileFetchDone die layer tx ty s
  | .layerOffNotice die layer => Sys2Proof.Machine.execLayerOffNotice die layer s
  | .compUnderrun die layer => Sys2Proof.Machine.execCompUnderrun die layer s
  | .resendTimeout die layer tx ty => Sys2Proof.Machine.execResendTimeout die layer tx ty s
  | .prevFrameTileDone die tx ty lead => Sys2Proof.Machine.execPrevFrameTileDone die tx ty lead s
  | .demuraRowDone die row good => Sys2Proof.Machine.execDemuraRowDone die row good s
  | .haloRx die side line => Sys2Proof.Machine.execHaloRx die side line s
  | .heldTileDone die tx ty => Sys2Proof.Machine.execHeldTileDone die tx ty s
  | .liveSegmentDeadline die line segment => Sys2Proof.Machine.execLiveSegmentDeadline die line segment s
  | .tolUpdate die rowRead => Sys2Proof.Machine.execTolUpdate die rowRead s
  | .signatureReady output => Sys2Proof.Machine.execSignatureReady output s
  | .splashLoad h => Sys2Proof.Machine.execSplashLoad h s
  | .splashLoadDone output => Sys2Proof.Machine.execSplashLoadDone output s
  | .hamperEncodeDone die tx ty checkFails => Sys2Proof.Machine.execHamperEncodeDone die tx ty checkFails s
  | .pairMismatch die stage => Sys2Proof.Machine.execPairMismatch die stage s
  | .refreshDue die channel rank => Sys2Proof.Machine.execRefreshDue die channel rank s
  | .mr4Poll die channel codes => Sys2Proof.Machine.execMr4Poll die channel codes s
  | .zqCalibration die channel => Sys2Proof.Machine.execZqCalibration die channel s
  | .schedulerIssue die channel offers => Sys2Proof.Machine.execSchedulerIssue die channel offers s
  | .rowIdleClose die channel bank => Sys2Proof.Machine.execRowIdleClose die channel bank s
  | .powerDownEntry die channel => Sys2Proof.Machine.execPowerDownEntry die channel s
  | .selfRefreshEntry die channel => Sys2Proof.Machine.execSelfRefreshEntry die channel s
  | .lowPowerExit die channel => Sys2Proof.Machine.execLowPowerExit die channel s
  | .freqWindowOpen die => Sys2Proof.Machine.execFreqWindowOpen die s
  | .freqDone die => Sys2Proof.Machine.execFreqDone die s
  | .wcrcAlert die channel slot => Sys2Proof.Machine.execWcrcAlert die channel slot s
  | .cmdErrAlert die channel rank => Sys2Proof.Machine.execCmdErrAlert die channel rank s
  | .slotErrorReport die channel slot stale => Sys2Proof.Machine.execSlotErrorReport die channel slot stale s
  | .migrateUnitCopy die channel => Sys2Proof.Machine.execMigrateUnitCopy die channel s
  | .migrateDone die channel => Sys2Proof.Machine.execMigrateDone die channel s
  | .vddqLoss die channel => Sys2Proof.Machine.execVddqLoss die channel s
  | .basketOwnerWrite h k value => Sys2Proof.Machine.execBasketOwnerWrite h k value s
  | .correctionWriteBack die address => Sys2Proof.Machine.execCorrectionWriteBack die address s
  | .ramblerRegionTest die fails1 fails2 => Sys2Proof.Machine.execRamblerRegionTest die fails1 fails2 s
  | .ramblerAbort die master => Sys2Proof.Machine.execRamblerAbort die master s
  | .avsPeriod die measured answered => Sys2Proof.Machine.execAvsPeriod die measured answered s
  | .slackReport die slack => Sys2Proof.Machine.execSlackReport die slack s
  | .avsRetry die answered => Sys2Proof.Machine.execAvsRetry die answered s
  | .vfloor die => Sys2Proof.Machine.execVfloor die s
  | .thermalSample die temps => Sys2Proof.Machine.execThermalSample die temps s
  | .tsDeselect die sensor => Sys2Proof.Machine.execTsDeselect die sensor s
  | .fatalCauseLatch die code => Sys2Proof.Machine.execFatalCauseLatch die code s
  | .faultLatchedClear h bits => Sys2Proof.Machine.execFaultLatchedClear h bits s
  | .codeClear h page => Sys2Proof.Machine.execCodeClear h page s
  | .availClr h => Sys2Proof.Machine.execAvailClr h s
  | .wdogKick die value => Sys2Proof.Machine.execWdogKick die value s
  | .wdogExpire die => Sys2Proof.Machine.execWdogExpire die s
  | .wdogRestartTimeout die => Sys2Proof.Machine.execWdogRestartTimeout die s
  | .stewardReady die => Sys2Proof.Machine.execStewardReady die s
  | .otpEnroll h => Sys2Proof.Machine.execOtpEnroll h s
  | .otpRequireOwner h => Sys2Proof.Machine.execOtpRequireOwner h s
  | .rollbackAdvance h target => Sys2Proof.Machine.execRollbackAdvance h target s
  | .otpProgramDone die readBackOk => Sys2Proof.Machine.execOtpProgramDone die readBackOk s
  | .measurementExtend h mr entryType => Sys2Proof.Machine.execMeasurementExtend h mr entryType s
  | .identityDerive entropyOk => Sys2Proof.Machine.execIdentityDerive entropyOk s
  | .blPwmWrite h value => Sys2Proof.Machine.execBlPwmWrite h value s
  | .pllRelock die pll => Sys2Proof.Machine.execPllRelock die pll s
  | .internalResetEnd => Sys2Proof.Machine.execInternalResetEnd s
  | .vddqInRange die channel => Sys2Proof.Machine.execVddqInRange die channel s
  | .dramConfigDone die channel outcome => Sys2Proof.Machine.execDramConfigDone die channel outcome s
  | .tableLoadDone die readError => Sys2Proof.Machine.execTableLoadDone die readError s
  | .ageScanDone output samples => Sys2Proof.Machine.execAgeScanDone output samples s
  | .flashWriteDone => Sys2Proof.Machine.execFlashWriteDone s
  | .returnFrameDiscard die => Sys2Proof.Machine.execReturnFrameDiscard die s
  | .skpOrderedSetSend die lane => Sys2Proof.Machine.execSkpOrderedSetSend die lane s

end Sys2Proof.Machine
end

