-- ==== Sys2Proof/Machine/Step.lean ====
section
/-! DEFINITION. One step: the command at the front of the queue is carried out with the queue's rest; on an empty queue
one core cycle passes. -/

namespace Sys2Proof.Machine

/-- One step. On an empty queue the block idles for one core cycle of 1 ns (assumption log 1). -/
def step (s : State) : Host.Outcome State Fault Refusal :=
  match s.pending with
  | [] => .next { s with chip := { s.chip with now := s.chip.now + 1 } }
  | i :: rest => exec i { s with pending := rest }

/-- The state with the command that a table word spells at the front of the queue; no row of the table gives bits, so
no word spells one and the state is as it was. -/
def State.withFetchWord (s : State) (nbits w : Nat) : State :=
  match Sys2Proof.decodeTableWord nbits w with
  | some i => { s with pending := i :: s.pending }
  | none => s

end Sys2Proof.Machine
end

