-- ==== Sys2Proof/Safety.lean ====
section
/-! DEFINITION. What counts as a safe run, and the vocabulary of the claims: what a step leaves as it was, and a command that is
taken by its port and refused by nobody. -/

namespace Sys2Proof.Machine

/-- The byte memories are in canonical form: keys strictly rising and no entry equal to what an unlisted key holds. -/
def Mem.wf (m : Mem) : Bool :=
  KMap.wf (fun _ => 0xFF) m.flash && KMap.wf (fun _ => 0) m.baskets && KMap.wf (fun _ => []) m.dram

/-- Nothing but registers, ports, and the note of which pages have raised a record in this cycle differs. -/
def Chip.sameBeside (c c' : Chip) : Prop :=
  c' = { c with regs := c'.regs, ports := c'.ports, raisedAt := c'.raisedAt, raised := c'.raised }

/-- Registers outside a set of addresses hold what they held. -/
def Chip.regsBut (c c' : Chip) (p : Nat → Prop) : Prop := ∀ a, ¬p a → KMap.get? c'.regs a = KMap.get? c.regs a

/-- Page and offset of a control address within its die's window. -/
def pageOf (a : Nat) : Nat := a / 0x1000 % 0x1000
def offsetOf (a : Nat) : Nat := a % 0x1000

/-- Registers of the two port pages that a dropped record changes (R130): PAGE_EVENT, PAGE_EVENT_LOST and the EVENTS_LOST
counters. -/
def portReg (a : Nat) : Prop :=
  (pageOf a = PORT_SVC ∧ (offsetOf a = PAGE_EVENT ∨ offsetOf a = PAGE_EVENT_LOST ∨ offsetOf a = PORT_SVC.EVENTS_LOST)) ∨
  (pageOf a = PORT_INB ∧ (offsetOf a = PAGE_EVENT ∨ offsetOf a = PAGE_EVENT_LOST ∨
    (PORT_INB.EVENTS_LOST ≤ offsetOf a ∧ offsetOf a ≤ PORT_INB.EVENTS_LOST + 32)))

/-- Registers that setting PAGE_EVENT bits of a page changes: its PAGE_EVENT and PAGE_EVENT_LOST, and those of the ports. -/
def eventReg (d p a : Nat) : Prop := a = ra d p PAGE_EVENT ∨ a = ra d p PAGE_EVENT_LOST ∨ portReg a

/-! ### A command that is taken and runs -/

/-- The command of an arrival as it is carried out. -/
def Chip.begun (c : Chip) (a : Arrival) (cmd : Cmd) : Req := { c.request a cmd with started := true }

/-- The chip with the command of an arrival in flight: its tag is in use and takes one credit (R111). -/
def Chip.taken (c : Chip) (a : Arrival) (cmd : Cmd) : Chip :=
  let x := c.port a.port
  { c.setPort a.port { x with tags := x.tags ++ [a.tag] } with nextReq := c.nextReq + 1, inflight := c.inflight ++ [c.begun a cmd] }

/-- The port hears the message, has a credit and does not know the tag (R111, R117); the checks on arrival pass (R110); no
broadcast write holds the command back (R143); every die that is to carry it out answers (R146). -/
abbrev Chip.hearsCommand (c : Chip) (a : Arrival) (cmd : Cmd) : Prop :=
  a.cmd = some cmd ∧ portDie a.port < dieCount c.member ∧ c.power = .running ∧ c.hears a.port = true ∧
    (c.port a.port).tags.length < portCredits a.port ∧ a.tag ∉ (c.port a.port).tags ∧ arrivalStatus c a = OK ∧
    c.mustWait (c.request a cmd) = false ∧
    ∀ d ∈ (if isBcast cmd then c.dies' else [a.die]), c.answers (portDie a.port) d = true

/-- The target refuses nothing: the mode allows the command, what it names is there, and its firmware runs (R79, R80, R93, R112). -/
abbrev Chip.admits (c : Chip) (h : Hdr) (cmd : Cmd) : Prop :=
  c.hearsCommand (Hdr.message h cmd) cmd ∧ (c.taken (Hdr.message h cmd) cmd).targetStatus (c.begun (Hdr.message h cmd) cmd) = OK

/-- The state in which an admitted command starts. -/
def State.starts (s : State) (h : Hdr) (cmd : Cmd) : State := s.up fun c => c.taken (Hdr.message h cmd) cmd

/-- The command itself as it starts. -/
def State.req (s : State) (h : Hdr) (cmd : Cmd) : Req := s.chip.begun (Hdr.message h cmd) cmd

/-- The state in which an admitted command has had an effect on everything but the byte memories, and has completed with OK and a
payload. -/
def State.ran (s : State) (h : Hdr) (cmd : Cmd) (f : Chip → Chip) (payload : List Byte) : State :=
  ((s.starts h cmd).up f).finish (s.req h cmd) OK 0 payload

/-- The REG_WRITE of one word to a register of the die that a header names. -/
abbrev oneWord (h : Hdr) (p o : Nat) (w : Word) : Cmd := .regWrite (regWord h.die p o) [w]

/-- A port that comes after it in the order of R115 has written the register in this cycle. -/
abbrev Chip.outdone (c : Chip) (port : Port) (d p o : Nat) : Prop :=
  (c.cycleWrites d p o).any (fun v => decide (portRank port < portRank v.port)) = true

/-- A REG_WRITE of one word is admitted, and its value is judged OK (R124, R149). -/
abbrev State.passes (s : State) (h : Hdr) (p o : Nat) (w : Word) : Prop :=
  s.chip.admits h (oneWord h p o w) ∧
    (s.starts h (oneWord h p o w)).chip.writesStatus h.port h.die (p * 0x1000 + o) [w] = OK

/-- It is, and its value is the last of this cycle. -/
abbrev State.mayWrite (s : State) (h : Hdr) (p o : Nat) (w : Word) : Prop :=
  s.passes h p o w ∧ ¬s.chip.outdone h.port h.die p o

/-- The note of a port's write of a register in this cycle (R115). -/
def Chip.noted (c old : Chip) (port : Port) (d p o : Nat) : Chip := { c with wroteAt := old.now, wrote := (old.noteWrite port d p o).wrote }

/-- The state in which it has had an effect and has completed with OK. -/
def State.wrote (s : State) (h : Hdr) (p o : Nat) (w : Word) (f : Chip → Chip) : State :=
  s.ran h (oneWord h p o w) (fun c => (f c).noted c h.port h.die p o) []

end Sys2Proof.Machine

namespace Sys2Proof

open Machine in
/-- The command message that a row of the table is (R109, R123); none: the row is an event, or a write of PAGE_EVENT that meets
sets of the block in the same cycle. -/
def Instr.asCommand : Instr → Option (Hdr × Cmd)
  | .regRead h a n => some (h, .regRead a n)
  | .regWrite h a ws => some (h, .regWrite a ws)
  | .bcastRegWrite h x ws => some (h, .regWrite (BitVec.ofNat 32 (0x08000000 + x)) ws)
  | .bcastRegRead h x n => some (h, .regRead (BitVec.ofNat 32 (0x08000000 + x)) n)
  | .bitSetAliasWrite h a w | .bitClearAliasWrite h a w => some (h, .regWrite a [w])
  | .pageCommitCommit h p => some (h, oneWord h p PAGE_COMMIT 1#32)
  | .pageCommitAbort h p => some (h, oneWord h p PAGE_COMMIT 2#32)
  | .pageEventForce h p w => some (h, oneWord h p PAGE_EVENT_FORCE w)
  | .pageEventClear h p w [] => some (h, oneWord h p PAGE_EVENT w)
  | .abort h scope tag => some (h, .abort scope tag)
  | .wake h => some (h, .wake)
  | .pkgStandby h => some (h, .pkgStandby)
  | .outputMode h o m f w => some (h, .outputMode o m f w)
  | .safeExit h o f => some (h, .safeExit o f)
  | .timingSet h o n => some (h, .timingSet o n)
  | .liveSource h o st => some (h, .liveSource o st)
  | .layerCommit h o id => some (h, .layerCommit o id)
  | .tableLoad h t b source a n => some (h, .tableLoad t b source a n)
  | .laneTrain h l ceiling => some (h, .laneTrain l ceiling)
  | .lanePower h l on => some (h, .lanePower l on)
  | .laneLoop h l loop => some (h, .laneLoop l loop)
  | .dramConfig h p => some (h, .dramConfig p)
  | .dramFreq h mask t => some (h, .dramFreq mask t)
  | .rankSpare h ch rank => some (h, .rankSpare ch rank)
  | .calRun h p => some (h, .calRun p)
  | .ageScan h p => some (h, .ageScan p)
  | .marginScan h p => some (h, .marginScan p)
  | .flashRead h a n => some (h, .flashRead a n)
  | .flashWrite h a ds => some (h, .flashWrite a ds)
  | .fwActivate h source a n => some (h, .fwActivate source a n)
  | .signatureRead h o what => some (h, .signatureRead o what)
  | .logRead h i n => some (h, .logRead i n)
  | .attest h nonce => some (h, .attest nonce)
  | .drvCmd h w => some (h, oneWord h DLINK DLINK.DRV_CMD w)
  | .splashLoad h => some (h, oneWord h SCAN SCAN.SPLASH_CTRL 1#32)
  | .basketOwnerWrite h k w => some (h, oneWord h BASKET (BASKET.OWNER + 4 * k) w)
  | .faultLatchedClear h w => some (h, oneWord h FAULT FAULT.LATCHED w)
  | .codeClear h p => some (h, oneWord h FAULT FAULT.CODE_CLEAR (BitVec.ofNat 32 (2 ^ 31 + p)))
  | .availClr h => some (h, oneWord h FAULT FAULT.AVAIL_CLR 1#32)
  | .otpEnroll h => some (h, oneWord h SEC SEC.OTP_CTRL 1#32)
  | .otpRequireOwner h => some (h, oneWord h SEC SEC.OTP_CTRL 2#32)
  | .rollbackAdvance h target => some (h, oneWord h SEC SEC.ROLLBACK (BitVec.ofNat 32 (2 ^ 31 + target)))
  | .measurementExtend h mr type => some (h, oneWord h SEC SEC.EXT_CTRL (BitVec.ofNat 32 (2 ^ 31 + 256 * type + mr)))
  | .blPwmWrite h w => some (h, oneWord h TGEN TGEN.BL_PWM w)
  | _ => none

/-- A step that ends in a next state. -/
def Runs (o : Host.Outcome Machine.State Machine.Fault Machine.Refusal) : Prop := ∃ s, o = .next s

end Sys2Proof
end

