-- ==== Sys2Proof/Certificates/Slice0/Obligations.lean ====
section
/-! DEFINITION. The statements for the provers, `Obligations.<Name>`, each with the rules of spec/ that it rests on. A clause
about a command says: in every state that admits it (`Chip.admits`: the port hears it, it has a credit, its target refuses
nothing) the command answers a next state, and which. -/

open Sys2Proof Sys2Proof.Machine

/-! ### The queue and the step -/

/-- One step carries out the command at the front of the queue with the queue's rest. -/
def Obligations.StepRunsFrontCommand : Prop :=
  ∀ (i : Instr) (rest : List Instr) (s : State), step { s with pending := i :: rest } = exec i { s with pending := rest }

/-- With nothing waiting one core cycle passes and nothing else changes (the model's choice: assumption log 1). -/
def Obligations.EmptyQueueLetsACyclePass : Prop :=
  ∀ s : State, s.pending = [] → step s = .next { s with chip := { s.chip with now := s.chip.now + 1 } }

/-- No command and no event changes the queue of waiting commands. -/
def Sys2Proof.Claim.ExecKeepsTheQueue : Prop := ∀ (i : Instr) (s t : State), exec i s = .next t → t.pending = s.pending

/-- Every command and event answers a next state, or names a unit that the member does not have (R3, R9). -/
def Sys2Proof.Claim.ExecAnswersNextOrNoUnit : Prop :=
  ∀ (i : Instr) (s : State), Runs (exec i s) ∨ exec i s = .fault .noSuchUnit

/-- Every command and event answers a next state that leaves the queue as it was, or names a unit that the member does not have. -/
def Obligations.ExecShape : Prop :=
  Claim.ExecKeepsTheQueue ∧ Claim.ExecAnswersNextOrNoUnit

/-! ### Reset and the memories -/

/-- Reset (R61, R81, R155, R385): the package is OFF with POR_N asserted, nothing waits and no command is in flight; the
identity registers read the member, every output is in BRINGUP, baskets B2 to B31 belong to the steward, and no memory byte is
listed (the member, the fuses and the empty memories are the model's choice: assumption logs 5, 8, 9 and 10). -/
def Obligations.ResetState : Prop :=
  let c := State.reset.chip
  State.reset.pending = [] ∧ State.reset.mem = Mem.reset ∧ c.power = .off ∧ c.porN = false ∧ c.inflight = [] ∧ c.waiting = [] ∧
    (∀ d < 8, c.reg d SYS 0x040 = 0x980800B0#32 ∧ c.mode d = BRINGUP ∧ c.owner d 0 = 6 ∧ c.owner d 1 = 6 ∧
      ∀ b, 2 ≤ b → b < 32 → c.owner d b = 0) ∧
    (∀ d < 8, ∀ l < 24, c.reg d (lanePage l) LANE.STATUS = 0#32) ∧ ∀ d p o, c.staged = [] ∧ c.stagedReg d p o = c.reg d p o

/-- The memories are in canonical form after reset. -/
def Obligations.ResetMemoryCanonical : Prop := State.reset.mem.wf = true

/-- Every step keeps the memories in canonical form, from every state and not only from those that a run reaches. -/
def Obligations.StepKeepsMemoryCanonical : Prop := ∀ s t : State, s.mem.wf = true → step s = .next t → t.mem.wf = true

/-- Rows that may change the boot flash: a FLASH_WRITE being done, its time limit, and losses of power or clocks (R101, R124). -/
def Sys2Proof.touchesFlash : Instr → Bool
  | .flashWriteDone | .commandTimeLimit _ _ | .porAssert | .brownOut _ _ | .pllLoss _ _ | .standbyPowerDown => true
  | _ => false

/-- Nothing but FLASH_WRITE changes the boot flash: every other command and event leaves each of its bytes (R101, R124). -/
def Obligations.OnlyFlashWriteChangesFlash : Prop :=
  ∀ (i : Instr) (s t : State), touchesFlash i = false → exec i s = .next t →
    t.mem.flash = s.mem.flash ∧ t.mem.flashOpen = s.mem.flashOpen

/-- Reading after writing, in every state: a basket word, a slot of the frame memory, a byte of the flash and a register hold what
was written last, and every other place holds what it held (R133, R135, R15). -/
def Obligations.ReadAfterWrite : Prop :=
  (∀ (m : Mem) (a b : Nat) (w : Word), (m.setWord a w).word b = if b = a then w else m.word b) ∧
  (∀ (m : Mem) (d n e k : Nat) (bs : List Byte), n < 2 ^ 32 → k < 2 ^ 32 →
    (m.setSlot d n bs).slot e k = if e = d ∧ k = n then bs else m.slot e k) ∧
  (∀ (m : Mem) (fresh a b : Nat) (v : Byte), (m.setFlash a v).flashByte fresh b = if b = a then v else m.flashByte fresh b) ∧
  (∀ (c : Chip) (d p o e q x : Nat) (w : Word), p < 0x1000 → o < 0x1000 → q < 0x1000 → x < 0x1000 →
    (c.setReg d p o w).reg e q x = if e = d ∧ q = p ∧ x = o then w else c.reg e q x)

/-! ### Arrival, admission and completion (R109 to R117) -/

/-- A command message that its port takes and nobody refuses is carried out: exec answers what the command does in the state in
which it starts (R79, R93, R110, R111, R112). -/
def Obligations.AdmittedCommandRuns : Prop :=
  ∀ (i : Instr) (h : Hdr) (cmd : Cmd) (s : State), i.asCommand = some (h, cmd) → s.chip.admits h cmd →
    exec i s = .next ((s.starts h cmd).run (s.req h cmd))

/-- A command beyond its port's credits, and one with a tag in use, are discarded without a completion: DISCARD_COUNT adds 1 and
an event bit sets, and nothing else happens (R111, R117); in STANDBY, where only AON runs, nothing happens at all (R76). -/
def Sys2Proof.Claim.DiscardedCommand : Prop :=
  ∀ (i : Instr) (h : Hdr) (cmd : Cmd) (s : State), i.asCommand = some (h, cmd) →
    portDie h.port < dieCount s.chip.member → s.chip.hears h.port = true →
    let tags := (s.chip.port h.port).tags
    (s.chip.power ≠ .standby → portCredits h.port ≤ tags.length → exec i s = .next (s.up fun c => c.discard h.port 0 0)) ∧
    (s.chip.power ≠ .standby → tags.length < portCredits h.port → h.tag ∈ tags →
      exec i s = .next (s.up fun c => c.discard h.port 1 1)) ∧
    (s.chip.power = .standby → portCredits h.port ≤ tags.length ∨ h.tag ∈ tags → exec i s = .next s)

/-- What DISCARD_COUNT and the events of a discarded command are on the ports that have them (R111, R117). -/
def Sys2Proof.Claim.DiscardIsCounted : Prop :=
  (∀ (c : Chip) (k j : Nat), c.discard .service k j = (c.count 0 PORT_SVC PORT_SVC.DISCARD_COUNT).event 0 PORT_SVC k) ∧
  (∀ (c : Chip) (d f k j : Nat), c.discard (.inband d f) k j =
    (c.count d PORT_INB (PORT_INB.DISCARD_COUNT + 4 * c.groupNumber d f)).event d PORT_INB (4 * c.groupNumber d f + j)) ∧
  (∀ (c : Chip) (k j : Nat), c.discard .test k j = c) ∧ ∀ (c : Chip) (d k j : Nat), c.discard (.steward d) k j = c

/-- Commands discarded on arrival, and how they are counted (R111, R117). -/
def Obligations.DiscardedCommands : Prop :=
  Claim.DiscardedCommand ∧ Claim.DiscardIsCounted

/-- A command that the checks on arrival refuse, or that the package does not take while it sleeps, has no effect but its completion: it
takes its tag, and the completion carries the lowest status and no payload (R21, R76, R110). -/
def Sys2Proof.Claim.RefusedOnArrival : Prop :=
  ∀ (i : Instr) (h : Hdr) (cmd : Cmd) (s : State), i.asCommand = some (h, cmd) →
    portDie h.port < dieCount s.chip.member → s.chip.hears h.port = true →
    (s.chip.port h.port).tags.length < portCredits h.port → h.tag ∉ (s.chip.port h.port).tags →
    let st := lowest [arrivalStatus s.chip (Hdr.message h cmd), s.chip.asleepStatus (Hdr.message h cmd)]
    st ≠ OK →
    ∃ t, exec i s = .next t ∧ t.mem = s.mem ∧ t.chip.regs = s.chip.regs ∧ t.chip.inflight = s.chip.inflight ∧
      t.chip.port h.port = { s.chip.port h.port with
        tags := (s.chip.port h.port).tags ++ [h.tag],
        out := (s.chip.port h.port).out ++ completionParts 0 (opcodeOf cmd) h.tag h.die st 0 [] }

/-- A command that its target refuses completes with the lowest status that applies, and has no other effect (R21, R79, R80, R93,
R112). -/
def Sys2Proof.Claim.RefusedAtTheTarget : Prop :=
  ∀ (i : Instr) (h : Hdr) (cmd : Cmd) (s : State), i.asCommand = some (h, cmd) → s.chip.hearsCommand (Hdr.message h cmd) cmd →
    let u := s.starts h cmd
    let st := u.chip.targetStatus (s.req h cmd)
    st ≠ OK → exec i s = .next (u.done (s.req h cmd) (lowest [st, u.chip.ownStatus (s.req h cmd)]))

/-- The parts of a completion (R113): together they carry the payload in order, every part carries the tag, every part but the last
is full with MORE = 1 and STATUS 0, and the last has MORE = 0 and the final status. -/
def Sys2Proof.Claim.CompletionParts : Prop :=
  ∀ (op : Nat) (tag : Byte) (die status detail : Nat) (payload : List Byte),
    let l := completionParts payload.length op tag die status detail payload
    (l.flatMap fun m => m.payload) = payload ∧ (∀ m ∈ l, m.tag = tag ∧ m.event = false ∧ m.payload.length ≤ 56) ∧
      (∀ m ∈ l.dropLast, m.more = true ∧ m.status = 0 ∧ m.payload.length = 56) ∧
      ∃ m, l.getLast? = some m ∧ m.more = false ∧ m.status = status ∧ m.aux = detail

/-- A completion leaves every register, memory byte and unit as it was: it ends the command and queues the parts at its port, which
are discarded when the port was lost (R113, R121). -/
def Sys2Proof.Claim.CompletionFrame : Prop :=
  ∀ (s : State) (r : Req) (status detail : Nat) (payload : List Byte),
    let t := s.finish r status detail payload
    t.mem = s.mem ∧ t.pending = s.pending ∧
      t.chip = { s.chip with inflight := t.chip.inflight, waiting := t.chip.waiting, ports := t.chip.ports } ∧
      (s.chip.answers (portDie r.port) r.die = true →
        (∀ q ∈ t.chip.inflight, q.id ≠ r.id) ∧
        (t.chip.port r.port).out = (s.chip.port r.port).out ++
          if r.orphan then [] else completionParts payload.length r.opcode r.tag r.die status detail payload)

/-- Completions: their parts, and that they change nothing but the command and its port (R113, R121). -/
def Obligations.Completions : Prop :=
  Claim.CompletionParts ∧ Claim.CompletionFrame

/-- Records and event bits (R128, R152): a set of a bit at 0 makes it 1 and raises one record when the bit is enabled; a set of a
bit at 1 counts as lost and raises none; bits of a page that go to 1 in one cycle share one record, whether they are set together or
one after another. -/
def Obligations.EventBits : Prop :=
  ∀ (c : Chip) (d p a b : Nat), a < 32 → b < 32 → a ≠ b → p < 0x1000 →
    let w := c.num d p PAGE_EVENT
    let en := c.num d p PAGE_EVENT_EN
    (w.testBit a = true → c.event d p a = c.count d p PAGE_EVENT_LOST) ∧
    (w.testBit a = false → en.testBit a = false → c.event d p a = c.setNum d p PAGE_EVENT (w ||| 2 ^ a)) ∧
    (w.testBit a = false → en.testBit a = true → c.raisedNow d p = false →
      c.event d p a = ((c.setNum d p PAGE_EVENT (w ||| 2 ^ a)).noteRaised d p).record d 0x02 false (leBytes 4 p ++ leBytes 4 (2 ^ a))) ∧
    (w.testBit a = false → en.testBit a = true → c.raisedNow d p = true →
      c.event d p a = (c.setNum d p PAGE_EVENT (w ||| 2 ^ a)).joinRecord d p (2 ^ a)) ∧
    (w.testBit a = false → w.testBit b = false → en.testBit a = true → en.testBit b = true → c.raisedNow d p = false →
      c.events d p [a, b] =
        (((c.setNum d p PAGE_EVENT (w ||| 2 ^ a)).setNum d p PAGE_EVENT (w ||| 2 ^ a ||| 2 ^ b)).noteRaised d p).record d 0x02 false
          (leBytes 4 p ++ leBytes 4 (2 ^ a ||| 2 ^ b)))

/-- What an event bit with its record can change (R128 to R130): the event registers of its page, those of the port pages, and the
ports' queues; every other register, and everything beside registers, ports and the note of which pages raised a record in this cycle, is as it was. -/
def Sys2Proof.Claim.EventFrame : Prop :=
  ∀ (c : Chip) (d p : Nat) (sets : List Nat), c.sameBeside (c.events d p sets) ∧ c.regsBut (c.events d p sets) (eventReg d p)

/-- A record that meets a full queue is dropped and counted, and the next one that reaches the port carries in AUX how many were
dropped (R130, R117). -/
def Sys2Proof.Claim.RecordQueue : Prop :=
  ∀ (c : Chip) (p : Port) (d code : Nat) (urgent : Bool) (payload : List Byte),
    let x := c.port p
    let n := (x.out.filter (fun m => m.event)).length
    (64 ≤ n → c.queueRecord p d code urgent payload = (c.setPort p { x with lost := x.lost + 1 }, true)) ∧
    (n < 64 → (c.queueRecord p d code urgent payload).2 = false ∧
      ((c.queueRecord p d code urgent payload).1.port p).out = x.out ++
        [{ event := true, opcode := code, tag := BitVec.ofNat 8 x.evSeq, urgent := urgent, more := false, die := d, status := 0,
           aux := min 0xFFFF x.lost, payload := payload, at_ := c.now }] ∧
      ((c.queueRecord p d code urgent payload).1.port p).lost = 0)

/-- What an event can change, and full record queues (R117, R128 to R130). -/
def Obligations.EventRecords : Prop :=
  Claim.EventFrame ∧ Claim.RecordQueue

/-! ### Registers, pages and baskets over the ports (R13 to R22, R124, R132 to R152, R384) -/

/-- A page that the manual gives the common header on this die (R147, R156). -/
abbrev Sys2Proof.hasHeader (d p : Nat) (k : PageKind) : Prop := pageKind p = some k ∧ k ≠ .layer ∧ (k = .portSvc → d = 0)

/-- Pages whose commit, or whose abort, does no more than R149 says of every page. -/
abbrev Sys2Proof.plainCommit (k : PageKind) : Prop := k ∉ [PageKind.tgen, .od, .dm, .dt, .dlink]
abbrev Sys2Proof.plainAbort (k : PageKind) : Prop := k ∉ [PageKind.comp, .od, .dm, .dt, .tgen, .dlink, .memphy]

/-- REG_READ of one register (R15, R17, R124): it completes OK with the word; RC bits return to their reset value, and a register
without them changes nothing. -/
def Sys2Proof.Claim.RegReadCompletes : Prop :=
  ∀ (s : State) (h : Hdr) (p o : Nat), p < 0x111 → o < 0x1000 → freeReg p o = false →
    let cmd := Cmd.regRead (regWord h.die p o) 1
    s.chip.admits h cmd →
    let word := leBytes 4 ((s.starts h cmd).chip.readsAs h.port h.die p o).toNat
    (rcMask p o = 0 → exec (.regRead h (regWord h.die p o) 1) s = .next (s.ran h cmd id word)) ∧
    (rcMask p o ≠ 0 → exec (.regRead h (regWord h.die p o) 1) s = .next (s.ran h cmd
      (fun c => c.setReg h.die p o (mergeBits (rcMask p o) (c.reg h.die p o) (resetAt c.member (ra h.die p o)))) word))

/-- REG_READ of any words of a die (R124, R381): when none of them is an uncorrectable basket word, it completes OK with a word for
each address, and no memory changes. -/
def Sys2Proof.Claim.RegReadOfWords : Prop :=
  ∀ (s : State) (h : Hdr) (a : Word) (n : Nat), let cmd := Cmd.regRead a n
    s.chip.admits h cmd → a.toNat / 0x1000000 < 8 →
    (∀ x ∈ wordAddrs (a.toNat % 0x1000000) n, ∀ b, place h.die x ∈ [.word b, .setAlias b, .clearAlias b] → b ∉ s.chip.badWords) →
    let q := (s.starts h cmd).readWords h.port h.die (wordAddrs (a.toNat % 0x1000000) n)
    ∃ ws, q.2 = some ws ∧ ws.length = n ∧ q.1.mem = s.mem ∧
      exec (.regRead h a n) s = .next (q.1.finish (s.req h cmd) OK 0 (wordBytes ws))

/-- REG_WRITE of one word (R15, R133, R147, R149): PAGE_EVENT_EN takes it at once, but on MODES, which is read-only (R155); an RWS
register keeps it as staged, leaving the value in effect; a basket word holds it. -/
def Sys2Proof.Claim.RegWriteCompletes : Prop :=
  (∀ (s : State) (h : Hdr) (p : Nat) (k : PageKind) (w : Word), hasHeader h.die p k → s.mayWrite h p PAGE_EVENT_EN w →
    exec (.regWrite h (regWord h.die p PAGE_EVENT_EN) [w]) s =
      .next (s.wrote h p PAGE_EVENT_EN w fun c => if k = .modes then c else c.setReg h.die p PAGE_EVENT_EN w)) ∧
  (∀ (s : State) (h : Hdr) (k : Nat) (w : Word), k < 2 → s.mayWrite h CAL (CAL.TS_TRIM + 4 * k) w →
    exec (.regWrite h (regWord h.die CAL (CAL.TS_TRIM + 4 * k)) [w]) s =
      .next (s.wrote h CAL (CAL.TS_TRIM + 4 * k) w fun c => c.stage h.die CAL (CAL.TS_TRIM + 4 * k) w)) ∧
  (∀ (s : State) (h : Hdr) (a w : Word), 0x800000 ≤ a.toNat % 0x1000000 → a.toNat / 0x1000000 < 8 →
    s.chip.admits h (.regWrite a [w]) →
    (s.starts h (.regWrite a [w])).chip.writesStatus h.port h.die (a.toNat % 0x1000000) [w] = OK →
    exec (.regWrite h a [w]) s = .next ((((s.starts h (.regWrite a [w])).up fun c => c.wantBasket 5 h.die (basketOf a.toNat)).setWord
      a.toNat w).done (s.req h (.regWrite a [w])) OK))

/-- Accesses of several ports to one register in one cycle (R114, R115): a write leaves the value of a port that comes later in the
order, and a read by a port that has not written the register returns the value from before the writes. -/
def Sys2Proof.Claim.AccessesOfOneCycle : Prop :=
  (∀ (s : State) (h : Hdr) (p : Nat) (k : PageKind) (w : Word), hasHeader h.die p k → s.passes h p PAGE_EVENT_EN w →
    s.chip.outdone h.port h.die p PAGE_EVENT_EN →
    ∃ t : State, exec (.regWrite h (regWord h.die p PAGE_EVENT_EN) [w]) s = .next (t.done (s.req h (oneWord h p PAGE_EVENT_EN w)) OK) ∧
      t.mem = s.mem ∧ ∀ e q o, q < 0x1000 → o < 0x1000 → t.chip.reg e q o = s.chip.reg e q o) ∧
  (∀ (s : State) (h : Hdr) (p o : Nat) (v : CycleWrite), p < 0x111 → o < 0x1000 → freeReg p o = false → rcMask p o = 0 →
    let cmd := Cmd.regRead (regWord h.die p o) 1
    s.chip.admits h cmd → (s.chip.cycleWrites h.die p o).getLast? = some v → (∀ x ∈ s.chip.cycleWrites h.die p o, x.port ≠ h.port) →
    exec (.regRead h (regWord h.die p o) 1) s = .next (s.ran h cmd id (leBytes 4 v.before.toNat)))

/-- REG_READ and REG_WRITE complete, and accesses of one cycle (R15, R17, R114, R115, R124, R133, R147). -/
def Obligations.RegisterAccess : Prop :=
  Claim.RegReadCompletes ∧ Claim.RegReadOfWords ∧ Claim.RegWriteCompletes ∧ Claim.AccessesOfOneCycle

/-- A REG_WRITE that one of its words is refused for writes none of them: it completes with the lowest status of its words, and no
register and no memory byte changes (R21, R124). -/
def Sys2Proof.Claim.RefusedWriteWritesNothing : Prop :=
  ∀ (s : State) (h : Hdr) (a : Word) (ws : List Word), s.chip.admits h (.regWrite a ws) → a.toNat / 0x1000000 < 8 →
    a.toNat % 0x1000000 / 0x1000 ≠ TGEN →
    let u := s.starts h (.regWrite a ws)
    let st := u.chip.writesStatus h.port h.die (a.toNat % 0x1000000) ws
    st ≠ OK → exec (.regWrite h a ws) s = .next (u.done (s.req h (.regWrite a ws)) st)

/-- Who may write what (R20, R136, R383): a port below SERVICE is refused at every basket word and alias, with AUTH unless a lower
status applies too; a port below PAGE_AUTH is refused at every register of the page. -/
def Sys2Proof.Claim.WriteNeedsItsClass : Prop :=
  (∀ (c : Chip) (p : Port) (direct : Bool) (d x : Nat) (w : Word), 0x400000 ≤ x → c.portClass p < SERVICE →
    c.writeStatus p direct d x w = AUTH ∨ c.writeStatus p direct d x w = STATE) ∧
  (∀ (c : Chip) (p : Port) (direct : Bool) (d pg o : Nat) (w : Word) (k : PageKind), pageKind pg = some k →
    c.portClass p < pageAuth k → c.regStatus p direct d pg o w = AUTH ∨ c.regStatus p direct d pg o w = STATE)

/-- Commands refused on arrival, at their target and for a value have no effect but their completion, and who may write what (R20, R21, R110, R112, R124). -/
def Obligations.RefusedCommands : Prop :=
  Claim.RefusedOnArrival ∧ Claim.RefusedAtTheTarget ∧ Claim.RefusedWriteWritesNothing ∧ Claim.WriteNeedsItsClass

/-- Writes to the two aliases (R135): the basket word takes the set bits, or loses them; an uncorrectable word keeps its content and
the command completes FAIL. -/
def Sys2Proof.Claim.AliasWrites : Prop :=
  ∀ (s : State) (h : Hdr) (a w : Word), s.chip.admits h (.regWrite a [w]) → a.toNat / 0x1000000 < 8 →
    let u := s.starts h (.regWrite a [w])
    let r := s.req h (.regWrite a [w])
    let x := a.toNat % 0x1000000
    let want := fun b => u.up fun c => c.wantBasket 5 h.die (basketOf b)
    u.chip.writesStatus h.port h.die x [w] = OK →
    (0x400000 ≤ x → x < 0x600000 →
      let b := a.toNat + 0x400000
      (b ∉ s.chip.badWords → b ∉ s.chip.fixups →
        exec (.bitSetAliasWrite h a w) s = .next (((want b).setWord b (s.mem.word b ||| w)).done r OK)) ∧
      (b ∈ s.chip.badWords →
        ∃ t : State, exec (.bitSetAliasWrite h a w) s = .next (t.done r FAIL) ∧ t.mem = s.mem ∧ t = (want b).up fun c => (c.checkWord h.die b .none).1)) ∧
    (0x600000 ≤ x → x < 0x800000 →
      let b := a.toNat + 0x200000
      (b ∉ s.chip.badWords → b ∉ s.chip.fixups →
        exec (.bitClearAliasWrite h a w) s = .next (((want b).setWord b (s.mem.word b &&& ~~~w)).done r OK)) ∧
      (b ∈ s.chip.badWords →
        ∃ t : State, exec (.bitClearAliasWrite h a w) s = .next (t.done r FAIL) ∧ t.mem = s.mem ∧ t = (want b).up fun c => (c.checkWord h.die b .none).1))

/-- PAGE_COMMIT (R16, R149): COMMIT makes the staged values of a page pending; with nothing staged it changes no value; ABORT
discards what is staged and pending. -/
def Sys2Proof.Claim.PageCommitCompletes : Prop :=
  ∀ (s : State) (h : Hdr) (p : Nat) (k : PageKind), hasHeader h.die p k →
    (plainCommit k → s.mayWrite h p PAGE_COMMIT 1#32 →
      (s.chip.stagedChange h.die p = true →
        exec (.pageCommitCommit h p) s = .next (s.wrote h p PAGE_COMMIT 1#32 fun c => c.setCommit h.die p)) ∧
      (s.chip.stagedChange h.die p = false →
        exec (.pageCommitCommit h p) s = .next (s.wrote h p PAGE_COMMIT 1#32 fun c => c.unstage h.die p))) ∧
    (plainAbort k → s.mayWrite h p PAGE_COMMIT 2#32 →
      exec (.pageCommitAbort h p) s = .next (s.wrote h p PAGE_COMMIT 2#32 fun c => c.abortPage h.die p))

/-- After an abort nothing of the page is staged or pending, and no value in effect has changed (R16). -/
def Sys2Proof.Claim.AbortReturnsToInEffect : Prop :=
  ∀ (c : Chip) (d p : Nat), p < 0x1000 →
    (c.abortPage d p).regs = c.regs ∧ (c.abortPage d p).committing d p = false ∧
      (∀ o < 0x1000, (c.abortPage d p).stagedReg d p o = c.reg d p o) ∧
      ∀ e q o, o < 0x1000 → q < 0x1000 → (e, q) ≠ (d, p) → (c.abortPage d p).stagedReg e q o = c.stagedReg e q o

/-- The step point of a page without rules of its own (R149; the calibration page): every pending value takes effect at once, and the
page's BUSY clears. -/
def Sys2Proof.Claim.StepPointApplies : Prop :=
  ∀ (s : State) (d : Nat), d < dieCount s.chip.member → s.chip.committing d CAL = true →
    exec (.commitStepPoint d CAL) s = .next (s.up fun c => (c.applyStaged d CAL).clearCommit d CAL) ∧
      ((c : Chip) → c = (s.chip.applyStaged d CAL).clearCommit d CAL → c.committing d CAL = false ∧ c.stagedOf d CAL = [])

/-- Committing and aborting a page, and its step point (R16, R149). -/
def Obligations.PageCommits : Prop :=
  Claim.PageCommitCompletes ∧ Claim.AbortReturnsToInEffect ∧ Claim.StepPointApplies

/-- Forcing and clearing PAGE_EVENT bits (R148, R152): each forced bit is set as the block sets it; each 1 written to PAGE_EVENT
clears its bit, and a bit that the block sets in the same cycle stays 1 with nothing lost. -/
def Obligations.PageEventWrites : Prop :=
  ∀ (s : State) (h : Hdr) (p : Nat) (k : PageKind) (w : Word), hasHeader h.die p k →
    (s.mayWrite h p PAGE_EVENT_FORCE w → exec (.pageEventForce h p w) s =
      .next (s.wrote h p PAGE_EVENT_FORCE w fun c => c.events h.die p (bitList (w.toNat &&& eventMask k)))) ∧
    (s.mayWrite h p PAGE_EVENT w →
      let t := s.wrote h p PAGE_EVENT w fun c => c.setReg h.die p PAGE_EVENT (c.reg h.die p PAGE_EVENT &&& ~~~w)
      exec (.pageEventClear h p w []) s = .next t ∧
      (s.chip.dieRuns h.die = true → ∀ b < 32, bit (s.chip.reg h.die p PAGE_EVENT) b = true → bit w b = true →
        exec (.pageEventClear h p w [b]) s =
          .next (t.up fun c => c.setReg h.die p PAGE_EVENT (c.reg h.die p PAGE_EVENT ||| BitVec.ofNat 32 (2 ^ b)))))

/-- Broadcast writes (R142): the command is checked on every die and writes nothing until the apply cycle, which writes the words
on every die and completes it. Here the word is PAGE_EVENT_EN of the calibration page. -/
def Sys2Proof.Claim.BroadcastWrite : Prop :=
  (∀ (s : State) (h : Hdr) (x : Nat) (ws : List Word), x < 0x1000000 →
    let cmd := Cmd.regWrite (BitVec.ofNat 32 (0x08000000 + x)) ws
    s.chip.admits h cmd → (∀ d < dieCount s.chip.member, (s.starts h cmd).chip.writesStatus h.port d x ws = OK) →
    exec (.bcastRegWrite h x ws) s =
      .next ((s.starts h cmd).up fun c => { c with bcast := some { req := s.req h cmd, offset := x, words := ws, checked := s.chip.now } })) ∧
  (∀ (s : State) (b : Bcast) (w : Word), s.chip.bcast = some b → b.offset = CAL * 0x1000 + PAGE_EVENT_EN → b.words = [w] →
    (∀ d < dieCount s.chip.member, s.chip.answers 0 d = true) → b.checked + 512 ≤ s.chip.now → s.chip.waiting = [] →
    (∀ d < dieCount s.chip.member, ¬s.chip.outdone b.req.port d CAL PAGE_EVENT_EN) →
    ∃ t, exec (.bcastApply []) s = .next t ∧ t.chip.bcast = none ∧ t.mem = s.mem ∧
      (∀ d < dieCount s.chip.member, t.chip.reg d CAL PAGE_EVENT_EN = w) ∧
      s.chip.regsBut t.chip fun a => ∃ d < dieCount s.chip.member, a = ra d CAL PAGE_EVENT_EN)

/-- Broadcast reads (R144, R145): die 0's word is returned; when another die's word differs, BCAST_MISMATCH of die 0 takes the dies
that differ and the offset, with its event; a register with RC bits is refused with ARG. -/
def Sys2Proof.Claim.BroadcastRead : Prop :=
  ∀ (s : State) (h : Hdr) (p o : Nat), p < 0x111 → o < 0x1000 → freeReg p o = false →
    let x := p * 0x1000 + o
    let cmd := Cmd.regRead (BitVec.ofNat 32 (0x08000000 + x)) 1
    s.chip.admits h cmd →
    let u := (s.starts h cmd).chip
    let differ := (List.range (dieCount s.chip.member)).filter (fun d => decide (u.readsAs h.port d p o ≠ u.readsAs h.port 0 p o))
    (rcMask p o ≠ 0 → exec (.bcastRegRead h x 1) s = .next ((s.starts h cmd).done (s.req h cmd) ARG)) ∧
    (rcMask p o = 0 → differ = [] → exec (.bcastRegRead h x 1) s = .next (s.ran h cmd id (leBytes 4 (u.readsAs h.port 0 p o).toNat))) ∧
    (rcMask p o = 0 → differ ≠ [] → exec (.bcastRegRead h x 1) s = .next (s.ran h cmd
      (fun c => (c.setNum 0 SYS SYS.BCAST_MISMATCH ((differ.foldl (fun m d => m + 2 ^ d) 0) * 2 ^ 24 + x % 2 ^ 24)).event 0 SYS 0)
      (leBytes 4 (u.readsAs h.port 0 p o).toNat)))

/-- Broadcast writes and reads (R142 to R145). -/
def Obligations.BroadcastAccess : Prop :=
  Claim.BroadcastWrite ∧ Claim.BroadcastRead

/-- Direct accesses of a steward (R140, R141): a load of a register without RC bits changes nothing; a store to a basket word
writes it; an access outside the steward's own die window, or of less than a word, touches nothing and is recorded as refused with
STATUS 3. -/
def Sys2Proof.Claim.StewardDirectAccess : Prop :=
  (∀ (s : State) (d p o : Nat) (upset : Upset), d < dieCount s.chip.member → s.chip.stewardRuns d = true → p < 0x111 → o < 0x1000 →
    o % 4 = 0 → (pageKind p).isSome = true → rcMask p o = 0 → freeReg p o = false →
    exec (.stewardDirectLoad d (regWord d p o) ⟨4, upset⟩) s = .next s) ∧
  (∀ (s : State) (d : Nat) (a w : Word), d < dieCount s.chip.member → s.chip.stewardRuns d = true → a.toNat / 0x1000000 = d →
    a.toNat % 4 = 0 → 0x800000 ≤ a.toNat % 0x1000000 →
    s.chip.writeStatus (.steward d) true d (a.toNat % 0x1000000) w = OK →
    exec (.stewardDirectStore d a ⟨4, w⟩) s = .next ((s.up fun c => c.wantBasket 0 d (basketOf a.toNat)).setWord a.toNat w)) ∧
  (∀ (s : State) (d size : Nat) (a w : Word) (upset : Upset), d < dieCount s.chip.member → s.chip.stewardRuns d = true →
    a.toNat / 0x1000000 ≠ d ∨ size ≠ 4 →
    exec (.stewardDirectLoad d a ⟨size, upset⟩) s = .next (s.up fun c => c.refuseDirect d a ARG) ∧
      exec (.stewardDirectStore d a ⟨size, w⟩) s = .next (s.up fun c => c.refuseDirect d a ARG))

/-- Bit aliases of the baskets, and direct accesses of the steward (R135, R140, R141). -/
def Obligations.BasketAliasesAndStewardAccess : Prop :=
  Claim.AliasWrites ∧ Claim.StewardDirectAccess

/-- Two masters that want one single-port basket in one cycle (R386): the one that comes later in the order loses a cycle, which its
CONFLICT count shows; nothing else but the note of who wants the basket changes. -/
def Sys2Proof.Claim.BasketConflict : Prop :=
  ∀ (c : Chip) (d b m n : Nat), 2 ≤ b → b < 32 → m ≤ 7 → n ≤ 7 → m ≠ n → basketRank m < basketRank n →
    KMap.get? c.baskets (d * 32 + b) = some { at_ := c.now, masters := [m] } →
    c.wantBasket n d b = { c.count d BASKET (BASKET.CONFLICT + 4 * n) with
      baskets := KMap.put { at_ := 0, masters := [] } c.baskets (d * 32 + b) { at_ := c.now, masters := [n, m] } }

/-! ### Lanes (R188 to R218) -/

/-- A die and a lane that the member has. -/
abbrev Sys2Proof.isLane (s : State) (d l : Nat) : Prop := d < dieCount s.chip.member ∧ l < 24

/-- Loss of signal and of lock (R199, R201): on a stream lane in training or in DOWN the status bit and its event are all that
changes; a driver lane has no receiver in service; the end of a loss clears the bit. -/
def Sys2Proof.Claim.LaneSignal : Prop :=
  ∀ (s : State) (d l : Nat), isLane s d l →
    (l < 8 → s.chip.lstate d l ∈ [laneLOCK, laneCONFIRM, laneSTEP, laneDOWN] →
      exec (.losDeclared d l) s = .next (s.up fun c => ((c.snapLane d l).lput d l LANE.STATUS 11 11 1).levent d l 6) ∧
      exec (.lolDeclared d l) s = .next (s.up fun c => ((c.snapLane d l).lput d l LANE.STATUS 12 12 1).levent d l 7)) ∧
    (8 ≤ l → s.chip.lstate d l ≠ laneLOOP → exec (.losDeclared d l) s = .next s) ∧
    (8 ≤ l → exec (.lolDeclared d l) s = .next s) ∧
    ∃ t, exec (.losCleared d l) s = .next t ∧ t.mem = s.mem ∧ t.chip.regs = (s.chip.lput d l LANE.STATUS 11 11 0).regs ∧
      (t.chip.die d).calLos = if l < 8 then l :: (s.chip.die d).calLos.filter (fun x => x ≠ l) else (s.chip.die d).calLos

/-- A READY driver lane of which a position reports that it has lost lock departs (R195, R201, R320): it starts an attempt from Lock
at 3.5 Gbit/s, with LOL shown and a first failure at its rate, and RETRAIN_COUNT adds 1. -/
def Sys2Proof.Claim.DriverLaneDeparts : Prop :=
  ∀ (s : State) (d k p rate fom code crc : Nat) (loop : Bool), d < dieCount s.chip.member → k < 16 → p < s.chip.chainDrivers d →
    s.chip.lstate d (8 + k) = laneREADY → s.chip.lrate d (8 + k) < 3 → (s.chip.die d).drv = none →
    ∃ t, exec (.statusFrameRx d k p false rate loop fom code crc) s = .next t ∧ t.mem = s.mem ∧
      t.chip.lstate d (8 + k) = laneLOCK ∧ t.chip.lrate d (8 + k) = 0 ∧ t.chip.lget d (8 + k) LANE.STATUS 12 12 = 1 ∧
      (t.chip.lane d (8 + k)).fails = 1 ∧ (t.chip.lane d (8 + k)).failRate = s.chip.lrate d (8 + k) ∧
      t.chip.num d (lanePage (8 + k)) LANE.RETRAIN_COUNT =
        min 0xFFFFFFFF (s.chip.num d (lanePage (8 + k)) LANE.RETRAIN_COUNT + 1) ∧
      s.chip.regsBut t.chip fun a =>
        a / 0x1000 = d * 0x1000 + lanePage (8 + k) ∨ a / 0x1000 = d * 0x1000 + DLINK ∨ eventReg d SYS a

/-- Loss of signal and of lock (R195, R201). -/
def Obligations.LaneSignals : Prop :=
  Claim.LaneSignal ∧ Claim.DriverLaneDeparts

/-- The phases of an attempt (R164, R165, R192 to R194): after the 16 TS_B of Step the lane locks at the next rate; a first failure at a rate
returns it to Lock at 3.5 Gbit/s; the limits of Lock and of the attempt end in DOWN; a retry starts an attempt. -/
def Sys2Proof.Claim.LanePhases : Prop :=
  ∀ (s : State) (d l : Nat), isLane s d l →
    (s.chip.lstate d l = laneSTEP → s.chip.sent16 d l = true → (8 ≤ l ∨ 8 ≤ (s.chip.lane d l).rxCount) → s.chip.lrate d l < 4 →
      ∃ t, exec (.rateChange d l) s = .next t ∧ t.mem = s.mem ∧ t.chip.lstate d l = laneLOCK ∧ t.chip.lrate d l = s.chip.lrate d l + 1 ∧
        (t.chip.lane d l).rxCount = 0 ∧ (t.chip.lane d l).phaseAt = s.chip.now) ∧
    (s.chip.training d l = true → ¬(s.chip.lstate d l = laneLOCK ∧ s.chip.lrate d l = 0) →
      (s.chip.lane d l).failRate ≠ s.chip.lrate d l →
      ∃ t, exec (.phaseLimit d l) s = .next t ∧ t.mem = s.mem ∧ t.chip.lstate d l = laneLOCK ∧ t.chip.lrate d l = 0 ∧
        (t.chip.lane d l).fails = 1 ∧ (t.chip.lane d l).failRate = s.chip.lrate d l) ∧
    (s.chip.training d l = true → ∃ t, exec (.attemptDown d l) s = .next t ∧ t.mem = s.mem ∧ t.chip.lstate d l = laneDOWN ∧
      t.chip.num d (lanePage l) LANE.DOWN_COUNT = min 0xFFFFFFFF (s.chip.num d (lanePage l) LANE.DOWN_COUNT + 1)) ∧
    (s.chip.lstate d l = laneDOWN → s.chip.lget d l LANE.RETRY 15 0 ≠ 0 →
      ∃ t, exec (.laneRetry d l) s = .next t ∧ t.mem = s.mem ∧ t.chip.lstate d l = laneLOCK ∧ t.chip.lrate d l = 0 ∧
        (t.chip.lane d l).attemptAt = s.chip.now)

/-- The hold of the adaptation and the checker of a loop (R208, R214): a hold leaves the coefficients as they are; 64 right bits in a
row lock the checker; a wrong bit counts once it is locked, and 8 of the latest 64 lose the lock. -/
def Sys2Proof.Claim.LaneHoldsAndLoops : Prop :=
  ∀ (s : State) (d l : Nat), isLane s d l →
    (l < 8 → 3 ≤ s.chip.lrate d l → s.chip.snapOf d l = none →
      ∃ t, exec (.adaptIdleHold d l) s = .next t ∧ t.mem = s.mem ∧ t.chip.lget d l LANE.STATUS 13 13 = 1 ∧
        t.chip.reg d (lanePage l) LANE.EQ_NOW = s.chip.reg d (lanePage l) LANE.EQ_NOW ∧ (t.chip.lane d l).taps = (s.chip.lane d l).taps) ∧
    (l < 8 → exec (.adaptHoldEnd d l) s = .next (s.up fun c => c.lput d l LANE.STATUS 13 13 0)) ∧
    (let code := s.chip.lget d l LANE.LOOP 11 8
     let k := (s.chip.lane d l).check
     let want := prbsNext code k.seen
     s.chip.lstate d l = laneLOOP → (s.chip.lane d l).far ≠ 3 → code ≠ 3 → (prbsTaps code).1 ≤ k.seen.length →
      (s.chip.lget d l LANE.LOOP 5 5 = 0 → k.good = 63 →
        ∃ t, exec (.loopLock d ⟨l, [want]⟩) s = .next t ∧ t.mem = s.mem ∧ t.chip.lget d l LANE.LOOP 5 5 = 1 ∧
          s.chip.regsBut t.chip fun a => a = ra d (lanePage l) LANE.LOOP ∨ eventReg d (lanePage l) a) ∧
      (s.chip.lget d l LANE.LOOP 5 5 = 1 →
        ∃ t, exec (.loopErr d l [!want]) s = .next t ∧ t.mem = s.mem ∧
          t.chip.num d (lanePage l) LANE.LOOP_ERR_COUNT = min 0xFFFFFFFF (s.chip.num d (lanePage l) LANE.LOOP_ERR_COUNT + 1) ∧
          t.chip.lget d l LANE.LOOP 5 5 = if 8 ≤ (((true :: k.errs).take 64).filter (fun e => e)).length then 0 else 1))

/-- The figure of merit (R203): a READY stream lane at 28 or 56 Gbit/s takes the FOM it measured, keeps its lowest, and stays READY
while the FOM is at or above FAIL. -/
def Sys2Proof.Claim.FomIsKept : Prop :=
  ∀ (s : State) (d l fom ctle vga : Nat) (dfe : List Nat), isLane s d l → l < 8 → s.chip.lstate d l = laneREADY → 3 ≤ s.chip.lrate d l →
    fom < 256 → s.chip.snapOf d l = none → failOf (s.chip.reg d (lanePage l) LANE.FOM_LIMITS) ≤ fom →
    ∃ t, exec (.fomMeasured d l fom ctle vga dfe) s = .next t ∧ t.mem = s.mem ∧ t.chip.lget d l LANE.FOM 7 0 = fom ∧
      t.chip.lget d l LANE.FOM_MIN 7 0 = min fom (s.chip.lget d l LANE.FOM_MIN 7 0) ∧ t.chip.lstate d l = laneREADY ∧
      (t.chip.lane d l).fomBad = 0

/-- Training ordered sets (R163 to R166): a set that is not valid is ignored; in Lock at 3.5 Gbit/s a valid TS_A with the right
POSITION counts, PARTNER takes what it says, and a valid TS_B ends the run of consecutive sets. -/
def Sys2Proof.Claim.TrainingSets : Prop :=
  ∀ (s : State) (d l : Nat) (plus : Bool) (bs : List Byte), isLane s d l → l < 8 →
    let heard := Instr.tsOrderedSetRx d l ⟨plus, encodeLane plus (tsSyms bs)⟩
    (tsValid bs = false → exec heard s = .next s) ∧
    (tsValid bs = true → s.chip.lstate d l = laneLOCK → s.chip.lrate d l = 0 → fieldAt bs 0 1 = 1 → s.chip.positionOk d l bs = true →
      (s.chip.lane d l).rxCount < 7 →
      ∃ t, exec heard s = .next t ∧ t.mem = s.mem ∧ (t.chip.lane d l).rxCount = (s.chip.lane d l).rxCount + 1 ∧
        t.chip.num d (lanePage l) LANE.PARTNER = fieldAt bs 4 2 * 65536 + fieldAt bs 3 1 * 256 + fieldAt bs 1 1 ∧
        t.chip.lstate d l = laneLOCK ∧ t.chip.lget d l LANE.STATUS 15 15 = 0 ∧
        s.chip.regsBut t.chip fun a => a / 0x1000 = d * 0x1000 + lanePage l) ∧
    (tsValid bs = true → s.chip.lstate d l = laneLOCK → s.chip.lrate d l = 0 → fieldAt bs 0 1 = 2 →
      ∃ t, exec heard s = .next t ∧ t.mem = s.mem ∧ (t.chip.lane d l).rxCount = 0 ∧ t.chip.lstate d l = laneLOCK)

/-- The TS ordered sets that a lane in training sends are valid (R163, R190, R302): TS_A in Lock and DOWN, TS_B in Confirm and Step,
with the lane's global number, POSITION 0x00 on a driver lane, and the next rate as TARGET in Step. -/
def Sys2Proof.Claim.TrainingSetsSent : Prop :=
  ∀ (c : Chip) (d l : Nat), d < 8 → l < 24 → c.effCeiling d l ≤ 4 → c.lrate d l ≤ (if c.lstate d l = laneSTEP then 3 else 4) →
    (c.training d l = true ∨ c.lstate d l = laneDOWN) →
    c.laneSends d l = .training (tsSyms (c.tsBytes d l)) ∧ tsValid (c.tsBytes d l) = true ∧
      fieldAt (c.tsBytes d l) 0 1 = (if c.lstate d l = laneLOCK ∨ c.lstate d l = laneDOWN then 1 else 2) ∧
      fieldAt (c.tsBytes d l) 2 1 = (if c.lstate d l = laneSTEP then c.lrate d l + 1 else c.lrate d l) ∧
      fieldAt (c.tsBytes d l) 4 2 = d * 24 + l ∧ (8 ≤ l → fieldAt (c.tsBytes d l) 3 1 = 0)

/-- Training a lane (R163 to R166, R192 to R194, R203). -/
def Obligations.LaneTraining : Prop :=
  Claim.LanePhases ∧ Claim.TrainingSets ∧ Claim.TrainingSetsSent ∧ Claim.FomIsKept

/-- The line code loses nothing (R157): what a lane decodes, from the disparity at which the other end began, is what was encoded. -/
def Sys2Proof.Claim.LineCodeRoundTrip : Prop :=
  ∀ (plus : Bool) (l : List Sym), (∀ x ∈ l, symControl x = true → isControl (symByte x) = true) →
    decodeLane plus (encodeLane plus l) = l.map some

/-- Striping loses nothing (R168): the rows of the lanes of a map hold the symbols in order, with PAD to the end of the last row. -/
def Sys2Proof.Claim.StripeRoundTrip : Prop :=
  ∀ (lmap : Nat) (l : List Sym), 0 < lmap → lmap < 256 →
    rowSyms lmap ((stripe lmap l).map fun p => (p.1, p.2.map some)) =
      (l ++ List.replicate ((mapLanes lmap).length * ((l.length + (mapLanes lmap).length - 1) / (mapLanes lmap).length) - l.length) symPAD).map some

/-- The line code and striping lose nothing (R157, R168). -/
def Obligations.LineCoding : Prop :=
  Claim.LineCodeRoundTrip ∧ Claim.StripeRoundTrip

/-- The lane commands (R124, R212, R213). LANE_TRAIN starts an attempt with its ceiling and stays in flight; LANE_POWER off puts
the lane OFF; LANE_LOOP starts a near-end loop. -/
def Sys2Proof.Claim.LaneCommands : Prop :=
  (∀ (s : State) (h : Hdr) (l ceiling : Nat), let cmd := Cmd.laneTrain l ceiling
    s.chip.admits h cmd → s.chip.lstate h.die (l % 24) ≠ laneOFF →
    ∃ t, exec (.laneTrain h l ceiling) s = .next t ∧ t.mem = s.mem ∧ t.chip.lstate h.die (l % 24) = laneLOCK ∧
      t.chip.lget h.die (l % 24) LANE.CEILING 2 0 = ceiling ∧ (∃ r ∈ t.chip.inflight, r.id = s.chip.nextReq ∧ r.cmd = cmd)) ∧
  (∀ (s : State) (h : Hdr) (l : Nat), let cmd := Cmd.lanePower l 0
    s.chip.admits h cmd →
    ∃ u : State, exec (.lanePower h l 0) s = .next (u.done (s.req h cmd) OK) ∧ u.mem = s.mem ∧ u.chip.lstate h.die (l % 24) = laneOFF) ∧
  (∀ (s : State) (h : Hdr) (l : Nat), let cmd := Cmd.lanePower l 1
    s.chip.admits h cmd → s.chip.lstate h.die (l % 24) ≠ laneOFF → exec (.lanePower h l 1) s = .next (s.ran h cmd id [])) ∧
  (∀ (s : State) (h : Hdr) (l loop : Nat), let cmd := Cmd.laneLoop l loop
    s.chip.admits h cmd → 1 ≤ loop → loop ≤ 2 → s.chip.lstate h.die (l % 24) ≠ laneOFF →
    ∃ u : State, exec (.laneLoop h l loop) s = .next (u.done (s.req h cmd) OK) ∧ u.mem = s.mem ∧
      u.chip.lstate h.die (l % 24) = laneLOOP ∧ u.chip.lget h.die (l % 24) LANE.LOOP 1 0 = loop)

/-- The lane commands, loops and holds (R124, R208, R212 to R214). -/
def Obligations.LaneCommandsAndLoops : Prop :=
  Claim.LaneCommands ∧ Claim.LaneHoldsAndLoops

/-! ### The stream link (R157 to R187) -/

/-- A group of a die, by its number and its lowest lane. -/
abbrev Sys2Proof.isGroup (s : State) (d g f : Nat) : Prop := d < dieCount s.chip.member ∧ (s.chip.groups d)[g]? = some f

/-- What a READY group hears begins, after idle, with a control symbol, and no set in it carries different LMAP values (R168, R170).
`after`: the symbols that follow. -/
abbrev Sys2Proof.hears (s : State) (d g f : Nat) (lanes : List LaneRx) (start : Sym) (after : List (Option Sym)) : Prop :=
  isGroup s d g f ∧ s.chip.dieRuns d = true ∧ s.chip.firstReady d f = true ∧ (s.chip.hearGroup d f lanes).2.torn = 0 ∧
    dropIdle (s.chip.hearGroup d f lanes).2.syms = some start :: after

/-- Pixel packets (R176, R177): one that fails check 1, 2, 3 or 4 is dropped and counted; one of a live stream whose SEQ lies in the
window is accepted, counted, and restarts the count of silent lines. -/
def Sys2Proof.Claim.PixelPackets : Prop :=
  ∀ (s : State) (d g f : Nat) (lanes : List LaneRx) (after : List (Option Sym)) (noRoom : List Nat),
    hears s d g f lanes symSTP after → s.chip.dieMode d ≠ SAFE →
    let u := (s.chip.hearGroup d f lanes).1
    (∀ v, pktCheck after = .error v → exec (.pixelPacketRx d g lanes noRoom) s = .next (s.up fun _ => u.pktFail d v)) ∧
    (∀ h px, pktCheck after = .ok (h, px) → s.chip.uses h.stream = [] →
      exec (.pixelPacketRx d g lanes noRoom) s = .next (s.up fun _ => u.pktFail d (SLINK.STREAM_OFF_COUNT, [4]))) ∧
    (∀ h px o, pktCheck after = .ok (h, px) → s.chip.uses h.stream = [.live o] → s.chip.mode o ≠ SAFE →
      (extendSeq h.seq (s.chip.seqAgo o (s.chip.rowTime d f lanes))).2 = true →
      ∃ t, exec (.pixelPacketRx d g lanes noRoom) s = .next t ∧ t.mem = s.mem ∧ (t.chip.out o).heardAt = s.chip.lineNow o ∧
        t.chip.num d SLINK SLINK.PKT_COUNT = min 0xFFFFFFFF (s.chip.num d SLINK SLINK.PKT_COUNT + 1))

/-- The symbols of a pixel packet after its STP, and what follows it. -/
abbrev Sys2Proof.pktSyms (header payload crc : List Byte) (stop : Sym) (rest : List (Option Sym)) : List (Option Sym) :=
  (dataSyms (header ++ payload ++ crc) ++ [stop]).map some ++ rest

/-- The checks of a packet (R176): nullified before its CRC is looked at, then the CRC, then the header; one that passes gives its header
fields and its payload. -/
def Sys2Proof.Claim.PacketChecks : Prop :=
  ∀ (header payload crc : List Byte) (b : Nat) (rest : List (Option Sym)), header.length = 16 → crc.length = 4 → formatBits (pktHead header).format = some b →
    (pktHead header).count ≤ 1024 → payload.length = ((pktHead header).count * b + 7) / 8 →
    let h := pktHead header
    let good := (crc32c (header ++ payload)).toNat = leNat crc
    pktCheck (pktSyms header payload crc symEDB rest) = .error (SLINK.NULLIFIED_COUNT, []) ∧
    (¬good → pktCheck (pktSyms header payload crc symEND rest) = .error (SLINK.CRC_ERR_COUNT, [0])) ∧
    (good → h.bad = true ∨ h.count = 0 ∨ 32768 < h.x + h.count →
      pktCheck (pktSyms header payload crc symEND rest) = .error (SLINK.HDR_ERR_COUNT, [2])) ∧
    (good → h.bad = false → h.count ≠ 0 → h.x + h.count ≤ 32768 → pktCheck (pktSyms header payload crc symEND rest) = .ok (h, payload))

/-- Source formats (R174): 12-bit codes pass as they are; 8-bit and 10-bit codes repeat their top bits, so that zero stays zero and
full scale becomes full scale, and larger codes stay larger. -/
def Sys2Proof.Claim.CanonicalCodes : Prop :=
  (∀ v < 4096, canonical 3 v = v) ∧ canonical 1 0 = 0 ∧ canonical 1 255 = 4095 ∧ canonical 2 0 = 0 ∧ canonical 2 1023 = 4095 ∧
    (∀ v w, v < w → w < 256 → canonical 1 v < canonical 1 w) ∧ (∀ v w, v < w → w < 1024 → canonical 2 v < canonical 2 w)

/-- Pixel packets, their checks, and the source formats (R174, R176, R177). -/
def Obligations.PixelStream : Prop :=
  Claim.PixelPackets ∧ Claim.PacketChecks ∧ Claim.CanonicalCodes

/-- FRM (R180, R233): a marker whose CRC fails is a symbol error; a good one closes the source frame of a layer, which is whole when
every tile of the range that received it is complete. -/
def Sys2Proof.Claim.SourceFrameCloses : Prop :=
  ∀ (s : State) (d g f : Nat) (lanes : List LaneRx) (after : List (Option Sym)), hears s d g f lanes symFRM after →
    s.chip.dieMode d ≠ SAFE → (takeData after).1.length = 4 →
    let u := (s.chip.hearGroup d f lanes).1
    let bs := (takeData after).1
    (crc8 (bs.take 3) ≠ bs.getD 3 0 →
      exec (.sourceFrmRx d g lanes) s = .next (s.up fun _ => (u.count d SLINK SLINK.SYMBOL_ERR_COUNT).event d SLINK 1)) ∧
    (crc8 (bs.take 3) = bs.getD 3 0 → fieldAt bs 0 2 < 4096 → ∀ n, s.chip.uses (fieldAt bs 0 2) = [.layer n] →
      let y := s.chip.layer n
      let frame := (extendSeq (fieldAt bs 2 1) (s.chip.seq y.words.output)).1
      s.chip.mode y.words.output ≠ SAFE → (KMap.getD y.tiles (y.received frame * 2 ^ 32 + frame) []).length = y.words.slots →
      ∃ t, exec (.sourceFrmRx d g lanes) s = .next t ∧ t.mem = s.mem ∧ t.chip.regs = u.regs ∧
        (t.chip.layer n).closed = some (BitVec.ofNat 32 frame, true, y.received frame) ∧
        ∀ kv ∈ (t.chip.layer n).tiles, kv.1 % 2 ^ 32 ≠ frame)

/-- The command channel (R182 to R185): the expected message is acknowledged and delivered once; one that ends with EDB is counted and
has no other effect; an ACK delivers what it names; a NAK and a timeout send the rest again. -/
def Sys2Proof.Claim.CommandChannel : Prop :=
  ∀ (s : State) (d g f cseq : Nat) (message : List Byte) (hits : List Hit) (rest : List (Option Sym)), cseq < 256 →
    let p := Port.inband d f
    let x := s.chip.port p
    let lanes := fun kind bs stop => s.chip.arriving d f (scpSyms kind cseq bs stop) hits
    let u := fun kind bs => (s.chip.hearGroup d f (lanes kind bs symEND)).1
    let heard := fun kind (bs : List Byte) (stop : Sym) =>
      hears s d g f (lanes kind bs stop) symSCP (((scpSyms kind cseq bs stop).drop 1).map some ++ rest)
    (heard 0 message symEND → cseq = x.rxExpect → exec (.scpMessageRx d g cseq message symEND hits) s =
      .next ((s.up fun _ => (((u 0 message).setPort p { (u 0 message).port p with rxExpect := (x.rxExpect + 1) % 256, nakSent := false }).sendOn
        d f (scpSyms 1 cseq [] symEND))).accept (readMessage p message))) ∧
    (heard 0 message symEDB → exec (.scpMessageRx d g cseq message symEDB hits) s =
      .next (s.up fun _ => (s.chip.hearGroup d f (lanes 0 message symEDB)).1.count d SLINK SLINK.NULLIFIED_COUNT)) ∧
    (heard 1 [] symEND → cseq = x.txBase → 1 ≤ x.sent → exec (.scpAckRx d g cseq hits) s = .next (s.up fun _ =>
      ((u 1 []).delivered p).setPort p { ((u 1 []).delivered p).port p with txBase := (x.txBase + 1) % 256 })) ∧
    (heard 2 [] symEND → (cseq + 1) % 256 = x.txBase → 1 ≤ x.sent → exec (.scpNakRx d g cseq hits) s =
      .next (s.up fun _ => (u 2 []).replay d f x.sent)) ∧
    (isGroup s d g f → s.chip.firstReady d f = true → 1 ≤ x.sent → exec (.scpReplayTimeout d g) s =
      .next (s.up fun c => ((c.countBy d SLINK SLINK.REPLAY_COUNT x.sent).event d SLINK 10).sendOn d f (c.onLink d f).flatten))

/-- The SKP ordered sets of R161 on the lanes of a group, as they arrive. -/
abbrev Sys2Proof.skpLanes (c : Chip) (d f : Nat) (lmap : Byte) : List LaneRx :=
  (c.groupLanes d f).map fun l => { pos := l - f, plus := false, groups := encodeLane false (skpSyms lmap) }

/-- SKP ordered sets (R169 to R171): a group whose lanes are READY at one rate and whose maps agree becomes READY, with an empty port,
and receives by the map of the set; the next set that a READY group sends carries its map without a lost spare. -/
def Sys2Proof.Claim.GroupReadiness : Prop :=
  ∀ (s : State) (d g f : Nat), isGroup s d g f → s.chip.power = .running →
    (∀ lmap, s.chip.firstReady d f = false →
      (∀ l ∈ s.chip.groupLanes d f, s.chip.isReady d l = true ∧ s.chip.lrate d l = s.chip.lrate d f) →
      ∃ t, exec (.skpOrderedSetRx d g (skpLanes s.chip d f lmap) []) s = .next t ∧ t.mem = s.mem ∧ t.chip.firstReady d f = true ∧
        t.chip.port (.inband d f) = {} ∧ t.chip.rxMap d f = lmap.toNat) ∧
    (∀ l, s.chip.firstReady d f = true → l ∈ s.chip.groupLanes d f → s.chip.isReady d l = false →
      (∀ m < 8, (s.chip.lane d m).capBy = 24) →
      ∃ t, exec (.skpOrderedSetSend d f) s = .next t ∧ t.mem = s.mem ∧ t.chip.firstReady d f = true ∧
        t.chip.wire d f = skpSyms (BitVec.ofNat 8 (s.chip.readyMap' d f)) ∧
        (t.chip.num d SLINK (SLINK.GROUP_LMAP + 4 * s.chip.groupNumber d f)).testBit (l - f) = false)

/-- FRM markers, SKP ordered sets, and the command channel of a group (R170, R171, R180, R183, R184, R233). -/
def Obligations.StreamGroups : Prop :=
  Claim.SourceFrameCloses ∧ Claim.GroupReadiness ∧ Claim.CommandChannel

/-! ### Baskets and the rambler (R380 to R395) -/

/-- Handing baskets over (R384): the register takes the owners, and nothing but the blocks' choice of a basket follows. -/
def Sys2Proof.Claim.OwnerWriteCompletes : Prop :=
  ∀ (s : State) (h : Hdr) (k : Nat) (w : Word), k < 4 → s.mayWrite h BASKET (BASKET.OWNER + 4 * k) w →
    ∃ t, exec (.basketOwnerWrite h k w) s = .next t ∧ t.mem = s.mem ∧ t.chip.reg h.die BASKET (BASKET.OWNER + 4 * k) = w ∧
      (∀ i < 8, t.chip.owner h.die (8 * k + i) = bits w (4 * i + 3) (4 * i)) ∧
      s.chip.regsBut t.chip fun a => a = ra h.die BASKET (BASKET.OWNER + 4 * k)

/-- Corrections (R381, R395): a corrected word is written back once; reading an uncorrectable word counts and shows its address. -/
def Sys2Proof.Claim.BasketCorrections : Prop :=
  (∀ (s : State) (d : Nat) (a : Word), d < dieCount s.chip.member → a.toNat / 0x1000000 = d →
    exec (.correctionWriteBack d a) s = .next (s.up fun c => { c with fixups := c.fixups.filter (fun x => x ≠ a.toNat) })) ∧
  (∀ (c : Chip) (d a : Nat), a < 2 ^ 32 → a ∈ c.badWords →
    let r := c.checkWord d a .none
    r.2 = false ∧ r.1.num d BASKET BASKET.UE_ADDR = a ∧ a ∈ r.1.badWords ∧
      r.1.num d BASKET BASKET.UE_COUNT = min 0xFFFFFFFF (c.num d BASKET BASKET.UE_COUNT + 1)) ∧
  (∀ (c : Chip) (d a : Nat), a ∉ c.badWords → a ∉ c.fixups → c.checkWord d a .none = (c, true))

/-- The rambler (R391 to R394): a region that passes moves POSITION on and changes no content, no count of failures and no spare; an access aborts the region it
meets; a region that fails twice is retired to a spare of its basket. -/
def Sys2Proof.Claim.RamblerRegions : Prop :=
  ∀ (s : State) (d : Nat) (r : Nat × Bool × Nat), d < dieCount s.chip.member → s.chip.ramblerOn d = true →
    s.chip.nextRegion d = some r → r.1 < spareBase →
    ((∀ a ∈ stepWords d r.1, a ∉ s.chip.badWords ∧ a ∉ s.chip.fixups) →
      (∃ t, exec (.ramblerRegionTest d false false) s = .next t ∧ t.mem = s.mem ∧
        t.chip.num d RAMBLER RAMBLER.POSITION = r.1 / 4096 * 65536 + r.1 % 4096 ∧
        t.chip.num d RAMBLER RAMBLER.TEST_FAIL_COUNT = s.chip.num d RAMBLER RAMBLER.TEST_FAIL_COUNT ∧
        t.chip.spares d (r.1 / 4096) = s.chip.spares d (r.1 / 4096)) ∧
      (s.chip.flag d RAMBLER RAMBLER.CTRL 1 = true → 0 < s.chip.spares d (r.1 / 4096) →
        ∃ t, exec (.ramblerRegionTest d true true) s = .next t ∧ t.mem = s.mem ∧
          t.chip.spares d (r.1 / 4096) = s.chip.spares d (r.1 / 4096) - 1 ∧
          t.chip.num d RAMBLER RAMBLER.RETIRED_COUNT = min 0xFFFFFFFF (s.chip.num d RAMBLER RAMBLER.RETIRED_COUNT + 1))) ∧
    (∀ master < 7, ∃ t, exec (.ramblerAbort d [master]) s = .next t ∧ t.mem = s.mem ∧
      t.chip.num d BASKET (BASKET.CONFLICT + 4 * master) = min 0xFFFFFFFF (s.chip.num d BASKET (BASKET.CONFLICT + 4 * master) + 1) ∧
      t.chip.num d RAMBLER RAMBLER.ABORT_COUNT = min 0xFFFFFFFF (s.chip.num d RAMBLER RAMBLER.ABORT_COUNT + 1))

/-- Handing baskets over, corrections, the rambler, and conflicts (R381, R384, R386, R391 to R395). -/
def Obligations.Baskets : Prop :=
  Claim.OwnerWriteCompletes ∧ Claim.BasketCorrections ∧ Claim.RamblerRegions ∧ Claim.BasketConflict

/-! ### Layers (R219 to R245, R376) -/

/-- LAYER_COMMIT is BUSY, and takes nothing, while another one of the output is pending, without a standard mode entry, and with a
DRAM channel of a die of the gang out of service (R229). -/
def Obligations.LayerCommitBusy : Prop :=
  ∀ (s : State) (h : Hdr) (o : Nat) (id : Word), s.chip.admits h (.layerCommit o id) →
    ((∃ q ∈ s.chip.inflight, isLayerCommit o q = true ∧ q.started = true ∧ q.id ≠ s.chip.nextReq) ∨ s.chip.hasEntry o = false ∨
      ∃ d ∈ s.chip.gang o, s.chip.serving d 0 = false ∨ s.chip.serving d 1 = false) →
    exec (.layerCommit h o id) s = .next ((s.starts h (.layerCommit o id)).done (s.req h (.layerCommit o id)) BUSY)

/-- LAYER_COMMIT takes the staged descriptors that differ and stays in flight; LAYOUT_ARMED arms it; the end of the drain completes
it, and waits while a tile of a released range waits for an encoder (R227 to R230, R234). With no basket for the line lists on a die
of the gang it is BUSY (R383). -/
def Sys2Proof.Claim.LayerCommitRuns : Prop :=
  (∀ (s : State) (h : Hdr) (o : Nat) (id : Word), let cmd := Cmd.layerCommit o id
    s.chip.admits h cmd → s.chip.hasEntry o = true → (∀ q ∈ s.chip.inflight, isLayerCommit o q = false) →
    (∀ d ∈ s.chip.gang o, s.chip.serving d 0 = true ∧ s.chip.serving d 1 = true ∧ s.chip.ownsBasket d 2 = true) →
    (∀ x ∈ s.chip.takes o, s.chip.descBad (s.chip.takes o) x.1 x.2 = false) →
    s.chip.lineLimit o (((s.chip.after (s.chip.takes o)).filter (fun x => x.2.enable && decide (x.2.output = o))).foldl
      (fun acc x => insertLayer x acc) []) = none →
    ∃ t, exec (.layerCommit h o id) s = .next t ∧ t.mem = s.mem ∧ s.req h cmd ∈ t.chip.inflight ∧ (t.chip.out o).armedAt = none ∧
      (∀ x ∈ s.chip.takes o, (t.chip.layer x.1).takenBy o = some x.2 ∧ (t.chip.layer x.1).words = (s.chip.layer x.1).words) ∧
      ∀ d ∈ s.chip.gang o, t.chip.state d COMP = 2) ∧
  (∀ (s : State) (h : Hdr) (o : Nat) (id : Word), s.chip.admits h (.layerCommit o id) →
    (∃ d ∈ s.chip.gang o, s.chip.ownsBasket d 2 = false) →
    exec (.layerCommit h o id) s = .next ((s.starts h (.layerCommit o id)).done (s.req h (.layerCommit o id)) BUSY)) ∧
  (∀ (s : State) (o : Nat), s.chip.formed o = true → s.chip.commitPending o = true → (s.chip.out o).draining = none →
    exec (.layoutArmed o) s = .next (s.up fun c => c.setOut o { c.out o with armedAt := some c.now })) ∧
  (∀ (s : State) (o : Nat) (y : Drain), s.chip.formed o = true → (s.chip.out o).draining = some y →
    (s.chip.stillWriting y.ranges = true → exec (.releaseDrainDone o) s = .next s) ∧
    (s.chip.stillWriting y.ranges = false → ∃ t, exec (.releaseDrainDone o) s = .next t ∧ t.mem = s.mem ∧ (t.chip.out o).draining = none ∧
      ∀ q ∈ t.chip.inflight, (isLayerCommit o q && q.started && q.pnr) = false))

/-- A die and a layer that the member has. -/
abbrev Sys2Proof.isLayer (s : State) (d n : Nat) : Prop := d < dieCount s.chip.member ∧ n < layerCount s.chip.member

/-- Fetches and faults of layers (R235 to R237, R376): a tile that verifies is kept for the frame; a line that is not ready switches
the layer off from there on and counts each tile that is missing; the notice switches it off on another die; a RESEND ends. A tile
that the compositor does not need is not fetched. -/
def Sys2Proof.Claim.LayerFetches : Prop :=
  ∀ (s : State) (d n : Nat), isLayer s d n →
    (∀ tx ty px,
      let w := (s.chip.layer n).words
      let slot := w.show_ + ty * w.tw + tx
      (s.chip.fetches d n tx ty = true → s.chip.reads d (slot % 2) = true →
        readHamper (s.chip.slotBytes s.mem d (layerSlot slot)) n none = .ok px →
        exec (.tileFetchDone d n tx ty) s = .next (s.up fun c => c.setDie d { c.die d with
          fetched := KMap.set (c.die d).fetched (tileKey n tx ty) px })) ∧
      (w.alpha = 0 ∨ s.chip.mode w.output ≠ COMPOSE ∨ tileHidden w (((s.chip.stack w.output).dropWhile (fun x => x.1 ≠ n)).drop 1) tx ty = true →
        exec (.tileFetchDone d n tx ty) s = .next s)) ∧
    ((s.chip.layer n).off = true → s.chip.leadOf d = (s.chip.layer n).words.output → KMap.get? (s.chip.die d).offLayers n = none →
      exec (.layerOffNotice d n) s = .next (s.up fun c => c.setDie d { c.die d with
        offLayers := KMap.set (c.die d).offLayers n (c.nextCompose (c.layer n).words.output) })) ∧
    (∀ w, w = (s.chip.layer n).words → s.chip.hasEntry w.output = true → s.chip.leadOf d = w.output → s.chip.mode w.output = COMPOSE →
      let k := ((s.chip.missing w.output d (s.chip.nextCompose w.output)).filter (fun m => m = n)).length
      0 < k →
      ∃ t, exec (.compUnderrun d n) s = .next t ∧ t.mem = s.mem ∧ (t.chip.layer n).off = true ∧
        KMap.get? (t.chip.die d).offLayers n = some (s.chip.nextCompose w.output) ∧
        t.chip.flag (n / 512) COMP (COMP.LAYER_OFF + 4 * (n % 512 / 32)) (n % 32) = true ∧ 3 ∈ (t.chip.layer n).episodes ∧
        t.chip.num d COMP COMP.UNDERRUN_COUNT = min 0xFFFFFFFF (s.chip.num d COMP COMP.UNDERRUN_COUNT + k)) ∧
    (∀ tx ty, exec (.resendTimeout d n tx ty) s = .next (s.up fun c =>
      { c with resends := c.resends.filter (fun r => !decide (r.layer = n ∧ r.tx = tx ∧ r.ty = ty)) }))

/-- The freeze watch (R296): a digest that differs from the one before starts the count again; an equal one counts. -/
def Sys2Proof.Claim.FreezeDigests : Prop :=
  ∀ (s : State) (n base : Nat) (frame : Word), n < layerCount s.chip.member →
    let y := s.chip.layer n
    let g := s.chip.layerDigest s.mem y.words base
    y.closed = some (frame, true, base) → y.words.watched = true → s.chip.hasEntry y.words.output = true →
    (y.digest ≠ some g → exec (.freezeDigest n) s = .next (s.up fun c =>
      c.setLayer n { y with closed := none, digest := some g, freeze := 0, frozen := false })) ∧
    (y.digest = some g → y.freeze + 1 < y.words.freezeN → exec (.freezeDigest n) s = .next (s.up fun c =>
      c.setLayer n { y with closed := none, freeze := y.freeze + 1 })) ∧
    (y.digest = some g → y.words.freezeN ≤ y.freeze + 1 → y.frozen = false → exec (.freezeDigest n) s = .next (s.up fun c =>
      ((c.setLayer n { y with closed := none, freeze := y.freeze + 1, frozen := true }).record (n / 512) 0x05 false
        (leBytes 4 n ++ leBytes 4 frame.toNat)).event (n / 512) COMP 6))

/-- LAYER_COMMIT, the fetches of the compositor, and the freeze watch (R227 to R237, R296). -/
def Obligations.LayerCommits : Prop :=
  Claim.LayerCommitRuns ∧ Claim.LayerFetches ∧ Claim.FreezeDigests

/-- Blending (R224): ALPHA 255 shows the layer and ALPHA 0 what lies under it; the result lies between the two. -/
def Sys2Proof.Claim.BlendBounds : Prop :=
  (∀ l b, blend 255 l b = l ∧ blend 0 l b = b) ∧ (∀ a l b, a ≤ 255 → min l b ≤ blend a l b ∧ blend a l b ≤ max l b) ∧
    (∀ a l l' b, a ≤ 255 → l ≤ l' → blend a l b ≤ blend a l' b)

/-- Layers are stacked by Z, and by layer ID where Z is equal (R224): the list that composition goes through is sorted. -/
def Sys2Proof.Claim.StackIsSorted : Prop :=
  ∀ (c : Chip) (o : Nat), (c.stack o).Pairwise fun x y => x.2.z < y.2.z ∨ (x.2.z = y.2.z ∧ x.1 ≤ y.1)

/-- Blending and the order of the stack (R224). -/
def Obligations.Composition : Prop :=
  Claim.BlendBounds ∧ Claim.StackIsSorted

/-! ### Frame memory (R351 to R379) -/

/-- A die and a DRAM channel that the member has. -/
abbrev Sys2Proof.isChannel (s : State) (d ch : Nat) : Prop := d < dieCount s.chip.member ∧ ch < 2

/-- DRAM_CONFIG (R94, R370): the channel loses its content, leaves READY and initialises while the command stays in flight; when every
rank answers, it runs, READY, with a fitted spare unused, and the command completes OK. -/
def Sys2Proof.Claim.DramConfigRuns : Prop :=
  (∀ (s : State) (h : Hdr) (p : List Byte), let cmd := Cmd.dramConfig p
    let ch := fieldAt p 0 1
    s.chip.admits h cmd → s.chip.chanRuns h.die (1 - ch) = false → s.chip.get h.die (memphyPage ch) MEMPHY.PHY_STATUS 2 2 = 1 →
    s.chip.setValid h.die ch (fieldAt p 3 1) = true →
    ∃ t, exec (.dramConfig h p) s = .next t ∧ t.chip.state h.die (memcPage ch) = mcINIT ∧ t.chip.serving h.die ch = false ∧
      t.mem.flash = s.mem.flash ∧ t.mem.baskets = s.mem.baskets ∧
      ∀ d slot, slot < 2 ^ 32 → t.mem.slot d slot = if d = h.die ∧ slot / 2 ^ 24 = ch then [] else s.mem.slot d slot) ∧
  (∀ (s : State) (d ch : Nat) (r : Req) (p : List Byte), isChannel s d ch →
    (s.chip.reqs (isDramConfig d ch)).find? (fun q => q.started) = some r → r.cmd = .dramConfig p →
    ∃ u : State, exec (.dramConfigDone d ch { initOk := true, rank0 := true, rank1 := true, rank2 := true }) s = .next (u.done r OK) ∧
      u.mem = s.mem ∧ u.chip.state d (memcPage ch) = mcRUN ∧ u.chip.serving d ch = true ∧
      u.chip.mget d ch MEMC.STATUS 31 30 = ((fieldAt p 1 1).testBit 2).toNat ∧ u.chip.mget d ch MEMC.STATUS 29 28 = 0)

/-- DRAM_FREQ (R369): it waits for a window; in the window its channels stop serving; afterwards they run on the new timing set. -/
def Sys2Proof.Claim.DramFreqRuns : Prop :=
  (∀ (s : State) (h : Hdr) (mask t : Nat), let cmd := Cmd.dramFreq mask t
    s.chip.admits h cmd → (∀ k ∈ maskChannels mask, s.chip.serving h.die k = true ∧ s.chip.migrating h.die k = false ∧
      s.chip.setValid h.die k t = true) → (∃ k ∈ maskChannels mask, s.chip.mget h.die k MEMC.CFG 0 0 ≠ t) →
    exec (.dramFreq h mask t) s = .next (s.starts h cmd)) ∧
  (∀ (s : State) (d mask t : Nat) (r : Req), d < dieCount s.chip.member → s.chip.reqs (isDramFreq d true) = [] →
    s.chip.reqs (isDramFreq d false) = [r] → r.cmd = .dramFreq mask t →
    (∀ k ∈ maskChannels mask, s.chip.freqTol d k ≤ s.chip.tol d ∧ s.chip.serving d k = true) →
    ∃ t', exec (.freqWindowOpen d) s = .next t' ∧ t'.mem = s.mem ∧
      ∀ k ∈ maskChannels mask, t'.chip.state d (memcPage k) = mcFREQ ∧ (t'.chip.chan d k).freqTo = some t) ∧
  (∀ (s : State) (d k t : Nat), isChannel s d k → (s.chip.chan d k).freqTo = some t → t < 2 → (∀ j < 2, (s.chip.chan d j).errAfter = none) →
    (∀ j < 2, (s.chip.chan d j).freqTo ≠ none → (s.chip.chan d j).freqAt + 12000 ≤ s.chip.now) →
    ∃ t', exec (.freqDone d) s = .next t' ∧ t'.mem = s.mem ∧ (t'.chip.chan d k).freqTo = none ∧ t'.chip.mget d k MEMC.CFG 0 0 = t ∧
      t'.chip.state d (memcPage k) = if s.chip.migrating d k then mcMIGRATE else mcRUN)

/-- DRAM_CONFIG and DRAM_FREQ (R94, R369, R370). -/
def Obligations.DramConfigAndFrequency : Prop :=
  Claim.DramConfigRuns ∧ Claim.DramFreqRuns

/-- Sparing and migration (R373, R374, R377): RANK_SPARE starts a migration; each unit counts; after the last one the spare carries the
rank and the channel runs DEGRADED. -/
def Sys2Proof.Claim.MigrationRuns : Prop :=
  (∀ (s : State) (h : Hdr) (ch rank : Nat), s.chip.admits h (.rankSpare ch rank) → s.chip.serving h.die ch = true →
    rank < s.chip.mget h.die ch MEMC.CFG 5 4 → s.chip.migrating h.die ch = false → s.chip.mget h.die ch MEMC.STATUS 31 30 = 1 →
    ∃ t, exec (.rankSpare h ch rank) s = .next t ∧ t.mem = s.mem ∧ t.chip.migrating h.die ch = true ∧
      t.chip.mget h.die ch MEMC.MIGRATE 28 28 = rank % 2 ∧ t.chip.state h.die (memcPage ch) = mcMIGRATE ∧ (t.chip.chan h.die ch).units = 0) ∧
  (∀ (s : State) (d ch : Nat), isChannel s d ch → s.chip.migrating d ch = true →
    ((s.chip.chan d ch).units < 262144 → exec (.migrateUnitCopy d ch) s = .next (s.up fun c =>
      (c.setChan d ch { c.chan d ch with units := (c.chan d ch).units + 1 }).mput d ch MEMC.MIGRATE 17 0 ((c.chan d ch).units + 1))) ∧
    ((s.chip.chan d ch).units = 262144 →
      ∃ t, exec (.migrateDone d ch) s = .next t ∧ t.mem.flash = s.mem.flash ∧ t.mem.dram = s.mem.dram ∧ t.chip.migrating d ch = false ∧
        t.chip.mget d ch MEMC.STATUS 31 30 = 2 ∧ t.chip.mget d ch MEMC.STATUS 29 28 = s.chip.mget d ch MEMC.MIGRATE 28 28 + 1 ∧
        t.chip.state d (memcPage ch) = mcRUN ∧ (t.chip.chan d ch).tookOver = some (2, s.chip.now)))

/-- Refresh (R363 to R365): the pending count rises until a refresh is allowed; at 4 it is forced; MR4 sets the rate; ZQ calibration
shows nothing. -/
def Sys2Proof.Claim.RefreshRules : Prop :=
  ∀ (s : State) (d ch : Nat), isChannel s d ch →
    exec (.zqCalibration d ch) s = .next s ∧
    (s.chip.chanRuns d ch = true →
      (∀ rank ∈ s.chip.refreshRanks d ch, s.chip.now < s.chip.refreshAt d ch rank → exec (.refreshDue d ch rank) s = .next s) ∧
      (∀ rank ∈ s.chip.refreshRanks d ch, s.chip.refreshAt d ch rank ≤ s.chip.now → s.chip.mget d ch MEMC.STATUS 27 26 < 2 →
        s.chip.pendingRef d ch rank < 4 → s.chip.refreshAllowed d ch rank = false →
        ∃ t, exec (.refreshDue d ch rank) s = .next t ∧ t.mem = s.mem ∧ t.chip.pendingRef d ch rank = s.chip.pendingRef d ch rank + 1 ∧
          t.chip.refreshAt d ch rank = s.chip.refreshAt d ch rank + s.chip.trefi d ch) ∧
      (∀ rank ∈ s.chip.refreshRanks d ch, s.chip.refreshAt d ch rank ≤ s.chip.now → s.chip.mget d ch MEMC.STATUS 27 26 < 2 →
        s.chip.pendingRef d ch rank = 4 →
        ∃ t, exec (.refreshDue d ch rank) s = .next t ∧ t.mem = s.mem ∧ t.chip.pendingRef d ch rank = 4 ∧
          t.chip.num d (memcPage ch) MEMC.REF_FORCED_COUNT = min 0xFFFFFFFF (s.chip.num d (memcPage ch) MEMC.REF_FORCED_COUNT + 1)) ∧
      ∀ codes, ∃ t, exec (.mr4Poll d ch codes) s = .next t ∧ t.mem = s.mem ∧
        t.chip.mget d ch MEMC.STATUS 25 24 = min 2 (codes.foldl max 0))

/-- One scheduler cycle with one request and an empty queue (R360): it issues, its port was served last, and nothing is left in the
queue. A row with no access for IDLE_CLOSE cycles closes (R361). -/
def Sys2Proof.Claim.SchedulerServes : Prop :=
  ∀ (s : State) (d ch : Nat), isChannel s d ch →
    (∀ r : MemReq, r.port < 8 → s.chip.serving d ch = true → s.chip.unclocked d ch = false → (s.chip.chan d ch).queue = [] →
      s.chip.mget d ch MEMC.STATUS 27 26 = 0 → (s.chip.chan d ch).throttle = [] →
      ∃ t, exec (.schedulerIssue d ch ⟨[r], [0]⟩) s = .next t ∧ t.mem = s.mem ∧ (t.chip.chan d ch).turn = r.port ∧ (t.chip.chan d ch).queue = []) ∧
    (∀ bank, (KMap.getD (s.chip.chan d ch).banks bank {}).usedAt + s.chip.ctlTime d ch (s.chip.mget d ch MEMC.POLICY 31 16) ≤ s.chip.now →
      exec (.rowIdleClose d ch bank) s = .next (s.up fun c => c.setChan d ch { c.chan d ch with
        banks := KMap.put {} (c.chan d ch).banks bank { KMap.getD (c.chan d ch).banks bank {} with row := none } }))

/-- Power states of a channel (R366). -/
def Sys2Proof.Claim.DramPowerStates : Prop :=
  ∀ (s : State) (d ch : Nat), isChannel s d ch →
    (s.chip.chanRuns d ch = true → s.chip.mget d ch MEMC.STATUS 27 26 = 0 →
      (s.chip.idleFor d ch (s.chip.mget d ch MEMC.POWER 7 0) = true → s.chip.mget d ch MEMC.POWER 7 0 ≠ 0 → 20 ≤ s.chip.tol d →
        exec (.powerDownEntry d ch) s = .next (s.up fun c => c.mput d ch MEMC.STATUS 27 26 1)) ∧
      (s.chip.idleFor d ch (4 * s.chip.mget d ch MEMC.POWER 15 8) = true → s.chip.mget d ch MEMC.POWER 31 16 ≠ 0xFFFF →
        s.chip.mget d ch MEMC.POWER 31 16 ≤ s.chip.tol d → (∀ r < s.chip.mget d ch MEMC.CFG 5 4, s.chip.pendingRef d ch r ≤ 0) →
        exec (.selfRefreshEntry d ch) s = .next (s.up fun c => (c.mput d ch MEMC.STATUS 27 26 2).mcount d ch MEMC.SR_ENTRY_COUNT))) ∧
    ((s.chip.chan d ch).queue ≠ [] ∨ s.chip.tol d ≤ s.chip.exitTime d ch →
      (s.chip.mget d ch MEMC.STATUS 27 26 = 1 → exec (.lowPowerExit d ch) s = .next (s.up fun c => c.mput d ch MEMC.STATUS 27 26 0)) ∧
      (s.chip.mget d ch MEMC.STATUS 27 26 = 2 →
        exec (.lowPowerExit d ch) s = .next (s.up fun c => (c.mput d ch MEMC.STATUS 27 26 0).mput d ch MEMC.STATUS 11 0 0))) ∧
    ((s.chip.chan d ch).queue = [] → s.chip.exitTime d ch < s.chip.tol d → exec (.lowPowerExit d ch) s = .next s)

/-- Refresh, scheduling and power states of a channel (R360 to R366). -/
def Obligations.DramService : Prop :=
  Claim.RefreshRules ∧ Claim.SchedulerServes ∧ Claim.DramPowerStates

/-- Errors of a running channel (R372): a first write-CRC alert sends the write again; a first command error and a first error of a
slot are counted and shown. -/
def Sys2Proof.Claim.DramErrors : Prop :=
  ∀ (s : State) (d ch : Nat), isChannel s d ch → s.chip.chanRuns d ch = true →
    (∀ slot, (s.chip.chan d ch).retry = none → (s.chip.chan d ch).wcrcErrs = [] → exec (.wcrcAlert d ch slot) s = .next (s.up fun c =>
      (((c.setChan d ch { c.chan d ch with retry := some (slot, 1), wcrcErrs := [(c.slotRank d ch slot, c.now)] }).lastErr d ch 3 none).mcount d ch MEMC.WCRC_RETRY_COUNT).mevent d ch 2)) ∧
    (∀ rank, (s.chip.chan d ch).cmdErrs = [] → exec (.cmdErrAlert d ch rank) s = .next (s.up fun c =>
      (((c.setChan d ch { c.chan d ch with cmdErrs := [(rank, c.now)] }).mcount d ch MEMC.CMD_ERR_COUNT).lastErr d ch 4 none).mevent d ch 3)) ∧
    (∀ slot stale, slot < 2 ^ 24 → (s.chip.chan d ch).errors = [] → (s.chip.chan d ch).suspects = [] →
      ∃ t, exec (.slotErrorReport d ch slot stale) s = .next t ∧ t.mem = s.mem ∧ (t.chip.chan d ch).suspects = [(slot, false)] ∧
        (t.chip.chan d ch).errors = [(s.chip.slotRank d ch slot, s.chip.now)] ∧ t.chip.mget d ch MEMC.LAST_ERR 23 0 = slot ∧
        t.chip.mget d ch MEMC.LAST_ERR 26 24 = if stale then 2 else 1)

/-- Errors of a channel, sparing and migration (R372 to R374, R377). -/
def Obligations.DramErrorsAndMigration : Prop :=
  Claim.MigrationRuns ∧ Claim.DramErrors

/-- VDDQ_MEM (R472): its loss clears VDDQ_OK; a running channel goes out of service at once, and no migration starts; a channel that
does not run loses nothing else. Its return sets VDDQ_OK (R82). -/
def Obligations.VddqLossTakesTheChannelOut : Prop :=
  ∀ (s : State) (d ch : Nat), isChannel s d ch →
    (∃ t, exec (.vddqLoss d ch) s = .next t ∧ t.chip.get d (memphyPage ch) MEMPHY.PHY_STATUS 2 2 = 0 ∧ t.mem.dram = s.mem.dram ∧
      (s.chip.chanRuns d ch = true → t.chip.state d (memcPage ch) = mcLOST ∧ t.chip.serving d ch = false ∧ t.chip.migrating d ch = false ∧
        (t.chip.out (t.chip.leadOf d)).lossDue = true) ∧
      (s.chip.chanRuns d ch = false → t.mem = s.mem ∧ s.chip.regsBut t.chip fun a => a / 0x1000 = d * 0x1000 + memphyPage ch)) ∧
    ∃ t, exec (.vddqInRange d ch) s = .next t ∧ t.mem = s.mem ∧ t.chip.get d (memphyPage ch) MEMPHY.PHY_STATUS 2 2 = 1 ∧
      s.chip.regsBut t.chip fun a => a / 0x1000 = d * 0x1000 + memphyPage ch

/-! ### Hampers (R329 to R347, R353 to R355) -/

/-- The residual transform and its inverse agree on every tile (R336). -/
def Sys2Proof.Claim.ResidualRoundTrip : Prop := ∀ px : List Px, px.length = 1024 → pixelsOf (symbolsOf px) = px

/-- The raw layout loses nothing: pixels packed into bytes are read back (R333, R347). -/
def Sys2Proof.Claim.RawRoundTrip : Prop := ∀ px : List Px, rawPixels px.length (rawBytes px) = px

/-- The residual transform and the raw layout lose nothing (R333, R336). -/
def Obligations.TileBodies : Prop :=
  Claim.ResidualRoundTrip ∧ Claim.RawRoundTrip

/-- The dictionary coder and its decoder agree: a coded tile that fits decodes to the tile (R337, R338). -/
def Obligations.DictRoundTrip : Prop := ∀ px : List Px, px.length = 1024 → lzwDecode (lzwBody (symbolsOf px)) = some px

/-- An owner that a hamper can carry: a layer ID, or a frame plane of an output (R331). -/
abbrev Sys2Proof.ownerOk (owner : Nat) : Prop := owner < 0x1000 ∨ (0x8000 ≤ owner ∧ owner < 0x8010)

/-- Encode and decode agree: every reader that expects the owner, and for a frame plane the sequence number, gets back the tile that
was encoded, whatever the encoder's controls (R331 to R339). -/
def Obligations.HamperRoundTrip : Prop :=
  ∀ (noFill forced checkFails subst : Bool) (owner seq : Nat) (px : List Px), px.length = 1024 → ownerOk owner →
    let h := (hamperOf noFill forced checkFails subst owner seq px).2
    readHamper h owner none = .ok px ∧ readHamper h owner (some seq) = .ok px

/-- A reader that expects another owner, or another frame of a frame plane, is refused (R339). -/
def Sys2Proof.Claim.HamperRefusals : Prop :=
  ∀ (noFill forced checkFails subst : Bool) (owner other seq sq : Nat) (px : List Px), px.length = 1024 → ownerOk owner →
    let h := (hamperOf noFill forced checkFails subst owner seq px).2
    (other ≠ owner → ∀ x, readHamper h other x = .error causeOWNER) ∧
      (sq % 256 ≠ seq % 256 → readHamper h owner (some sq) = .error causeSTALE) ∧
      readHamper (emptyHamper owner seq) owner none = .error causeEMPTY

/-- A header is well formed when no reserved bit is 1, BODY_LEN lies in the range of its FORMAT, and FILL_PX is 0 for any format but
FILL; one that is not fails with FORMAT, whatever its body (R331, R332, R339). -/
def Sys2Proof.Claim.HeaderWellFormed : Prop :=
  (∀ bs : List Byte, 16 ≤ bs.length →
    let f := fieldAt bs 0 1
    let len := fieldAt bs 2 2
    let owner := fieldAt bs 4 2
    let reserved := f / 4 ≠ 0 ∨ fieldAt bs 1 1 / 2 ≠ 0 ∨ len / 0x2000 ≠ 0 ∨ owner / 0x1000 % 8 ≠ 0 ∨
      (owner.testBit 15 = true ∧ owner / 16 % 0x800 ≠ 0) ∨ fieldAt bs 7 5 / 2 ^ 36 ≠ 0
    let range := if f = fmtDICT then 1 ≤ len ∧ len ≤ 4608 else if f = fmtSTORED then len = 4608 else len = 0
    (headerOk bs = true ↔ ¬reserved ∧ range ∧ (f ≠ fmtFILL → fieldAt bs 7 5 = 0))) ∧
  ∀ (bs : List Byte) (owner : Nat) (seq : Option Nat),
    readHamper bs owner seq = .error causeFORMAT ↔ headerOk (bs.take 16) = false

/-- What a reader of a hamper refuses (R331, R332, R339). -/
def Obligations.HamperChecks : Prop :=
  Claim.HamperRefusals ∧ Claim.HeaderWellFormed

/-- Layer slot z of a die is channel slot z ÷ 2 of channel z modulo 2, and SLOT_LIMIT is 2 × (N_ch − 75,776): 7,188,480 with two
active ranks in order 3, 7,202,844 in orders 0 to 2 (R355). -/
def Obligations.LayerSlots : Prop :=
  (∀ z < 2 ^ 25, layerSlot z / 2 ^ 24 = z % 2 ∧ layerSlot z % 2 ^ 24 = z / 2) ∧
    2 * (channelSlots 2 3 - 75776) = 7188480 ∧ (∀ order < 3, 2 * (channelSlots 2 order - 75776) = 7202844) ∧
    ∀ (c : Chip) (d : Nat), d < 8 → c.serving d 0 = true → c.serving d 1 = true →
      (c.noteChannels d).num d COMP COMP.SLOT_LIMIT = 2 * (c.nCh d 0 - 75776)

/-! ### Panel tables and stages (R246 to R272) -/

/-- Stages that are set to do nothing do nothing (R249, R258, R262 to R264): a zero grid leaves every code, samples of gain 1 and offset
0 leave every code, no defect leaves every code; and gamma with dither gives codes of the driver's depth. -/
def Obligations.PanelStageLaws : Prop :=
  (∀ (bank : Array Byte) (ch prev cur : Nat), (∀ i j, odNode bank ch i j = 0) → cur < 4096 → overdrive bank ch prev cur = cur) ∧
  (∀ v wx wy, v < 4096 → wx ≤ 16 → wy ≤ 16 → demura v (0x4000, 0) (0x4000, 0) (0x4000, 0) (0x4000, 0) wx wy = v) ∧
  (∀ col ch v, v < 4096 → maskCh [] col ch v = v) ∧
  (∀ n mode g t, n ≤ 16 → g < 65536 → ditherCh n mode g t < 2 ^ n) ∧ ∀ n g t, ditherCh n 2 g t = g / 2 ^ (16 - n)

/-- A pinned overdrive bank (R252): every die of the gang uses PIN_BANK, and PIN_ALARM is set while the bank of the temperature
differs. -/
def Obligations.PinnedBank : Prop :=
  ∀ (c : Chip) (o : Nat), c.flag o PANEL_OD OD.CTRL 3 = true → c.formed o = true →
    let pin := c.get o PANEL_OD OD.CTRL 5 4
    let pts := fun k => signed 8 (c.get o PANEL_OD OD.TEMP_POINTS (8 * k + 7) (8 * k))
    let chosen := match c.panelTemp o with
      | some v => selectBank pts v (c.get o PANEL_OD OD.STATUS 9 8)
      | none => c.get o PANEL_OD OD.CTRL 9 8
    (∀ d ∈ c.gang o, (c.bankSelect o).get d PANEL_OD OD.STATUS 9 8 = pin) ∧
      (chosen ≠ pin → bit ((c.bankSelect o).reg o PANEL_OD PAGE_EVENT) 4 = true)

/-- TABLE_LOAD (R265, R266): without a commit of its page pending and with a place for the table it stays in flight; an image that
passes every check is taken, and the command completes OK. -/
def Sys2Proof.Claim.TableLoadRuns : Prop :=
  (∀ (s : State) (h : Hdr) (t b source : Nat) (a : Word) (n : Nat), let cmd := Cmd.tableLoad t b source a n
    s.chip.admits h cmd → s.chip.committing (s.chip.leadOf h.die) (tablePage t) = false →
    (t = 2 → s.chip.serving h.die 0 = true ∨ s.chip.serving h.die 1 = true) → (t ≠ 2 → s.chip.ownsBasket h.die 4 = true) →
    exec (.tableLoad h t b source a n) s = .next (s.starts h cmd)) ∧
  (∀ (s : State) (d t b n : Nat) (a : Word) (r : Req) (img : Image), d < dieCount s.chip.member →
    (s.chip.reqs (fun r => isTableLoad d r && r.started)).head? = some r → r.cmd = .tableLoad t b 0 a n →
    s.chip.readImage d t b n (((s.chip.die d).partialMap.map (fun m => m.rows)).getD 0) (s.mem.flashBytes s.chip.fresh a.toNat n) = some img →
    exec (.tableLoadDone d false) s = .next ((s.takeImage d (tablePage t) img).up fun c => (c.notePanel d).done r OK))

/-- A TABLE_LOAD that arrives while a commit of its page is pending on the lead is BUSY; a load in progress finishes, and its table
becomes staged at the step point, for the next commit (R268); one that ends in the cycle of the commit is staged at once, and so is
in the commit (R272). -/
def Obligations.TableLoadDuringCommit : Prop :=
  (∀ (s : State) (h : Hdr) (t b source : Nat) (a : Word) (n : Nat), let cmd := Cmd.tableLoad t b source a n
    s.chip.admits h cmd → s.chip.committing (s.chip.leadOf h.die) (tablePage t) = true →
    exec (.tableLoad h t b source a n) s = .next ((s.starts h cmd).done (s.req h cmd) BUSY)) ∧
  (∀ (s : State) (d t b n : Nat) (a : Word) (r : Req) (img : Image), d < dieCount s.chip.member →
    (s.chip.reqs (fun r => isTableLoad d r && r.started)).head? = some r → r.cmd = .tableLoad t b 0 a n →
    s.chip.readImage d t b n (((s.chip.die d).partialMap.map (fun m => m.rows)).getD 0) (s.mem.flashBytes s.chip.fresh a.toNat n) = some img →
    s.chip.committing (s.chip.leadOf d) (tablePage t) = true →
    (s.chip.commitTime (s.chip.leadOf d) (tablePage t) < s.chip.now →
      ∃ u : State, exec (.tableLoadDone d false) s = .next (u.done r OK) ∧ (u.chip.die d).staged = (s.chip.die d).staged ∧
        (t ≠ 2 → (u.chip.die d).next = (s.chip.die d).next.take img) ∧
        ∀ cols rows first total body, img = .demura cols rows first total body → first + rows = total → (u.chip.die d).next.demura.isSome = true) ∧
    (s.chip.commitTime (s.chip.leadOf d) (tablePage t) = s.chip.now → t ≠ 2 →
      ∃ u : State, exec (.tableLoadDone d false) s = .next (u.done r OK) ∧ (u.chip.die d).next = (s.chip.die d).next ∧
        (u.chip.die d).staged = (s.chip.die d).staged.take img)) ∧
  (∀ (c : Chip) (o : Nat), ∀ d ∈ c.gang o,
    ((c.panelStepPoint o PANEL_OD).die d).staged.od = (c.die d).next.od ∧
    ((c.panelStepPoint o PANEL_DM).die d).staged.defects = (c.die d).next.defects ∧
    ((c.panelStepPoint o PANEL_DM).die d).staged.demura = (c.die d).next.demura ∧
    ((c.panelStepPoint o PANEL_DT).die d).staged.gamma = (c.die d).next.gamma ∧
    ((c.panelStepPoint o PANEL_DT).die d).staged.dither = (c.die d).next.dither)

/-- What reaches a die for the frame in progress (R253, R259, R260): a previous-frame tile that verifies, a demura row whose CRC is
right, as that of every record that the device makes is (R257), a row whose CRC is not right, which counts and is not used, and a
neighbour's halo. -/
def Sys2Proof.Claim.PanelFetches : Prop :=
  (∀ (cols : Nat) (samples : List Byte), samples.length = 12 * cols → readRow cols (rowRecord samples) = some samples) ∧
  ∀ (s : State) (d : Nat), d < dieCount s.chip.member →
    let o := s.chip.leadOf d
    (∀ tx ty lead held px,
      let e := s.chip.entry o
      let p := (s.chip.seq o + 1) % 2
      ((s.chip.out o).planes.getD p {}).frame = some held → s.chip.hasEntry o = true → s.chip.odOff d = false → tx < e.w / 64 →
      ty < e.vActive / 16 → s.chip.reads d p = true → KMap.get? (s.chip.die d).prev (ty * 64 + tx) = none →
      readHamper (s.chip.slotBytes s.mem d (s.chip.planeSlot d p e.w tx ty)) (planeOwner o p) (some held.toNat) = .ok px →
      ∃ t, exec (.prevFrameTileDone d tx ty lead) s = .next t ∧ t.mem = s.mem ∧
        KMap.get? (t.chip.die d).prev (ty * 64 + tx) = some (some px) ∧
        s.chip.regsBut t.chip fun a => a = ra d PANEL_OD OD.MARGIN_MIN) ∧
    (∀ row m, let ch := if s.chip.serving d (row % 2) then row % 2 else 1 - row % 2
      let record := s.chip.granules s.mem d ch (m.granule row) (recordGranules m.cols)
      (s.chip.die d).active.demura = some m → s.chip.demuraOn d = true → row < s.chip.mapRows o → KMap.get? (s.chip.die d).dmRows row = none →
      row ∉ (s.chip.die d).dmFailed → s.chip.reads d ch = true →
      (∀ samples, readRow m.cols record = some samples → exec (.demuraRowDone d row true) s =
        .next (s.up fun c => c.setDie d { c.die d with dmRows := KMap.set (c.die d).dmRows row samples })) ∧
      (readRow m.cols record = none → ∃ t, exec (.demuraRowDone d row true) s = .next t ∧ row ∈ (t.chip.die d).dmFailed ∧
        KMap.get? (t.chip.die d).dmRows row = none ∧
        t.chip.num d PANEL_DM DM.CRC_COUNT = min 0xFFFFFFFF (s.chip.num d PANEL_DM DM.CRC_COUNT + 1))) ∧
    (∀ line, s.chip.hasEntry o = true → line < (s.chip.entry o).vActive →
      (o < d → line * 2 ∉ (s.chip.die d).halo → exec (.haloRx d .prev line) s =
        .next (s.up fun c => c.setDie d { c.die d with halo := (c.die d).halo ++ [line * 2] })) ∧
      (d + 1 < o + 2 ^ s.chip.gangCode o → line * 2 + 1 ∉ (s.chip.die d).halo → exec (.haloRx d .next line) s =
        .next (s.up fun c => c.setDie d { c.die d with halo := (c.die d).halo ++ [line * 2 + 1] })))

/-- Loading panel tables, and what reaches a die for a frame (R253, R259, R260, R265, R266). -/
def Obligations.PanelTablesAndFetches : Prop :=
  Claim.TableLoadRuns ∧ Claim.PanelFetches

/-! ### The driver link (R301 to R328) -/

/-- A driver position that the member can have, and that the chain has. -/
abbrev Sys2Proof.isDriver (s : State) (d k p : Nat) : Prop := d < dieCount s.chip.member ∧ k < 16 ∧ p < 8 ∧ p < s.chip.chainDrivers d

/-- Reports of drivers (R315 to R320): STATUS shows the lock and the rate of its position and that it reports; TEMP and HELLO are
kept; a silent position and a discarded frame are counted. -/
def Sys2Proof.Claim.DriverReports : Prop :=
  ∀ (s : State) (d k p : Nat), isDriver s d k p →
    (∀ lock rate loop fom code crc, s.chip.training d (8 + k) = false →
      (s.chip.isReady d (8 + k) = true → lock = true ∧ s.chip.lrate d (8 + k) < 3) →
      ∃ t, exec (.statusFrameRx d k p lock rate loop fom code crc) s = .next t ∧ t.mem = s.mem ∧ t.chip.retGet d k p p = lock.toNat ∧
        t.chip.retGet d k (8 + p) (8 + p) = 1 ∧ (t.chip.driver d k p).rate = rate ∧ (t.chip.driver d k p).statusAt = s.chip.now ∧
        t.chip.num d DLINK DLINK.DRV_CODE_COUNT = min 0xFFFFFFFF (s.chip.num d DLINK DLINK.DRV_CODE_COUNT + code)) ∧
    (∀ temp, exec (.tempFrameRx d k p temp) s = .next (s.up fun c => c.setDriver d k p { c.driver d k p with
      temps := (c.driver d k p).temps.filter (fun y => decide (c.now ≤ y.2 + 1000000000)) ++ [(temp, c.now)] })) ∧
    (∀ rates, ∃ t, exec (.helloFrameRx d k p rates) s = .next t ∧ t.mem = s.mem ∧ (t.chip.driver d k p).hello = some rates ∧
      t.chip.retGet d k 20 16 = t.chip.chainRates d k % 32) ∧
    (s.chip.retGet d k (8 + p) (8 + p) = 1 → exec (.retSilent d k p) s =
      .next (s.up fun c => ((c.retPut d k (8 + p) (8 + p) 0).count d DLINK DLINK.RET_SILENT_COUNT).event d DLINK 2)) ∧
    (∀ halves, exec (.returnFrameDiscard ⟨d, k, halves⟩) s = .next (s.up fun c => match retFrame halves with
      | some bs => c.takeFrame d k bs
      | none => (c.count d DLINK DLINK.RET_ERR_COUNT).event d DLINK 1))

/-- Configuration access (R321): DRV_CMD with GO to a READY lane is in progress with a TAG of its own and the operands of the word; the
driver's answer ends it with STATUS 2 and the data of a read; 1 ms without one ends it with STATUS 4. -/
def Sys2Proof.Claim.DriverCommands : Prop :=
  (∀ (s : State) (h : Hdr) (w : Word), s.mayWrite h DLINK DLINK.DRV_CMD w → bit w 31 = true →
    s.chip.isReady h.die (8 + bits w 27 24) = true → s.chip.hasEntry (s.chip.leadOf h.die) = true →
    ∃ u : State, exec (.drvCmd h w) s = .next (u.done (s.req h (oneWord h DLINK DLINK.DRV_CMD w)) OK) ∧ u.mem = s.mem ∧
      u.chip.get h.die DLINK DLINK.DRV_RESULT 2 0 = 1 ∧
      u.chip.get h.die DLINK DLINK.DRV_CMD 7 0 = (s.chip.get h.die DLINK DLINK.DRV_CMD 7 0 + 1) % 256 ∧
      (u.chip.die h.die).drv = some { lane := bits w 27 24, pos := bits w 22 20, bcast := bit w 29, read := bit w 30,
                                      tag := u.chip.get h.die DLINK DLINK.DRV_CMD 7 0, addr := bits w 15 8,
                                      data := bits (s.chip.reg h.die DLINK DLINK.DRV_DATA) 15 0, sent := false, answered := [],
                                      refused := false }) ∧
  (∀ (s : State) (d k p : Nat) (x : DrvCmd), isDriver s d k p → (s.chip.die d).drv = some x → x.sent = true → x.lane = k → x.pos = p →
    x.bcast = false →
    (x.read = false → x.refused = false → ∃ t, exec (.ackFrameRx d k p x.tag 0) s = .next t ∧ t.mem = s.mem ∧ (t.chip.die d).drv = none ∧
      t.chip.get d DLINK DLINK.DRV_RESULT 2 0 = 2) ∧
    (x.read = true → x.refused = false → ∀ data < 65536, ∃ t, exec (.readDataFrameRx d k p x.tag x.addr data) s = .next t ∧ t.mem = s.mem ∧
      (t.chip.die d).drv = none ∧ t.chip.get d DLINK DLINK.DRV_RESULT 2 0 = 2 ∧ t.chip.get d DLINK DLINK.DRV_RESULT 31 16 = data) ∧
    exec (.drvCmdTimeout d) s = .next (s.up fun c =>
      ((c.setDie d { c.die d with drv := none }).put d DLINK DLINK.DRV_RESULT 2 0 4).event d DLINK 5))

/-- Reports of drivers, and configuration access (R315 to R321). -/
def Obligations.ColumnDrivers : Prop :=
  Claim.DriverReports ∧ Claim.DriverCommands

/-! ### Faults, the steward and its watchdog (R445 to R464) -/

/-- PAGE_FAULT_CODE shows the most severe of the codes that its page holds latched (R154, R448): a second fault leaves the higher one
shown, and clearing a code shows the highest of the others. -/
def Obligations.FaultCodes : Prop :=
  ∀ (c : Chip) (d p v : Nat), (∀ x ∈ v :: c.codesOf d p, x < 2 ^ 32) →
    (c.latchCode d p v).codesOf d p = (c.codesOf d p).filter (fun x => x ≠ v) ++ [v] ∧
    v ≤ (c.latchCode d p v).faultCode d p ∧ (∀ x ∈ c.codesOf d p, x ≤ (c.latchCode d p v).faultCode d p) ∧
    (c.latchCode d p v).faultCode d p ∈ v :: c.codesOf d p ∧
    v ∉ (c.unlatchCode d p v).codesOf d p ∧ ∀ x ∈ c.codesOf d p, x ≠ v → x ≤ (c.unlatchCode d p v).faultCode d p

/-- A fatal cause (R446, R459, R72): the FAULT page latches it, FIRST keeps the first one, and its output enters SAFE: at its next line
start with a timing entry in effect, and at once without. -/
def Sys2Proof.Claim.FatalCauseLatches : Prop :=
  ∀ (s : State) (d code : Nat), d < dieCount s.chip.member → 1 ≤ code → code ≤ 5 → (d, code) ∈ s.chip.fatals →
    let o := s.chip.leadOf d
    ∃ t, exec (.fatalCauseLatch d code) s = .next t ∧ t.mem.flash = s.mem.flash ∧ t.mem.dram = s.mem.dram ∧
      t.chip.flag d FAULT FAULT.LATCHED (code - 1) = true ∧ (d, code) ∉ t.chip.fatals ∧
      (s.chip.num d FAULT FAULT.LATCHED = 0 → t.chip.num d FAULT FAULT.FIRST = (fatalSource code).1 * 65536 + code) ∧
      (s.chip.power = .running → s.chip.mode o ≠ SAFE → (s.chip.out o).safeDue = none →
        (s.chip.hasEntry o = true → (t.chip.out o).safeDue = some (safeCause code)) ∧
        (s.chip.hasEntry o = false → t.chip.mode o = SAFE))

/-- Clearing (R447, R448, R462): a 1 written to LATCHED clears a cause that is no longer present; CODE_CLEAR takes back the code that a
page shows; AVAIL_CLR clears the counters of the output and nothing else, but for the
frame that is classified in the same cycle (R464). -/
def Sys2Proof.Claim.FaultClears : Prop :=
  (∀ (s : State) (h : Hdr) (w : Word), s.mayWrite h FAULT FAULT.LATCHED w →
    ∃ u : State, exec (.faultLatchedClear h w) s = .next (u.done (s.req h (oneWord h FAULT FAULT.LATCHED w)) OK) ∧
      u.mem.flash = s.mem.flash ∧ u.mem.dram = s.mem.dram ∧
      ∀ k < 5, u.chip.flag h.die FAULT FAULT.LATCHED k = (s.chip.flag h.die FAULT FAULT.LATCHED k &&
        !(bit w k && !s.chip.present h.die (k + 1) && !s.chip.fatals.contains (h.die, k + 1)))) ∧
  (∀ (s : State) (h : Hdr) (p : Nat), p < 0x111 → s.mayWrite h FAULT FAULT.CODE_CLEAR (BitVec.ofNat 32 (2 ^ 31 + p)) →
    s.chip.faultCode h.die p ≠ 0 →
    ∃ u : State, exec (.codeClear h p) s = .next (u.done (s.req h (oneWord h FAULT FAULT.CODE_CLEAR (BitVec.ofNat 32 (2 ^ 31 + p)))) OK) ∧
      u.mem.flash = s.mem.flash ∧ u.mem.dram = s.mem.dram ∧
      u.chip.codesOf h.die p = (s.chip.codesOf h.die p).filter (fun x => x ≠ s.chip.faultCode h.die p)) ∧
  (∀ (s : State) (h : Hdr), s.mayWrite h FAULT FAULT.AVAIL_CLR 1#32 → s.chip.leadOf h.die = h.die →
    ∃ t, exec (.availClr h) s = .next t ∧ t.mem = s.mem ∧
      let counters := [FAULT.LOST_NS, FAULT.LOST_NS + 4, FAULT.LINK_NS, FAULT.LINK_NS + 4, FAULT.HELD_NS, FAULT.HELD_NS + 4, FAULT.LOST_FRAMES]
      ((s.chip.out h.die).frameAt ≠ s.chip.now ∨ (s.chip.out h.die).lastCount.1 = 0 → ∀ o ∈ counters, t.chip.num h.die FAULT o = 0) ∧
      (∀ n, (s.chip.out h.die).frameAt = s.chip.now → (s.chip.out h.die).lastCount = (1, n) → n < 2 ^ 32 →
        t.chip.num h.die FAULT FAULT.LOST_NS = n ∧ t.chip.num h.die FAULT FAULT.LOST_FRAMES = 1) ∧ s.chip.regsBut t.chip fun a => ∃ o ∈ counters, a = ra h.die FAULT o)

/-- Fatal causes, and clearing codes and counters (R446 to R448, R462). -/
def Obligations.FaultLatching : Prop :=
  Claim.FatalCauseLatches ∧ Claim.FaultClears

/-- TIMEOUT_MS (R455): below 10 is reserved; above 1000 sets POLICY_CONFLICT, reads back as written and is held at 1000; a change takes
effect at the next kick. -/
def Sys2Proof.Claim.WatchdogTimeout : Prop :=
  (∀ (c : Chip) (p : Port) (direct : Bool) (d : Nat) (w : Word),
    c.valueStatus p direct d STEWARD .steward STEWARD.WDOG_CTRL w = if bits w 15 0 < 10 then ARG else OK) ∧
  (∀ (s : State) (h : Hdr) (w : Word), s.mayWrite h STEWARD STEWARD.WDOG_CTRL w →
    exec (.regWrite h (regWord h.die STEWARD STEWARD.WDOG_CTRL) [w]) s = .next (s.wrote h STEWARD STEWARD.WDOG_CTRL w fun c =>
      (c.setReg h.die STEWARD STEWARD.WDOG_CTRL (mergeBits 0xFFFF (c.reg h.die STEWARD STEWARD.WDOG_CTRL) w)).eventIf
        (decide (1000 < bits w 15 0)) h.die STEWARD 3)) ∧
  (∀ (s : State) (d : Nat), d < dieCount s.chip.member →
    ((s.chip.die d).steward = .running → exec (.wdogKick d 0xA5#32) s = .next (s.up fun c => c.setDie d { c.die d with
      wdogAt := c.now, wdogMs := min 1000 (c.get d STEWARD STEWARD.WDOG_CTRL 15 0) })) ∧
    ∀ w, w ≠ 0xA5#32 → exec (.wdogKick d w) s = .next s)

/-- Expiries (R453, R454): the steward is no longer READY and the expiry is kept; the third within 600 s, and a restart that does not
come back within 100 ms, hold it; a restarted steward runs, READY, with its watchdog armed. -/
def Sys2Proof.Claim.WatchdogExpiries : Prop :=
  ∀ (s : State) (d : Nat), d < dieCount s.chip.member →
    (∀ y, y = s.chip.die d → y.steward = .running → y.wdogAt + y.wdogMs * 1000000 < s.chip.now →
      ∃ t, exec (.wdogExpire d) s = .next t ∧ t.mem.flash = s.mem.flash ∧ t.mem.dram = s.mem.dram ∧ t.chip.ready d STEWARD = false ∧
        (t.chip.die d).expiries = s.chip.expiries d ++ [s.chip.now] ∧
        ((t.chip.die d).steward = .held ∨ (t.chip.die d).steward = .restarting s.chip.now) ∧
        (2 ≤ (s.chip.expiries d).length → (t.chip.die d).steward = .held ∧ t.chip.get d STEWARD STEWARD.WDOG_STATUS 0 0 = 1)) ∧
    (∀ since, (s.chip.die d).steward = .restarting since →
      (since + 100000000 < s.chip.now → ∃ t, exec (.wdogRestartTimeout d) s = .next t ∧ t.mem.flash = s.mem.flash ∧
        t.mem.dram = s.mem.dram ∧ (t.chip.die d).steward = .held ∧ t.chip.get d STEWARD STEWARD.WDOG_STATUS 0 0 = 1 ∧
        1 ∈ t.chip.codesOf d STEWARD) ∧
      ∃ t, exec (.stewardReady d) s = .next t ∧ t.mem = s.mem ∧ (t.chip.die d).steward = .running ∧ t.chip.ready d STEWARD = true ∧
        (t.chip.die d).wdogAt = s.chip.now)

/-- The watchdog (R452 to R455). -/
def Obligations.Watchdog : Prop :=
  Claim.WatchdogTimeout ∧ Claim.WatchdogExpiries

/-! ### Calibration, ageing and margins (R396 to R416) -/

/-- CAL_RUN (R397 to R399): the run starts on every die of the gang, and stays in flight; a plausible VREF cell takes effect at the end
of a die's run. -/
def Sys2Proof.Claim.CalRuns : Prop :=
  (∀ (s : State) (h : Hdr) (p : List Byte), s.chip.admits h (.calRun p) → (s.chip.out (fieldAt p 0 1)).cal = none →
    (fieldAt p 1 1).testBit 2 = false →
    ∃ t, exec (.calRun h p) s = .next t ∧ t.mem = s.mem ∧ s.req h (.calRun p) ∈ t.chip.inflight ∧ (t.chip.out h.die).cal = some {} ∧
      ∀ d ∈ s.chip.gang h.die, t.chip.state d CAL = 2 ∧ t.chip.get d CAL PAGE_STATUS 1 1 = 1) ∧
  (∀ (s : State) (d : Nat) (x : CalSamples) (run : CalRun) (r : Req) (p : List Byte), d < dieCount s.chip.member →
    let o := s.chip.leadOf d
    (s.chip.out o).cal = some run → d ∉ run.done → (s.chip.reqs (isCalRun o)).head? = some r → r.cmd = .calRun p → fieldAt p 1 1 = 2 →
    vrefFail x = 0 → x.vrefCell < 4 →
    ∃ t, exec (.calRunDone d x) s = .next t ∧ t.mem = s.mem ∧ t.chip.get d CAL CAL.VREF 1 0 = x.vrefCell ∧
      t.chip.num d CAL CAL.RESULT = 2 ∧ t.chip.state d CAL = 1 ∧
      ((t.chip.out o).cal = none ∨ ∃ z, (t.chip.out o).cal = some z ∧ d ∈ z.done))

/-- AGE_SCAN (R407, R408): the scan runs on every die of the gang and stays in flight; at its end each oscillator pair shows how much
slower it has become, and the command completes. -/
def Sys2Proof.Claim.AgeScans : Prop :=
  (∀ (s : State) (h : Hdr) (p : List Byte), s.chip.admits h (.ageScan p) →
    ∃ t, exec (.ageScan h p) s = .next t ∧ t.mem = s.mem ∧ s.req h (.ageScan p) ∈ t.chip.inflight ∧
      ∀ d ∈ s.chip.gang h.die, t.chip.state d AGE = 2) ∧
  (∀ (s : State) (o : Nat) (x : AgeSamples) (r : Req) (p : List Byte), s.chip.formed o = true → s.chip.gangCode o = 0 →
    (s.chip.reqs (isAgeScan o)).head? = some r → r.cmd = .ageScan p → (fieldAt p 1 1).testBit 0 = true →
    s.chip.answers (portDie r.port) r.die = true →
    ∃ t, exec (.ageScanDone o [x]) s = .next t ∧ t.mem = s.mem ∧ (∀ q ∈ t.chip.inflight, q.id ≠ r.id) ∧ t.chip.state o AGE = 1 ∧
      ∀ k v, k < 8 → x.ratios[k]? = some v →
        t.chip.num o AGE (AGE.RO + 4 * k) = slowPpm (s.chip.num o AGE (AGE.RO_BASE + 4 * k)) v % 2 ^ 32)

/-- MARGIN_SCAN (R411 to R414): with a rank to scan, or a spare to hold, the scan is in progress; a rank's narrowest window is kept; the
end of a hold shows the result. -/
def Sys2Proof.Claim.MarginScans : Prop :=
  (∀ (s : State) (h : Hdr) (p : List Byte), s.chip.admits h (.marginScan p) → (s.chip.out h.die).scan = none →
    (∀ d ∈ s.chip.gang h.die, ∀ ch ∈ maskChannels (fieldAt p 2 1), s.chip.serving d ch = true) →
    ∀ d ∈ s.chip.gang h.die, ∀ ch ∈ maskChannels (fieldAt p 2 1),
      (fieldAt p 1 1 = 0 → s.chip.mget d ch MEMC.CFG 9 8 = 3 → (∃ k ∈ s.chip.goodRanks d ch, (fieldAt p 3 1).testBit k = true) →
        ∃ t, exec (.marginScan h p) s = .next t ∧ t.mem = s.mem ∧ (t.chip.out h.die).scan.isSome = true ∧ t.chip.state d AGE = 2) ∧
      (fieldAt p 1 1 = 1 → s.chip.mget d ch MEMC.STATUS 31 30 = 1 → s.chip.migrating d ch = false →
        ∃ t, exec (.marginScan h p) s = .next t ∧ t.mem = s.mem ∧ (t.chip.out h.die).scan.isSome = true ∧
          (t.chip.chan d ch).holding = true)) ∧
  (∀ (s : State) (d ch rank : Nat) (l : List LaneWindow), isChannel s d ch → rank < 3 →
    (s.chip.out (s.chip.leadOf d)).scan.any (fun m => m.todo.contains (scanKey d ch rank)) = true → (s.chip.chan d ch).holding = false →
    4 ≤ narrowest l →
    ∃ t, exec (.rankScanDone d ch rank l) s = .next t ∧ t.mem = s.mem ∧
      t.chip.get d AGE (AGE.DQ_WIN + 4 * ch) (8 * rank + 7) (8 * rank) = narrowest l) ∧
  (∀ (s : State) (d ch : Nat) (pass : Bool), isChannel s d ch → (s.chip.chan d ch).holding = true →
    ∃ t, exec (.retentionHoldEnd d ch pass) s = .next t ∧ t.mem = s.mem ∧ (t.chip.chan d ch).holding = false ∧
      t.chip.get d AGE AGE.RETENTION (2 * ch + 1) (2 * ch) = if pass then 1 else 2)

/-- CAL_RUN, AGE_SCAN and MARGIN_SCAN (R397 to R414). -/
def Obligations.CalibrationAgeingMargins : Prop :=
  Claim.CalRuns ∧ Claim.AgeScans ∧ Claim.MarginScans

/-! ### Core voltage and temperature (R417 to R425) -/

/-- The request (R418 to R420): the bounds hold every voltage between 650 and 850 mV, and a move towards a target is of at most 5 mV and
never passes it. With the loop pinned LOOP_MV stands still, the request moves towards PIN_MV as held, and PIN_ALARM sets while the
worst slack is below SLACK_LO. -/
def Sys2Proof.Claim.VoltageRequest : Prop :=
  (∀ v, 650 ≤ holdMv v ∧ holdMv v ≤ 850) ∧
  (∀ a b, towards a b ≤ a + 5 ∧ a ≤ towards a b + 5 ∧ (a ≤ b → a ≤ towards a b ∧ towards a b ≤ b) ∧ (b ≤ a → b ≤ towards a b ∧ towards a b ≤ a)) ∧
  ∀ (s : State) (d : Nat) (worst : Int), s.chip.pinned d = true → (s.chip.codesOf d PWR).contains 1 = false → 8 ≤ worst →
    (s.chip.avs d).crit = false →
    let t := s.loopPeriod d worst
    t.mem = s.mem ∧ (t.chip.avs d).req = towards (s.chip.avs d).req (holdMv (s.chip.get d PWR PWR.AVS_CTRL 25 16)) ∧
      t.chip.get d PWR PWR.AVS_STATUS 9 0 = s.chip.get d PWR PWR.AVS_STATUS 9 0 ∧
      (worst < heldLow (s.chip.reg d PWR PWR.AVS_SLACK) → bit (t.chip.reg d PWR PAGE_EVENT) 1 = true)

/-- The rows of the loop (R417, R421, R423): a slack report lowers the worst slack; a period with the loop disabled shows it; a frame that
succeeds after AVS_LOST clears the code; VDD_CORE below the floor latches VFLOOR, which is fatal. -/
def Sys2Proof.Claim.AvsRows : Prop :=
  ∀ (s : State) (d : Nat), d < dieCount s.chip.member →
    (s.chip.dieRuns d = true →
      (∀ v : Int, -128 ≤ v → v ≤ 127 → ∃ t, exec (.slackReport d v) s = .next t ∧ t.mem = s.mem ∧
        (t.chip.avs d).worst = some (match (s.chip.avs d).worst with | some w => min w v | none => v) ∧
        signed 8 (t.chip.get d PWR PWR.SLACK 7 0) = min v (signed 8 (s.chip.get d PWR PWR.SLACK 7 0))) ∧
      (∀ measured answered, s.chip.loopOn d = false → s.chip.committing d PWR = false → (s.chip.avs d).start = false →
        ∃ t, exec (.avsPeriod d measured answered) s = .next t ∧ t.mem = s.mem ∧ (t.chip.avs d).worst = none ∧
          (t.chip.avs d).req = (s.chip.avs d).req ∧ s.chip.regsBut t.chip fun a => a = ra d PWR PWR.SLACK) ∧
      ((s.chip.codesOf d PWR).contains 1 = true → exec (.avsRetry d true) s =
        .next (s.up fun c => (c.count d PWR PWR.AVS_WRITE_COUNT).unlatchCode d PWR 1))) ∧
    (s.chip.ready d AON = true → s.chip.power ≠ .standby →
      ∃ t, exec (.vfloor d) s = .next t ∧ t.mem.flash = s.mem.flash ∧ t.mem.dram = s.mem.dram ∧ 3 ∈ t.chip.codesOf d PWR ∧
        (t.chip.avs d).coreLow = true ∧ (t.chip.flag d FAULT FAULT.LATCHED 3 = true ∨ (d, 4) ∈ t.chip.fatals))

/-- The thermal watch (R424): TS_READ takes the eight readings, and below 115 °C nothing trips; in STANDBY only the AON page takes the
temperature; a drifting sensor beyond the third is deselected. -/
def Sys2Proof.Claim.ThermalRows : Prop :=
  ∀ (s : State) (d : Nat), d < dieCount s.chip.member → s.chip.ready d AON = true →
    (∀ temps : List Int, s.chip.power ≠ .standby → s.chip.committing d PWR = false → temps.length = 8 → (∀ v ∈ temps, -128 ≤ v ∧ v < 115) →
      ∃ t, exec (.thermalSample d temps) s = .next t ∧ t.mem = s.mem ∧ (∀ k < 8, some (t.chip.tsRead d k) = temps[k]?) ∧
        t.chip.fatals = s.chip.fatals) ∧
    (∀ temps : List Int, s.chip.power = .standby → exec (.thermalSample d temps) s =
      .next (s.up fun c => c.aonTemp d ((temps.take 8).foldl max (temps.headD 0)))) ∧
    (∀ k, k ∈ s.chip.sensors d → 3 < (s.chip.sensors d).length → s.chip.flag d PWR PWR.THERM 16 = false →
      2 * s.chip.get d PWR PWR.THERM 27 24 <
        (2 * s.chip.tsRead d k - twiceMedian ((s.chip.sensors d).map (fun i => s.chip.tsRead d i))).natAbs →
      ∃ t, exec (.tsDeselect d k) s = .next t ∧ t.mem.flash = s.mem.flash ∧ t.mem.dram = s.mem.dram ∧
        t.chip.flag d PWR PWR.THERM_STATUS (16 + k) = true ∧ k ∉ t.chip.sensors d)

/-- The core voltage loop and the thermal watch (R417 to R424). -/
def Obligations.VoltageAndTemperature : Prop :=
  Claim.VoltageRequest ∧ Claim.AvsRows ∧ Claim.ThermalRows

/-! ### Gangs and the slice bridge (R29 to R45) -/

/-- With one link of the ring down every die is still reached from every other, the long way if need be (R44). -/
def Sys2Proof.Claim.RingReach : Prop :=
  ∀ (c : Chip) (l a b : Nat), 2 < dieCount c.member → c.linksDown = [l] → a < dieCount c.member → b < dieCount c.member → c.reach a b = true

/-- The gang map in effect (R31): a committed map takes effect on every die's width code, whatever outputs in BRINGUP it takes apart,
with its event; one that changes no die's code changes nothing else. -/
def Sys2Proof.Claim.GangMapTakesEffect : Prop :=
  ∀ (s : State) (w : Word), s.chip.committing 0 BRIDGE = true → s.chip.stagedOf 0 BRIDGE = [(BRIDGE.GANG_MAP, w)] →
    ((∀ d < dieCount s.chip.member, widthCode w d ≠ s.chip.gangCode d → s.chip.dieMode d = BRINGUP) →
      ∃ t, exec .gangMapApply s = .next t ∧ t.mem.flash = s.mem.flash ∧ t.mem.dram = s.mem.dram ∧ t.chip.committing 0 BRIDGE = false ∧
      (∀ d < 8, t.chip.gangCode d = widthCode w d) ∧ bit (t.chip.reg 0 BRIDGE PAGE_EVENT) 4 = true) ∧
    ((∀ d < dieCount s.chip.member, widthCode w d = s.chip.gangCode d) → exec .gangMapApply s = .next (s.up fun c =>
      ((c.applyStaged 0 BRIDGE).clearCommit 0 BRIDGE).event 0 BRIDGE 4))

/-- Timing tokens of a follower (R33 to R35): a token in time ends a run of misses and brings the frame number; a missing one is counted,
and the sixteenth in a row cuts the die off. -/
def Sys2Proof.Claim.TimingTokens : Prop :=
  ∀ (s : State) (d : Nat), d < dieCount s.chip.member → s.chip.isFollower d = true →
    exec (.timingTokenRx d none) s = .next (s.up fun c => c.setDie d { c.die d with misses := 0, cutOff := false }) ∧
    (∀ f, s.chip.reg d TGEN TGEN.FRAME_SEQ ≠ f → exec (.timingTokenRx d (some f)) s = .next (s.up fun c =>
      ((c.setDie d { c.die d with misses := 0, cutOff := false }).setReg d TGEN TGEN.FRAME_SEQ f).event d BRIDGE 3)) ∧
    ((s.chip.die d).misses < 15 → exec (.timingTokenMiss d) s = .next (s.up fun c =>
      (c.setDie d { c.die d with misses := (c.die d).misses + 1 }).count d BRIDGE BRIDGE.TIMING_MISS_COUNT)) ∧
    ((s.chip.die d).misses = 15 → exec (.timingTokenMiss d) s = .next (s.up fun c =>
      ((c.setDie d { c.die d with misses := 16, cutOff := true }).count d BRIDGE BRIDGE.TIMING_MISS_COUNT).event d BRIDGE 3))

/-- Links of the ring (R37, R44): a flit sent again is counted; a link that goes down shows on both its ends. -/
def Sys2Proof.Claim.BridgeLinks : Prop :=
  ∀ (s : State), s.chip.power = .running →
    (∀ d side, d < dieCount s.chip.member → d ∉ s.chip.inReset → s.chip.linkUp (sideLink (dieCount s.chip.member) d side) = true →
      exec (.flitRetry d side) s = .next (s.up fun c => c.count d BRIDGE BRIDGE.RETRY_COUNT)) ∧
    (∀ l, l < dieCount s.chip.member → 2 < dieCount s.chip.member → l ∉ s.chip.linksDown →
      ∃ t, exec (.linkDown l) s = .next t ∧ t.mem = s.mem ∧ t.chip.linksDown = l :: s.chip.linksDown ∧ t.chip.linkUp l = false ∧
        t.chip.flag l BRIDGE BRIDGE.LINK_STATUS 1 = false ∧
        t.chip.flag ((l + 1) % dieCount s.chip.member) BRIDGE BRIDGE.LINK_STATUS 0 = false)

/-- The ring, the gang map and the timing tokens (R31 to R45). -/
def Obligations.GangsAndBridge : Prop :=
  Claim.RingReach ∧ Claim.GangMapTakesEffect ∧ Claim.TimingTokens ∧ Claim.BridgeLinks

/-! ### Supplies, boot, STANDBY and WAKE (R53 to R104, R471) -/

/-- OFF (R56, R61, R77, R101, R471): an assertion of POR_N and a brown-out put the package into OFF at once; commands in flight are
lost, the baskets and the frame memory lose their contents, and every output is in BRINGUP. A brown-out holds its die in reset. -/
def Sys2Proof.Claim.PowerGoesOff : Prop :=
  (∀ s : State, ∃ t, exec .porAssert s = .next t ∧ t.chip.power = .off ∧ t.chip.porN = false ∧ t.chip.inflight = [] ∧
    t.chip.waiting = [] ∧ t.mem.baskets = [] ∧ t.mem.dram = [] ∧ t.mem.flash = s.mem.flash ∧ ∀ o < 8, t.chip.mode o = BRINGUP) ∧
  (∀ (s : State) (d : Nat) (rail : Rail), d < dieCount s.chip.member →
    ∃ t, exec (.brownOut d rail) s = .next t ∧ t.chip.power = .off ∧ t.chip.porN = s.chip.porN ∧ t.chip.inReset.contains d = true ∧
      t.chip.inflight = [] ∧ t.mem.baskets = [] ∧ t.mem.dram = [] ∧ t.mem.flash = s.mem.flash ∧ ∀ o < 8, t.chip.mode o = BRINGUP) ∧
  (∀ (s : State) (d : Nat), d < dieCount s.chip.member → s.chip.dieRuns d = true →
    ∃ t, exec (.pllLoss d .core) s = .next t ∧ t.chip.power = .off ∧ t.chip.inReset.contains d = true)

/-- Boot begins (R77, R83, R101, R471) when POR_N is released and no rail holds a die in reset, whichever comes last. -/
def Sys2Proof.Claim.BootBegins : Prop :=
  (∀ s : State, s.chip.porN = true → exec .porRelease s = .next s) ∧
  (∀ s : State, s.chip.porN = false → s.chip.inReset ≠ [] →
    exec .porRelease s = .next (s.up fun c => { c with porN := true })) ∧
  (∀ s : State, s.chip.porN = false → s.chip.inReset = [] → exec .porRelease s =
    .next (s.up fun c => { c with porN := true, power := .starting, porAt := c.now, startAt := c.now })) ∧
  (∀ s : State, s.chip.inReset = [] → exec .internalResetEnd s = .next s) ∧
  (∀ s : State, s.chip.inReset ≠ [] → s.chip.porN = false →
    exec .internalResetEnd s = .next (s.up fun c => { c with inReset := [] })) ∧
  (∀ s : State, s.chip.inReset ≠ [] → s.chip.porN = true → exec .internalResetEnd s =
    .next (s.up fun c => { c with inReset := [], power := .starting, porAt := c.now, startAt := c.now }))

/-- The first boot steps (R83, R84, R99, R104): AON, FAULT and PWR become READY; then the PLLs lock, the package runs, every output is
in BRINGUP and the boot ROM reads SFDP; without REFCLK boot waits with ERROR 1; a flash without SFDP, fast read or 4-byte addresses
leads to recovery. -/
def Sys2Proof.Claim.BootSteps : Prop :=
  (∀ (s : State) (temps : List Int), s.chip.power = .starting → s.chip.ready 0 AON = false →
    ∃ t, exec (.aonReady temps) s = .next t ∧ t.mem.flash = s.mem.flash ∧ t.chip.power = .starting ∧
      ∀ d < dieCount s.chip.member, t.chip.ready d AON = true ∧ t.chip.ready d FAULT = true ∧ t.chip.ready d PWR = true) ∧
  (∀ s : State, s.chip.power = .starting → s.chip.ready 0 AON = true → s.chip.clockHeld = false →
    (∃ t, exec .pllLock s = .next t ∧ t.mem.flash = s.mem.flash ∧ t.mem.dram = s.mem.dram ∧ t.chip.power = .running ∧
      t.chip.boot = .sfdp ∧ t.chip.cycleAt = s.chip.now ∧ (∀ o ∈ s.chip.outputs, t.chip.mode o = BRINGUP) ∧
      ∀ d < dieCount s.chip.member, t.chip.num d CLK CLK.PLL_STATUS = 7 ∧
        ∀ p ∈ [CLK, SLINK, SCAN, CODEC, BASKET, RAMBLER, CAL, AGE], t.chip.ready d p = true ∧ t.chip.state d p = 1)) ∧
  (∀ s : State, s.chip.power = .starting → s.chip.ready 0 AON = true →
    (s.chip.clockHeld = true → exec .pllLock s = .next s) ∧
    (exec (.refclkRetry true) s = .next (s.up fun c => c.each c.dies' fun c d => c.put d AON AON.STATUS 1 1 1)) ∧
    exec (.refclkRetry false) s = .next (s.up fun c => c.each c.dies' fun c d => (c.put d AON AON.STATUS 1 1 0).setError d 1)) ∧
  (∀ s : State, s.chip.boot = .sfdp →
    exec (.sfdpRead true true true) s = .next (s.up fun c => { c.setStage 0 3 with boot := .directory }) ∧
    (∀ a b, exec (.sfdpRead false a b) s = .next (s.up fun c => (c.setStage 0 3).enterRecovery 2)) ∧
    ∀ a b, (a && b) = false → exec (.sfdpRead true a b) s = .next (s.up fun c => (c.setStage 0 3).enterRecovery 3))

/-- The boot flash is read and the images are checked (R87, R88, R99, R433, R437): without a valid directory, or with no image fit to
be tried, die 0 enters recovery; an image that passes starts the steward of die 0, which is READY, and its digest extends MR1;
one that fails leads to the other one, or to recovery. Another die does the same with the copy that die 0 verified; a copy damaged
on its way is sent once more, and a second damaged one leaves the die without an image (R85). -/
def Sys2Proof.Claim.BootImages : Prop :=
  (∀ s : State, s.chip.boot = .directory →
    (s.directory = none → exec .directoryRead s = .next (s.up fun c => c.enterRecovery 4)) ∧
    ∀ l, s.directory = some l →
      (((imageOrder l).all fun k => (s.imageBytes k).isNone) = true →
        ∃ t, exec .directoryRead s = .next t ∧ t.mem = s.mem ∧ t.chip.recovery = true ∧ t.chip.boot = .idle) ∧
      ∀ k rest, imageOrder l = k :: rest → (s.imageBytes k).isSome = true →
        exec .directoryRead s = .next (s.up fun c => { c.setStage 0 4 with boot := .image 0 k })) ∧
  (∀ (s : State) (attempt k : Nat) (e : List Byte), s.chip.boot = .image attempt k → s.imageBytes k = some e →
    s.chip.logCount 0 < 32 →
    ∀ copyGood, ∃ t, exec (.imageVerify ⟨0, copyGood⟩) s = .next t ∧ t.mem = s.mem ∧
      (envCheck s.chip.member (s.chip.otpOf 0) 1 e = 0 →
        (t.chip.die 0).steward = .running ∧ t.chip.ready 0 STEWARD = true ∧
          t.chip.mr 0 1 = shake256 32 (s.chip.mr 0 1 ++ envDigest e) ∧ t.chip.logCount 0 = s.chip.logCount 0 + 1) ∧
      (envCheck s.chip.member (s.chip.otpOf 0) 1 e ≠ 0 → attempt ≠ 0 →
        t.chip.recovery = true ∧ t.chip.boot = .idle ∧ t.chip.get 0 SYS SYS.BOOT_STATUS 23 16 = 5)) ∧
  ∀ (s : State) (d n : Nat) (x : ImageCopy), 0 < d → d < dieCount s.chip.member → (s.chip.die d).steward = .booting n →
    (s.chip.die d).copy = some x → s.chip.logCount d < 32 →
    (envCheck s.chip.member (s.chip.otpOf d) 1 x.bytes = 0 →
      ∃ t, exec (.imageVerify ⟨d, true⟩) s = .next t ∧ t.mem = s.mem ∧ (t.chip.die d).steward = .running ∧ t.chip.ready d STEWARD = true ∧
        t.chip.mr d 1 = shake256 32 (s.chip.mr d 1 ++ envDigest x.bytes) ∧ t.chip.logCount d = s.chip.logCount d + 1) ∧
    ∃ t, exec (.imageVerify ⟨d, false⟩) s = .next t ∧ t.mem = s.mem ∧ t.chip.mr d 1 = s.chip.mr d 1 ∧
      (n = 0 → (t.chip.die d).steward = .booting 1 ∧ (t.chip.die d).copy = some x) ∧
      (n ≠ 0 → (t.chip.die d).steward = .unbooted ∧ t.chip.get d SYS SYS.BOOT_STATUS 23 16 = 8)

/-- The board profile (R90, R99): firmware reads it once, after the images; it applies all of one whose signature verifies and whose items
are valid; any other leaves ERROR 6 and nothing applied. Whether a signature verifies is ML-DSA's to say, which the model leaves
uninterpreted (assumption log 4). -/
def Sys2Proof.Claim.ProfileApplies : Prop :=
  (∀ (s : State) (p : Profile), s.chip.boot ≠ .profile → exec (.profileApply p.toBoard p.outputs) s = .next s) ∧
  (∀ (s : State) (p : Profile), s.chip.boot = .profile → (s.chip.die 0).steward = .running →
    let valid := s.profileSigned && profileOk s.chip.member (s.regionOf 5).isSome p
    ∃ t, exec (.profileApply p.toBoard p.outputs) s = .next t ∧ t.mem.flash = s.mem.flash ∧ t.chip.boot = .idle ∧
      (valid = true → t.chip.profile = some p ∧ t.chip.get 0 SYS SYS.BOOT_STATUS 24 24 = 1) ∧
      (valid = false → t = s.up fun c => { c.setError 0 6 with boot := .idle }))

/-- The boot sequence (R83 to R90, R99, R433). -/
def Obligations.BootSequence : Prop :=
  Claim.BootSteps ∧ Claim.BootImages ∧ Claim.ProfileApplies

/-- PKG_STANDBY (R75, R390): while an earlier one is under way it is BUSY; otherwise each output with timing is to send one frame of DRV_HOLD; an output without switches its panel and
backlight pins off at once. Then the package powers down: frame memory is lost, baskets keep their words where RETAIN says so, and
AON counts the entry. -/
def Sys2Proof.Claim.StandbyEntry : Prop :=
  (∀ (s : State) (h : Hdr), s.chip.admits h .pkgStandby → (∀ o ∈ s.chip.outputs, (s.chip.out o).goodbye = 0) →
    ∃ t, exec (.pkgStandby h) s = .next t ∧ t.mem = s.mem ∧ ∀ o ∈ s.chip.outputs,
      (s.chip.hasEntry o = true → (t.chip.out o).goodbye = 1) ∧
      (s.chip.hasEntry o = false → (t.chip.out o).goodbye = 3 ∧ t.chip.get o TGEN TGEN.PINS 1 0 = 0)) ∧
  (∀ (s : State) (h : Hdr), s.chip.admits h .pkgStandby → (∃ o ∈ s.chip.outputs, (s.chip.out o).goodbye ≠ 0) →
    exec (.pkgStandby h) s = .next ((s.starts h .pkgStandby).done (s.req h .pkgStandby) BUSY)) ∧
  (∀ s : State, s.chip.power = .running → (∀ o ∈ s.chip.outputs, (s.chip.out o).goodbye = 3) →
    ∃ t, exec .standbyPowerDown s = .next t ∧ t.chip.power = .standby ∧ t.chip.inflight = [] ∧ t.mem.flash = s.mem.flash ∧
      t.mem.dram = [] ∧
      t.mem.baskets = s.mem.baskets.filter (fun kv => s.chip.flag (kv.1 / 0x1000000) BASKET BASKET.RETAIN (basketOf kv.1)) ∧
      ∀ d < dieCount s.chip.member, t.chip.state d AON = 2 ∧
        t.chip.num d AON AON.STANDBY_COUNT = (s.chip.num d AON AON.STANDBY_COUNT + 1) % 2 ^ 32)

/-- STANDBY (R76, R80 note a): WAKE from the service port completes with the package running and every output in BRINGUP; any other
command than WAKE, ABORT and an access to the AON page of die 0 is refused with STATE. -/
def Sys2Proof.Claim.StandbyAndWake : Prop :=
  (∀ (s : State) (h : Hdr), s.chip.power = .standby → h.port = .service → h.die = 0 → (s.chip.port .service).tags.length < 64 →
    h.tag ∉ (s.chip.port .service).tags →
    exec (.wake h) s = .next ((s.starts h .wake).wake (s.req h .wake)) ∧
    ∃ t, exec (.wake h) s = .next t ∧ t.mem.flash = s.mem.flash ∧ t.mem.dram = s.mem.dram ∧ t.chip.power = .running ∧
      (∀ o ∈ s.chip.outputs, t.chip.mode o = BRINGUP) ∧ ∀ d < dieCount s.chip.member, t.chip.ready d SCAN = true) ∧
  (∀ (i : Instr) (h : Hdr) (cmd : Cmd) (s : State), i.asCommand = some (h, cmd) → s.chip.power = .standby →
    (h.port = .service ∨ h.port = .test) → (s.chip.port h.port).tags.length < portCredits h.port →
    h.tag ∉ (s.chip.port h.port).tags → arrivalStatus s.chip (Hdr.message h cmd) = OK → s.chip.asleepStatus (Hdr.message h cmd) ≠ OK →
    s.chip.asleepStatus (Hdr.message h cmd) = STATE ∧
    ∃ t, exec i s = .next t ∧ t.mem = s.mem ∧ t.chip.regs = s.chip.regs ∧
      (t.chip.port h.port).out = (s.chip.port h.port).out ++ completionParts 0 (opcodeOf cmd) h.tag h.die STATE 0 [])

/-- STANDBY and WAKE (R75, R76). -/
def Obligations.Standby : Prop :=
  Claim.StandbyEntry ∧ Claim.StandbyAndWake

/-- PLLs (R54): a memory or lane PLL that loses lock shows it, and its relock shows it again; nothing is stored anywhere. -/
def Sys2Proof.Claim.PllLocks : Prop :=
  (∀ (s : State) (d ch : Nat), d < dieCount s.chip.member → ch < 2 → s.chip.dieRuns d = true → s.chip.state d (memcPage ch) ≠ mcFREQ →
    (∃ t, exec (.pllLoss d (.mem ch)) s = .next t ∧ t.mem = s.mem ∧ t.chip.flag d CLK CLK.PLL_STATUS (1 + ch) = false ∧
      t.chip.num d CLK CLK.PLL_LOSS_COUNT = min 0xFFFFFFFF (s.chip.num d CLK CLK.PLL_LOSS_COUNT + 1)) ∧
    ∃ t, exec (.pllRelock d (.mem ch)) s = .next t ∧ t.mem = s.mem ∧ t.chip.flag d CLK CLK.PLL_STATUS (1 + ch) = true) ∧
  (∀ (s : State) (d k : Nat), d < dieCount s.chip.member → k < 6 → s.chip.dieRuns d = true →
    (∃ t, exec (.pllLoss d (.lane k)) s = .next t ∧ t.mem = s.mem ∧ t.chip.flag d CLK CLK.PLL_STATUS (8 + k) = false) ∧
    ((∃ l ∈ pllLanes k, s.chip.lstate d l ≠ laneOFF) →
      ∃ t, exec (.pllRelock d (.lane k)) s = .next t ∧ t.mem = s.mem ∧ t.chip.flag d CLK CLK.PLL_STATUS (8 + k) = true) ∧
    ((∀ l ∈ pllLanes k, s.chip.lstate d l = laneOFF) → exec (.pllRelock d (.lane k)) s = .next s))

/-- Supplies, the start of boot, and PLLs (R54, R77, R101, R471). -/
def Obligations.PowerAndClocks : Prop :=
  Claim.PowerGoesOff ∧ Claim.BootBegins ∧ Claim.PllLocks

/-! ### Modes, timing and scan-out (R56 to R80, R273 to R299) -/

/-- OUTPUT_MODE on arrival (R61, R62, R65): the present mode, except MEASURE, completes at once and replaces AUTO_RESUME; a legal
change that is ready waits for the boundary; an illegal one is STATE, and a second one BUSY. -/
def Sys2Proof.Claim.OutputModeArrives : Prop :=
  ∀ (s : State) (h : Hdr) (o m flags w : Nat), s.chip.admits h (.outputMode o m flags w) →
    let cmd := Cmd.outputMode o m flags w
    let a := s.chip.mode o
    (s.chip.reqs (isOutputMode o) = [] → m = a → m ≠ MEASURE →
      exec (.outputMode h o m flags w) s = .next (s.ran h cmd (fun c => c.putOutState o 7 7 (flags % 2)) (leBytes 4 (s.chip.seq o)))) ∧
    (s.chip.reqs (isOutputMode o) = [] → legalChange a m (s.chip.returnMode o) = true → (m ≠ a ∨ m = MEASURE) →
      s.chip.changeReady o a m = true → s.chip.nearBoundary o = false →
      exec (.outputMode h o m flags w) s = .next (s.starts h cmd)) ∧
    (s.chip.reqs (isOutputMode o) = [] → legalChange a m (s.chip.returnMode o) = false → (m ≠ a ∨ m = MEASURE) →
      exec (.outputMode h o m flags w) s = .next ((s.starts h cmd).done (s.req h cmd) STATE)) ∧
    (s.chip.reqs (isOutputMode o) = [] → legalChange a m (s.chip.returnMode o) = true → (m ≠ a ∨ m = MEASURE) →
      s.chip.changeReady o a m = false →
      exec (.outputMode h o m flags w) s = .next ((s.starts h cmd).done (s.req h cmd) BUSY))

/-- A mode change (R58, R62, R67, R78): every die of the gang takes the mode, its SCAN page shows it, and the held plane is the most
recent complete frame in HOLD, MEASURE and SAFE and none elsewhere. -/
def Sys2Proof.Claim.ModeChange : Prop :=
  ∀ (s : State) (o m cause first : Nat), m < 8 →
    let t := s.enterMode o m cause first
    t.mem.flash = s.mem.flash ∧ t.mem.dram = s.mem.dram ∧
      (∀ d ∈ s.chip.gang o, t.chip.mode d = m ∧ t.chip.state d SCAN = scanState m) ∧
      (t.chip.out o).held = (if m = HOLD ∨ m = MEASURE ∨ m = SAFE then s.chip.selectHeld o else none) ∧
      (t.chip.out o).liveLost = false

/-- LIVE_SOURCE (R63, R68) and the loss of the live stream, which takes 64 line times in LIVE without a packet: the 65th line start
after the line in which the latest packet came. -/
def Sys2Proof.Claim.LiveSource : Prop :=
  (∀ (s : State) (h : Hdr) (o st : Nat), s.chip.admits h (.liveSource o st) →
    exec (.liveSource h o st) s = .next (s.ran h (.liveSource o st)
      (fun c => (c.setOut o { c.out o with live := some st }).noteHeard o) [])) ∧
  (∀ (s : State) (o : Nat), s.chip.formed o = true →
    (s.chip.mode o = LIVE → (s.chip.out o).heardAt + 65 ≤ (s.chip.out o).lineNo →
      exec (.liveStreamLoss o) s = .next (s.up fun c => c.setOut o { c.out o with liveLost := true })) ∧
    ((s.chip.mode o ≠ LIVE ∨ (s.chip.out o).lineNo < (s.chip.out o).heardAt + 65) → exec (.liveStreamLoss o) s = .next s))

/-- SAFE_EXIT (R74, R454): with no fatal cause latched, no steward held and the gang cool, an output without timing is in BRINGUP at once,
and one with timing waits for its boundary; otherwise the command is refused. -/
def Sys2Proof.Claim.SafeExit : Prop :=
  ∀ (s : State) (h : Hdr) (o flags : Nat), s.chip.admits h (.safeExit o flags) →
    let cmd := Cmd.safeExit o flags
    let st := (s.starts h cmd).chip.safeExitStatus (s.req h cmd) o flags
    (st ≠ OK → exec (.safeExit h o flags) s = .next ((s.starts h cmd).done (s.req h cmd) st)) ∧
    (st = OK → s.chip.hasEntry o = true → s.chip.nearBoundary o = false →
      exec (.safeExit h o flags) s = .next (s.starts h cmd)) ∧
    (st = OK → s.chip.hasEntry o = false →
      ∃ t, exec (.safeExit h o flags) s = .next t ∧ t.mem.flash = s.mem.flash ∧ t.mem.dram = s.mem.dram ∧
        ∀ d ∈ s.chip.gang o, t.chip.mode d = BRINGUP)

/-- OUTPUT_MODE, LIVE_SOURCE, SAFE_EXIT and mode changes (R58 to R74). -/
def Obligations.OutputModes : Prop :=
  Claim.OutputModeArrives ∧ Claim.ModeChange ∧ Claim.LiveSource ∧ Claim.SafeExit

/-- TIMING_SET (R281, R282): a number that is in effect completes at once; a new one that passes the checks is staged and committed, and
the command waits for the boundary; one that fails a check completes with the status, stays staged and changes nothing else. -/
def Sys2Proof.Claim.TimingSet : Prop :=
  ∀ (s : State) (h : Hdr) (o n : Nat), s.chip.admits h (.timingSet o n) → s.chip.committing o TGEN = false →
    let cmd := Cmd.timingSet o n
    let v := (s.starts h cmd).chip.stage o TGEN TGEN.ENTRY (BitVec.ofNat 32 n)
    (v.tgenStatus o = OK → v.sameEntry o = false →
      exec (.timingSet h o n) s = .next ((s.starts h cmd).up fun _ => v.setCommit o TGEN)) ∧
    (v.tgenStatus o = OK → v.sameEntry o = true →
      exec (.timingSet h o n) s = .next ((s.starts h cmd).up fun _ =>
        (v.tgenCommit o).finish (s.req h cmd) OK 0 (leBytes 4 (s.chip.num o TGEN TGEN.CHANGEOVER_FRAME)))) ∧
    (v.tgenStatus o ≠ OK →
      exec (.timingSet h o n) s = .next ((s.starts h cmd).up fun _ =>
        (v.done (s.req h cmd) (v.tgenStatus o)).eventIf (decide (v.entryStatus o ≠ OK)) o TGEN 6))

/-- Every entry of the standard modes (R275, R277): its lines, counted backwards from the boundary, last exactly one frame together, and
each of them at least W ÷ 8 core cycles. -/
def Sys2Proof.Claim.LineLengths : Prop :=
  ∀ n < 64, ((List.range (modeEntry n).vTotal).map (modeEntry n).lineCycles).sum = (modeEntry n).frameCycles ∧
    ∀ k, (modeEntry n).w ≤ 8 * (modeEntry n).lineCycles k

/-- Frame boundaries (R12, R280, R298): nothing happens before the last active line has ended; then a boundary always ends the frame on
every die of the gang and begins the next one, at the first line of blanking. -/
def Sys2Proof.Claim.FrameBoundaries : Prop :=
  (∀ (s : State) (o : Nat), s.chip.formed o = true →
    (s.chip.power ≠ .running ∨ s.chip.hasEntry o = false ∨ (s.chip.out o).bound = true ∨
      s.chip.get o TGEN TGEN.POSITION 31 16 + 1 ≠ (s.chip.entry o).vActive) → exec (.frameBoundary o) s = .next s) ∧
  (∀ (s : State) (o : Nat), s.chip.formed o = true → s.chip.power = .running → s.chip.hasEntry o = true →
    (s.chip.out o).bound = false → s.chip.get o TGEN TGEN.POSITION 31 16 + 1 = (s.chip.entry o).vActive →
    ∃ t, exec (.frameBoundary o) s = .next t ∧ (t.chip.out o).bound = true ∧ (t.chip.out o).frameAt = s.chip.now ∧
      t.chip.get o TGEN TGEN.POSITION 31 16 = (t.chip.entry o).vActive ∧
      ∀ d ∈ s.chip.gang o, t.chip.num d TGEN TGEN.FRAME_SEQ = (s.chip.seq o + 1) % 2 ^ 32)

/-- The start of the timing (R279, R299): without a due commit of an entry nothing happens; otherwise frame 0 begins on every die of the
gang with the staged entry. -/
def Sys2Proof.Claim.TimingStarts : Prop :=
  (∀ (s : State) (o : Nat), s.chip.formed o = true →
    (s.chip.hasEntry o = true ∨ s.chip.commitDue o TGEN = false ∨ s.chip.isStaged o TGEN TGEN.ENTRY = false) →
    exec (.timingStart o) s = .next s) ∧
  (∀ (s : State) (o : Nat), s.chip.formed o = true → s.chip.power = .running → s.chip.hasEntry o = false →
    s.chip.commitDue o TGEN = true → s.chip.isStaged o TGEN TGEN.ENTRY = true →
    ∃ t, exec (.timingStart o) s = .next t ∧ t.mem.flash = s.mem.flash ∧ t.mem.baskets = s.mem.baskets ∧ t.chip.hasEntry o = true ∧
      t.chip.get o TGEN TGEN.ENTRY 29 24 = s.chip.stagedEntry o ∧ (∀ d ∈ s.chip.gang o, t.chip.num d TGEN TGEN.FRAME_SEQ = 0) ∧
      (t.chip.out o).starting = true ∧ (t.chip.out o).bound = true ∧ (t.chip.out o).frameAt = s.chip.now)

/-- Lines (R280, R290): each line start first ends the line in progress, and then the next line begins on every die of the gang; lines
follow each other from the first line of blanking to the end of the frame, and from line 0 to the last active line, after which only a
frame boundary comes. -/
def Sys2Proof.Claim.LineStarts : Prop :=
  (∀ (s : State) (o line : Nat), s.chip.formed o = true → s.chip.power = .running → s.chip.hasEntry o = true →
    s.chip.nextLine o = some line →
    ∃ t, exec (.lineStart o) s = .next t ∧ (t.chip.out o).bound = false ∧ (t.chip.out o).lineAt = s.chip.now ∧
      ∀ d ∈ s.chip.gang o, t.chip.get d TGEN TGEN.POSITION 31 16 = line % 65536) ∧
  (∀ (s : State) (o line : Nat), s.chip.formed o = true → s.chip.power = .running → s.chip.hasEntry o = true →
    s.chip.nextLine o = some line → let u := (s.up fun c => c.hush o).closeLine o
    (u.chip.out o).safeDue = none → exec (.lineStart o) s = .next (u.up fun c => c.openNext o line)) ∧
  (∀ (s : State) (o : Nat), s.chip.formed o = true → s.chip.nextLine o = none → exec (.lineStart o) s = .next s) ∧
  (∀ (c : Chip) (o : Nat), (c.out o).bound = false → (c.entry o).vActive < (c.out o).lines →
    let n := c.get o TGEN TGEN.POSITION 31 16
    (n + 1 = (c.entry o).vActive → c.nextLine o = none) ∧
    (n + 1 = (c.out o).lines → c.nextLine o = some 0) ∧
    (n + 1 ≠ (c.entry o).vActive → n + 1 ≠ (c.out o).lines → c.nextLine o = some (n + 1)))

/-- Markers (R181, R303 to R305): a line start sends LNM with the line's number on every READY driver lane and every READY group of the
gang; the last that a frame boundary sends on each of them is FRM with the number of the frame that begins, and on driver lanes
whether it is a DRV_HOLD frame. -/
def Sys2Proof.Claim.MarkersSent : Prop :=
  (∀ (s : State) (o line : Nat), s.chip.formed o = true → s.chip.power = .running → s.chip.hasEntry o = true →
    s.chip.nextLine o = some line →
    ∃ t, exec (.lineStart o) s = .next t ∧ ∀ d ∈ s.chip.gang o,
      (∀ l ∈ t.chip.drvReady d, lnmSyms line <:+: t.chip.wire d l) ∧ ∀ f ∈ t.chip.readyGroups d, lnmSyms line <:+ t.chip.wire d f) ∧
  (∀ (s : State) (o : Nat), s.chip.formed o = true → s.chip.power = .running → s.chip.hasEntry o = true →
    (s.chip.out o).bound = false → s.chip.get o TGEN TGEN.POSITION 31 16 + 1 = (s.chip.entry o).vActive →
    ∃ t, exec (.frameBoundary o) s = .next t ∧ ∀ d ∈ t.chip.gang o,
      (∀ l ∈ t.chip.drvReady d, frmSyms (t.chip.seq o) (decide (t.chip.holdFor o d ≠ 0)) <:+ t.chip.wire d l) ∧
      ∀ f ∈ t.chip.readyGroups d, t.chip.frmReverse o <:+ t.chip.wire d f)

/-- TE edges (R288, R289): every edge is noted as the frame's first, if it is, and as one inside the window, if it is; the first edge inside the window sets TE_EDGE and records its line; a first edge before the window counts as
early; with TE off, an edge has no effect. -/
def Sys2Proof.Claim.TeEdges : Prop :=
  ∀ (s : State) (o : Nat), s.chip.formed o = true → s.chip.power = .running → s.chip.hasEntry o = true →
    let line := s.chip.get o TGEN TGEN.POSITION 31 16
    let e := s.chip.teFrom o line
    let w := s.chip.get o TGEN TGEN.TE_CTRL 11 8
    (s.chip.teMode o = 0 → exec (.teEdge o) s = .next s) ∧
    (s.chip.teMode o ≠ 0 → ∃ t, exec (.teEdge o) s = .next t ∧ t.mem = s.mem ∧
      (t.chip.out o).teFirst = some ((s.chip.out o).teFirst.getD line) ∧
      (t.chip.out o).teInside = ((s.chip.out o).teInside || decide (e.natAbs ≤ w))) ∧
    (s.chip.teMode o ≠ 0 → (s.chip.out o).teInside = false → e.natAbs ≤ w →
      ∃ t, exec (.teEdge o) s = .next t ∧ t.mem = s.mem ∧ (t.chip.out o).teInside = true ∧
        t.chip.get o TGEN TGEN.TE_STATUS 30 16 = line % 2 ^ 15 ∧ t.chip.flag o TGEN PAGE_EVENT 2 = true ∧
        t.chip.num o TGEN TGEN.TE_EARLY_COUNT = s.chip.num o TGEN TGEN.TE_EARLY_COUNT) ∧
    (s.chip.teMode o ≠ 0 → (s.chip.out o).teFirst = none → e < -(w : Int) →
      ∃ t, exec (.teEdge o) s = .next t ∧ t.mem = s.mem ∧ (t.chip.out o).teFirst = some line ∧
        (t.chip.out o).teInside = (s.chip.out o).teInside ∧
        t.chip.num o TGEN TGEN.TE_EARLY_COUNT = min 0xFFFFFFFF (s.chip.num o TGEN TGEN.TE_EARLY_COUNT + 1) ∧
        t.chip.flag o TGEN PAGE_EVENT 4 = true)

/-- Frame boundaries, the start of timing, line starts and TE edges complete, and the markers they send (R181, R279, R280, R288 to R290, R303 to R305). -/
def Obligations.FramesAndLines : Prop :=
  Claim.FrameBoundaries ∧ Claim.TimingStarts ∧ Claim.LineStarts ∧ Claim.MarkersSent ∧ Claim.TeEdges

/-- BL_PWM (R287): with SYNC = 0 the first period starts with the write. -/
def Sys2Proof.Claim.BacklightPwm : Prop :=
  ∀ (s : State) (h : Hdr) (w : Word), s.mayWrite h TGEN TGEN.BL_PWM w →
    let m := (regAt .tgen TGEN.BL_PWM).rw
    (bit w 31 = true → exec (.blPwmWrite h w) s = .next (s.wrote h TGEN TGEN.BL_PWM w fun c =>
      c.setReg h.die TGEN TGEN.BL_PWM (mergeBits m (c.reg h.die TGEN TGEN.BL_PWM) w))) ∧
    (bit w 31 = false → exec (.blPwmWrite h w) s = .next (s.wrote h TGEN TGEN.BL_PWM w fun c =>
      (c.setReg h.die TGEN TGEN.BL_PWM (mergeBits m (c.reg h.die TGEN TGEN.BL_PWM) w)).setOut h.die { c.out h.die with pwmAt := c.now }))

/-- Gate pins (R323 to R326): without timing, without ENABLE, and on a die that is no lead they are inactive; clock k is active in the
window of every gate row q with q = k modulo P, lines q + 2 - H to q + 1 of the frame's T lines; STV_A in the STV_LINES lines up to
1 - H, and STV_B with it or never. A pin is active all through a line between two lines of its window, and waits RISE before the
first. -/
def Sys2Proof.Claim.GatePins : Prop :=
  ∀ (c : Chip) (d k : Nat),
    let pol := c.flag d DLINK DLINK.GATE_CTRL 15
    let t := (c.out d).lines
    let line := c.get d TGEN TGEN.POSITION 31 16
    (c.formed d = false ∨ c.hasEntry d = false ∨ c.flag d DLINK DLINK.GATE_CTRL 7 = false →
      c.gck d k = pol ∧ c.stvA d = pol ∧ c.stvB d = pol) ∧
    (c.get d DLINK DLINK.GATE_CTRL 13 12 = 0 → c.stvB d = c.stvA d) ∧ (c.get d DLINK DLINK.GATE_CTRL 13 12 ≠ 0 → c.stvB d = pol) ∧
    (∀ n < t, (c.entry d).vActive ≤ t →
      (c.clockLine d k n = true ↔ ∃ q < (c.entry d).vActive, q % c.gatePhases d = k ∧ ∃ j < c.gateHigh d, (q + 2 + j) % t = (n + c.gateHigh d) % t) ∧
      (c.stvLines d ≤ t → (c.startLine d n = true ↔ ∃ j < c.stvLines d, (n + c.gateHigh d + c.stvLines d) % t = (2 + j) % t))) ∧
    (c.clockLine d k line = false → c.gck d k = pol) ∧
    (c.gatesRun d = true → c.clockLine d k ((line + t - 1) % t) = true → c.clockLine d k line = true → c.clockLine d k ((line + 1) % t) = true →
      c.gck d k = !pol) ∧
    (c.clockLine d k ((line + t - 1) % t) = false → c.now < (c.out d).lineAt + c.get d DLINK DLINK.GATE_CTRL 23 16 → c.gck d k = pol)

/-- TIMING_SET, the standard modes, the backlight and the gate pins (R275, R281, R282, R287, R323 to R326). -/
def Obligations.TimingEntries : Prop :=
  Claim.TimingSet ∧ Claim.LineLengths ∧ Claim.BacklightPwm ∧ Claim.GatePins

/-- The splash (R97, R295): LOAD starts the load; it ends with the splash in both planes, or with the planes holding no frame. -/
def Sys2Proof.Claim.SplashLoads : Prop :=
  (∀ (s : State) (h : Hdr), s.mayWrite h SCAN SCAN.SPLASH_CTRL 1#32 →
    exec (.splashLoad h) s = .next (s.wrote h SCAN SCAN.SPLASH_CTRL 1#32 fun c => c.put h.die SCAN SCAN.SPLASH_CTRL 9 8 1)) ∧
  (∀ (s : State) (o : Nat), s.chip.formed o = true →
    (s.chip.get o SCAN SCAN.SPLASH_CTRL 9 8 ≠ 1 → exec (.splashLoadDone o) s = .next s) ∧
    (s.chip.get o SCAN SCAN.SPLASH_CTRL 9 8 = 1 →
      ∃ t, exec (.splashLoadDone o) s = .next t ∧ t.mem.flash = s.mem.flash ∧ t.mem.baskets = s.mem.baskets ∧
        match s.readSplash o with
        | .error _ => t.mem = s.mem ∧ t.chip.get o SCAN SCAN.SPLASH_CTRL 9 8 = 3 ∧ (t.chip.out o).planes = #v[{}, {}] ∧
            (t.chip.out o).splash = false
        | .ok _ => t.chip.get o SCAN SCAN.SPLASH_CTRL 9 8 = 2 ∧ (t.chip.out o).splash = decide (s.chip.mode o = BRINGUP)))

/-- Held tiles and late segments (R291, R292, R340): a held tile that is read back good is shown; a live segment that has not come by its
deadline is shown with the previous frame's pixels, or with fill colour, and is counted; one that has come is left alone. -/
def Sys2Proof.Claim.LatePixels : Prop :=
  (∀ (s : State) (d tx ty p : Nat) (f : Word) (px : List Px), d < dieCount s.chip.member →
    let o := s.chip.leadOf d
    (s.chip.out o).held = some p → ((s.chip.out o).planes.getD p {}).frame = some f → s.chip.hasEntry o = true →
    heldMode (s.chip.mode o) = true → tx < (s.chip.entry o).w / 64 → ty < (s.chip.entry o).vActive / 16 → s.chip.reads d p = true →
    KMap.get? (s.chip.die d).heldTiles (ty * 64 + tx) = none →
    readHamper (s.chip.slotBytes s.mem d (s.chip.planeSlot d p (s.chip.entry o).w tx ty)) (planeOwner o p) (some (f.toNat % 256)) = .ok px →
    exec (.heldTileDone d tx ty) s = .next (s.up fun c =>
      c.setDie d { c.die d with heldTiles := KMap.set (c.die d).heldTiles (ty * 64 + tx) (some px) })) ∧
  (∀ (s : State) (d line seg : Nat), d < dieCount s.chip.member →
    let o := s.chip.leadOf d
    let y := s.chip.die d
    s.chip.openLine o = some line → s.chip.mode o = LIVE → (s.chip.out o).black = false → seg < (s.chip.entry o).w / 64 →
    KMap.get? y.substs (line * 64 + seg) = none →
    ((y.segLive (s.chip.seq o) line seg).isSome = true → exec (.liveSegmentDeadline d line seg) s = .next s) ∧
    (y.segLive (s.chip.seq o) line seg = none →
      ∃ t, exec (.liveSegmentDeadline d line seg) s = .next t ∧ t.mem = s.mem ∧ (t.chip.out o).spoiled = true ∧
        t.chip.num d SCAN SCAN.LIVE_UNDERRUN_COUNT = min 0xFFFFFFFF (s.chip.num d SCAN SCAN.LIVE_UNDERRUN_COUNT + 1) ∧
        KMap.get? (t.chip.die d).substs (line * 64 + seg) = some (match KMap.getD y.prev (line / 16 * 64 + seg) none with
          | some tile => tileRow tile line
          | none => s.chip.fillRun o 64)))

/-- The tolerance and the signature (R293, R294, R297): LAT_TOL is the least tolerance of the fetch streams that run, 0xFF_FFFF with
none, and TOL_MIN never rises; the signature of the frame that ended is taken into SIGNATURE and SIG_FRAME. -/
def Sys2Proof.Claim.ToleranceAndSignature : Prop :=
  (∀ (s : State) (d rowRead : Nat), d < dieCount s.chip.member → s.chip.dieRuns d = true →
    ∃ t, exec (.tolUpdate d rowRead) s = .next t ∧ t.mem = s.mem ∧
      (∀ x ∈ s.chip.tolerances d rowRead, t.chip.get d SCAN SCAN.LAT_TOL 23 0 ≤ x) ∧
      (t.chip.get d SCAN SCAN.LAT_TOL 23 0 = 0xFFFFFF ∨ t.chip.get d SCAN SCAN.LAT_TOL 23 0 ∈ s.chip.tolerances d rowRead) ∧
      (s.chip.hasEntry (s.chip.leadOf d) = false → t.chip.get d SCAN SCAN.LAT_TOL 23 0 = 0xFFFFFF) ∧
      t.chip.get d SCAN SCAN.TOL_MIN 23 0 = min (t.chip.get d SCAN SCAN.LAT_TOL 23 0) (s.chip.get d SCAN SCAN.TOL_MIN 23 0)) ∧
  (∀ (s : State) (o : Nat), s.chip.formed o = true →
    ((s.chip.out o).sigReady = none → exec (.signatureReady o) s = .next s) ∧
    ∀ sig frame, (s.chip.out o).sigReady = some (sig, frame) →
      ∃ t, exec (.signatureReady o) s = .next t ∧ t.mem = s.mem ∧ t.chip.reg o SCAN SCAN.SIGNATURE = sig ∧
        t.chip.reg o SCAN SCAN.SIG_FRAME = frame ∧ (t.chip.out o).sigReady = none)

/-- Encoders and copies (R341, R343, R348, R349): an encoder takes its tile out of the queue; a frame-plane tile without pixels leaves an
EMPTY header in its slot; a disagreement of the two copies is counted for its stage. -/
def Sys2Proof.Claim.EncodersAndCopies : Prop :=
  (∀ (s : State) (d tx ty : Nat) (fails : Bool), d < dieCount s.chip.member →
    (takeJob tx ty (s.chip.die d).encQ = none → exec (.hamperEncodeDone d tx ty fails) s = .next s) ∧
    ∀ j rest, takeJob tx ty (s.chip.die d).encQ = some (j, rest) →
      ∃ t, exec (.hamperEncodeDone d tx ty fails) s = .next t ∧ t.mem.flash = s.mem.flash ∧ t.mem.baskets = s.mem.baskets ∧
        (t.chip.die d).encQ = rest ∧
        (j.pixels = none → s.chip.reads d (j.slot / 2 ^ 24) = true → t.mem = s.mem.storeHamper d j.slot (emptyHamper j.owner j.seq)) ∧
        (s.chip.reads d (j.slot / 2 ^ 24) = false → t.mem = s.mem)) ∧
  (∀ (s : State) (d : Nat), d < dieCount s.chip.member → s.chip.dieRuns d = true → (∀ x ∈ [2, 5, 7, 8, 9], KMap.getD (s.chip.die d).pairs x 0 ≠ 15) →
    (∃ t, exec (.pairMismatch d 2) s = .next t ∧ t.mem = s.mem ∧
      t.chip.num d CODEC CODEC.CONV_COUNT = min 0xFFFFFFFF (s.chip.num d CODEC CODEC.CONV_COUNT + 1)) ∧
    ∀ x ∈ [(5, 0), (7, 4), (8, 8), (9, 12)], ∃ t, exec (.pairMismatch d x.1) s = .next t ∧ t.mem = s.mem ∧
      t.chip.num d CODEC (CODEC.PAIR_COUNT_5 + x.2) = min 0xFFFFFFFF (s.chip.num d CODEC (CODEC.PAIR_COUNT_5 + x.2) + 1)) ∧
  ∀ (s : State) (d stage : Nat), d < dieCount s.chip.member → stage ∉ [2, 5, 7, 8, 9] → exec (.pairMismatch d stage) s = .next s

/-- The splash, late pixels, tolerance, signature, encoders and copies (R291 to R297, R341 to R349). -/
def Obligations.ScanOut : Prop :=
  Claim.SplashLoads ∧ Claim.LatePixels ∧ Claim.ToleranceAndSignature ∧ Claim.EncodersAndCopies

/-! ### Flash, firmware, identity and quotes (R85 to R101, R123, R124, R426 to R444) -/

/-- The boot flash over the ports (R123, R124): FLASH_READ returns its bytes; FLASH_WRITE stays in flight until the flash is done, when
an erase leaves its sector 0xFF and a program of erased bytes leaves what was written, every other byte keeping its value. -/
def Sys2Proof.Claim.FlashCommands : Prop :=
  (∀ (s : State) (h : Hdr) (a : Word) (n : Nat), s.chip.admits h (.flashRead a n) →
    exec (.flashRead h a n) s = .next (s.ran h (.flashRead a n) id
      ((List.range n).map fun i => s.mem.flashByte s.chip.fresh ((a.toNat + i) % 2 ^ 32)))) ∧
  (∀ (s : State) (h : Hdr) (a : Word) (ds : List Byte), s.chip.admits h (.flashWrite a ds) →
    exec (.flashWrite h a ds) s = .next (s.starts h (.flashWrite a ds))) ∧
  (∀ s : State, s.chip.reqs isFlashWrite = [] → exec .flashWriteDone s = .next s) ∧
  (∀ (s : State) (r : Req) (a : Word), (s.chip.reqs isFlashWrite).head? = some r → r.cmd = .flashWrite a [] →
    ∃ m : Mem, exec .flashWriteDone s = .next ((s.mapMem fun _ => m).done r OK) ∧ m.baskets = s.mem.baskets ∧ m.dram = s.mem.dram ∧
      ∀ fresh b, m.flashByte fresh b = if a.toNat ≤ b ∧ b < a.toNat + 4096 then 0xFF else s.mem.flashByte fresh b) ∧
  (∀ (s : State) (r : Req) (a : Word) (ds : List Byte), (s.chip.reqs isFlashWrite).head? = some r → r.cmd = .flashWrite a ds →
    ds ≠ [] → (∀ i < ds.length, a.toNat + i ∉ s.mem.flashOpen ∧ s.mem.flashByte 0 (a.toNat + i) = 0xFF) →
    ∃ m : Mem, exec .flashWriteDone s = .next ((s.mapMem fun _ => m).done r OK) ∧ m.baskets = s.mem.baskets ∧ m.dram = s.mem.dram ∧
      (∀ i < ds.length, ∀ fresh, m.flashByte fresh (a.toNat + i) = ds.getD i 0) ∧
      ∀ fresh b, (b < a.toNat ∨ a.toNat + ds.length ≤ b) → m.flashByte fresh b = s.mem.flashByte fresh b)

/-- FW_ACTIVATE (R434, R435, R438): with the baskets of the copy free and room in every log the command stays in flight; then every
steward that is not held restarts with the image, whose digest extends MR1; an envelope that a die refuses completes FAIL with the
die and the result. -/
def Sys2Proof.Claim.FirmwareActivation : Prop :=
  (∀ (s : State) (h : Hdr) (source : Nat) (a : Word) (n : Nat), s.chip.admits h (.fwActivate source a n) →
    (∀ r ∈ s.chip.inflight, isFwOpen r = false ∧ isActivate r = false) →
    (s.chip.fwStatus source a n = OK → exec (.fwActivate h source a n) s = .next (s.starts h (.fwActivate source a n))) ∧
    (s.chip.fwStatus source a n ≠ OK →
      exec (.fwActivate h source a n) s = .next ((s.starts h (.fwActivate source a n)).finish (s.req h (.fwActivate source a n))
        (s.chip.fwStatus source a n) (if s.chip.fwStatus source a n = FAIL then 6 else 0) []))) ∧
  (∀ s : State, s.chip.reqs isFwOpen = [] → exec .fwActivateRestart s = .next s) ∧
  (∀ (s : State) (r : Req) (source : Nat) (a : Word) (n : Nat) (e : List Byte),
    (s.chip.reqs isFwOpen).head? = some r → r.cmd = .fwActivate source a n → source < 2 →
    (∀ d < dieCount s.chip.member, s.chip.answers 0 d = true ∧ s.chip.logCount d < 32) → s.imageBytes (source + 1) = some e →
    ∃ t, exec .fwActivateRestart s = .next t ∧ t.mem.flash = s.mem.flash ∧ t.mem.dram = s.mem.dram ∧
      ((∀ d < dieCount s.chip.member, envCheck s.chip.member (s.chip.otpOf d) 1 e = 0) →
        ∀ d < dieCount s.chip.member, (s.chip.die d).steward ≠ .held →
          (t.chip.die d).steward = .activating ∧ t.chip.ready d STEWARD = false ∧
          t.chip.mr d 1 = shake256 32 (s.chip.mr d 1 ++ envDigest e) ∧ t.chip.get d SYS SYS.BOOT_STATUS 7 4 = source + 1))

/-- The flash commands and FW_ACTIVATE (R123, R124, R434, R435). -/
def Obligations.FlashAndFirmware : Prop :=
  Claim.FlashCommands ∧ Claim.FirmwareActivation

/-- One-time-programmable memory (R430, R431, R443): ENROLL, REQUIRE_OWNER and an advance of the counter start programming, which the SEC
page shows as busy; good programming sets the field, and nothing takes a programmed bit back. -/
def Sys2Proof.Claim.OtpProgramming : Prop :=
  (∀ (s : State) (h : Hdr), s.mayWrite h SEC SEC.OTP_CTRL 1#32 →
    exec (.otpEnroll h) s = .next (s.wrote h SEC SEC.OTP_CTRL 1#32 fun c => c.otpStart h.die (.enroll (c.ownerStage h.die)))) ∧
  (∀ (s : State) (h : Hdr), s.mayWrite h SEC SEC.OTP_CTRL 2#32 →
    exec (.otpRequireOwner h) s = .next (s.wrote h SEC SEC.OTP_CTRL 2#32 fun c => c.otpStart h.die .requireOwner)) ∧
  (∀ (s : State) (h : Hdr) (n : Nat), n ≤ 64 → s.mayWrite h SEC SEC.ROLLBACK (BitVec.ofNat 32 (2 ^ 31 + n)) →
    exec (.rollbackAdvance h n) s = .next (s.wrote h SEC SEC.ROLLBACK (BitVec.ofNat 32 (2 ^ 31 + n)) fun c =>
      let c := c.put h.die SEC SEC.ROLLBACK 7 0 n
      if (c.otpOf h.die).counter < n then c.otpStart h.die (.counter n) else c)) ∧
  (∀ (c : Chip) (d : Nat) (op : OtpOp), ((c.otpStart d op).otpOf d).prog = some (op, c.now) ∧ (c.otpStart d op).otpBusy d = true ∧
    (c.otpStart d op).flag d SEC PAGE_STATUS 1 = true ∧ (c.otpStart d op).state d SEC = 2) ∧
  (∀ (s : State) (d : Nat) (op : OtpOp) (at_ : Nat), d < dieCount s.chip.member → (s.chip.otpOf d).prog = some (op, at_) →
    let x := s.chip.otpOf d
    (∃ t, exec (.otpProgramDone d true) s = .next t ∧ t.mem = s.mem ∧ t.chip.get d SEC SEC.OTP_RESULT 2 0 = 2 ∧
      t.chip.state d SEC = 1 ∧ t.chip.otpOf d = match op with
        | .enroll g => { x with prog := none, owner := x.owner ||| g, enrolled := true }
        | .requireOwner => { x with prog := none, require := true }
        | .counter n => { x with prog := none, counter := max x.counter n }) ∧
    ∀ good, ∃ t, exec (.otpProgramDone d good) s = .next t ∧ (t.chip.otpOf d).prog = none ∧
      x.counter ≤ (t.chip.otpOf d).counter ∧ x.owner &&& (t.chip.otpOf d).owner = x.owner ∧
      (x.enrolled = true → (t.chip.otpOf d).enrolled = true) ∧ (x.require = true → (t.chip.otpOf d).require = true)) ∧
  (∀ (s : State) (d : Nat) (good : Bool), d < dieCount s.chip.member → (s.chip.otpOf d).prog = none →
    exec (.otpProgramDone d good) s = .next s)

/-- Measurements (R437, R438): an extension puts SHAKE256 of the register and the digest into the register and adds one entry with the
digest to the log; software reaches MR2 and MR3 only. -/
def Sys2Proof.Claim.Measurements : Prop :=
  (∀ (c : Chip) (d i type : Nat) (digest : List Byte), i < 4 → digest.length = 32 → c.logCount d < 32 →
    (c.extend d i type digest).mr d i = shake256 32 (c.mr d i ++ digest) ∧
    (∀ j < 4, j ≠ i → (c.extend d i type digest).mr d j = c.mr d j) ∧
    (c.extend d i type digest).logCount d = c.logCount d + 1 ∧
    (c.extend d i type digest).pageBytes d SEC (SEC.LOG + 0x28 * c.logCount d) 10 =
      [BitVec.ofNat 8 d, BitVec.ofNat 8 i, BitVec.ofNat 8 type, BitVec.ofNat 8 (c.logCount d), 0#8, 0#8, 0#8, 0#8] ++ digest) ∧
  (∀ (s : State) (h : Hdr) (mr type : Nat), mr < 4 → type < 256 →
    let w := BitVec.ofNat 32 (2 ^ 31 + 256 * type + mr)
    s.mayWrite h SEC SEC.EXT_CTRL w →
    exec (.measurementExtend h mr type) s = .next (s.wrote h SEC SEC.EXT_CTRL w fun c =>
      ((c.put h.die SEC SEC.EXT_CTRL 15 8 type).put h.die SEC SEC.EXT_CTRL 1 0 mr).extend h.die mr type (c.pageBytes h.die SEC SEC.EXT_DATA 8)) ∧
    2 ≤ mr)

/-- Identity and quotes (R439 to R442): a seed makes the identity READY; without one SEC of die 0 latches NO_IDENTITY; ATTEST builds the
quote from the registers as they are, and completes with the quote and its signature; without identity it completes FAIL 1. -/
def Sys2Proof.Claim.IdentityAndQuotes : Prop :=
  (∀ (s : State) (ok : Bool), s.chip.power = .running → s.chip.inReset.contains 0 = false → s.chip.ready 0 SEC = false →
    1 ∉ s.chip.codesOf 0 SEC →
    (((s.chip.otpOf 0).seed.isSome = true ∨ ((s.chip.otpOf 0).booted = false ∧ ok = true)) →
      ∃ t, exec (.identityDerive ok) s = .next t ∧ t.mem = s.mem ∧ t.chip.ready 0 SEC = true ∧ (t.chip.otpOf 0).seed.isSome = true ∧
        (t.chip.otpOf 0).booted = true ∧ ((s.chip.otpOf 0).seed.isSome = true → (t.chip.otpOf 0).seed = (s.chip.otpOf 0).seed)) ∧
    ((s.chip.otpOf 0).seed = none → ((s.chip.otpOf 0).booted = true ∨ ok = false) →
      ∃ t, exec (.identityDerive ok) s = .next t ∧ t.mem.flash = s.mem.flash ∧ t.mem.dram = s.mem.dram ∧ t.chip.ready 0 SEC = false ∧
        1 ∈ t.chip.codesOf 0 SEC)) ∧
  (∀ (s : State) (h : Hdr) (nonce : List Byte), s.chip.admits h (.attest nonce) →
    let r := s.req h (.attest nonce)
    (1 ∈ s.chip.codesOf 0 SEC → exec (.attest h nonce) s = .next ((s.starts h (.attest nonce)).finish r FAIL 1 [])) ∧
    (1 ∉ s.chip.codesOf 0 SEC → s.chip.ready 0 SEC = false →
      exec (.attest h nonce) s = .next ((s.starts h (.attest nonce)).done r BUSY)) ∧
    (1 ∉ s.chip.codesOf 0 SEC → s.chip.ready 0 SEC = true → s.chip.reqs isAttest = [] → s.chip.quote = none →
      exec (.attest h nonce) s = .next ((s.starts h (.attest nonce)).up fun c => { c with quote := some (r.id, c.buildQuote nonce) }))) ∧
  (∀ s : State, s.chip.quote = none → exec .quoteSigned s = .next s) ∧
  (∀ (s : State) (r : Req) (q : List Byte), s.chip.quote = some (r.id, q) → (s.chip.reqs fun x => isAttest x && decide (x.id = r.id)) = [r] →
    s.chip.reqs isAttest = [r] → s.chip.answers (portDie r.port) r.die = true →
    exec .quoteSigned s = .next (s.up fun c => { c.finish r OK 0
      (q ++ (List.range 3309).map (Config.mldsaSign ((c.otpOf 0).seed.getD 0) ctxAT q)) with quote := none }))

/-- One-time-programmable memory, measurements, identity and quotes (R430 to R442). -/
def Obligations.SecurityFuses : Prop :=
  Claim.OtpProgramming ∧ Claim.Measurements ∧ Claim.IdentityAndQuotes

/-! ### The ports and their transports (R105 to R131, R387, R388, R456, R458, R482) -/

/-- LOG_READ (R458, R456): with every entry held it returns them; otherwise it completes FAIL with DETAIL 1 and no payload. -/
def Sys2Proof.Claim.LogRead : Prop :=
  ∀ (s : State) (h : Hdr) (i : Word) (n : Nat), s.chip.admits h (.logRead i n) →
    let held := ∀ k < n, i.toNat + k < s.chip.num h.die FAULT FAULT.LOG_HEAD ∧ s.chip.num h.die FAULT FAULT.LOG_HEAD ≤ i.toNat + k + 12288
    (¬held → exec (.logRead h i n) s = .next ((s.starts h (.logRead i n)).finish (s.req h (.logRead i n)) FAIL 1 [])) ∧
    (held → s.chip.badWords = [] → s.chip.fixups = [] →
      exec (.logRead h i n) s = .next (s.ran h (.logRead i n) id ((List.range n).flatMap fun k => (List.range 4).flatMap fun j =>
        leBytes 4 (s.mem.word (basketAddr h.die 1 (0x10000 + 16 * ((i.toNat + k) % 12288)) + 4 * j)).toNat)))

/-- SIGNATURE_READ (R123, R297, R442): the latest signature with its frame, or the identity digest once the identity is READY. -/
def Sys2Proof.Claim.SignatureRead : Prop :=
  ∀ (s : State) (h : Hdr) (o what : Nat), s.chip.admits h (.signatureRead o what) →
    (what ≠ 1 → exec (.signatureRead h o what) s = .next (s.ran h (.signatureRead o what) id
      (leBytes 4 (s.chip.num o SCAN SCAN.SIG_FRAME) ++ leBytes 4 (s.chip.num o SCAN SCAN.SIGNATURE)))) ∧
    (what = 1 → s.chip.ready 0 SEC = true → exec (.signatureRead h o what) s = .next (s.ran h (.signatureRead o what) id s.chip.idDigest)) ∧
    (what = 1 → s.chip.ready 0 SEC = false →
      exec (.signatureRead h o what) s = .next ((s.starts h (.signatureRead o what)).done (s.req h (.signatureRead o what)) BUSY))

/-- ABORT (R126): the commands of its own port that it names and that can still be aborted complete ABORTED, and DETAIL is their number;
register accesses and other ABORTs are never aborted. -/
def Sys2Proof.Claim.AbortCommand : Prop :=
  (∀ (s : State) (h : Hdr) (scope tag : Nat), s.chip.admits h (.abort scope tag) →
    let u := (s.starts h (.abort scope tag)).chip
    let r := s.req h (.abort scope tag)
    let hit := (u.inflight ++ u.waiting).filter fun q => decide (q.id ≠ r.id) && decide (q.port = h.port) &&
      (decide (scope = 1) || decide (q.tag.toNat = tag)) && u.abortable q
    exec (.abort h scope tag) s = .next ((s.starts h (.abort scope tag)).up fun c =>
      (c.each hit fun c q => (c.withdraw q).reply q ABORTED 0 []).finish r OK hit.length [])) ∧
  (∀ (c : Chip) (r : Req), (∃ a n, r.cmd = .regRead a n) ∨ (∃ a ws, r.cmd = .regWrite a ws) ∨ (∃ x y, r.cmd = .abort x y) →
    c.abortable r = false)

/-- Time limits (R116, R123): a limit that has not passed changes nothing; a command that has not started, because its die does not
answer, completes TIMEOUT and has no effect; a flash write that is late leaves its region unspecified. -/
def Sys2Proof.Claim.TimeLimits : Prop :=
  (∀ (s : State) (p : Port) (tag : Byte), portDie p < dieCount s.chip.member →
    (∀ r ∈ s.chip.inflight ++ s.chip.waiting, r.port = p → r.tag = tag → s.chip.overdue r = false) →
    exec (.commandTimeLimit p tag) s = .next s) ∧
  (∀ (s : State) (p : Port) (tag : Byte) (r : Req), portDie p < dieCount s.chip.member →
    (s.chip.inflight ++ s.chip.waiting).filter (fun q => decide (q.port = p) && decide (q.tag = tag)) = [r] →
    s.chip.overdue r = true → s.chip.bcast = none →
    (r.started = false → exec (.commandTimeLimit p tag) s = .next (s.up fun c => c.reply r TIMEOUT 0 [])) ∧
    (r.started = true → ∀ a ds, r.cmd = .flashWrite a ds →
      ∃ m : Mem, exec (.commandTimeLimit p tag) s = .next ((s.up fun c => c.reply r TIMEOUT 0 []).mapMem fun _ => m) ∧
        m.flash = s.mem.flash ∧ m.baskets = s.mem.baskets ∧ m.dram = s.mem.dram ∧
        ∀ b, b ∈ m.flashOpen ↔ b ∈ s.mem.flashOpen ∨
          (if ds = [] then a.toNat ≤ b ∧ b < a.toNat + 4096 else a.toNat / 256 * 256 ≤ b ∧ b < a.toNat / 256 * 256 + 256)))

/-- LOG_READ, SIGNATURE_READ, ABORT and time limits (R116, R123, R126, R458). -/
def Obligations.ReadsAndAborts : Prop :=
  Claim.LogRead ∧ Claim.SignatureRead ∧ Claim.AbortCommand ∧ Claim.TimeLimits

/-- The service port (R118, R119): a write of 8 + LENGTH bytes is a message, and any other is discarded and counted; MSG_READ sends the
oldest message and zeros after its end, and the message leaves the queue only when its last byte has been clocked out; STATUS_READ
sends SVC_STATUS. -/
def Sys2Proof.Claim.ServicePort : Prop :=
  (∀ (s : State) (bs : List Byte), s.chip.power = .running →
    (8 ≤ bs.length → bs.length = 8 + fieldAt bs 3 1 → exec (.msgWrite bs) s = .next (s.accept (readMessage .service bs))) ∧
    ((bs.length < 8 ∨ bs.length ≠ 8 + fieldAt bs 3 1) →
      exec (.msgWrite bs) s = .next (s.up fun c => (c.count 0 PORT_SVC PORT_SVC.DISCARD_COUNT).event 0 PORT_SVC 2))) ∧
  (∀ (s : State) (n : Nat), s.chip.power = .running →
    let x := s.chip.port .service
    let sent := fun (bs : List Byte) (c : Chip) => ({ c with svcOut := (bs ++ List.replicate (n - bs.length) 0).take n } : Chip)
    (x.out = [] → exec (.msgRead n) s = .next (s.up (sent []))) ∧
    ∀ m rest, x.out = m :: rest →
      (n < m.bytes.length → exec (.msgRead n) s = .next (s.up (sent m.bytes))) ∧
      (m.bytes.length ≤ n → exec (.msgRead n) s = .next (s.up fun c => (sent m.bytes c).setPort .service { x with
        out := rest, tags := if m.event || m.more then x.tags else x.tags.filter fun t => t ≠ m.tag }))) ∧
  ∀ s : State, s.chip.power = .running → exec .statusRead s = .next (s.up fun c => { c with svcOut := leBytes 4 c.svcStatus })

/-- The test port (R120, R482): each instruction takes its code; Capture-DR takes the oldest message and whether there is a credit;
Update-DR gives a message only with credit and KIND 0b00; IDCODE selects the code of the member. Boundary scan changes nothing else. -/
def Sys2Proof.Claim.TestPort : Prop :=
  (∀ s : State, ∀ x ∈ [(Instr.extest, 0x00), (.idcode, 0x01), (.samplePreload, 0x02), (.extestPulse, 0x03), (.extestTrain, 0x04),
      (.highz, 0x05), (.clamp, 0x06), (.msgIo, 0x20)], exec x.1 s = .next (s.up fun c => { c with jtagIr := x.2 })) ∧
  (∀ s : State, ∃ t, exec .idcode s = .next t ∧ t.chip.tapData = leBytes 4 (match s.chip.member with
    | .pn9808 => 0xB98085D3 | .pn9804 => 0xB98045D3 | .pn9802 => 0xB98025D3)) ∧
  (∀ (s : State) (code : Byte), exec (.bypass code) s = .next (s.up fun c => { c with jtagIr := code.toNat })) ∧
  (∀ s : State, s.chip.jtagIr = 0x20 →
    let x := s.chip.port .test
    (x.out = [] → exec .msgIoCapture s = .next (s.up fun c => { c with
      jtagDr := ([], false), jtagCredit := c.hears .test && decide (x.tags = []) })) ∧
    ∀ m rest, x.out = m :: rest → ∃ t, exec .msgIoCapture s = .next t ∧ t.mem = s.mem ∧ t.chip.jtagDr = (m.bytes, true) ∧
      (t.chip.port .test).out = rest ∧ t.chip.regs = s.chip.regs) ∧
  (∀ (s : State) (bs : List Byte), s.chip.jtagIr = 0x20 →
    (s.chip.jtagCredit = true → fieldAt bs 2 1 % 4 = 0 → exec (.msgIoUpdate bs) s = .next (s.accept (readMessage .test bs))) ∧
    ((s.chip.jtagCredit = false ∨ fieldAt bs 2 1 % 4 ≠ 0) → exec (.msgIoUpdate bs) s = .next s)) ∧
  (∀ (s : State) (bs : List Byte), s.chip.jtagIr ≠ 0x20 → exec .msgIoCapture s = .next s ∧ exec (.msgIoUpdate bs) s = .next s)

/-- Delivery (R111, R113): the last part of a completion frees its tag, and the message leaves the queue; a message of another command,
or a part before the last, stays. -/
def Sys2Proof.Claim.CompletionDelivery : Prop :=
  ∀ (s : State) (p : Port) (tag : Byte), portDie p < dieCount s.chip.member → s.chip.power = .running →
    let x := s.chip.port p
    (x.out = [] → exec (.completionDelivered p tag) s = .next s) ∧
    ∀ m rest, x.out = m :: rest →
      ((m.event = true ∨ m.more = true ∨ m.tag ≠ tag) → exec (.completionDelivered p tag) s = .next s) ∧
      (m.event = false → m.more = false → m.tag = tag → (∀ d f, p = .inband d f → s.chip.firstReady d f = true) →
        ∃ t, exec (.completionDelivered p tag) s = .next t ∧ t.mem = s.mem ∧ t.chip.regs = s.chip.regs ∧
          (t.chip.port p).out = rest ∧ (t.chip.port p).tags = x.tags.filter fun y => y ≠ tag)

/-- The steward's mailbox (R122, R387, R388): the engine takes the message at TAIL from the ring of B0 and advances TAIL; it writes its
oldest message to HEAD of the ring of B1 and advances HEAD, unless the ring is full. -/
def Sys2Proof.Claim.StewardMailbox : Prop :=
  (∀ (s : State) (d : Nat), d < dieCount s.chip.member → s.chip.stewardRuns d = true → s.chip.badWords = [] → s.chip.fixups = [] →
    let head := s.mem.word (basketAddr d 0 0)
    let tail := s.mem.word (basketAddr d 0 4)
    let slot := (List.range 16).flatMap fun j => leBytes 4 (s.mem.word (basketAddr d 0 (0x1000 + 64 * (tail.toNat % 64)) + 4 * j)).toNat
    (head = tail → exec (.mailboxCmdTake d) s = .next s) ∧
    (head ≠ tail → exec (.mailboxCmdTake d) s = .next
      ((s.setWord (basketAddr d 0 4) (tail + 1#32)).accept (readMessage (.steward d) slot)))) ∧
  (∀ (s : State) (d : Nat), d < dieCount s.chip.member → s.chip.dieRuns d = true → s.chip.badWords = [] → s.chip.fixups = [] →
    let head := s.mem.word (basketAddr d 1 0)
    let x := s.chip.port (.steward d)
    (x.out = [] → exec (.mailboxOutWrite d) s = .next s) ∧
    ((head - s.mem.word (basketAddr d 1 4)).toNat = 128 → exec (.mailboxOutWrite d) s = .next s) ∧
    ∀ m rest, x.out = m :: rest → (head - s.mem.word (basketAddr d 1 4)).toNat ≠ 128 →
      ∃ t, exec (.mailboxOutWrite d) s = .next t ∧ t.mem.flash = s.mem.flash ∧ t.mem.dram = s.mem.dram ∧
        t.mem.word (basketAddr d 1 0) = head + 1#32 ∧ (t.chip.port (.steward d)).out = rest ∧ t.chip.regs = s.chip.regs)

/-- The transports of the ports (R111, R118 to R122, R387, R388, R482). -/
def Obligations.Transports : Prop :=
  Claim.ServicePort ∧ Claim.TestPort ∧ Claim.CompletionDelivery ∧ Claim.StewardMailbox
end

