-- ==== Sys2Proof/Laws/KMap.lean ====
section
/-! SUPPORT. The laws of the sparse map: reading after writing, and that writing and filtering keep the canonical form. -/

namespace Sys2Proof.Machine

variable {α : Type}

@[simp] theorem KMap.get?_nil (k : Nat) : KMap.get? ([] : KMap α) k = none := rfl

@[simp] theorem KMap.get?_set (m : KMap α) (k : Nat) (v : α) (j : Nat) :
    KMap.get? (KMap.set m k v) j = if j = k then some v else KMap.get? m j := by
  induction m with
  | nil => simp only [KMap.set, KMap.get?]; split <;> simp_all [eq_comm]
  | cons x m ih =>
    obtain ⟨a, w⟩ := x
    simp only [KMap.set]
    split
    · simp only [KMap.get?]; split <;> simp_all [eq_comm]
    · split
      · subst_vars; simp only [KMap.get?]; split <;> simp_all [eq_comm]
      · simp only [KMap.get?, ih]; split <;> simp_all [eq_comm]

@[simp] theorem KMap.get?_erase (m : KMap α) (k j : Nat) :
    KMap.get? (KMap.erase m k) j = if j = k then none else KMap.get? m j := by
  induction m with
  | nil => simp [KMap.erase]
  | cons x m ih =>
    obtain ⟨a, w⟩ := x
    simp only [KMap.erase]
    split
    · subst_vars; simp only [KMap.get?, ih]; split <;> simp_all [eq_comm]
    · simp only [KMap.get?, ih]; split <;> simp_all [eq_comm]

/-- Reading after writing: the value written under its key, and every other key as it was. -/
@[simp] theorem KMap.getD_put [DecidableEq α] (d : α) (m : KMap α) (k : Nat) (v : α) (j : Nat) :
    KMap.getD (KMap.put d m k v) j d = if j = k then v else KMap.getD m j d := by
  unfold KMap.put KMap.getD
  split
  · subst_vars; simp only [KMap.get?_erase]; split <;> simp
  · simp only [KMap.get?_set]; split <;> simp

/-- Writing a key leaves what every other key holds, whatever unlisted keys hold. -/
theorem KMap.get?_put_of_ne [DecidableEq α] (d : α) (m : KMap α) (k : Nat) (v : α) (j : Nat) (h : j ≠ k) :
    KMap.get? (KMap.put d m k v) j = KMap.get? m j := by
  unfold KMap.put; split <;> simp [h]

/-- The keys of a canonical tail lie above the key before it. -/
theorem KMap.wf_cons [DecidableEq α] (d : Nat → α) (k : Nat) (v : α) (m : KMap α) :
    KMap.wf d ((k, v) :: m) = true ↔ v ≠ d k ∧ (∀ x ∈ m, k < x.1) ∧ KMap.wf d m = true := by
  induction m generalizing k v with
  | nil => simp [KMap.wf]
  | cons x m ih =>
    obtain ⟨a, w⟩ := x
    constructor
    · intro h
      simp only [KMap.wf, Bool.and_eq_true, decide_eq_true_eq] at h
      obtain ⟨⟨h1, h2⟩, h3⟩ := h
      refine ⟨h1, ?_, h3⟩
      intro y hy
      rcases List.mem_cons.1 hy with rfl | hy
      · exact h2
      · exact lt_trans h2 (((ih a w).1 h3).2.1 y hy)
    · rintro ⟨h1, h2, h3⟩
      simp only [KMap.wf, Bool.and_eq_true, decide_eq_true_eq]
      exact ⟨⟨h1, h2 _ (List.mem_cons_self ..)⟩, h3⟩

theorem KMap.mem_set (m : KMap α) (k : Nat) (v : α) (x : Nat × α) (h : x ∈ KMap.set m k v) : x = (k, v) ∨ x ∈ m := by
  induction m with
  | nil => simpa [KMap.set] using h
  | cons y m ih =>
    obtain ⟨a, w⟩ := y
    simp only [KMap.set] at h
    split at h
    · simpa using h
    · split at h
      · rcases List.mem_cons.1 h with h | h
        · exact .inl h
        · exact .inr (List.mem_cons_of_mem _ h)
      · rcases List.mem_cons.1 h with h | h
        · exact .inr (h ▸ List.mem_cons_self ..)
        · rcases ih h with h | h
          · exact .inl h
          · exact .inr (List.mem_cons_of_mem _ h)

theorem KMap.mem_erase (m : KMap α) (k : Nat) (x : Nat × α) (h : x ∈ KMap.erase m k) : x ∈ m := by
  induction m with
  | nil => simp [KMap.erase] at h
  | cons y m ih =>
    obtain ⟨a, w⟩ := y
    simp only [KMap.erase] at h
    split at h
    · exact List.mem_cons_of_mem _ (ih h)
    · rcases List.mem_cons.1 h with h | h
      · exact h ▸ List.mem_cons_self ..
      · exact List.mem_cons_of_mem _ (ih h)

theorem KMap.wf_set [DecidableEq α] (d : Nat → α) (m : KMap α) (k : Nat) (v : α) (hv : v ≠ d k) (h : KMap.wf d m = true) :
    KMap.wf d (KMap.set m k v) = true := by
  induction m with
  | nil => simp [KMap.set, KMap.wf, hv]
  | cons y m ih =>
    obtain ⟨a, w⟩ := y
    have hh := (KMap.wf_cons d a w m).1 h
    simp only [KMap.set]
    split
    · rename_i hk
      refine (KMap.wf_cons d k v _).2 ⟨hv, ?_, h⟩
      intro x hx
      rcases List.mem_cons.1 hx with rfl | hx
      · exact hk
      · exact lt_trans hk (hh.2.1 x hx)
    · split
      · subst_vars; exact (KMap.wf_cons d a v m).2 ⟨hv, hh.2⟩
      · refine (KMap.wf_cons d a w _).2 ⟨hh.1, ?_, ih hh.2.2⟩
        intro x hx
        rcases KMap.mem_set m k v x hx with rfl | hx
        · show a < k; omega
        · exact hh.2.1 x hx

theorem KMap.wf_erase [DecidableEq α] (d : Nat → α) (m : KMap α) (k : Nat) (h : KMap.wf d m = true) :
    KMap.wf d (KMap.erase m k) = true := by
  induction m with
  | nil => rfl
  | cons y m ih =>
    obtain ⟨a, w⟩ := y
    have hh := (KMap.wf_cons d a w m).1 h
    simp only [KMap.erase]
    split
    · exact ih hh.2.2
    · exact (KMap.wf_cons d a w _).2 ⟨hh.1, fun x hx => hh.2.1 x (KMap.mem_erase m k x hx), ih hh.2.2⟩

/-- A write keeps the canonical form. -/
theorem KMap.wf_put [DecidableEq α] (d : α) (m : KMap α) (k : Nat) (v : α) (h : KMap.wf (fun _ => d) m = true) :
    KMap.wf (fun _ => d) (KMap.put d m k v) = true := by
  unfold KMap.put
  split
  · exact KMap.wf_erase _ m k h
  · exact KMap.wf_set _ m k v (by assumption) h

/-- Dropping entries keeps the canonical form. -/
theorem KMap.wf_filter [DecidableEq α] (d : Nat → α) (m : KMap α) (p : Nat × α → Bool) (h : KMap.wf d m = true) :
    KMap.wf d (m.filter p) = true := by
  induction m with
  | nil => rfl
  | cons y m ih =>
    obtain ⟨a, w⟩ := y
    have hh := (KMap.wf_cons d a w m).1 h
    simp only [List.filter_cons]
    split
    · exact (KMap.wf_cons d a w _).2 ⟨hh.1, fun x hx => hh.2.1 x (List.mem_filter.1 hx).1, ih hh.2.2⟩
    · exact ih hh.2.2

end Sys2Proof.Machine
end

