-- ==== Sys2Proof/Laws/State.lean ====
section
/-! SUPPORT. One lemma for each field and each update of the state: what an update leaves as it was. All are true by
definition. Below them, what is read after an update. -/

namespace Sys2Proof.Machine

/-! ### The three parts of the state -/

@[simp] theorem State.up_chip (s : State) (f : Chip → Chip) : (s.up f).chip = f s.chip := rfl
@[simp] theorem State.up_mem (s : State) (f : Chip → Chip) : (s.up f).mem = s.mem := rfl
@[simp] theorem State.up_pending (s : State) (f : Chip → Chip) : (s.up f).pending = s.pending := rfl
@[simp] theorem State.mapMem_chip (s : State) (f : Mem → Mem) : (s.mapMem f).chip = s.chip := rfl
@[simp] theorem State.mapMem_mem (s : State) (f : Mem → Mem) : (s.mapMem f).mem = f s.mem := rfl
@[simp] theorem State.mapMem_pending (s : State) (f : Mem → Mem) : (s.mapMem f).pending = s.pending := rfl
@[simp] theorem State.up_up (s : State) (f g : Chip → Chip) : (s.up f).up g = s.up fun c => g (f c) := rfl

/-! ### setReg -/

@[simp] theorem Chip.setReg_member (c : Chip) (d p o : Nat) (w : Word) : (c.setReg d p o w).member = c.member := rfl
@[simp] theorem Chip.setReg_power (c : Chip) (d p o : Nat) (w : Word) : (c.setReg d p o w).power = c.power := rfl
@[simp] theorem Chip.setReg_porN (c : Chip) (d p o : Nat) (w : Word) : (c.setReg d p o w).porN = c.porN := rfl
@[simp] theorem Chip.setReg_now (c : Chip) (d p o : Nat) (w : Word) : (c.setReg d p o w).now = c.now := rfl
@[simp] theorem Chip.setReg_porAt (c : Chip) (d p o : Nat) (w : Word) : (c.setReg d p o w).porAt = c.porAt := rfl
@[simp] theorem Chip.setReg_cycleAt (c : Chip) (d p o : Nat) (w : Word) : (c.setReg d p o w).cycleAt = c.cycleAt := rfl
@[simp] theorem Chip.setReg_startAt (c : Chip) (d p o : Nat) (w : Word) : (c.setReg d p o w).startAt = c.startAt := rfl
@[simp] theorem Chip.setReg_fresh (c : Chip) (d p o : Nat) (w : Word) : (c.setReg d p o w).fresh = c.fresh := rfl
@[simp] theorem Chip.setReg_fuseOpen (c : Chip) (d p o : Nat) (w : Word) : (c.setReg d p o w).fuseOpen = c.fuseOpen := rfl
@[simp] theorem Chip.setReg_staged (c : Chip) (d p o : Nat) (w : Word) : (c.setReg d p o w).staged = c.staged := rfl
@[simp] theorem Chip.setReg_commits (c : Chip) (d p o : Nat) (w : Word) : (c.setReg d p o w).commits = c.commits := rfl
@[simp] theorem Chip.setReg_ports (c : Chip) (d p o : Nat) (w : Word) : (c.setReg d p o w).ports = c.ports := rfl
@[simp] theorem Chip.setReg_nextReq (c : Chip) (d p o : Nat) (w : Word) : (c.setReg d p o w).nextReq = c.nextReq := rfl
@[simp] theorem Chip.setReg_inflight (c : Chip) (d p o : Nat) (w : Word) : (c.setReg d p o w).inflight = c.inflight := rfl
@[simp] theorem Chip.setReg_waiting (c : Chip) (d p o : Nat) (w : Word) : (c.setReg d p o w).waiting = c.waiting := rfl
@[simp] theorem Chip.setReg_bcast (c : Chip) (d p o : Nat) (w : Word) : (c.setReg d p o w).bcast = c.bcast := rfl
@[simp] theorem Chip.setReg_linksDown (c : Chip) (d p o : Nat) (w : Word) : (c.setReg d p o w).linksDown = c.linksDown := rfl
@[simp] theorem Chip.setReg_raisedAt (c : Chip) (d p o : Nat) (w : Word) : (c.setReg d p o w).raisedAt = c.raisedAt := rfl
@[simp] theorem Chip.setReg_raised (c : Chip) (d p o : Nat) (w : Word) : (c.setReg d p o w).raised = c.raised := rfl
@[simp] theorem Chip.setReg_wroteAt (c : Chip) (d p o : Nat) (w : Word) : (c.setReg d p o w).wroteAt = c.wroteAt := rfl
@[simp] theorem Chip.setReg_wrote (c : Chip) (d p o : Nat) (w : Word) : (c.setReg d p o w).wrote = c.wrote := rfl
@[simp] theorem Chip.setReg_svcOut (c : Chip) (d p o : Nat) (w : Word) : (c.setReg d p o w).svcOut = c.svcOut := rfl
@[simp] theorem Chip.setReg_wires (c : Chip) (d p o : Nat) (w : Word) : (c.setReg d p o w).wires = c.wires := rfl
@[simp] theorem Chip.setReg_carried (c : Chip) (d p o : Nat) (w : Word) : (c.setReg d p o w).carried = c.carried := rfl
@[simp] theorem Chip.setReg_rxMaps (c : Chip) (d p o : Nat) (w : Word) : (c.setReg d p o w).rxMaps = c.rxMaps := rfl
@[simp] theorem Chip.setReg_inReset (c : Chip) (d p o : Nat) (w : Word) : (c.setReg d p o w).inReset = c.inReset := rfl
@[simp] theorem Chip.setReg_boot (c : Chip) (d p o : Nat) (w : Word) : (c.setReg d p o w).boot = c.boot := rfl
@[simp] theorem Chip.setReg_profile (c : Chip) (d p o : Nat) (w : Word) : (c.setReg d p o w).profile = c.profile := rfl
@[simp] theorem Chip.setReg_outs (c : Chip) (d p o : Nat) (w : Word) : (c.setReg d p o w).outs = c.outs := rfl
@[simp] theorem Chip.setReg_lanes (c : Chip) (d p o : Nat) (w : Word) : (c.setReg d p o w).lanes = c.lanes := rfl
@[simp] theorem Chip.setReg_layers (c : Chip) (d p o : Nat) (w : Word) : (c.setReg d p o w).layers = c.layers := rfl
@[simp] theorem Chip.setReg_dies (c : Chip) (d p o : Nat) (w : Word) : (c.setReg d p o w).dies = c.dies := rfl
@[simp] theorem Chip.setReg_drivers (c : Chip) (d p o : Nat) (w : Word) : (c.setReg d p o w).drivers = c.drivers := rfl
@[simp] theorem Chip.setReg_chans (c : Chip) (d p o : Nat) (w : Word) : (c.setReg d p o w).chans = c.chans := rfl
@[simp] theorem Chip.setReg_codes (c : Chip) (d p o : Nat) (w : Word) : (c.setReg d p o w).codes = c.codes := rfl
@[simp] theorem Chip.setReg_resends (c : Chip) (d p o : Nat) (w : Word) : (c.setReg d p o w).resends = c.resends := rfl
@[simp] theorem Chip.setReg_badWords (c : Chip) (d p o : Nat) (w : Word) : (c.setReg d p o w).badWords = c.badWords := rfl
@[simp] theorem Chip.setReg_fixups (c : Chip) (d p o : Nat) (w : Word) : (c.setReg d p o w).fixups = c.fixups := rfl
@[simp] theorem Chip.setReg_ramblers (c : Chip) (d p o : Nat) (w : Word) : (c.setReg d p o w).ramblers = c.ramblers := rfl
@[simp] theorem Chip.setReg_baskets (c : Chip) (d p o : Nat) (w : Word) : (c.setReg d p o w).baskets = c.baskets := rfl
@[simp] theorem Chip.setReg_otp (c : Chip) (d p o : Nat) (w : Word) : (c.setReg d p o w).otp = c.otp := rfl
@[simp] theorem Chip.setReg_fatals (c : Chip) (d p o : Nat) (w : Word) : (c.setReg d p o w).fatals = c.fatals := rfl
@[simp] theorem Chip.setReg_quote (c : Chip) (d p o : Nat) (w : Word) : (c.setReg d p o w).quote = c.quote := rfl
@[simp] theorem Chip.setReg_otpSkew (c : Chip) (d p o : Nat) (w : Word) : (c.setReg d p o w).otpSkew = c.otpSkew := rfl
@[simp] theorem Chip.setReg_logRestarted (c : Chip) (d p o : Nat) (w : Word) : (c.setReg d p o w).logRestarted = c.logRestarted := rfl
@[simp] theorem Chip.setReg_via (c : Chip) (d p o : Nat) (w : Word) : (c.setReg d p o w).via = c.via := rfl
@[simp] theorem Chip.setReg_jtagIr (c : Chip) (d p o : Nat) (w : Word) : (c.setReg d p o w).jtagIr = c.jtagIr := rfl
@[simp] theorem Chip.setReg_jtagCredit (c : Chip) (d p o : Nat) (w : Word) : (c.setReg d p o w).jtagCredit = c.jtagCredit := rfl
@[simp] theorem Chip.setReg_jtagDr (c : Chip) (d p o : Nat) (w : Word) : (c.setReg d p o w).jtagDr = c.jtagDr := rfl

/-! ### stage -/

@[simp] theorem Chip.stage_member (c : Chip) (d p o : Nat) (w : Word) : (c.stage d p o w).member = c.member := rfl
@[simp] theorem Chip.stage_power (c : Chip) (d p o : Nat) (w : Word) : (c.stage d p o w).power = c.power := rfl
@[simp] theorem Chip.stage_porN (c : Chip) (d p o : Nat) (w : Word) : (c.stage d p o w).porN = c.porN := rfl
@[simp] theorem Chip.stage_now (c : Chip) (d p o : Nat) (w : Word) : (c.stage d p o w).now = c.now := rfl
@[simp] theorem Chip.stage_porAt (c : Chip) (d p o : Nat) (w : Word) : (c.stage d p o w).porAt = c.porAt := rfl
@[simp] theorem Chip.stage_cycleAt (c : Chip) (d p o : Nat) (w : Word) : (c.stage d p o w).cycleAt = c.cycleAt := rfl
@[simp] theorem Chip.stage_startAt (c : Chip) (d p o : Nat) (w : Word) : (c.stage d p o w).startAt = c.startAt := rfl
@[simp] theorem Chip.stage_fresh (c : Chip) (d p o : Nat) (w : Word) : (c.stage d p o w).fresh = c.fresh := rfl
@[simp] theorem Chip.stage_fuseOpen (c : Chip) (d p o : Nat) (w : Word) : (c.stage d p o w).fuseOpen = c.fuseOpen := rfl
@[simp] theorem Chip.stage_regs (c : Chip) (d p o : Nat) (w : Word) : (c.stage d p o w).regs = c.regs := rfl
@[simp] theorem Chip.stage_commits (c : Chip) (d p o : Nat) (w : Word) : (c.stage d p o w).commits = c.commits := rfl
@[simp] theorem Chip.stage_ports (c : Chip) (d p o : Nat) (w : Word) : (c.stage d p o w).ports = c.ports := rfl
@[simp] theorem Chip.stage_nextReq (c : Chip) (d p o : Nat) (w : Word) : (c.stage d p o w).nextReq = c.nextReq := rfl
@[simp] theorem Chip.stage_inflight (c : Chip) (d p o : Nat) (w : Word) : (c.stage d p o w).inflight = c.inflight := rfl
@[simp] theorem Chip.stage_waiting (c : Chip) (d p o : Nat) (w : Word) : (c.stage d p o w).waiting = c.waiting := rfl
@[simp] theorem Chip.stage_bcast (c : Chip) (d p o : Nat) (w : Word) : (c.stage d p o w).bcast = c.bcast := rfl
@[simp] theorem Chip.stage_linksDown (c : Chip) (d p o : Nat) (w : Word) : (c.stage d p o w).linksDown = c.linksDown := rfl
@[simp] theorem Chip.stage_raisedAt (c : Chip) (d p o : Nat) (w : Word) : (c.stage d p o w).raisedAt = c.raisedAt := rfl
@[simp] theorem Chip.stage_raised (c : Chip) (d p o : Nat) (w : Word) : (c.stage d p o w).raised = c.raised := rfl
@[simp] theorem Chip.stage_wroteAt (c : Chip) (d p o : Nat) (w : Word) : (c.stage d p o w).wroteAt = c.wroteAt := rfl
@[simp] theorem Chip.stage_wrote (c : Chip) (d p o : Nat) (w : Word) : (c.stage d p o w).wrote = c.wrote := rfl
@[simp] theorem Chip.stage_svcOut (c : Chip) (d p o : Nat) (w : Word) : (c.stage d p o w).svcOut = c.svcOut := rfl
@[simp] theorem Chip.stage_wires (c : Chip) (d p o : Nat) (w : Word) : (c.stage d p o w).wires = c.wires := rfl
@[simp] theorem Chip.stage_carried (c : Chip) (d p o : Nat) (w : Word) : (c.stage d p o w).carried = c.carried := rfl
@[simp] theorem Chip.stage_rxMaps (c : Chip) (d p o : Nat) (w : Word) : (c.stage d p o w).rxMaps = c.rxMaps := rfl
@[simp] theorem Chip.stage_inReset (c : Chip) (d p o : Nat) (w : Word) : (c.stage d p o w).inReset = c.inReset := rfl
@[simp] theorem Chip.stage_boot (c : Chip) (d p o : Nat) (w : Word) : (c.stage d p o w).boot = c.boot := rfl
@[simp] theorem Chip.stage_profile (c : Chip) (d p o : Nat) (w : Word) : (c.stage d p o w).profile = c.profile := rfl
@[simp] theorem Chip.stage_outs (c : Chip) (d p o : Nat) (w : Word) : (c.stage d p o w).outs = c.outs := rfl
@[simp] theorem Chip.stage_lanes (c : Chip) (d p o : Nat) (w : Word) : (c.stage d p o w).lanes = c.lanes := rfl
@[simp] theorem Chip.stage_layers (c : Chip) (d p o : Nat) (w : Word) : (c.stage d p o w).layers = c.layers := rfl
@[simp] theorem Chip.stage_dies (c : Chip) (d p o : Nat) (w : Word) : (c.stage d p o w).dies = c.dies := rfl
@[simp] theorem Chip.stage_drivers (c : Chip) (d p o : Nat) (w : Word) : (c.stage d p o w).drivers = c.drivers := rfl
@[simp] theorem Chip.stage_chans (c : Chip) (d p o : Nat) (w : Word) : (c.stage d p o w).chans = c.chans := rfl
@[simp] theorem Chip.stage_codes (c : Chip) (d p o : Nat) (w : Word) : (c.stage d p o w).codes = c.codes := rfl
@[simp] theorem Chip.stage_resends (c : Chip) (d p o : Nat) (w : Word) : (c.stage d p o w).resends = c.resends := rfl
@[simp] theorem Chip.stage_badWords (c : Chip) (d p o : Nat) (w : Word) : (c.stage d p o w).badWords = c.badWords := rfl
@[simp] theorem Chip.stage_fixups (c : Chip) (d p o : Nat) (w : Word) : (c.stage d p o w).fixups = c.fixups := rfl
@[simp] theorem Chip.stage_ramblers (c : Chip) (d p o : Nat) (w : Word) : (c.stage d p o w).ramblers = c.ramblers := rfl
@[simp] theorem Chip.stage_baskets (c : Chip) (d p o : Nat) (w : Word) : (c.stage d p o w).baskets = c.baskets := rfl
@[simp] theorem Chip.stage_otp (c : Chip) (d p o : Nat) (w : Word) : (c.stage d p o w).otp = c.otp := rfl
@[simp] theorem Chip.stage_fatals (c : Chip) (d p o : Nat) (w : Word) : (c.stage d p o w).fatals = c.fatals := rfl
@[simp] theorem Chip.stage_quote (c : Chip) (d p o : Nat) (w : Word) : (c.stage d p o w).quote = c.quote := rfl
@[simp] theorem Chip.stage_otpSkew (c : Chip) (d p o : Nat) (w : Word) : (c.stage d p o w).otpSkew = c.otpSkew := rfl
@[simp] theorem Chip.stage_logRestarted (c : Chip) (d p o : Nat) (w : Word) : (c.stage d p o w).logRestarted = c.logRestarted := rfl
@[simp] theorem Chip.stage_via (c : Chip) (d p o : Nat) (w : Word) : (c.stage d p o w).via = c.via := rfl
@[simp] theorem Chip.stage_jtagIr (c : Chip) (d p o : Nat) (w : Word) : (c.stage d p o w).jtagIr = c.jtagIr := rfl
@[simp] theorem Chip.stage_jtagCredit (c : Chip) (d p o : Nat) (w : Word) : (c.stage d p o w).jtagCredit = c.jtagCredit := rfl
@[simp] theorem Chip.stage_jtagDr (c : Chip) (d p o : Nat) (w : Word) : (c.stage d p o w).jtagDr = c.jtagDr := rfl

/-! ### unstage -/

@[simp] theorem Chip.unstage_member (c : Chip) (d p : Nat) : (c.unstage d p).member = c.member := rfl
@[simp] theorem Chip.unstage_power (c : Chip) (d p : Nat) : (c.unstage d p).power = c.power := rfl
@[simp] theorem Chip.unstage_porN (c : Chip) (d p : Nat) : (c.unstage d p).porN = c.porN := rfl
@[simp] theorem Chip.unstage_now (c : Chip) (d p : Nat) : (c.unstage d p).now = c.now := rfl
@[simp] theorem Chip.unstage_porAt (c : Chip) (d p : Nat) : (c.unstage d p).porAt = c.porAt := rfl
@[simp] theorem Chip.unstage_cycleAt (c : Chip) (d p : Nat) : (c.unstage d p).cycleAt = c.cycleAt := rfl
@[simp] theorem Chip.unstage_startAt (c : Chip) (d p : Nat) : (c.unstage d p).startAt = c.startAt := rfl
@[simp] theorem Chip.unstage_fresh (c : Chip) (d p : Nat) : (c.unstage d p).fresh = c.fresh := rfl
@[simp] theorem Chip.unstage_fuseOpen (c : Chip) (d p : Nat) : (c.unstage d p).fuseOpen = c.fuseOpen := rfl
@[simp] theorem Chip.unstage_regs (c : Chip) (d p : Nat) : (c.unstage d p).regs = c.regs := rfl
@[simp] theorem Chip.unstage_commits (c : Chip) (d p : Nat) : (c.unstage d p).commits = c.commits := rfl
@[simp] theorem Chip.unstage_ports (c : Chip) (d p : Nat) : (c.unstage d p).ports = c.ports := rfl
@[simp] theorem Chip.unstage_nextReq (c : Chip) (d p : Nat) : (c.unstage d p).nextReq = c.nextReq := rfl
@[simp] theorem Chip.unstage_inflight (c : Chip) (d p : Nat) : (c.unstage d p).inflight = c.inflight := rfl
@[simp] theorem Chip.unstage_waiting (c : Chip) (d p : Nat) : (c.unstage d p).waiting = c.waiting := rfl
@[simp] theorem Chip.unstage_bcast (c : Chip) (d p : Nat) : (c.unstage d p).bcast = c.bcast := rfl
@[simp] theorem Chip.unstage_linksDown (c : Chip) (d p : Nat) : (c.unstage d p).linksDown = c.linksDown := rfl
@[simp] theorem Chip.unstage_raisedAt (c : Chip) (d p : Nat) : (c.unstage d p).raisedAt = c.raisedAt := rfl
@[simp] theorem Chip.unstage_raised (c : Chip) (d p : Nat) : (c.unstage d p).raised = c.raised := rfl
@[simp] theorem Chip.unstage_wroteAt (c : Chip) (d p : Nat) : (c.unstage d p).wroteAt = c.wroteAt := rfl
@[simp] theorem Chip.unstage_wrote (c : Chip) (d p : Nat) : (c.unstage d p).wrote = c.wrote := rfl
@[simp] theorem Chip.unstage_svcOut (c : Chip) (d p : Nat) : (c.unstage d p).svcOut = c.svcOut := rfl
@[simp] theorem Chip.unstage_wires (c : Chip) (d p : Nat) : (c.unstage d p).wires = c.wires := rfl
@[simp] theorem Chip.unstage_carried (c : Chip) (d p : Nat) : (c.unstage d p).carried = c.carried := rfl
@[simp] theorem Chip.unstage_rxMaps (c : Chip) (d p : Nat) : (c.unstage d p).rxMaps = c.rxMaps := rfl
@[simp] theorem Chip.unstage_inReset (c : Chip) (d p : Nat) : (c.unstage d p).inReset = c.inReset := rfl
@[simp] theorem Chip.unstage_boot (c : Chip) (d p : Nat) : (c.unstage d p).boot = c.boot := rfl
@[simp] theorem Chip.unstage_profile (c : Chip) (d p : Nat) : (c.unstage d p).profile = c.profile := rfl
@[simp] theorem Chip.unstage_outs (c : Chip) (d p : Nat) : (c.unstage d p).outs = c.outs := rfl
@[simp] theorem Chip.unstage_lanes (c : Chip) (d p : Nat) : (c.unstage d p).lanes = c.lanes := rfl
@[simp] theorem Chip.unstage_layers (c : Chip) (d p : Nat) : (c.unstage d p).layers = c.layers := rfl
@[simp] theorem Chip.unstage_dies (c : Chip) (d p : Nat) : (c.unstage d p).dies = c.dies := rfl
@[simp] theorem Chip.unstage_drivers (c : Chip) (d p : Nat) : (c.unstage d p).drivers = c.drivers := rfl
@[simp] theorem Chip.unstage_chans (c : Chip) (d p : Nat) : (c.unstage d p).chans = c.chans := rfl
@[simp] theorem Chip.unstage_codes (c : Chip) (d p : Nat) : (c.unstage d p).codes = c.codes := rfl
@[simp] theorem Chip.unstage_resends (c : Chip) (d p : Nat) : (c.unstage d p).resends = c.resends := rfl
@[simp] theorem Chip.unstage_badWords (c : Chip) (d p : Nat) : (c.unstage d p).badWords = c.badWords := rfl
@[simp] theorem Chip.unstage_fixups (c : Chip) (d p : Nat) : (c.unstage d p).fixups = c.fixups := rfl
@[simp] theorem Chip.unstage_ramblers (c : Chip) (d p : Nat) : (c.unstage d p).ramblers = c.ramblers := rfl
@[simp] theorem Chip.unstage_baskets (c : Chip) (d p : Nat) : (c.unstage d p).baskets = c.baskets := rfl
@[simp] theorem Chip.unstage_otp (c : Chip) (d p : Nat) : (c.unstage d p).otp = c.otp := rfl
@[simp] theorem Chip.unstage_fatals (c : Chip) (d p : Nat) : (c.unstage d p).fatals = c.fatals := rfl
@[simp] theorem Chip.unstage_quote (c : Chip) (d p : Nat) : (c.unstage d p).quote = c.quote := rfl
@[simp] theorem Chip.unstage_otpSkew (c : Chip) (d p : Nat) : (c.unstage d p).otpSkew = c.otpSkew := rfl
@[simp] theorem Chip.unstage_logRestarted (c : Chip) (d p : Nat) : (c.unstage d p).logRestarted = c.logRestarted := rfl
@[simp] theorem Chip.unstage_via (c : Chip) (d p : Nat) : (c.unstage d p).via = c.via := rfl
@[simp] theorem Chip.unstage_jtagIr (c : Chip) (d p : Nat) : (c.unstage d p).jtagIr = c.jtagIr := rfl
@[simp] theorem Chip.unstage_jtagCredit (c : Chip) (d p : Nat) : (c.unstage d p).jtagCredit = c.jtagCredit := rfl
@[simp] theorem Chip.unstage_jtagDr (c : Chip) (d p : Nat) : (c.unstage d p).jtagDr = c.jtagDr := rfl

/-! ### setCommit -/

@[simp] theorem Chip.setCommit_member (c : Chip) (d p : Nat) : (c.setCommit d p).member = c.member := rfl
@[simp] theorem Chip.setCommit_power (c : Chip) (d p : Nat) : (c.setCommit d p).power = c.power := rfl
@[simp] theorem Chip.setCommit_porN (c : Chip) (d p : Nat) : (c.setCommit d p).porN = c.porN := rfl
@[simp] theorem Chip.setCommit_now (c : Chip) (d p : Nat) : (c.setCommit d p).now = c.now := rfl
@[simp] theorem Chip.setCommit_porAt (c : Chip) (d p : Nat) : (c.setCommit d p).porAt = c.porAt := rfl
@[simp] theorem Chip.setCommit_cycleAt (c : Chip) (d p : Nat) : (c.setCommit d p).cycleAt = c.cycleAt := rfl
@[simp] theorem Chip.setCommit_startAt (c : Chip) (d p : Nat) : (c.setCommit d p).startAt = c.startAt := rfl
@[simp] theorem Chip.setCommit_fresh (c : Chip) (d p : Nat) : (c.setCommit d p).fresh = c.fresh := rfl
@[simp] theorem Chip.setCommit_fuseOpen (c : Chip) (d p : Nat) : (c.setCommit d p).fuseOpen = c.fuseOpen := rfl
@[simp] theorem Chip.setCommit_regs (c : Chip) (d p : Nat) : (c.setCommit d p).regs = c.regs := rfl
@[simp] theorem Chip.setCommit_staged (c : Chip) (d p : Nat) : (c.setCommit d p).staged = c.staged := rfl
@[simp] theorem Chip.setCommit_ports (c : Chip) (d p : Nat) : (c.setCommit d p).ports = c.ports := rfl
@[simp] theorem Chip.setCommit_nextReq (c : Chip) (d p : Nat) : (c.setCommit d p).nextReq = c.nextReq := rfl
@[simp] theorem Chip.setCommit_inflight (c : Chip) (d p : Nat) : (c.setCommit d p).inflight = c.inflight := rfl
@[simp] theorem Chip.setCommit_waiting (c : Chip) (d p : Nat) : (c.setCommit d p).waiting = c.waiting := rfl
@[simp] theorem Chip.setCommit_bcast (c : Chip) (d p : Nat) : (c.setCommit d p).bcast = c.bcast := rfl
@[simp] theorem Chip.setCommit_linksDown (c : Chip) (d p : Nat) : (c.setCommit d p).linksDown = c.linksDown := rfl
@[simp] theorem Chip.setCommit_raisedAt (c : Chip) (d p : Nat) : (c.setCommit d p).raisedAt = c.raisedAt := rfl
@[simp] theorem Chip.setCommit_raised (c : Chip) (d p : Nat) : (c.setCommit d p).raised = c.raised := rfl
@[simp] theorem Chip.setCommit_wroteAt (c : Chip) (d p : Nat) : (c.setCommit d p).wroteAt = c.wroteAt := rfl
@[simp] theorem Chip.setCommit_wrote (c : Chip) (d p : Nat) : (c.setCommit d p).wrote = c.wrote := rfl
@[simp] theorem Chip.setCommit_svcOut (c : Chip) (d p : Nat) : (c.setCommit d p).svcOut = c.svcOut := rfl
@[simp] theorem Chip.setCommit_wires (c : Chip) (d p : Nat) : (c.setCommit d p).wires = c.wires := rfl
@[simp] theorem Chip.setCommit_carried (c : Chip) (d p : Nat) : (c.setCommit d p).carried = c.carried := rfl
@[simp] theorem Chip.setCommit_rxMaps (c : Chip) (d p : Nat) : (c.setCommit d p).rxMaps = c.rxMaps := rfl
@[simp] theorem Chip.setCommit_inReset (c : Chip) (d p : Nat) : (c.setCommit d p).inReset = c.inReset := rfl
@[simp] theorem Chip.setCommit_boot (c : Chip) (d p : Nat) : (c.setCommit d p).boot = c.boot := rfl
@[simp] theorem Chip.setCommit_profile (c : Chip) (d p : Nat) : (c.setCommit d p).profile = c.profile := rfl
@[simp] theorem Chip.setCommit_outs (c : Chip) (d p : Nat) : (c.setCommit d p).outs = c.outs := rfl
@[simp] theorem Chip.setCommit_lanes (c : Chip) (d p : Nat) : (c.setCommit d p).lanes = c.lanes := rfl
@[simp] theorem Chip.setCommit_layers (c : Chip) (d p : Nat) : (c.setCommit d p).layers = c.layers := rfl
@[simp] theorem Chip.setCommit_dies (c : Chip) (d p : Nat) : (c.setCommit d p).dies = c.dies := rfl
@[simp] theorem Chip.setCommit_drivers (c : Chip) (d p : Nat) : (c.setCommit d p).drivers = c.drivers := rfl
@[simp] theorem Chip.setCommit_chans (c : Chip) (d p : Nat) : (c.setCommit d p).chans = c.chans := rfl
@[simp] theorem Chip.setCommit_codes (c : Chip) (d p : Nat) : (c.setCommit d p).codes = c.codes := rfl
@[simp] theorem Chip.setCommit_resends (c : Chip) (d p : Nat) : (c.setCommit d p).resends = c.resends := rfl
@[simp] theorem Chip.setCommit_badWords (c : Chip) (d p : Nat) : (c.setCommit d p).badWords = c.badWords := rfl
@[simp] theorem Chip.setCommit_fixups (c : Chip) (d p : Nat) : (c.setCommit d p).fixups = c.fixups := rfl
@[simp] theorem Chip.setCommit_ramblers (c : Chip) (d p : Nat) : (c.setCommit d p).ramblers = c.ramblers := rfl
@[simp] theorem Chip.setCommit_baskets (c : Chip) (d p : Nat) : (c.setCommit d p).baskets = c.baskets := rfl
@[simp] theorem Chip.setCommit_otp (c : Chip) (d p : Nat) : (c.setCommit d p).otp = c.otp := rfl
@[simp] theorem Chip.setCommit_fatals (c : Chip) (d p : Nat) : (c.setCommit d p).fatals = c.fatals := rfl
@[simp] theorem Chip.setCommit_quote (c : Chip) (d p : Nat) : (c.setCommit d p).quote = c.quote := rfl
@[simp] theorem Chip.setCommit_otpSkew (c : Chip) (d p : Nat) : (c.setCommit d p).otpSkew = c.otpSkew := rfl
@[simp] theorem Chip.setCommit_logRestarted (c : Chip) (d p : Nat) : (c.setCommit d p).logRestarted = c.logRestarted := rfl
@[simp] theorem Chip.setCommit_via (c : Chip) (d p : Nat) : (c.setCommit d p).via = c.via := rfl
@[simp] theorem Chip.setCommit_jtagIr (c : Chip) (d p : Nat) : (c.setCommit d p).jtagIr = c.jtagIr := rfl
@[simp] theorem Chip.setCommit_jtagCredit (c : Chip) (d p : Nat) : (c.setCommit d p).jtagCredit = c.jtagCredit := rfl
@[simp] theorem Chip.setCommit_jtagDr (c : Chip) (d p : Nat) : (c.setCommit d p).jtagDr = c.jtagDr := rfl

/-! ### clearCommit -/

@[simp] theorem Chip.clearCommit_member (c : Chip) (d p : Nat) : (c.clearCommit d p).member = c.member := rfl
@[simp] theorem Chip.clearCommit_power (c : Chip) (d p : Nat) : (c.clearCommit d p).power = c.power := rfl
@[simp] theorem Chip.clearCommit_porN (c : Chip) (d p : Nat) : (c.clearCommit d p).porN = c.porN := rfl
@[simp] theorem Chip.clearCommit_now (c : Chip) (d p : Nat) : (c.clearCommit d p).now = c.now := rfl
@[simp] theorem Chip.clearCommit_porAt (c : Chip) (d p : Nat) : (c.clearCommit d p).porAt = c.porAt := rfl
@[simp] theorem Chip.clearCommit_cycleAt (c : Chip) (d p : Nat) : (c.clearCommit d p).cycleAt = c.cycleAt := rfl
@[simp] theorem Chip.clearCommit_startAt (c : Chip) (d p : Nat) : (c.clearCommit d p).startAt = c.startAt := rfl
@[simp] theorem Chip.clearCommit_fresh (c : Chip) (d p : Nat) : (c.clearCommit d p).fresh = c.fresh := rfl
@[simp] theorem Chip.clearCommit_fuseOpen (c : Chip) (d p : Nat) : (c.clearCommit d p).fuseOpen = c.fuseOpen := rfl
@[simp] theorem Chip.clearCommit_regs (c : Chip) (d p : Nat) : (c.clearCommit d p).regs = c.regs := rfl
@[simp] theorem Chip.clearCommit_staged (c : Chip) (d p : Nat) : (c.clearCommit d p).staged = c.staged := rfl
@[simp] theorem Chip.clearCommit_ports (c : Chip) (d p : Nat) : (c.clearCommit d p).ports = c.ports := rfl
@[simp] theorem Chip.clearCommit_nextReq (c : Chip) (d p : Nat) : (c.clearCommit d p).nextReq = c.nextReq := rfl
@[simp] theorem Chip.clearCommit_inflight (c : Chip) (d p : Nat) : (c.clearCommit d p).inflight = c.inflight := rfl
@[simp] theorem Chip.clearCommit_waiting (c : Chip) (d p : Nat) : (c.clearCommit d p).waiting = c.waiting := rfl
@[simp] theorem Chip.clearCommit_bcast (c : Chip) (d p : Nat) : (c.clearCommit d p).bcast = c.bcast := rfl
@[simp] theorem Chip.clearCommit_linksDown (c : Chip) (d p : Nat) : (c.clearCommit d p).linksDown = c.linksDown := rfl
@[simp] theorem Chip.clearCommit_raisedAt (c : Chip) (d p : Nat) : (c.clearCommit d p).raisedAt = c.raisedAt := rfl
@[simp] theorem Chip.clearCommit_raised (c : Chip) (d p : Nat) : (c.clearCommit d p).raised = c.raised := rfl
@[simp] theorem Chip.clearCommit_wroteAt (c : Chip) (d p : Nat) : (c.clearCommit d p).wroteAt = c.wroteAt := rfl
@[simp] theorem Chip.clearCommit_wrote (c : Chip) (d p : Nat) : (c.clearCommit d p).wrote = c.wrote := rfl
@[simp] theorem Chip.clearCommit_svcOut (c : Chip) (d p : Nat) : (c.clearCommit d p).svcOut = c.svcOut := rfl
@[simp] theorem Chip.clearCommit_wires (c : Chip) (d p : Nat) : (c.clearCommit d p).wires = c.wires := rfl
@[simp] theorem Chip.clearCommit_carried (c : Chip) (d p : Nat) : (c.clearCommit d p).carried = c.carried := rfl
@[simp] theorem Chip.clearCommit_rxMaps (c : Chip) (d p : Nat) : (c.clearCommit d p).rxMaps = c.rxMaps := rfl
@[simp] theorem Chip.clearCommit_inReset (c : Chip) (d p : Nat) : (c.clearCommit d p).inReset = c.inReset := rfl
@[simp] theorem Chip.clearCommit_boot (c : Chip) (d p : Nat) : (c.clearCommit d p).boot = c.boot := rfl
@[simp] theorem Chip.clearCommit_profile (c : Chip) (d p : Nat) : (c.clearCommit d p).profile = c.profile := rfl
@[simp] theorem Chip.clearCommit_outs (c : Chip) (d p : Nat) : (c.clearCommit d p).outs = c.outs := rfl
@[simp] theorem Chip.clearCommit_lanes (c : Chip) (d p : Nat) : (c.clearCommit d p).lanes = c.lanes := rfl
@[simp] theorem Chip.clearCommit_layers (c : Chip) (d p : Nat) : (c.clearCommit d p).layers = c.layers := rfl
@[simp] theorem Chip.clearCommit_dies (c : Chip) (d p : Nat) : (c.clearCommit d p).dies = c.dies := rfl
@[simp] theorem Chip.clearCommit_drivers (c : Chip) (d p : Nat) : (c.clearCommit d p).drivers = c.drivers := rfl
@[simp] theorem Chip.clearCommit_chans (c : Chip) (d p : Nat) : (c.clearCommit d p).chans = c.chans := rfl
@[simp] theorem Chip.clearCommit_codes (c : Chip) (d p : Nat) : (c.clearCommit d p).codes = c.codes := rfl
@[simp] theorem Chip.clearCommit_resends (c : Chip) (d p : Nat) : (c.clearCommit d p).resends = c.resends := rfl
@[simp] theorem Chip.clearCommit_badWords (c : Chip) (d p : Nat) : (c.clearCommit d p).badWords = c.badWords := rfl
@[simp] theorem Chip.clearCommit_fixups (c : Chip) (d p : Nat) : (c.clearCommit d p).fixups = c.fixups := rfl
@[simp] theorem Chip.clearCommit_ramblers (c : Chip) (d p : Nat) : (c.clearCommit d p).ramblers = c.ramblers := rfl
@[simp] theorem Chip.clearCommit_baskets (c : Chip) (d p : Nat) : (c.clearCommit d p).baskets = c.baskets := rfl
@[simp] theorem Chip.clearCommit_otp (c : Chip) (d p : Nat) : (c.clearCommit d p).otp = c.otp := rfl
@[simp] theorem Chip.clearCommit_fatals (c : Chip) (d p : Nat) : (c.clearCommit d p).fatals = c.fatals := rfl
@[simp] theorem Chip.clearCommit_quote (c : Chip) (d p : Nat) : (c.clearCommit d p).quote = c.quote := rfl
@[simp] theorem Chip.clearCommit_otpSkew (c : Chip) (d p : Nat) : (c.clearCommit d p).otpSkew = c.otpSkew := rfl
@[simp] theorem Chip.clearCommit_logRestarted (c : Chip) (d p : Nat) : (c.clearCommit d p).logRestarted = c.logRestarted := rfl
@[simp] theorem Chip.clearCommit_via (c : Chip) (d p : Nat) : (c.clearCommit d p).via = c.via := rfl
@[simp] theorem Chip.clearCommit_jtagIr (c : Chip) (d p : Nat) : (c.clearCommit d p).jtagIr = c.jtagIr := rfl
@[simp] theorem Chip.clearCommit_jtagCredit (c : Chip) (d p : Nat) : (c.clearCommit d p).jtagCredit = c.jtagCredit := rfl
@[simp] theorem Chip.clearCommit_jtagDr (c : Chip) (d p : Nat) : (c.clearCommit d p).jtagDr = c.jtagDr := rfl

/-! ### setOut -/

@[simp] theorem Chip.setOut_member (c : Chip) (o : Nat) (x : OutSt) : (c.setOut o x).member = c.member := rfl
@[simp] theorem Chip.setOut_power (c : Chip) (o : Nat) (x : OutSt) : (c.setOut o x).power = c.power := rfl
@[simp] theorem Chip.setOut_porN (c : Chip) (o : Nat) (x : OutSt) : (c.setOut o x).porN = c.porN := rfl
@[simp] theorem Chip.setOut_now (c : Chip) (o : Nat) (x : OutSt) : (c.setOut o x).now = c.now := rfl
@[simp] theorem Chip.setOut_porAt (c : Chip) (o : Nat) (x : OutSt) : (c.setOut o x).porAt = c.porAt := rfl
@[simp] theorem Chip.setOut_cycleAt (c : Chip) (o : Nat) (x : OutSt) : (c.setOut o x).cycleAt = c.cycleAt := rfl
@[simp] theorem Chip.setOut_startAt (c : Chip) (o : Nat) (x : OutSt) : (c.setOut o x).startAt = c.startAt := rfl
@[simp] theorem Chip.setOut_fresh (c : Chip) (o : Nat) (x : OutSt) : (c.setOut o x).fresh = c.fresh := rfl
@[simp] theorem Chip.setOut_fuseOpen (c : Chip) (o : Nat) (x : OutSt) : (c.setOut o x).fuseOpen = c.fuseOpen := rfl
@[simp] theorem Chip.setOut_regs (c : Chip) (o : Nat) (x : OutSt) : (c.setOut o x).regs = c.regs := rfl
@[simp] theorem Chip.setOut_staged (c : Chip) (o : Nat) (x : OutSt) : (c.setOut o x).staged = c.staged := rfl
@[simp] theorem Chip.setOut_commits (c : Chip) (o : Nat) (x : OutSt) : (c.setOut o x).commits = c.commits := rfl
@[simp] theorem Chip.setOut_ports (c : Chip) (o : Nat) (x : OutSt) : (c.setOut o x).ports = c.ports := rfl
@[simp] theorem Chip.setOut_nextReq (c : Chip) (o : Nat) (x : OutSt) : (c.setOut o x).nextReq = c.nextReq := rfl
@[simp] theorem Chip.setOut_inflight (c : Chip) (o : Nat) (x : OutSt) : (c.setOut o x).inflight = c.inflight := rfl
@[simp] theorem Chip.setOut_waiting (c : Chip) (o : Nat) (x : OutSt) : (c.setOut o x).waiting = c.waiting := rfl
@[simp] theorem Chip.setOut_bcast (c : Chip) (o : Nat) (x : OutSt) : (c.setOut o x).bcast = c.bcast := rfl
@[simp] theorem Chip.setOut_linksDown (c : Chip) (o : Nat) (x : OutSt) : (c.setOut o x).linksDown = c.linksDown := rfl
@[simp] theorem Chip.setOut_raisedAt (c : Chip) (o : Nat) (x : OutSt) : (c.setOut o x).raisedAt = c.raisedAt := rfl
@[simp] theorem Chip.setOut_raised (c : Chip) (o : Nat) (x : OutSt) : (c.setOut o x).raised = c.raised := rfl
@[simp] theorem Chip.setOut_wroteAt (c : Chip) (o : Nat) (x : OutSt) : (c.setOut o x).wroteAt = c.wroteAt := rfl
@[simp] theorem Chip.setOut_wrote (c : Chip) (o : Nat) (x : OutSt) : (c.setOut o x).wrote = c.wrote := rfl
@[simp] theorem Chip.setOut_svcOut (c : Chip) (o : Nat) (x : OutSt) : (c.setOut o x).svcOut = c.svcOut := rfl
@[simp] theorem Chip.setOut_wires (c : Chip) (o : Nat) (x : OutSt) : (c.setOut o x).wires = c.wires := rfl
@[simp] theorem Chip.setOut_carried (c : Chip) (o : Nat) (x : OutSt) : (c.setOut o x).carried = c.carried := rfl
@[simp] theorem Chip.setOut_rxMaps (c : Chip) (o : Nat) (x : OutSt) : (c.setOut o x).rxMaps = c.rxMaps := rfl
@[simp] theorem Chip.setOut_inReset (c : Chip) (o : Nat) (x : OutSt) : (c.setOut o x).inReset = c.inReset := rfl
@[simp] theorem Chip.setOut_boot (c : Chip) (o : Nat) (x : OutSt) : (c.setOut o x).boot = c.boot := rfl
@[simp] theorem Chip.setOut_profile (c : Chip) (o : Nat) (x : OutSt) : (c.setOut o x).profile = c.profile := rfl
@[simp] theorem Chip.setOut_lanes (c : Chip) (o : Nat) (x : OutSt) : (c.setOut o x).lanes = c.lanes := rfl
@[simp] theorem Chip.setOut_layers (c : Chip) (o : Nat) (x : OutSt) : (c.setOut o x).layers = c.layers := rfl
@[simp] theorem Chip.setOut_dies (c : Chip) (o : Nat) (x : OutSt) : (c.setOut o x).dies = c.dies := rfl
@[simp] theorem Chip.setOut_drivers (c : Chip) (o : Nat) (x : OutSt) : (c.setOut o x).drivers = c.drivers := rfl
@[simp] theorem Chip.setOut_chans (c : Chip) (o : Nat) (x : OutSt) : (c.setOut o x).chans = c.chans := rfl
@[simp] theorem Chip.setOut_codes (c : Chip) (o : Nat) (x : OutSt) : (c.setOut o x).codes = c.codes := rfl
@[simp] theorem Chip.setOut_resends (c : Chip) (o : Nat) (x : OutSt) : (c.setOut o x).resends = c.resends := rfl
@[simp] theorem Chip.setOut_badWords (c : Chip) (o : Nat) (x : OutSt) : (c.setOut o x).badWords = c.badWords := rfl
@[simp] theorem Chip.setOut_fixups (c : Chip) (o : Nat) (x : OutSt) : (c.setOut o x).fixups = c.fixups := rfl
@[simp] theorem Chip.setOut_ramblers (c : Chip) (o : Nat) (x : OutSt) : (c.setOut o x).ramblers = c.ramblers := rfl
@[simp] theorem Chip.setOut_baskets (c : Chip) (o : Nat) (x : OutSt) : (c.setOut o x).baskets = c.baskets := rfl
@[simp] theorem Chip.setOut_otp (c : Chip) (o : Nat) (x : OutSt) : (c.setOut o x).otp = c.otp := rfl
@[simp] theorem Chip.setOut_fatals (c : Chip) (o : Nat) (x : OutSt) : (c.setOut o x).fatals = c.fatals := rfl
@[simp] theorem Chip.setOut_quote (c : Chip) (o : Nat) (x : OutSt) : (c.setOut o x).quote = c.quote := rfl
@[simp] theorem Chip.setOut_otpSkew (c : Chip) (o : Nat) (x : OutSt) : (c.setOut o x).otpSkew = c.otpSkew := rfl
@[simp] theorem Chip.setOut_logRestarted (c : Chip) (o : Nat) (x : OutSt) : (c.setOut o x).logRestarted = c.logRestarted := rfl
@[simp] theorem Chip.setOut_via (c : Chip) (o : Nat) (x : OutSt) : (c.setOut o x).via = c.via := rfl
@[simp] theorem Chip.setOut_jtagIr (c : Chip) (o : Nat) (x : OutSt) : (c.setOut o x).jtagIr = c.jtagIr := rfl
@[simp] theorem Chip.setOut_jtagCredit (c : Chip) (o : Nat) (x : OutSt) : (c.setOut o x).jtagCredit = c.jtagCredit := rfl
@[simp] theorem Chip.setOut_jtagDr (c : Chip) (o : Nat) (x : OutSt) : (c.setOut o x).jtagDr = c.jtagDr := rfl

/-! ### setLane -/

@[simp] theorem Chip.setLane_member (c : Chip) (d l : Nat) (x : LaneSt) : (c.setLane d l x).member = c.member := rfl
@[simp] theorem Chip.setLane_power (c : Chip) (d l : Nat) (x : LaneSt) : (c.setLane d l x).power = c.power := rfl
@[simp] theorem Chip.setLane_porN (c : Chip) (d l : Nat) (x : LaneSt) : (c.setLane d l x).porN = c.porN := rfl
@[simp] theorem Chip.setLane_now (c : Chip) (d l : Nat) (x : LaneSt) : (c.setLane d l x).now = c.now := rfl
@[simp] theorem Chip.setLane_porAt (c : Chip) (d l : Nat) (x : LaneSt) : (c.setLane d l x).porAt = c.porAt := rfl
@[simp] theorem Chip.setLane_cycleAt (c : Chip) (d l : Nat) (x : LaneSt) : (c.setLane d l x).cycleAt = c.cycleAt := rfl
@[simp] theorem Chip.setLane_startAt (c : Chip) (d l : Nat) (x : LaneSt) : (c.setLane d l x).startAt = c.startAt := rfl
@[simp] theorem Chip.setLane_fresh (c : Chip) (d l : Nat) (x : LaneSt) : (c.setLane d l x).fresh = c.fresh := rfl
@[simp] theorem Chip.setLane_fuseOpen (c : Chip) (d l : Nat) (x : LaneSt) : (c.setLane d l x).fuseOpen = c.fuseOpen := rfl
@[simp] theorem Chip.setLane_regs (c : Chip) (d l : Nat) (x : LaneSt) : (c.setLane d l x).regs = c.regs := rfl
@[simp] theorem Chip.setLane_staged (c : Chip) (d l : Nat) (x : LaneSt) : (c.setLane d l x).staged = c.staged := rfl
@[simp] theorem Chip.setLane_commits (c : Chip) (d l : Nat) (x : LaneSt) : (c.setLane d l x).commits = c.commits := rfl
@[simp] theorem Chip.setLane_ports (c : Chip) (d l : Nat) (x : LaneSt) : (c.setLane d l x).ports = c.ports := rfl
@[simp] theorem Chip.setLane_nextReq (c : Chip) (d l : Nat) (x : LaneSt) : (c.setLane d l x).nextReq = c.nextReq := rfl
@[simp] theorem Chip.setLane_inflight (c : Chip) (d l : Nat) (x : LaneSt) : (c.setLane d l x).inflight = c.inflight := rfl
@[simp] theorem Chip.setLane_waiting (c : Chip) (d l : Nat) (x : LaneSt) : (c.setLane d l x).waiting = c.waiting := rfl
@[simp] theorem Chip.setLane_bcast (c : Chip) (d l : Nat) (x : LaneSt) : (c.setLane d l x).bcast = c.bcast := rfl
@[simp] theorem Chip.setLane_linksDown (c : Chip) (d l : Nat) (x : LaneSt) : (c.setLane d l x).linksDown = c.linksDown := rfl
@[simp] theorem Chip.setLane_raisedAt (c : Chip) (d l : Nat) (x : LaneSt) : (c.setLane d l x).raisedAt = c.raisedAt := rfl
@[simp] theorem Chip.setLane_raised (c : Chip) (d l : Nat) (x : LaneSt) : (c.setLane d l x).raised = c.raised := rfl
@[simp] theorem Chip.setLane_wroteAt (c : Chip) (d l : Nat) (x : LaneSt) : (c.setLane d l x).wroteAt = c.wroteAt := rfl
@[simp] theorem Chip.setLane_wrote (c : Chip) (d l : Nat) (x : LaneSt) : (c.setLane d l x).wrote = c.wrote := rfl
@[simp] theorem Chip.setLane_svcOut (c : Chip) (d l : Nat) (x : LaneSt) : (c.setLane d l x).svcOut = c.svcOut := rfl
@[simp] theorem Chip.setLane_wires (c : Chip) (d l : Nat) (x : LaneSt) : (c.setLane d l x).wires = c.wires := rfl
@[simp] theorem Chip.setLane_carried (c : Chip) (d l : Nat) (x : LaneSt) : (c.setLane d l x).carried = c.carried := rfl
@[simp] theorem Chip.setLane_rxMaps (c : Chip) (d l : Nat) (x : LaneSt) : (c.setLane d l x).rxMaps = c.rxMaps := rfl
@[simp] theorem Chip.setLane_inReset (c : Chip) (d l : Nat) (x : LaneSt) : (c.setLane d l x).inReset = c.inReset := rfl
@[simp] theorem Chip.setLane_boot (c : Chip) (d l : Nat) (x : LaneSt) : (c.setLane d l x).boot = c.boot := rfl
@[simp] theorem Chip.setLane_profile (c : Chip) (d l : Nat) (x : LaneSt) : (c.setLane d l x).profile = c.profile := rfl
@[simp] theorem Chip.setLane_outs (c : Chip) (d l : Nat) (x : LaneSt) : (c.setLane d l x).outs = c.outs := rfl
@[simp] theorem Chip.setLane_layers (c : Chip) (d l : Nat) (x : LaneSt) : (c.setLane d l x).layers = c.layers := rfl
@[simp] theorem Chip.setLane_dies (c : Chip) (d l : Nat) (x : LaneSt) : (c.setLane d l x).dies = c.dies := rfl
@[simp] theorem Chip.setLane_drivers (c : Chip) (d l : Nat) (x : LaneSt) : (c.setLane d l x).drivers = c.drivers := rfl
@[simp] theorem Chip.setLane_chans (c : Chip) (d l : Nat) (x : LaneSt) : (c.setLane d l x).chans = c.chans := rfl
@[simp] theorem Chip.setLane_codes (c : Chip) (d l : Nat) (x : LaneSt) : (c.setLane d l x).codes = c.codes := rfl
@[simp] theorem Chip.setLane_resends (c : Chip) (d l : Nat) (x : LaneSt) : (c.setLane d l x).resends = c.resends := rfl
@[simp] theorem Chip.setLane_badWords (c : Chip) (d l : Nat) (x : LaneSt) : (c.setLane d l x).badWords = c.badWords := rfl
@[simp] theorem Chip.setLane_fixups (c : Chip) (d l : Nat) (x : LaneSt) : (c.setLane d l x).fixups = c.fixups := rfl
@[simp] theorem Chip.setLane_ramblers (c : Chip) (d l : Nat) (x : LaneSt) : (c.setLane d l x).ramblers = c.ramblers := rfl
@[simp] theorem Chip.setLane_baskets (c : Chip) (d l : Nat) (x : LaneSt) : (c.setLane d l x).baskets = c.baskets := rfl
@[simp] theorem Chip.setLane_otp (c : Chip) (d l : Nat) (x : LaneSt) : (c.setLane d l x).otp = c.otp := rfl
@[simp] theorem Chip.setLane_fatals (c : Chip) (d l : Nat) (x : LaneSt) : (c.setLane d l x).fatals = c.fatals := rfl
@[simp] theorem Chip.setLane_quote (c : Chip) (d l : Nat) (x : LaneSt) : (c.setLane d l x).quote = c.quote := rfl
@[simp] theorem Chip.setLane_otpSkew (c : Chip) (d l : Nat) (x : LaneSt) : (c.setLane d l x).otpSkew = c.otpSkew := rfl
@[simp] theorem Chip.setLane_logRestarted (c : Chip) (d l : Nat) (x : LaneSt) : (c.setLane d l x).logRestarted = c.logRestarted := rfl
@[simp] theorem Chip.setLane_via (c : Chip) (d l : Nat) (x : LaneSt) : (c.setLane d l x).via = c.via := rfl
@[simp] theorem Chip.setLane_jtagIr (c : Chip) (d l : Nat) (x : LaneSt) : (c.setLane d l x).jtagIr = c.jtagIr := rfl
@[simp] theorem Chip.setLane_jtagCredit (c : Chip) (d l : Nat) (x : LaneSt) : (c.setLane d l x).jtagCredit = c.jtagCredit := rfl
@[simp] theorem Chip.setLane_jtagDr (c : Chip) (d l : Nat) (x : LaneSt) : (c.setLane d l x).jtagDr = c.jtagDr := rfl

/-! ### setLayer -/

@[simp] theorem Chip.setLayer_member (c : Chip) (n : Nat) (x : LayerSt) : (c.setLayer n x).member = c.member := rfl
@[simp] theorem Chip.setLayer_power (c : Chip) (n : Nat) (x : LayerSt) : (c.setLayer n x).power = c.power := rfl
@[simp] theorem Chip.setLayer_porN (c : Chip) (n : Nat) (x : LayerSt) : (c.setLayer n x).porN = c.porN := rfl
@[simp] theorem Chip.setLayer_now (c : Chip) (n : Nat) (x : LayerSt) : (c.setLayer n x).now = c.now := rfl
@[simp] theorem Chip.setLayer_porAt (c : Chip) (n : Nat) (x : LayerSt) : (c.setLayer n x).porAt = c.porAt := rfl
@[simp] theorem Chip.setLayer_cycleAt (c : Chip) (n : Nat) (x : LayerSt) : (c.setLayer n x).cycleAt = c.cycleAt := rfl
@[simp] theorem Chip.setLayer_startAt (c : Chip) (n : Nat) (x : LayerSt) : (c.setLayer n x).startAt = c.startAt := rfl
@[simp] theorem Chip.setLayer_fresh (c : Chip) (n : Nat) (x : LayerSt) : (c.setLayer n x).fresh = c.fresh := rfl
@[simp] theorem Chip.setLayer_fuseOpen (c : Chip) (n : Nat) (x : LayerSt) : (c.setLayer n x).fuseOpen = c.fuseOpen := rfl
@[simp] theorem Chip.setLayer_regs (c : Chip) (n : Nat) (x : LayerSt) : (c.setLayer n x).regs = c.regs := rfl
@[simp] theorem Chip.setLayer_staged (c : Chip) (n : Nat) (x : LayerSt) : (c.setLayer n x).staged = c.staged := rfl
@[simp] theorem Chip.setLayer_commits (c : Chip) (n : Nat) (x : LayerSt) : (c.setLayer n x).commits = c.commits := rfl
@[simp] theorem Chip.setLayer_ports (c : Chip) (n : Nat) (x : LayerSt) : (c.setLayer n x).ports = c.ports := rfl
@[simp] theorem Chip.setLayer_nextReq (c : Chip) (n : Nat) (x : LayerSt) : (c.setLayer n x).nextReq = c.nextReq := rfl
@[simp] theorem Chip.setLayer_inflight (c : Chip) (n : Nat) (x : LayerSt) : (c.setLayer n x).inflight = c.inflight := rfl
@[simp] theorem Chip.setLayer_waiting (c : Chip) (n : Nat) (x : LayerSt) : (c.setLayer n x).waiting = c.waiting := rfl
@[simp] theorem Chip.setLayer_bcast (c : Chip) (n : Nat) (x : LayerSt) : (c.setLayer n x).bcast = c.bcast := rfl
@[simp] theorem Chip.setLayer_linksDown (c : Chip) (n : Nat) (x : LayerSt) : (c.setLayer n x).linksDown = c.linksDown := rfl
@[simp] theorem Chip.setLayer_raisedAt (c : Chip) (n : Nat) (x : LayerSt) : (c.setLayer n x).raisedAt = c.raisedAt := rfl
@[simp] theorem Chip.setLayer_raised (c : Chip) (n : Nat) (x : LayerSt) : (c.setLayer n x).raised = c.raised := rfl
@[simp] theorem Chip.setLayer_wroteAt (c : Chip) (n : Nat) (x : LayerSt) : (c.setLayer n x).wroteAt = c.wroteAt := rfl
@[simp] theorem Chip.setLayer_wrote (c : Chip) (n : Nat) (x : LayerSt) : (c.setLayer n x).wrote = c.wrote := rfl
@[simp] theorem Chip.setLayer_svcOut (c : Chip) (n : Nat) (x : LayerSt) : (c.setLayer n x).svcOut = c.svcOut := rfl
@[simp] theorem Chip.setLayer_wires (c : Chip) (n : Nat) (x : LayerSt) : (c.setLayer n x).wires = c.wires := rfl
@[simp] theorem Chip.setLayer_carried (c : Chip) (n : Nat) (x : LayerSt) : (c.setLayer n x).carried = c.carried := rfl
@[simp] theorem Chip.setLayer_rxMaps (c : Chip) (n : Nat) (x : LayerSt) : (c.setLayer n x).rxMaps = c.rxMaps := rfl
@[simp] theorem Chip.setLayer_inReset (c : Chip) (n : Nat) (x : LayerSt) : (c.setLayer n x).inReset = c.inReset := rfl
@[simp] theorem Chip.setLayer_boot (c : Chip) (n : Nat) (x : LayerSt) : (c.setLayer n x).boot = c.boot := rfl
@[simp] theorem Chip.setLayer_profile (c : Chip) (n : Nat) (x : LayerSt) : (c.setLayer n x).profile = c.profile := rfl
@[simp] theorem Chip.setLayer_outs (c : Chip) (n : Nat) (x : LayerSt) : (c.setLayer n x).outs = c.outs := rfl
@[simp] theorem Chip.setLayer_lanes (c : Chip) (n : Nat) (x : LayerSt) : (c.setLayer n x).lanes = c.lanes := rfl
@[simp] theorem Chip.setLayer_dies (c : Chip) (n : Nat) (x : LayerSt) : (c.setLayer n x).dies = c.dies := rfl
@[simp] theorem Chip.setLayer_drivers (c : Chip) (n : Nat) (x : LayerSt) : (c.setLayer n x).drivers = c.drivers := rfl
@[simp] theorem Chip.setLayer_chans (c : Chip) (n : Nat) (x : LayerSt) : (c.setLayer n x).chans = c.chans := rfl
@[simp] theorem Chip.setLayer_codes (c : Chip) (n : Nat) (x : LayerSt) : (c.setLayer n x).codes = c.codes := rfl
@[simp] theorem Chip.setLayer_resends (c : Chip) (n : Nat) (x : LayerSt) : (c.setLayer n x).resends = c.resends := rfl
@[simp] theorem Chip.setLayer_badWords (c : Chip) (n : Nat) (x : LayerSt) : (c.setLayer n x).badWords = c.badWords := rfl
@[simp] theorem Chip.setLayer_fixups (c : Chip) (n : Nat) (x : LayerSt) : (c.setLayer n x).fixups = c.fixups := rfl
@[simp] theorem Chip.setLayer_ramblers (c : Chip) (n : Nat) (x : LayerSt) : (c.setLayer n x).ramblers = c.ramblers := rfl
@[simp] theorem Chip.setLayer_baskets (c : Chip) (n : Nat) (x : LayerSt) : (c.setLayer n x).baskets = c.baskets := rfl
@[simp] theorem Chip.setLayer_otp (c : Chip) (n : Nat) (x : LayerSt) : (c.setLayer n x).otp = c.otp := rfl
@[simp] theorem Chip.setLayer_fatals (c : Chip) (n : Nat) (x : LayerSt) : (c.setLayer n x).fatals = c.fatals := rfl
@[simp] theorem Chip.setLayer_quote (c : Chip) (n : Nat) (x : LayerSt) : (c.setLayer n x).quote = c.quote := rfl
@[simp] theorem Chip.setLayer_otpSkew (c : Chip) (n : Nat) (x : LayerSt) : (c.setLayer n x).otpSkew = c.otpSkew := rfl
@[simp] theorem Chip.setLayer_logRestarted (c : Chip) (n : Nat) (x : LayerSt) : (c.setLayer n x).logRestarted = c.logRestarted := rfl
@[simp] theorem Chip.setLayer_via (c : Chip) (n : Nat) (x : LayerSt) : (c.setLayer n x).via = c.via := rfl
@[simp] theorem Chip.setLayer_jtagIr (c : Chip) (n : Nat) (x : LayerSt) : (c.setLayer n x).jtagIr = c.jtagIr := rfl
@[simp] theorem Chip.setLayer_jtagCredit (c : Chip) (n : Nat) (x : LayerSt) : (c.setLayer n x).jtagCredit = c.jtagCredit := rfl
@[simp] theorem Chip.setLayer_jtagDr (c : Chip) (n : Nat) (x : LayerSt) : (c.setLayer n x).jtagDr = c.jtagDr := rfl

/-! ### setDie -/

@[simp] theorem Chip.setDie_member (c : Chip) (d : Nat) (x : DieSt) : (c.setDie d x).member = c.member := rfl
@[simp] theorem Chip.setDie_power (c : Chip) (d : Nat) (x : DieSt) : (c.setDie d x).power = c.power := rfl
@[simp] theorem Chip.setDie_porN (c : Chip) (d : Nat) (x : DieSt) : (c.setDie d x).porN = c.porN := rfl
@[simp] theorem Chip.setDie_now (c : Chip) (d : Nat) (x : DieSt) : (c.setDie d x).now = c.now := rfl
@[simp] theorem Chip.setDie_porAt (c : Chip) (d : Nat) (x : DieSt) : (c.setDie d x).porAt = c.porAt := rfl
@[simp] theorem Chip.setDie_cycleAt (c : Chip) (d : Nat) (x : DieSt) : (c.setDie d x).cycleAt = c.cycleAt := rfl
@[simp] theorem Chip.setDie_startAt (c : Chip) (d : Nat) (x : DieSt) : (c.setDie d x).startAt = c.startAt := rfl
@[simp] theorem Chip.setDie_fresh (c : Chip) (d : Nat) (x : DieSt) : (c.setDie d x).fresh = c.fresh := rfl
@[simp] theorem Chip.setDie_fuseOpen (c : Chip) (d : Nat) (x : DieSt) : (c.setDie d x).fuseOpen = c.fuseOpen := rfl
@[simp] theorem Chip.setDie_regs (c : Chip) (d : Nat) (x : DieSt) : (c.setDie d x).regs = c.regs := rfl
@[simp] theorem Chip.setDie_staged (c : Chip) (d : Nat) (x : DieSt) : (c.setDie d x).staged = c.staged := rfl
@[simp] theorem Chip.setDie_commits (c : Chip) (d : Nat) (x : DieSt) : (c.setDie d x).commits = c.commits := rfl
@[simp] theorem Chip.setDie_ports (c : Chip) (d : Nat) (x : DieSt) : (c.setDie d x).ports = c.ports := rfl
@[simp] theorem Chip.setDie_nextReq (c : Chip) (d : Nat) (x : DieSt) : (c.setDie d x).nextReq = c.nextReq := rfl
@[simp] theorem Chip.setDie_inflight (c : Chip) (d : Nat) (x : DieSt) : (c.setDie d x).inflight = c.inflight := rfl
@[simp] theorem Chip.setDie_waiting (c : Chip) (d : Nat) (x : DieSt) : (c.setDie d x).waiting = c.waiting := rfl
@[simp] theorem Chip.setDie_bcast (c : Chip) (d : Nat) (x : DieSt) : (c.setDie d x).bcast = c.bcast := rfl
@[simp] theorem Chip.setDie_linksDown (c : Chip) (d : Nat) (x : DieSt) : (c.setDie d x).linksDown = c.linksDown := rfl
@[simp] theorem Chip.setDie_raisedAt (c : Chip) (d : Nat) (x : DieSt) : (c.setDie d x).raisedAt = c.raisedAt := rfl
@[simp] theorem Chip.setDie_raised (c : Chip) (d : Nat) (x : DieSt) : (c.setDie d x).raised = c.raised := rfl
@[simp] theorem Chip.setDie_wroteAt (c : Chip) (d : Nat) (x : DieSt) : (c.setDie d x).wroteAt = c.wroteAt := rfl
@[simp] theorem Chip.setDie_wrote (c : Chip) (d : Nat) (x : DieSt) : (c.setDie d x).wrote = c.wrote := rfl
@[simp] theorem Chip.setDie_svcOut (c : Chip) (d : Nat) (x : DieSt) : (c.setDie d x).svcOut = c.svcOut := rfl
@[simp] theorem Chip.setDie_wires (c : Chip) (d : Nat) (x : DieSt) : (c.setDie d x).wires = c.wires := rfl
@[simp] theorem Chip.setDie_carried (c : Chip) (d : Nat) (x : DieSt) : (c.setDie d x).carried = c.carried := rfl
@[simp] theorem Chip.setDie_rxMaps (c : Chip) (d : Nat) (x : DieSt) : (c.setDie d x).rxMaps = c.rxMaps := rfl
@[simp] theorem Chip.setDie_inReset (c : Chip) (d : Nat) (x : DieSt) : (c.setDie d x).inReset = c.inReset := rfl
@[simp] theorem Chip.setDie_boot (c : Chip) (d : Nat) (x : DieSt) : (c.setDie d x).boot = c.boot := rfl
@[simp] theorem Chip.setDie_profile (c : Chip) (d : Nat) (x : DieSt) : (c.setDie d x).profile = c.profile := rfl
@[simp] theorem Chip.setDie_outs (c : Chip) (d : Nat) (x : DieSt) : (c.setDie d x).outs = c.outs := rfl
@[simp] theorem Chip.setDie_lanes (c : Chip) (d : Nat) (x : DieSt) : (c.setDie d x).lanes = c.lanes := rfl
@[simp] theorem Chip.setDie_layers (c : Chip) (d : Nat) (x : DieSt) : (c.setDie d x).layers = c.layers := rfl
@[simp] theorem Chip.setDie_drivers (c : Chip) (d : Nat) (x : DieSt) : (c.setDie d x).drivers = c.drivers := rfl
@[simp] theorem Chip.setDie_chans (c : Chip) (d : Nat) (x : DieSt) : (c.setDie d x).chans = c.chans := rfl
@[simp] theorem Chip.setDie_codes (c : Chip) (d : Nat) (x : DieSt) : (c.setDie d x).codes = c.codes := rfl
@[simp] theorem Chip.setDie_resends (c : Chip) (d : Nat) (x : DieSt) : (c.setDie d x).resends = c.resends := rfl
@[simp] theorem Chip.setDie_badWords (c : Chip) (d : Nat) (x : DieSt) : (c.setDie d x).badWords = c.badWords := rfl
@[simp] theorem Chip.setDie_fixups (c : Chip) (d : Nat) (x : DieSt) : (c.setDie d x).fixups = c.fixups := rfl
@[simp] theorem Chip.setDie_ramblers (c : Chip) (d : Nat) (x : DieSt) : (c.setDie d x).ramblers = c.ramblers := rfl
@[simp] theorem Chip.setDie_baskets (c : Chip) (d : Nat) (x : DieSt) : (c.setDie d x).baskets = c.baskets := rfl
@[simp] theorem Chip.setDie_otp (c : Chip) (d : Nat) (x : DieSt) : (c.setDie d x).otp = c.otp := rfl
@[simp] theorem Chip.setDie_fatals (c : Chip) (d : Nat) (x : DieSt) : (c.setDie d x).fatals = c.fatals := rfl
@[simp] theorem Chip.setDie_quote (c : Chip) (d : Nat) (x : DieSt) : (c.setDie d x).quote = c.quote := rfl
@[simp] theorem Chip.setDie_otpSkew (c : Chip) (d : Nat) (x : DieSt) : (c.setDie d x).otpSkew = c.otpSkew := rfl
@[simp] theorem Chip.setDie_logRestarted (c : Chip) (d : Nat) (x : DieSt) : (c.setDie d x).logRestarted = c.logRestarted := rfl
@[simp] theorem Chip.setDie_via (c : Chip) (d : Nat) (x : DieSt) : (c.setDie d x).via = c.via := rfl
@[simp] theorem Chip.setDie_jtagIr (c : Chip) (d : Nat) (x : DieSt) : (c.setDie d x).jtagIr = c.jtagIr := rfl
@[simp] theorem Chip.setDie_jtagCredit (c : Chip) (d : Nat) (x : DieSt) : (c.setDie d x).jtagCredit = c.jtagCredit := rfl
@[simp] theorem Chip.setDie_jtagDr (c : Chip) (d : Nat) (x : DieSt) : (c.setDie d x).jtagDr = c.jtagDr := rfl

/-! ### setChan -/

@[simp] theorem Chip.setChan_member (c : Chip) (d h : Nat) (x : ChanSt) : (c.setChan d h x).member = c.member := rfl
@[simp] theorem Chip.setChan_power (c : Chip) (d h : Nat) (x : ChanSt) : (c.setChan d h x).power = c.power := rfl
@[simp] theorem Chip.setChan_porN (c : Chip) (d h : Nat) (x : ChanSt) : (c.setChan d h x).porN = c.porN := rfl
@[simp] theorem Chip.setChan_now (c : Chip) (d h : Nat) (x : ChanSt) : (c.setChan d h x).now = c.now := rfl
@[simp] theorem Chip.setChan_porAt (c : Chip) (d h : Nat) (x : ChanSt) : (c.setChan d h x).porAt = c.porAt := rfl
@[simp] theorem Chip.setChan_cycleAt (c : Chip) (d h : Nat) (x : ChanSt) : (c.setChan d h x).cycleAt = c.cycleAt := rfl
@[simp] theorem Chip.setChan_startAt (c : Chip) (d h : Nat) (x : ChanSt) : (c.setChan d h x).startAt = c.startAt := rfl
@[simp] theorem Chip.setChan_fresh (c : Chip) (d h : Nat) (x : ChanSt) : (c.setChan d h x).fresh = c.fresh := rfl
@[simp] theorem Chip.setChan_fuseOpen (c : Chip) (d h : Nat) (x : ChanSt) : (c.setChan d h x).fuseOpen = c.fuseOpen := rfl
@[simp] theorem Chip.setChan_regs (c : Chip) (d h : Nat) (x : ChanSt) : (c.setChan d h x).regs = c.regs := rfl
@[simp] theorem Chip.setChan_staged (c : Chip) (d h : Nat) (x : ChanSt) : (c.setChan d h x).staged = c.staged := rfl
@[simp] theorem Chip.setChan_commits (c : Chip) (d h : Nat) (x : ChanSt) : (c.setChan d h x).commits = c.commits := rfl
@[simp] theorem Chip.setChan_ports (c : Chip) (d h : Nat) (x : ChanSt) : (c.setChan d h x).ports = c.ports := rfl
@[simp] theorem Chip.setChan_nextReq (c : Chip) (d h : Nat) (x : ChanSt) : (c.setChan d h x).nextReq = c.nextReq := rfl
@[simp] theorem Chip.setChan_inflight (c : Chip) (d h : Nat) (x : ChanSt) : (c.setChan d h x).inflight = c.inflight := rfl
@[simp] theorem Chip.setChan_waiting (c : Chip) (d h : Nat) (x : ChanSt) : (c.setChan d h x).waiting = c.waiting := rfl
@[simp] theorem Chip.setChan_bcast (c : Chip) (d h : Nat) (x : ChanSt) : (c.setChan d h x).bcast = c.bcast := rfl
@[simp] theorem Chip.setChan_linksDown (c : Chip) (d h : Nat) (x : ChanSt) : (c.setChan d h x).linksDown = c.linksDown := rfl
@[simp] theorem Chip.setChan_raisedAt (c : Chip) (d h : Nat) (x : ChanSt) : (c.setChan d h x).raisedAt = c.raisedAt := rfl
@[simp] theorem Chip.setChan_raised (c : Chip) (d h : Nat) (x : ChanSt) : (c.setChan d h x).raised = c.raised := rfl
@[simp] theorem Chip.setChan_wroteAt (c : Chip) (d h : Nat) (x : ChanSt) : (c.setChan d h x).wroteAt = c.wroteAt := rfl
@[simp] theorem Chip.setChan_wrote (c : Chip) (d h : Nat) (x : ChanSt) : (c.setChan d h x).wrote = c.wrote := rfl
@[simp] theorem Chip.setChan_svcOut (c : Chip) (d h : Nat) (x : ChanSt) : (c.setChan d h x).svcOut = c.svcOut := rfl
@[simp] theorem Chip.setChan_wires (c : Chip) (d h : Nat) (x : ChanSt) : (c.setChan d h x).wires = c.wires := rfl
@[simp] theorem Chip.setChan_carried (c : Chip) (d h : Nat) (x : ChanSt) : (c.setChan d h x).carried = c.carried := rfl
@[simp] theorem Chip.setChan_rxMaps (c : Chip) (d h : Nat) (x : ChanSt) : (c.setChan d h x).rxMaps = c.rxMaps := rfl
@[simp] theorem Chip.setChan_inReset (c : Chip) (d h : Nat) (x : ChanSt) : (c.setChan d h x).inReset = c.inReset := rfl
@[simp] theorem Chip.setChan_boot (c : Chip) (d h : Nat) (x : ChanSt) : (c.setChan d h x).boot = c.boot := rfl
@[simp] theorem Chip.setChan_profile (c : Chip) (d h : Nat) (x : ChanSt) : (c.setChan d h x).profile = c.profile := rfl
@[simp] theorem Chip.setChan_outs (c : Chip) (d h : Nat) (x : ChanSt) : (c.setChan d h x).outs = c.outs := rfl
@[simp] theorem Chip.setChan_lanes (c : Chip) (d h : Nat) (x : ChanSt) : (c.setChan d h x).lanes = c.lanes := rfl
@[simp] theorem Chip.setChan_layers (c : Chip) (d h : Nat) (x : ChanSt) : (c.setChan d h x).layers = c.layers := rfl
@[simp] theorem Chip.setChan_dies (c : Chip) (d h : Nat) (x : ChanSt) : (c.setChan d h x).dies = c.dies := rfl
@[simp] theorem Chip.setChan_drivers (c : Chip) (d h : Nat) (x : ChanSt) : (c.setChan d h x).drivers = c.drivers := rfl
@[simp] theorem Chip.setChan_codes (c : Chip) (d h : Nat) (x : ChanSt) : (c.setChan d h x).codes = c.codes := rfl
@[simp] theorem Chip.setChan_resends (c : Chip) (d h : Nat) (x : ChanSt) : (c.setChan d h x).resends = c.resends := rfl
@[simp] theorem Chip.setChan_badWords (c : Chip) (d h : Nat) (x : ChanSt) : (c.setChan d h x).badWords = c.badWords := rfl
@[simp] theorem Chip.setChan_fixups (c : Chip) (d h : Nat) (x : ChanSt) : (c.setChan d h x).fixups = c.fixups := rfl
@[simp] theorem Chip.setChan_ramblers (c : Chip) (d h : Nat) (x : ChanSt) : (c.setChan d h x).ramblers = c.ramblers := rfl
@[simp] theorem Chip.setChan_baskets (c : Chip) (d h : Nat) (x : ChanSt) : (c.setChan d h x).baskets = c.baskets := rfl
@[simp] theorem Chip.setChan_otp (c : Chip) (d h : Nat) (x : ChanSt) : (c.setChan d h x).otp = c.otp := rfl
@[simp] theorem Chip.setChan_fatals (c : Chip) (d h : Nat) (x : ChanSt) : (c.setChan d h x).fatals = c.fatals := rfl
@[simp] theorem Chip.setChan_quote (c : Chip) (d h : Nat) (x : ChanSt) : (c.setChan d h x).quote = c.quote := rfl
@[simp] theorem Chip.setChan_otpSkew (c : Chip) (d h : Nat) (x : ChanSt) : (c.setChan d h x).otpSkew = c.otpSkew := rfl
@[simp] theorem Chip.setChan_logRestarted (c : Chip) (d h : Nat) (x : ChanSt) : (c.setChan d h x).logRestarted = c.logRestarted := rfl
@[simp] theorem Chip.setChan_via (c : Chip) (d h : Nat) (x : ChanSt) : (c.setChan d h x).via = c.via := rfl
@[simp] theorem Chip.setChan_jtagIr (c : Chip) (d h : Nat) (x : ChanSt) : (c.setChan d h x).jtagIr = c.jtagIr := rfl
@[simp] theorem Chip.setChan_jtagCredit (c : Chip) (d h : Nat) (x : ChanSt) : (c.setChan d h x).jtagCredit = c.jtagCredit := rfl
@[simp] theorem Chip.setChan_jtagDr (c : Chip) (d h : Nat) (x : ChanSt) : (c.setChan d h x).jtagDr = c.jtagDr := rfl

/-! ### setDriver -/

@[simp] theorem Chip.setDriver_member (c : Chip) (d k p : Nat) (x : DriverSt) : (c.setDriver d k p x).member = c.member := rfl
@[simp] theorem Chip.setDriver_power (c : Chip) (d k p : Nat) (x : DriverSt) : (c.setDriver d k p x).power = c.power := rfl
@[simp] theorem Chip.setDriver_porN (c : Chip) (d k p : Nat) (x : DriverSt) : (c.setDriver d k p x).porN = c.porN := rfl
@[simp] theorem Chip.setDriver_now (c : Chip) (d k p : Nat) (x : DriverSt) : (c.setDriver d k p x).now = c.now := rfl
@[simp] theorem Chip.setDriver_porAt (c : Chip) (d k p : Nat) (x : DriverSt) : (c.setDriver d k p x).porAt = c.porAt := rfl
@[simp] theorem Chip.setDriver_cycleAt (c : Chip) (d k p : Nat) (x : DriverSt) : (c.setDriver d k p x).cycleAt = c.cycleAt := rfl
@[simp] theorem Chip.setDriver_startAt (c : Chip) (d k p : Nat) (x : DriverSt) : (c.setDriver d k p x).startAt = c.startAt := rfl
@[simp] theorem Chip.setDriver_fresh (c : Chip) (d k p : Nat) (x : DriverSt) : (c.setDriver d k p x).fresh = c.fresh := rfl
@[simp] theorem Chip.setDriver_fuseOpen (c : Chip) (d k p : Nat) (x : DriverSt) : (c.setDriver d k p x).fuseOpen = c.fuseOpen := rfl
@[simp] theorem Chip.setDriver_regs (c : Chip) (d k p : Nat) (x : DriverSt) : (c.setDriver d k p x).regs = c.regs := rfl
@[simp] theorem Chip.setDriver_staged (c : Chip) (d k p : Nat) (x : DriverSt) : (c.setDriver d k p x).staged = c.staged := rfl
@[simp] theorem Chip.setDriver_commits (c : Chip) (d k p : Nat) (x : DriverSt) : (c.setDriver d k p x).commits = c.commits := rfl
@[simp] theorem Chip.setDriver_ports (c : Chip) (d k p : Nat) (x : DriverSt) : (c.setDriver d k p x).ports = c.ports := rfl
@[simp] theorem Chip.setDriver_nextReq (c : Chip) (d k p : Nat) (x : DriverSt) : (c.setDriver d k p x).nextReq = c.nextReq := rfl
@[simp] theorem Chip.setDriver_inflight (c : Chip) (d k p : Nat) (x : DriverSt) : (c.setDriver d k p x).inflight = c.inflight := rfl
@[simp] theorem Chip.setDriver_waiting (c : Chip) (d k p : Nat) (x : DriverSt) : (c.setDriver d k p x).waiting = c.waiting := rfl
@[simp] theorem Chip.setDriver_bcast (c : Chip) (d k p : Nat) (x : DriverSt) : (c.setDriver d k p x).bcast = c.bcast := rfl
@[simp] theorem Chip.setDriver_linksDown (c : Chip) (d k p : Nat) (x : DriverSt) : (c.setDriver d k p x).linksDown = c.linksDown := rfl
@[simp] theorem Chip.setDriver_raisedAt (c : Chip) (d k p : Nat) (x : DriverSt) : (c.setDriver d k p x).raisedAt = c.raisedAt := rfl
@[simp] theorem Chip.setDriver_raised (c : Chip) (d k p : Nat) (x : DriverSt) : (c.setDriver d k p x).raised = c.raised := rfl
@[simp] theorem Chip.setDriver_wroteAt (c : Chip) (d k p : Nat) (x : DriverSt) : (c.setDriver d k p x).wroteAt = c.wroteAt := rfl
@[simp] theorem Chip.setDriver_wrote (c : Chip) (d k p : Nat) (x : DriverSt) : (c.setDriver d k p x).wrote = c.wrote := rfl
@[simp] theorem Chip.setDriver_svcOut (c : Chip) (d k p : Nat) (x : DriverSt) : (c.setDriver d k p x).svcOut = c.svcOut := rfl
@[simp] theorem Chip.setDriver_wires (c : Chip) (d k p : Nat) (x : DriverSt) : (c.setDriver d k p x).wires = c.wires := rfl
@[simp] theorem Chip.setDriver_carried (c : Chip) (d k p : Nat) (x : DriverSt) : (c.setDriver d k p x).carried = c.carried := rfl
@[simp] theorem Chip.setDriver_rxMaps (c : Chip) (d k p : Nat) (x : DriverSt) : (c.setDriver d k p x).rxMaps = c.rxMaps := rfl
@[simp] theorem Chip.setDriver_inReset (c : Chip) (d k p : Nat) (x : DriverSt) : (c.setDriver d k p x).inReset = c.inReset := rfl
@[simp] theorem Chip.setDriver_boot (c : Chip) (d k p : Nat) (x : DriverSt) : (c.setDriver d k p x).boot = c.boot := rfl
@[simp] theorem Chip.setDriver_profile (c : Chip) (d k p : Nat) (x : DriverSt) : (c.setDriver d k p x).profile = c.profile := rfl
@[simp] theorem Chip.setDriver_outs (c : Chip) (d k p : Nat) (x : DriverSt) : (c.setDriver d k p x).outs = c.outs := rfl
@[simp] theorem Chip.setDriver_lanes (c : Chip) (d k p : Nat) (x : DriverSt) : (c.setDriver d k p x).lanes = c.lanes := rfl
@[simp] theorem Chip.setDriver_layers (c : Chip) (d k p : Nat) (x : DriverSt) : (c.setDriver d k p x).layers = c.layers := rfl
@[simp] theorem Chip.setDriver_dies (c : Chip) (d k p : Nat) (x : DriverSt) : (c.setDriver d k p x).dies = c.dies := rfl
@[simp] theorem Chip.setDriver_chans (c : Chip) (d k p : Nat) (x : DriverSt) : (c.setDriver d k p x).chans = c.chans := rfl
@[simp] theorem Chip.setDriver_codes (c : Chip) (d k p : Nat) (x : DriverSt) : (c.setDriver d k p x).codes = c.codes := rfl
@[simp] theorem Chip.setDriver_resends (c : Chip) (d k p : Nat) (x : DriverSt) : (c.setDriver d k p x).resends = c.resends := rfl
@[simp] theorem Chip.setDriver_badWords (c : Chip) (d k p : Nat) (x : DriverSt) : (c.setDriver d k p x).badWords = c.badWords := rfl
@[simp] theorem Chip.setDriver_fixups (c : Chip) (d k p : Nat) (x : DriverSt) : (c.setDriver d k p x).fixups = c.fixups := rfl
@[simp] theorem Chip.setDriver_ramblers (c : Chip) (d k p : Nat) (x : DriverSt) : (c.setDriver d k p x).ramblers = c.ramblers := rfl
@[simp] theorem Chip.setDriver_baskets (c : Chip) (d k p : Nat) (x : DriverSt) : (c.setDriver d k p x).baskets = c.baskets := rfl
@[simp] theorem Chip.setDriver_otp (c : Chip) (d k p : Nat) (x : DriverSt) : (c.setDriver d k p x).otp = c.otp := rfl
@[simp] theorem Chip.setDriver_fatals (c : Chip) (d k p : Nat) (x : DriverSt) : (c.setDriver d k p x).fatals = c.fatals := rfl
@[simp] theorem Chip.setDriver_quote (c : Chip) (d k p : Nat) (x : DriverSt) : (c.setDriver d k p x).quote = c.quote := rfl
@[simp] theorem Chip.setDriver_otpSkew (c : Chip) (d k p : Nat) (x : DriverSt) : (c.setDriver d k p x).otpSkew = c.otpSkew := rfl
@[simp] theorem Chip.setDriver_logRestarted (c : Chip) (d k p : Nat) (x : DriverSt) : (c.setDriver d k p x).logRestarted = c.logRestarted := rfl
@[simp] theorem Chip.setDriver_via (c : Chip) (d k p : Nat) (x : DriverSt) : (c.setDriver d k p x).via = c.via := rfl
@[simp] theorem Chip.setDriver_jtagIr (c : Chip) (d k p : Nat) (x : DriverSt) : (c.setDriver d k p x).jtagIr = c.jtagIr := rfl
@[simp] theorem Chip.setDriver_jtagCredit (c : Chip) (d k p : Nat) (x : DriverSt) : (c.setDriver d k p x).jtagCredit = c.jtagCredit := rfl
@[simp] theorem Chip.setDriver_jtagDr (c : Chip) (d k p : Nat) (x : DriverSt) : (c.setDriver d k p x).jtagDr = c.jtagDr := rfl

/-! ### setPort -/

@[simp] theorem Chip.setPort_member (c : Chip) (p : Port) (x : PortSt) : (c.setPort p x).member = c.member := rfl
@[simp] theorem Chip.setPort_power (c : Chip) (p : Port) (x : PortSt) : (c.setPort p x).power = c.power := rfl
@[simp] theorem Chip.setPort_porN (c : Chip) (p : Port) (x : PortSt) : (c.setPort p x).porN = c.porN := rfl
@[simp] theorem Chip.setPort_now (c : Chip) (p : Port) (x : PortSt) : (c.setPort p x).now = c.now := rfl
@[simp] theorem Chip.setPort_porAt (c : Chip) (p : Port) (x : PortSt) : (c.setPort p x).porAt = c.porAt := rfl
@[simp] theorem Chip.setPort_cycleAt (c : Chip) (p : Port) (x : PortSt) : (c.setPort p x).cycleAt = c.cycleAt := rfl
@[simp] theorem Chip.setPort_startAt (c : Chip) (p : Port) (x : PortSt) : (c.setPort p x).startAt = c.startAt := rfl
@[simp] theorem Chip.setPort_fresh (c : Chip) (p : Port) (x : PortSt) : (c.setPort p x).fresh = c.fresh := rfl
@[simp] theorem Chip.setPort_fuseOpen (c : Chip) (p : Port) (x : PortSt) : (c.setPort p x).fuseOpen = c.fuseOpen := rfl
@[simp] theorem Chip.setPort_regs (c : Chip) (p : Port) (x : PortSt) : (c.setPort p x).regs = c.regs := rfl
@[simp] theorem Chip.setPort_staged (c : Chip) (p : Port) (x : PortSt) : (c.setPort p x).staged = c.staged := rfl
@[simp] theorem Chip.setPort_commits (c : Chip) (p : Port) (x : PortSt) : (c.setPort p x).commits = c.commits := rfl
@[simp] theorem Chip.setPort_nextReq (c : Chip) (p : Port) (x : PortSt) : (c.setPort p x).nextReq = c.nextReq := rfl
@[simp] theorem Chip.setPort_inflight (c : Chip) (p : Port) (x : PortSt) : (c.setPort p x).inflight = c.inflight := rfl
@[simp] theorem Chip.setPort_waiting (c : Chip) (p : Port) (x : PortSt) : (c.setPort p x).waiting = c.waiting := rfl
@[simp] theorem Chip.setPort_bcast (c : Chip) (p : Port) (x : PortSt) : (c.setPort p x).bcast = c.bcast := rfl
@[simp] theorem Chip.setPort_linksDown (c : Chip) (p : Port) (x : PortSt) : (c.setPort p x).linksDown = c.linksDown := rfl
@[simp] theorem Chip.setPort_raisedAt (c : Chip) (p : Port) (x : PortSt) : (c.setPort p x).raisedAt = c.raisedAt := rfl
@[simp] theorem Chip.setPort_raised (c : Chip) (p : Port) (x : PortSt) : (c.setPort p x).raised = c.raised := rfl
@[simp] theorem Chip.setPort_wroteAt (c : Chip) (p : Port) (x : PortSt) : (c.setPort p x).wroteAt = c.wroteAt := rfl
@[simp] theorem Chip.setPort_wrote (c : Chip) (p : Port) (x : PortSt) : (c.setPort p x).wrote = c.wrote := rfl
@[simp] theorem Chip.setPort_svcOut (c : Chip) (p : Port) (x : PortSt) : (c.setPort p x).svcOut = c.svcOut := rfl
@[simp] theorem Chip.setPort_wires (c : Chip) (p : Port) (x : PortSt) : (c.setPort p x).wires = c.wires := rfl
@[simp] theorem Chip.setPort_carried (c : Chip) (p : Port) (x : PortSt) : (c.setPort p x).carried = c.carried := rfl
@[simp] theorem Chip.setPort_rxMaps (c : Chip) (p : Port) (x : PortSt) : (c.setPort p x).rxMaps = c.rxMaps := rfl
@[simp] theorem Chip.setPort_inReset (c : Chip) (p : Port) (x : PortSt) : (c.setPort p x).inReset = c.inReset := rfl
@[simp] theorem Chip.setPort_boot (c : Chip) (p : Port) (x : PortSt) : (c.setPort p x).boot = c.boot := rfl
@[simp] theorem Chip.setPort_profile (c : Chip) (p : Port) (x : PortSt) : (c.setPort p x).profile = c.profile := rfl
@[simp] theorem Chip.setPort_outs (c : Chip) (p : Port) (x : PortSt) : (c.setPort p x).outs = c.outs := rfl
@[simp] theorem Chip.setPort_lanes (c : Chip) (p : Port) (x : PortSt) : (c.setPort p x).lanes = c.lanes := rfl
@[simp] theorem Chip.setPort_layers (c : Chip) (p : Port) (x : PortSt) : (c.setPort p x).layers = c.layers := rfl
@[simp] theorem Chip.setPort_dies (c : Chip) (p : Port) (x : PortSt) : (c.setPort p x).dies = c.dies := rfl
@[simp] theorem Chip.setPort_drivers (c : Chip) (p : Port) (x : PortSt) : (c.setPort p x).drivers = c.drivers := rfl
@[simp] theorem Chip.setPort_chans (c : Chip) (p : Port) (x : PortSt) : (c.setPort p x).chans = c.chans := rfl
@[simp] theorem Chip.setPort_codes (c : Chip) (p : Port) (x : PortSt) : (c.setPort p x).codes = c.codes := rfl
@[simp] theorem Chip.setPort_resends (c : Chip) (p : Port) (x : PortSt) : (c.setPort p x).resends = c.resends := rfl
@[simp] theorem Chip.setPort_badWords (c : Chip) (p : Port) (x : PortSt) : (c.setPort p x).badWords = c.badWords := rfl
@[simp] theorem Chip.setPort_fixups (c : Chip) (p : Port) (x : PortSt) : (c.setPort p x).fixups = c.fixups := rfl
@[simp] theorem Chip.setPort_ramblers (c : Chip) (p : Port) (x : PortSt) : (c.setPort p x).ramblers = c.ramblers := rfl
@[simp] theorem Chip.setPort_baskets (c : Chip) (p : Port) (x : PortSt) : (c.setPort p x).baskets = c.baskets := rfl
@[simp] theorem Chip.setPort_otp (c : Chip) (p : Port) (x : PortSt) : (c.setPort p x).otp = c.otp := rfl
@[simp] theorem Chip.setPort_fatals (c : Chip) (p : Port) (x : PortSt) : (c.setPort p x).fatals = c.fatals := rfl
@[simp] theorem Chip.setPort_quote (c : Chip) (p : Port) (x : PortSt) : (c.setPort p x).quote = c.quote := rfl
@[simp] theorem Chip.setPort_otpSkew (c : Chip) (p : Port) (x : PortSt) : (c.setPort p x).otpSkew = c.otpSkew := rfl
@[simp] theorem Chip.setPort_logRestarted (c : Chip) (p : Port) (x : PortSt) : (c.setPort p x).logRestarted = c.logRestarted := rfl
@[simp] theorem Chip.setPort_via (c : Chip) (p : Port) (x : PortSt) : (c.setPort p x).via = c.via := rfl
@[simp] theorem Chip.setPort_jtagIr (c : Chip) (p : Port) (x : PortSt) : (c.setPort p x).jtagIr = c.jtagIr := rfl
@[simp] theorem Chip.setPort_jtagCredit (c : Chip) (p : Port) (x : PortSt) : (c.setPort p x).jtagCredit = c.jtagCredit := rfl
@[simp] theorem Chip.setPort_jtagDr (c : Chip) (p : Port) (x : PortSt) : (c.setPort p x).jtagDr = c.jtagDr := rfl

/-! ### send -/

@[simp] theorem Chip.send_member (c : Chip) (p : Port) (x : Msg) : (c.send p x).member = c.member := rfl
@[simp] theorem Chip.send_power (c : Chip) (p : Port) (x : Msg) : (c.send p x).power = c.power := rfl
@[simp] theorem Chip.send_porN (c : Chip) (p : Port) (x : Msg) : (c.send p x).porN = c.porN := rfl
@[simp] theorem Chip.send_now (c : Chip) (p : Port) (x : Msg) : (c.send p x).now = c.now := rfl
@[simp] theorem Chip.send_porAt (c : Chip) (p : Port) (x : Msg) : (c.send p x).porAt = c.porAt := rfl
@[simp] theorem Chip.send_cycleAt (c : Chip) (p : Port) (x : Msg) : (c.send p x).cycleAt = c.cycleAt := rfl
@[simp] theorem Chip.send_startAt (c : Chip) (p : Port) (x : Msg) : (c.send p x).startAt = c.startAt := rfl
@[simp] theorem Chip.send_fresh (c : Chip) (p : Port) (x : Msg) : (c.send p x).fresh = c.fresh := rfl
@[simp] theorem Chip.send_fuseOpen (c : Chip) (p : Port) (x : Msg) : (c.send p x).fuseOpen = c.fuseOpen := rfl
@[simp] theorem Chip.send_regs (c : Chip) (p : Port) (x : Msg) : (c.send p x).regs = c.regs := rfl
@[simp] theorem Chip.send_staged (c : Chip) (p : Port) (x : Msg) : (c.send p x).staged = c.staged := rfl
@[simp] theorem Chip.send_commits (c : Chip) (p : Port) (x : Msg) : (c.send p x).commits = c.commits := rfl
@[simp] theorem Chip.send_nextReq (c : Chip) (p : Port) (x : Msg) : (c.send p x).nextReq = c.nextReq := rfl
@[simp] theorem Chip.send_inflight (c : Chip) (p : Port) (x : Msg) : (c.send p x).inflight = c.inflight := rfl
@[simp] theorem Chip.send_waiting (c : Chip) (p : Port) (x : Msg) : (c.send p x).waiting = c.waiting := rfl
@[simp] theorem Chip.send_bcast (c : Chip) (p : Port) (x : Msg) : (c.send p x).bcast = c.bcast := rfl
@[simp] theorem Chip.send_linksDown (c : Chip) (p : Port) (x : Msg) : (c.send p x).linksDown = c.linksDown := rfl
@[simp] theorem Chip.send_raisedAt (c : Chip) (p : Port) (x : Msg) : (c.send p x).raisedAt = c.raisedAt := rfl
@[simp] theorem Chip.send_raised (c : Chip) (p : Port) (x : Msg) : (c.send p x).raised = c.raised := rfl
@[simp] theorem Chip.send_wroteAt (c : Chip) (p : Port) (x : Msg) : (c.send p x).wroteAt = c.wroteAt := rfl
@[simp] theorem Chip.send_wrote (c : Chip) (p : Port) (x : Msg) : (c.send p x).wrote = c.wrote := rfl
@[simp] theorem Chip.send_svcOut (c : Chip) (p : Port) (x : Msg) : (c.send p x).svcOut = c.svcOut := rfl
@[simp] theorem Chip.send_wires (c : Chip) (p : Port) (x : Msg) : (c.send p x).wires = c.wires := rfl
@[simp] theorem Chip.send_carried (c : Chip) (p : Port) (x : Msg) : (c.send p x).carried = c.carried := rfl
@[simp] theorem Chip.send_rxMaps (c : Chip) (p : Port) (x : Msg) : (c.send p x).rxMaps = c.rxMaps := rfl
@[simp] theorem Chip.send_inReset (c : Chip) (p : Port) (x : Msg) : (c.send p x).inReset = c.inReset := rfl
@[simp] theorem Chip.send_boot (c : Chip) (p : Port) (x : Msg) : (c.send p x).boot = c.boot := rfl
@[simp] theorem Chip.send_profile (c : Chip) (p : Port) (x : Msg) : (c.send p x).profile = c.profile := rfl
@[simp] theorem Chip.send_outs (c : Chip) (p : Port) (x : Msg) : (c.send p x).outs = c.outs := rfl
@[simp] theorem Chip.send_lanes (c : Chip) (p : Port) (x : Msg) : (c.send p x).lanes = c.lanes := rfl
@[simp] theorem Chip.send_layers (c : Chip) (p : Port) (x : Msg) : (c.send p x).layers = c.layers := rfl
@[simp] theorem Chip.send_dies (c : Chip) (p : Port) (x : Msg) : (c.send p x).dies = c.dies := rfl
@[simp] theorem Chip.send_drivers (c : Chip) (p : Port) (x : Msg) : (c.send p x).drivers = c.drivers := rfl
@[simp] theorem Chip.send_chans (c : Chip) (p : Port) (x : Msg) : (c.send p x).chans = c.chans := rfl
@[simp] theorem Chip.send_codes (c : Chip) (p : Port) (x : Msg) : (c.send p x).codes = c.codes := rfl
@[simp] theorem Chip.send_resends (c : Chip) (p : Port) (x : Msg) : (c.send p x).resends = c.resends := rfl
@[simp] theorem Chip.send_badWords (c : Chip) (p : Port) (x : Msg) : (c.send p x).badWords = c.badWords := rfl
@[simp] theorem Chip.send_fixups (c : Chip) (p : Port) (x : Msg) : (c.send p x).fixups = c.fixups := rfl
@[simp] theorem Chip.send_ramblers (c : Chip) (p : Port) (x : Msg) : (c.send p x).ramblers = c.ramblers := rfl
@[simp] theorem Chip.send_baskets (c : Chip) (p : Port) (x : Msg) : (c.send p x).baskets = c.baskets := rfl
@[simp] theorem Chip.send_otp (c : Chip) (p : Port) (x : Msg) : (c.send p x).otp = c.otp := rfl
@[simp] theorem Chip.send_fatals (c : Chip) (p : Port) (x : Msg) : (c.send p x).fatals = c.fatals := rfl
@[simp] theorem Chip.send_quote (c : Chip) (p : Port) (x : Msg) : (c.send p x).quote = c.quote := rfl
@[simp] theorem Chip.send_otpSkew (c : Chip) (p : Port) (x : Msg) : (c.send p x).otpSkew = c.otpSkew := rfl
@[simp] theorem Chip.send_logRestarted (c : Chip) (p : Port) (x : Msg) : (c.send p x).logRestarted = c.logRestarted := rfl
@[simp] theorem Chip.send_via (c : Chip) (p : Port) (x : Msg) : (c.send p x).via = c.via := rfl
@[simp] theorem Chip.send_jtagIr (c : Chip) (p : Port) (x : Msg) : (c.send p x).jtagIr = c.jtagIr := rfl
@[simp] theorem Chip.send_jtagCredit (c : Chip) (p : Port) (x : Msg) : (c.send p x).jtagCredit = c.jtagCredit := rfl
@[simp] theorem Chip.send_jtagDr (c : Chip) (p : Port) (x : Msg) : (c.send p x).jtagDr = c.jtagDr := rfl

/-! ### setRambler -/

@[simp] theorem Chip.setRambler_member (c : Chip) (d : Nat) (x : RamblerSt) : (c.setRambler d x).member = c.member := rfl
@[simp] theorem Chip.setRambler_power (c : Chip) (d : Nat) (x : RamblerSt) : (c.setRambler d x).power = c.power := rfl
@[simp] theorem Chip.setRambler_porN (c : Chip) (d : Nat) (x : RamblerSt) : (c.setRambler d x).porN = c.porN := rfl
@[simp] theorem Chip.setRambler_now (c : Chip) (d : Nat) (x : RamblerSt) : (c.setRambler d x).now = c.now := rfl
@[simp] theorem Chip.setRambler_porAt (c : Chip) (d : Nat) (x : RamblerSt) : (c.setRambler d x).porAt = c.porAt := rfl
@[simp] theorem Chip.setRambler_cycleAt (c : Chip) (d : Nat) (x : RamblerSt) : (c.setRambler d x).cycleAt = c.cycleAt := rfl
@[simp] theorem Chip.setRambler_startAt (c : Chip) (d : Nat) (x : RamblerSt) : (c.setRambler d x).startAt = c.startAt := rfl
@[simp] theorem Chip.setRambler_fresh (c : Chip) (d : Nat) (x : RamblerSt) : (c.setRambler d x).fresh = c.fresh := rfl
@[simp] theorem Chip.setRambler_fuseOpen (c : Chip) (d : Nat) (x : RamblerSt) : (c.setRambler d x).fuseOpen = c.fuseOpen := rfl
@[simp] theorem Chip.setRambler_regs (c : Chip) (d : Nat) (x : RamblerSt) : (c.setRambler d x).regs = c.regs := rfl
@[simp] theorem Chip.setRambler_staged (c : Chip) (d : Nat) (x : RamblerSt) : (c.setRambler d x).staged = c.staged := rfl
@[simp] theorem Chip.setRambler_commits (c : Chip) (d : Nat) (x : RamblerSt) : (c.setRambler d x).commits = c.commits := rfl
@[simp] theorem Chip.setRambler_ports (c : Chip) (d : Nat) (x : RamblerSt) : (c.setRambler d x).ports = c.ports := rfl
@[simp] theorem Chip.setRambler_nextReq (c : Chip) (d : Nat) (x : RamblerSt) : (c.setRambler d x).nextReq = c.nextReq := rfl
@[simp] theorem Chip.setRambler_inflight (c : Chip) (d : Nat) (x : RamblerSt) : (c.setRambler d x).inflight = c.inflight := rfl
@[simp] theorem Chip.setRambler_waiting (c : Chip) (d : Nat) (x : RamblerSt) : (c.setRambler d x).waiting = c.waiting := rfl
@[simp] theorem Chip.setRambler_bcast (c : Chip) (d : Nat) (x : RamblerSt) : (c.setRambler d x).bcast = c.bcast := rfl
@[simp] theorem Chip.setRambler_linksDown (c : Chip) (d : Nat) (x : RamblerSt) : (c.setRambler d x).linksDown = c.linksDown := rfl
@[simp] theorem Chip.setRambler_raisedAt (c : Chip) (d : Nat) (x : RamblerSt) : (c.setRambler d x).raisedAt = c.raisedAt := rfl
@[simp] theorem Chip.setRambler_raised (c : Chip) (d : Nat) (x : RamblerSt) : (c.setRambler d x).raised = c.raised := rfl
@[simp] theorem Chip.setRambler_wroteAt (c : Chip) (d : Nat) (x : RamblerSt) : (c.setRambler d x).wroteAt = c.wroteAt := rfl
@[simp] theorem Chip.setRambler_wrote (c : Chip) (d : Nat) (x : RamblerSt) : (c.setRambler d x).wrote = c.wrote := rfl
@[simp] theorem Chip.setRambler_svcOut (c : Chip) (d : Nat) (x : RamblerSt) : (c.setRambler d x).svcOut = c.svcOut := rfl
@[simp] theorem Chip.setRambler_wires (c : Chip) (d : Nat) (x : RamblerSt) : (c.setRambler d x).wires = c.wires := rfl
@[simp] theorem Chip.setRambler_carried (c : Chip) (d : Nat) (x : RamblerSt) : (c.setRambler d x).carried = c.carried := rfl
@[simp] theorem Chip.setRambler_rxMaps (c : Chip) (d : Nat) (x : RamblerSt) : (c.setRambler d x).rxMaps = c.rxMaps := rfl
@[simp] theorem Chip.setRambler_inReset (c : Chip) (d : Nat) (x : RamblerSt) : (c.setRambler d x).inReset = c.inReset := rfl
@[simp] theorem Chip.setRambler_boot (c : Chip) (d : Nat) (x : RamblerSt) : (c.setRambler d x).boot = c.boot := rfl
@[simp] theorem Chip.setRambler_profile (c : Chip) (d : Nat) (x : RamblerSt) : (c.setRambler d x).profile = c.profile := rfl
@[simp] theorem Chip.setRambler_outs (c : Chip) (d : Nat) (x : RamblerSt) : (c.setRambler d x).outs = c.outs := rfl
@[simp] theorem Chip.setRambler_lanes (c : Chip) (d : Nat) (x : RamblerSt) : (c.setRambler d x).lanes = c.lanes := rfl
@[simp] theorem Chip.setRambler_layers (c : Chip) (d : Nat) (x : RamblerSt) : (c.setRambler d x).layers = c.layers := rfl
@[simp] theorem Chip.setRambler_dies (c : Chip) (d : Nat) (x : RamblerSt) : (c.setRambler d x).dies = c.dies := rfl
@[simp] theorem Chip.setRambler_drivers (c : Chip) (d : Nat) (x : RamblerSt) : (c.setRambler d x).drivers = c.drivers := rfl
@[simp] theorem Chip.setRambler_chans (c : Chip) (d : Nat) (x : RamblerSt) : (c.setRambler d x).chans = c.chans := rfl
@[simp] theorem Chip.setRambler_codes (c : Chip) (d : Nat) (x : RamblerSt) : (c.setRambler d x).codes = c.codes := rfl
@[simp] theorem Chip.setRambler_resends (c : Chip) (d : Nat) (x : RamblerSt) : (c.setRambler d x).resends = c.resends := rfl
@[simp] theorem Chip.setRambler_badWords (c : Chip) (d : Nat) (x : RamblerSt) : (c.setRambler d x).badWords = c.badWords := rfl
@[simp] theorem Chip.setRambler_fixups (c : Chip) (d : Nat) (x : RamblerSt) : (c.setRambler d x).fixups = c.fixups := rfl
@[simp] theorem Chip.setRambler_baskets (c : Chip) (d : Nat) (x : RamblerSt) : (c.setRambler d x).baskets = c.baskets := rfl
@[simp] theorem Chip.setRambler_otp (c : Chip) (d : Nat) (x : RamblerSt) : (c.setRambler d x).otp = c.otp := rfl
@[simp] theorem Chip.setRambler_fatals (c : Chip) (d : Nat) (x : RamblerSt) : (c.setRambler d x).fatals = c.fatals := rfl
@[simp] theorem Chip.setRambler_quote (c : Chip) (d : Nat) (x : RamblerSt) : (c.setRambler d x).quote = c.quote := rfl
@[simp] theorem Chip.setRambler_otpSkew (c : Chip) (d : Nat) (x : RamblerSt) : (c.setRambler d x).otpSkew = c.otpSkew := rfl
@[simp] theorem Chip.setRambler_logRestarted (c : Chip) (d : Nat) (x : RamblerSt) : (c.setRambler d x).logRestarted = c.logRestarted := rfl
@[simp] theorem Chip.setRambler_via (c : Chip) (d : Nat) (x : RamblerSt) : (c.setRambler d x).via = c.via := rfl
@[simp] theorem Chip.setRambler_jtagIr (c : Chip) (d : Nat) (x : RamblerSt) : (c.setRambler d x).jtagIr = c.jtagIr := rfl
@[simp] theorem Chip.setRambler_jtagCredit (c : Chip) (d : Nat) (x : RamblerSt) : (c.setRambler d x).jtagCredit = c.jtagCredit := rfl
@[simp] theorem Chip.setRambler_jtagDr (c : Chip) (d : Nat) (x : RamblerSt) : (c.setRambler d x).jtagDr = c.jtagDr := rfl

/-! ### setOtp -/

@[simp] theorem Chip.setOtp_member (c : Chip) (d : Nat) (x : OtpSt) : (c.setOtp d x).member = c.member := rfl
@[simp] theorem Chip.setOtp_power (c : Chip) (d : Nat) (x : OtpSt) : (c.setOtp d x).power = c.power := rfl
@[simp] theorem Chip.setOtp_porN (c : Chip) (d : Nat) (x : OtpSt) : (c.setOtp d x).porN = c.porN := rfl
@[simp] theorem Chip.setOtp_now (c : Chip) (d : Nat) (x : OtpSt) : (c.setOtp d x).now = c.now := rfl
@[simp] theorem Chip.setOtp_porAt (c : Chip) (d : Nat) (x : OtpSt) : (c.setOtp d x).porAt = c.porAt := rfl
@[simp] theorem Chip.setOtp_cycleAt (c : Chip) (d : Nat) (x : OtpSt) : (c.setOtp d x).cycleAt = c.cycleAt := rfl
@[simp] theorem Chip.setOtp_startAt (c : Chip) (d : Nat) (x : OtpSt) : (c.setOtp d x).startAt = c.startAt := rfl
@[simp] theorem Chip.setOtp_fresh (c : Chip) (d : Nat) (x : OtpSt) : (c.setOtp d x).fresh = c.fresh := rfl
@[simp] theorem Chip.setOtp_fuseOpen (c : Chip) (d : Nat) (x : OtpSt) : (c.setOtp d x).fuseOpen = c.fuseOpen := rfl
@[simp] theorem Chip.setOtp_regs (c : Chip) (d : Nat) (x : OtpSt) : (c.setOtp d x).regs = c.regs := rfl
@[simp] theorem Chip.setOtp_staged (c : Chip) (d : Nat) (x : OtpSt) : (c.setOtp d x).staged = c.staged := rfl
@[simp] theorem Chip.setOtp_commits (c : Chip) (d : Nat) (x : OtpSt) : (c.setOtp d x).commits = c.commits := rfl
@[simp] theorem Chip.setOtp_ports (c : Chip) (d : Nat) (x : OtpSt) : (c.setOtp d x).ports = c.ports := rfl
@[simp] theorem Chip.setOtp_nextReq (c : Chip) (d : Nat) (x : OtpSt) : (c.setOtp d x).nextReq = c.nextReq := rfl
@[simp] theorem Chip.setOtp_inflight (c : Chip) (d : Nat) (x : OtpSt) : (c.setOtp d x).inflight = c.inflight := rfl
@[simp] theorem Chip.setOtp_waiting (c : Chip) (d : Nat) (x : OtpSt) : (c.setOtp d x).waiting = c.waiting := rfl
@[simp] theorem Chip.setOtp_bcast (c : Chip) (d : Nat) (x : OtpSt) : (c.setOtp d x).bcast = c.bcast := rfl
@[simp] theorem Chip.setOtp_linksDown (c : Chip) (d : Nat) (x : OtpSt) : (c.setOtp d x).linksDown = c.linksDown := rfl
@[simp] theorem Chip.setOtp_raisedAt (c : Chip) (d : Nat) (x : OtpSt) : (c.setOtp d x).raisedAt = c.raisedAt := rfl
@[simp] theorem Chip.setOtp_raised (c : Chip) (d : Nat) (x : OtpSt) : (c.setOtp d x).raised = c.raised := rfl
@[simp] theorem Chip.setOtp_wroteAt (c : Chip) (d : Nat) (x : OtpSt) : (c.setOtp d x).wroteAt = c.wroteAt := rfl
@[simp] theorem Chip.setOtp_wrote (c : Chip) (d : Nat) (x : OtpSt) : (c.setOtp d x).wrote = c.wrote := rfl
@[simp] theorem Chip.setOtp_svcOut (c : Chip) (d : Nat) (x : OtpSt) : (c.setOtp d x).svcOut = c.svcOut := rfl
@[simp] theorem Chip.setOtp_wires (c : Chip) (d : Nat) (x : OtpSt) : (c.setOtp d x).wires = c.wires := rfl
@[simp] theorem Chip.setOtp_carried (c : Chip) (d : Nat) (x : OtpSt) : (c.setOtp d x).carried = c.carried := rfl
@[simp] theorem Chip.setOtp_rxMaps (c : Chip) (d : Nat) (x : OtpSt) : (c.setOtp d x).rxMaps = c.rxMaps := rfl
@[simp] theorem Chip.setOtp_inReset (c : Chip) (d : Nat) (x : OtpSt) : (c.setOtp d x).inReset = c.inReset := rfl
@[simp] theorem Chip.setOtp_boot (c : Chip) (d : Nat) (x : OtpSt) : (c.setOtp d x).boot = c.boot := rfl
@[simp] theorem Chip.setOtp_profile (c : Chip) (d : Nat) (x : OtpSt) : (c.setOtp d x).profile = c.profile := rfl
@[simp] theorem Chip.setOtp_outs (c : Chip) (d : Nat) (x : OtpSt) : (c.setOtp d x).outs = c.outs := rfl
@[simp] theorem Chip.setOtp_lanes (c : Chip) (d : Nat) (x : OtpSt) : (c.setOtp d x).lanes = c.lanes := rfl
@[simp] theorem Chip.setOtp_layers (c : Chip) (d : Nat) (x : OtpSt) : (c.setOtp d x).layers = c.layers := rfl
@[simp] theorem Chip.setOtp_dies (c : Chip) (d : Nat) (x : OtpSt) : (c.setOtp d x).dies = c.dies := rfl
@[simp] theorem Chip.setOtp_drivers (c : Chip) (d : Nat) (x : OtpSt) : (c.setOtp d x).drivers = c.drivers := rfl
@[simp] theorem Chip.setOtp_chans (c : Chip) (d : Nat) (x : OtpSt) : (c.setOtp d x).chans = c.chans := rfl
@[simp] theorem Chip.setOtp_codes (c : Chip) (d : Nat) (x : OtpSt) : (c.setOtp d x).codes = c.codes := rfl
@[simp] theorem Chip.setOtp_resends (c : Chip) (d : Nat) (x : OtpSt) : (c.setOtp d x).resends = c.resends := rfl
@[simp] theorem Chip.setOtp_badWords (c : Chip) (d : Nat) (x : OtpSt) : (c.setOtp d x).badWords = c.badWords := rfl
@[simp] theorem Chip.setOtp_fixups (c : Chip) (d : Nat) (x : OtpSt) : (c.setOtp d x).fixups = c.fixups := rfl
@[simp] theorem Chip.setOtp_ramblers (c : Chip) (d : Nat) (x : OtpSt) : (c.setOtp d x).ramblers = c.ramblers := rfl
@[simp] theorem Chip.setOtp_baskets (c : Chip) (d : Nat) (x : OtpSt) : (c.setOtp d x).baskets = c.baskets := rfl
@[simp] theorem Chip.setOtp_fatals (c : Chip) (d : Nat) (x : OtpSt) : (c.setOtp d x).fatals = c.fatals := rfl
@[simp] theorem Chip.setOtp_quote (c : Chip) (d : Nat) (x : OtpSt) : (c.setOtp d x).quote = c.quote := rfl
@[simp] theorem Chip.setOtp_otpSkew (c : Chip) (d : Nat) (x : OtpSt) : (c.setOtp d x).otpSkew = c.otpSkew := rfl
@[simp] theorem Chip.setOtp_logRestarted (c : Chip) (d : Nat) (x : OtpSt) : (c.setOtp d x).logRestarted = c.logRestarted := rfl
@[simp] theorem Chip.setOtp_via (c : Chip) (d : Nat) (x : OtpSt) : (c.setOtp d x).via = c.via := rfl
@[simp] theorem Chip.setOtp_jtagIr (c : Chip) (d : Nat) (x : OtpSt) : (c.setOtp d x).jtagIr = c.jtagIr := rfl
@[simp] theorem Chip.setOtp_jtagCredit (c : Chip) (d : Nat) (x : OtpSt) : (c.setOtp d x).jtagCredit = c.jtagCredit := rfl
@[simp] theorem Chip.setOtp_jtagDr (c : Chip) (d : Nat) (x : OtpSt) : (c.setOtp d x).jtagDr = c.jtagDr := rfl

/-! ### setReq -/

@[simp] theorem Chip.setReq_member (c : Chip) (r : Req) : (c.setReq r).member = c.member := rfl
@[simp] theorem Chip.setReq_power (c : Chip) (r : Req) : (c.setReq r).power = c.power := rfl
@[simp] theorem Chip.setReq_porN (c : Chip) (r : Req) : (c.setReq r).porN = c.porN := rfl
@[simp] theorem Chip.setReq_now (c : Chip) (r : Req) : (c.setReq r).now = c.now := rfl
@[simp] theorem Chip.setReq_porAt (c : Chip) (r : Req) : (c.setReq r).porAt = c.porAt := rfl
@[simp] theorem Chip.setReq_cycleAt (c : Chip) (r : Req) : (c.setReq r).cycleAt = c.cycleAt := rfl
@[simp] theorem Chip.setReq_startAt (c : Chip) (r : Req) : (c.setReq r).startAt = c.startAt := rfl
@[simp] theorem Chip.setReq_fresh (c : Chip) (r : Req) : (c.setReq r).fresh = c.fresh := rfl
@[simp] theorem Chip.setReq_fuseOpen (c : Chip) (r : Req) : (c.setReq r).fuseOpen = c.fuseOpen := rfl
@[simp] theorem Chip.setReq_regs (c : Chip) (r : Req) : (c.setReq r).regs = c.regs := rfl
@[simp] theorem Chip.setReq_staged (c : Chip) (r : Req) : (c.setReq r).staged = c.staged := rfl
@[simp] theorem Chip.setReq_commits (c : Chip) (r : Req) : (c.setReq r).commits = c.commits := rfl
@[simp] theorem Chip.setReq_ports (c : Chip) (r : Req) : (c.setReq r).ports = c.ports := rfl
@[simp] theorem Chip.setReq_nextReq (c : Chip) (r : Req) : (c.setReq r).nextReq = c.nextReq := rfl
@[simp] theorem Chip.setReq_waiting (c : Chip) (r : Req) : (c.setReq r).waiting = c.waiting := rfl
@[simp] theorem Chip.setReq_bcast (c : Chip) (r : Req) : (c.setReq r).bcast = c.bcast := rfl
@[simp] theorem Chip.setReq_linksDown (c : Chip) (r : Req) : (c.setReq r).linksDown = c.linksDown := rfl
@[simp] theorem Chip.setReq_raisedAt (c : Chip) (r : Req) : (c.setReq r).raisedAt = c.raisedAt := rfl
@[simp] theorem Chip.setReq_raised (c : Chip) (r : Req) : (c.setReq r).raised = c.raised := rfl
@[simp] theorem Chip.setReq_wroteAt (c : Chip) (r : Req) : (c.setReq r).wroteAt = c.wroteAt := rfl
@[simp] theorem Chip.setReq_wrote (c : Chip) (r : Req) : (c.setReq r).wrote = c.wrote := rfl
@[simp] theorem Chip.setReq_svcOut (c : Chip) (r : Req) : (c.setReq r).svcOut = c.svcOut := rfl
@[simp] theorem Chip.setReq_wires (c : Chip) (r : Req) : (c.setReq r).wires = c.wires := rfl
@[simp] theorem Chip.setReq_carried (c : Chip) (r : Req) : (c.setReq r).carried = c.carried := rfl
@[simp] theorem Chip.setReq_rxMaps (c : Chip) (r : Req) : (c.setReq r).rxMaps = c.rxMaps := rfl
@[simp] theorem Chip.setReq_inReset (c : Chip) (r : Req) : (c.setReq r).inReset = c.inReset := rfl
@[simp] theorem Chip.setReq_boot (c : Chip) (r : Req) : (c.setReq r).boot = c.boot := rfl
@[simp] theorem Chip.setReq_profile (c : Chip) (r : Req) : (c.setReq r).profile = c.profile := rfl
@[simp] theorem Chip.setReq_outs (c : Chip) (r : Req) : (c.setReq r).outs = c.outs := rfl
@[simp] theorem Chip.setReq_lanes (c : Chip) (r : Req) : (c.setReq r).lanes = c.lanes := rfl
@[simp] theorem Chip.setReq_layers (c : Chip) (r : Req) : (c.setReq r).layers = c.layers := rfl
@[simp] theorem Chip.setReq_dies (c : Chip) (r : Req) : (c.setReq r).dies = c.dies := rfl
@[simp] theorem Chip.setReq_drivers (c : Chip) (r : Req) : (c.setReq r).drivers = c.drivers := rfl
@[simp] theorem Chip.setReq_chans (c : Chip) (r : Req) : (c.setReq r).chans = c.chans := rfl
@[simp] theorem Chip.setReq_codes (c : Chip) (r : Req) : (c.setReq r).codes = c.codes := rfl
@[simp] theorem Chip.setReq_resends (c : Chip) (r : Req) : (c.setReq r).resends = c.resends := rfl
@[simp] theorem Chip.setReq_badWords (c : Chip) (r : Req) : (c.setReq r).badWords = c.badWords := rfl
@[simp] theorem Chip.setReq_fixups (c : Chip) (r : Req) : (c.setReq r).fixups = c.fixups := rfl
@[simp] theorem Chip.setReq_ramblers (c : Chip) (r : Req) : (c.setReq r).ramblers = c.ramblers := rfl
@[simp] theorem Chip.setReq_baskets (c : Chip) (r : Req) : (c.setReq r).baskets = c.baskets := rfl
@[simp] theorem Chip.setReq_otp (c : Chip) (r : Req) : (c.setReq r).otp = c.otp := rfl
@[simp] theorem Chip.setReq_fatals (c : Chip) (r : Req) : (c.setReq r).fatals = c.fatals := rfl
@[simp] theorem Chip.setReq_quote (c : Chip) (r : Req) : (c.setReq r).quote = c.quote := rfl
@[simp] theorem Chip.setReq_otpSkew (c : Chip) (r : Req) : (c.setReq r).otpSkew = c.otpSkew := rfl
@[simp] theorem Chip.setReq_logRestarted (c : Chip) (r : Req) : (c.setReq r).logRestarted = c.logRestarted := rfl
@[simp] theorem Chip.setReq_via (c : Chip) (r : Req) : (c.setReq r).via = c.via := rfl
@[simp] theorem Chip.setReq_jtagIr (c : Chip) (r : Req) : (c.setReq r).jtagIr = c.jtagIr := rfl
@[simp] theorem Chip.setReq_jtagCredit (c : Chip) (r : Req) : (c.setReq r).jtagCredit = c.jtagCredit := rfl
@[simp] theorem Chip.setReq_jtagDr (c : Chip) (r : Req) : (c.setReq r).jtagDr = c.jtagDr := rfl

/-! ### wordWritten -/

@[simp] theorem Chip.wordWritten_member (c : Chip) (a : Nat) : (c.wordWritten a).member = c.member := rfl
@[simp] theorem Chip.wordWritten_power (c : Chip) (a : Nat) : (c.wordWritten a).power = c.power := rfl
@[simp] theorem Chip.wordWritten_porN (c : Chip) (a : Nat) : (c.wordWritten a).porN = c.porN := rfl
@[simp] theorem Chip.wordWritten_now (c : Chip) (a : Nat) : (c.wordWritten a).now = c.now := rfl
@[simp] theorem Chip.wordWritten_porAt (c : Chip) (a : Nat) : (c.wordWritten a).porAt = c.porAt := rfl
@[simp] theorem Chip.wordWritten_cycleAt (c : Chip) (a : Nat) : (c.wordWritten a).cycleAt = c.cycleAt := rfl
@[simp] theorem Chip.wordWritten_startAt (c : Chip) (a : Nat) : (c.wordWritten a).startAt = c.startAt := rfl
@[simp] theorem Chip.wordWritten_fresh (c : Chip) (a : Nat) : (c.wordWritten a).fresh = c.fresh := rfl
@[simp] theorem Chip.wordWritten_fuseOpen (c : Chip) (a : Nat) : (c.wordWritten a).fuseOpen = c.fuseOpen := rfl
@[simp] theorem Chip.wordWritten_regs (c : Chip) (a : Nat) : (c.wordWritten a).regs = c.regs := rfl
@[simp] theorem Chip.wordWritten_staged (c : Chip) (a : Nat) : (c.wordWritten a).staged = c.staged := rfl
@[simp] theorem Chip.wordWritten_commits (c : Chip) (a : Nat) : (c.wordWritten a).commits = c.commits := rfl
@[simp] theorem Chip.wordWritten_ports (c : Chip) (a : Nat) : (c.wordWritten a).ports = c.ports := rfl
@[simp] theorem Chip.wordWritten_nextReq (c : Chip) (a : Nat) : (c.wordWritten a).nextReq = c.nextReq := rfl
@[simp] theorem Chip.wordWritten_inflight (c : Chip) (a : Nat) : (c.wordWritten a).inflight = c.inflight := rfl
@[simp] theorem Chip.wordWritten_waiting (c : Chip) (a : Nat) : (c.wordWritten a).waiting = c.waiting := rfl
@[simp] theorem Chip.wordWritten_bcast (c : Chip) (a : Nat) : (c.wordWritten a).bcast = c.bcast := rfl
@[simp] theorem Chip.wordWritten_linksDown (c : Chip) (a : Nat) : (c.wordWritten a).linksDown = c.linksDown := rfl
@[simp] theorem Chip.wordWritten_raisedAt (c : Chip) (a : Nat) : (c.wordWritten a).raisedAt = c.raisedAt := rfl
@[simp] theorem Chip.wordWritten_raised (c : Chip) (a : Nat) : (c.wordWritten a).raised = c.raised := rfl
@[simp] theorem Chip.wordWritten_wroteAt (c : Chip) (a : Nat) : (c.wordWritten a).wroteAt = c.wroteAt := rfl
@[simp] theorem Chip.wordWritten_wrote (c : Chip) (a : Nat) : (c.wordWritten a).wrote = c.wrote := rfl
@[simp] theorem Chip.wordWritten_svcOut (c : Chip) (a : Nat) : (c.wordWritten a).svcOut = c.svcOut := rfl
@[simp] theorem Chip.wordWritten_wires (c : Chip) (a : Nat) : (c.wordWritten a).wires = c.wires := rfl
@[simp] theorem Chip.wordWritten_carried (c : Chip) (a : Nat) : (c.wordWritten a).carried = c.carried := rfl
@[simp] theorem Chip.wordWritten_rxMaps (c : Chip) (a : Nat) : (c.wordWritten a).rxMaps = c.rxMaps := rfl
@[simp] theorem Chip.wordWritten_inReset (c : Chip) (a : Nat) : (c.wordWritten a).inReset = c.inReset := rfl
@[simp] theorem Chip.wordWritten_boot (c : Chip) (a : Nat) : (c.wordWritten a).boot = c.boot := rfl
@[simp] theorem Chip.wordWritten_profile (c : Chip) (a : Nat) : (c.wordWritten a).profile = c.profile := rfl
@[simp] theorem Chip.wordWritten_outs (c : Chip) (a : Nat) : (c.wordWritten a).outs = c.outs := rfl
@[simp] theorem Chip.wordWritten_lanes (c : Chip) (a : Nat) : (c.wordWritten a).lanes = c.lanes := rfl
@[simp] theorem Chip.wordWritten_layers (c : Chip) (a : Nat) : (c.wordWritten a).layers = c.layers := rfl
@[simp] theorem Chip.wordWritten_dies (c : Chip) (a : Nat) : (c.wordWritten a).dies = c.dies := rfl
@[simp] theorem Chip.wordWritten_drivers (c : Chip) (a : Nat) : (c.wordWritten a).drivers = c.drivers := rfl
@[simp] theorem Chip.wordWritten_chans (c : Chip) (a : Nat) : (c.wordWritten a).chans = c.chans := rfl
@[simp] theorem Chip.wordWritten_codes (c : Chip) (a : Nat) : (c.wordWritten a).codes = c.codes := rfl
@[simp] theorem Chip.wordWritten_resends (c : Chip) (a : Nat) : (c.wordWritten a).resends = c.resends := rfl
@[simp] theorem Chip.wordWritten_ramblers (c : Chip) (a : Nat) : (c.wordWritten a).ramblers = c.ramblers := rfl
@[simp] theorem Chip.wordWritten_baskets (c : Chip) (a : Nat) : (c.wordWritten a).baskets = c.baskets := rfl
@[simp] theorem Chip.wordWritten_otp (c : Chip) (a : Nat) : (c.wordWritten a).otp = c.otp := rfl
@[simp] theorem Chip.wordWritten_fatals (c : Chip) (a : Nat) : (c.wordWritten a).fatals = c.fatals := rfl
@[simp] theorem Chip.wordWritten_quote (c : Chip) (a : Nat) : (c.wordWritten a).quote = c.quote := rfl
@[simp] theorem Chip.wordWritten_otpSkew (c : Chip) (a : Nat) : (c.wordWritten a).otpSkew = c.otpSkew := rfl
@[simp] theorem Chip.wordWritten_logRestarted (c : Chip) (a : Nat) : (c.wordWritten a).logRestarted = c.logRestarted := rfl
@[simp] theorem Chip.wordWritten_via (c : Chip) (a : Nat) : (c.wordWritten a).via = c.via := rfl
@[simp] theorem Chip.wordWritten_jtagIr (c : Chip) (a : Nat) : (c.wordWritten a).jtagIr = c.jtagIr := rfl
@[simp] theorem Chip.wordWritten_jtagCredit (c : Chip) (a : Nat) : (c.wordWritten a).jtagCredit = c.jtagCredit := rfl
@[simp] theorem Chip.wordWritten_jtagDr (c : Chip) (a : Nat) : (c.wordWritten a).jtagDr = c.jtagDr := rfl

/-! ### tick -/

@[simp] theorem Chip.tick_member (c : Chip) : (c.tick).member = c.member := rfl
@[simp] theorem Chip.tick_power (c : Chip) : (c.tick).power = c.power := rfl
@[simp] theorem Chip.tick_porN (c : Chip) : (c.tick).porN = c.porN := rfl
@[simp] theorem Chip.tick_now (c : Chip) : (c.tick).now = c.now := rfl
@[simp] theorem Chip.tick_porAt (c : Chip) : (c.tick).porAt = c.porAt := rfl
@[simp] theorem Chip.tick_cycleAt (c : Chip) : (c.tick).cycleAt = c.cycleAt := rfl
@[simp] theorem Chip.tick_startAt (c : Chip) : (c.tick).startAt = c.startAt := rfl
@[simp] theorem Chip.tick_fuseOpen (c : Chip) : (c.tick).fuseOpen = c.fuseOpen := rfl
@[simp] theorem Chip.tick_regs (c : Chip) : (c.tick).regs = c.regs := rfl
@[simp] theorem Chip.tick_staged (c : Chip) : (c.tick).staged = c.staged := rfl
@[simp] theorem Chip.tick_commits (c : Chip) : (c.tick).commits = c.commits := rfl
@[simp] theorem Chip.tick_ports (c : Chip) : (c.tick).ports = c.ports := rfl
@[simp] theorem Chip.tick_nextReq (c : Chip) : (c.tick).nextReq = c.nextReq := rfl
@[simp] theorem Chip.tick_inflight (c : Chip) : (c.tick).inflight = c.inflight := rfl
@[simp] theorem Chip.tick_waiting (c : Chip) : (c.tick).waiting = c.waiting := rfl
@[simp] theorem Chip.tick_bcast (c : Chip) : (c.tick).bcast = c.bcast := rfl
@[simp] theorem Chip.tick_linksDown (c : Chip) : (c.tick).linksDown = c.linksDown := rfl
@[simp] theorem Chip.tick_raisedAt (c : Chip) : (c.tick).raisedAt = c.raisedAt := rfl
@[simp] theorem Chip.tick_raised (c : Chip) : (c.tick).raised = c.raised := rfl
@[simp] theorem Chip.tick_wroteAt (c : Chip) : (c.tick).wroteAt = c.wroteAt := rfl
@[simp] theorem Chip.tick_wrote (c : Chip) : (c.tick).wrote = c.wrote := rfl
@[simp] theorem Chip.tick_svcOut (c : Chip) : (c.tick).svcOut = c.svcOut := rfl
@[simp] theorem Chip.tick_wires (c : Chip) : (c.tick).wires = c.wires := rfl
@[simp] theorem Chip.tick_carried (c : Chip) : (c.tick).carried = c.carried := rfl
@[simp] theorem Chip.tick_rxMaps (c : Chip) : (c.tick).rxMaps = c.rxMaps := rfl
@[simp] theorem Chip.tick_inReset (c : Chip) : (c.tick).inReset = c.inReset := rfl
@[simp] theorem Chip.tick_boot (c : Chip) : (c.tick).boot = c.boot := rfl
@[simp] theorem Chip.tick_profile (c : Chip) : (c.tick).profile = c.profile := rfl
@[simp] theorem Chip.tick_outs (c : Chip) : (c.tick).outs = c.outs := rfl
@[simp] theorem Chip.tick_lanes (c : Chip) : (c.tick).lanes = c.lanes := rfl
@[simp] theorem Chip.tick_layers (c : Chip) : (c.tick).layers = c.layers := rfl
@[simp] theorem Chip.tick_dies (c : Chip) : (c.tick).dies = c.dies := rfl
@[simp] theorem Chip.tick_drivers (c : Chip) : (c.tick).drivers = c.drivers := rfl
@[simp] theorem Chip.tick_chans (c : Chip) : (c.tick).chans = c.chans := rfl
@[simp] theorem Chip.tick_codes (c : Chip) : (c.tick).codes = c.codes := rfl
@[simp] theorem Chip.tick_resends (c : Chip) : (c.tick).resends = c.resends := rfl
@[simp] theorem Chip.tick_badWords (c : Chip) : (c.tick).badWords = c.badWords := rfl
@[simp] theorem Chip.tick_fixups (c : Chip) : (c.tick).fixups = c.fixups := rfl
@[simp] theorem Chip.tick_ramblers (c : Chip) : (c.tick).ramblers = c.ramblers := rfl
@[simp] theorem Chip.tick_baskets (c : Chip) : (c.tick).baskets = c.baskets := rfl
@[simp] theorem Chip.tick_otp (c : Chip) : (c.tick).otp = c.otp := rfl
@[simp] theorem Chip.tick_fatals (c : Chip) : (c.tick).fatals = c.fatals := rfl
@[simp] theorem Chip.tick_quote (c : Chip) : (c.tick).quote = c.quote := rfl
@[simp] theorem Chip.tick_otpSkew (c : Chip) : (c.tick).otpSkew = c.otpSkew := rfl
@[simp] theorem Chip.tick_logRestarted (c : Chip) : (c.tick).logRestarted = c.logRestarted := rfl
@[simp] theorem Chip.tick_via (c : Chip) : (c.tick).via = c.via := rfl
@[simp] theorem Chip.tick_jtagIr (c : Chip) : (c.tick).jtagIr = c.jtagIr := rfl
@[simp] theorem Chip.tick_jtagCredit (c : Chip) : (c.tick).jtagCredit = c.jtagCredit := rfl
@[simp] theorem Chip.tick_jtagDr (c : Chip) : (c.tick).jtagDr = c.jtagDr := rfl

/-! ### setIr -/

@[simp] theorem Chip.setIr_member (c : Chip) (n : Nat) : (c.setIr n).member = c.member := rfl
@[simp] theorem Chip.setIr_power (c : Chip) (n : Nat) : (c.setIr n).power = c.power := rfl
@[simp] theorem Chip.setIr_porN (c : Chip) (n : Nat) : (c.setIr n).porN = c.porN := rfl
@[simp] theorem Chip.setIr_now (c : Chip) (n : Nat) : (c.setIr n).now = c.now := rfl
@[simp] theorem Chip.setIr_porAt (c : Chip) (n : Nat) : (c.setIr n).porAt = c.porAt := rfl
@[simp] theorem Chip.setIr_cycleAt (c : Chip) (n : Nat) : (c.setIr n).cycleAt = c.cycleAt := rfl
@[simp] theorem Chip.setIr_startAt (c : Chip) (n : Nat) : (c.setIr n).startAt = c.startAt := rfl
@[simp] theorem Chip.setIr_fresh (c : Chip) (n : Nat) : (c.setIr n).fresh = c.fresh := rfl
@[simp] theorem Chip.setIr_fuseOpen (c : Chip) (n : Nat) : (c.setIr n).fuseOpen = c.fuseOpen := rfl
@[simp] theorem Chip.setIr_regs (c : Chip) (n : Nat) : (c.setIr n).regs = c.regs := rfl
@[simp] theorem Chip.setIr_staged (c : Chip) (n : Nat) : (c.setIr n).staged = c.staged := rfl
@[simp] theorem Chip.setIr_commits (c : Chip) (n : Nat) : (c.setIr n).commits = c.commits := rfl
@[simp] theorem Chip.setIr_ports (c : Chip) (n : Nat) : (c.setIr n).ports = c.ports := rfl
@[simp] theorem Chip.setIr_nextReq (c : Chip) (n : Nat) : (c.setIr n).nextReq = c.nextReq := rfl
@[simp] theorem Chip.setIr_inflight (c : Chip) (n : Nat) : (c.setIr n).inflight = c.inflight := rfl
@[simp] theorem Chip.setIr_waiting (c : Chip) (n : Nat) : (c.setIr n).waiting = c.waiting := rfl
@[simp] theorem Chip.setIr_bcast (c : Chip) (n : Nat) : (c.setIr n).bcast = c.bcast := rfl
@[simp] theorem Chip.setIr_linksDown (c : Chip) (n : Nat) : (c.setIr n).linksDown = c.linksDown := rfl
@[simp] theorem Chip.setIr_raisedAt (c : Chip) (n : Nat) : (c.setIr n).raisedAt = c.raisedAt := rfl
@[simp] theorem Chip.setIr_raised (c : Chip) (n : Nat) : (c.setIr n).raised = c.raised := rfl
@[simp] theorem Chip.setIr_wroteAt (c : Chip) (n : Nat) : (c.setIr n).wroteAt = c.wroteAt := rfl
@[simp] theorem Chip.setIr_wrote (c : Chip) (n : Nat) : (c.setIr n).wrote = c.wrote := rfl
@[simp] theorem Chip.setIr_svcOut (c : Chip) (n : Nat) : (c.setIr n).svcOut = c.svcOut := rfl
@[simp] theorem Chip.setIr_wires (c : Chip) (n : Nat) : (c.setIr n).wires = c.wires := rfl
@[simp] theorem Chip.setIr_carried (c : Chip) (n : Nat) : (c.setIr n).carried = c.carried := rfl
@[simp] theorem Chip.setIr_rxMaps (c : Chip) (n : Nat) : (c.setIr n).rxMaps = c.rxMaps := rfl
@[simp] theorem Chip.setIr_inReset (c : Chip) (n : Nat) : (c.setIr n).inReset = c.inReset := rfl
@[simp] theorem Chip.setIr_boot (c : Chip) (n : Nat) : (c.setIr n).boot = c.boot := rfl
@[simp] theorem Chip.setIr_profile (c : Chip) (n : Nat) : (c.setIr n).profile = c.profile := rfl
@[simp] theorem Chip.setIr_outs (c : Chip) (n : Nat) : (c.setIr n).outs = c.outs := rfl
@[simp] theorem Chip.setIr_lanes (c : Chip) (n : Nat) : (c.setIr n).lanes = c.lanes := rfl
@[simp] theorem Chip.setIr_layers (c : Chip) (n : Nat) : (c.setIr n).layers = c.layers := rfl
@[simp] theorem Chip.setIr_dies (c : Chip) (n : Nat) : (c.setIr n).dies = c.dies := rfl
@[simp] theorem Chip.setIr_drivers (c : Chip) (n : Nat) : (c.setIr n).drivers = c.drivers := rfl
@[simp] theorem Chip.setIr_chans (c : Chip) (n : Nat) : (c.setIr n).chans = c.chans := rfl
@[simp] theorem Chip.setIr_codes (c : Chip) (n : Nat) : (c.setIr n).codes = c.codes := rfl
@[simp] theorem Chip.setIr_resends (c : Chip) (n : Nat) : (c.setIr n).resends = c.resends := rfl
@[simp] theorem Chip.setIr_badWords (c : Chip) (n : Nat) : (c.setIr n).badWords = c.badWords := rfl
@[simp] theorem Chip.setIr_fixups (c : Chip) (n : Nat) : (c.setIr n).fixups = c.fixups := rfl
@[simp] theorem Chip.setIr_ramblers (c : Chip) (n : Nat) : (c.setIr n).ramblers = c.ramblers := rfl
@[simp] theorem Chip.setIr_baskets (c : Chip) (n : Nat) : (c.setIr n).baskets = c.baskets := rfl
@[simp] theorem Chip.setIr_otp (c : Chip) (n : Nat) : (c.setIr n).otp = c.otp := rfl
@[simp] theorem Chip.setIr_fatals (c : Chip) (n : Nat) : (c.setIr n).fatals = c.fatals := rfl
@[simp] theorem Chip.setIr_quote (c : Chip) (n : Nat) : (c.setIr n).quote = c.quote := rfl
@[simp] theorem Chip.setIr_otpSkew (c : Chip) (n : Nat) : (c.setIr n).otpSkew = c.otpSkew := rfl
@[simp] theorem Chip.setIr_logRestarted (c : Chip) (n : Nat) : (c.setIr n).logRestarted = c.logRestarted := rfl
@[simp] theorem Chip.setIr_via (c : Chip) (n : Nat) : (c.setIr n).via = c.via := rfl
@[simp] theorem Chip.setIr_jtagCredit (c : Chip) (n : Nat) : (c.setIr n).jtagCredit = c.jtagCredit := rfl
@[simp] theorem Chip.setIr_jtagDr (c : Chip) (n : Nat) : (c.setIr n).jtagDr = c.jtagDr := rfl

/-! ### sendOn -/

@[simp] theorem Chip.sendOn_member (c : Chip) (d l : Nat) (syms : List Sym) : (c.sendOn d l syms).member = c.member := rfl
@[simp] theorem Chip.sendOn_power (c : Chip) (d l : Nat) (syms : List Sym) : (c.sendOn d l syms).power = c.power := rfl
@[simp] theorem Chip.sendOn_porN (c : Chip) (d l : Nat) (syms : List Sym) : (c.sendOn d l syms).porN = c.porN := rfl
@[simp] theorem Chip.sendOn_now (c : Chip) (d l : Nat) (syms : List Sym) : (c.sendOn d l syms).now = c.now := rfl
@[simp] theorem Chip.sendOn_porAt (c : Chip) (d l : Nat) (syms : List Sym) : (c.sendOn d l syms).porAt = c.porAt := rfl
@[simp] theorem Chip.sendOn_cycleAt (c : Chip) (d l : Nat) (syms : List Sym) : (c.sendOn d l syms).cycleAt = c.cycleAt := rfl
@[simp] theorem Chip.sendOn_startAt (c : Chip) (d l : Nat) (syms : List Sym) : (c.sendOn d l syms).startAt = c.startAt := rfl
@[simp] theorem Chip.sendOn_fresh (c : Chip) (d l : Nat) (syms : List Sym) : (c.sendOn d l syms).fresh = c.fresh := rfl
@[simp] theorem Chip.sendOn_fuseOpen (c : Chip) (d l : Nat) (syms : List Sym) : (c.sendOn d l syms).fuseOpen = c.fuseOpen := rfl
@[simp] theorem Chip.sendOn_regs (c : Chip) (d l : Nat) (syms : List Sym) : (c.sendOn d l syms).regs = c.regs := rfl
@[simp] theorem Chip.sendOn_staged (c : Chip) (d l : Nat) (syms : List Sym) : (c.sendOn d l syms).staged = c.staged := rfl
@[simp] theorem Chip.sendOn_commits (c : Chip) (d l : Nat) (syms : List Sym) : (c.sendOn d l syms).commits = c.commits := rfl
@[simp] theorem Chip.sendOn_ports (c : Chip) (d l : Nat) (syms : List Sym) : (c.sendOn d l syms).ports = c.ports := rfl
@[simp] theorem Chip.sendOn_nextReq (c : Chip) (d l : Nat) (syms : List Sym) : (c.sendOn d l syms).nextReq = c.nextReq := rfl
@[simp] theorem Chip.sendOn_inflight (c : Chip) (d l : Nat) (syms : List Sym) : (c.sendOn d l syms).inflight = c.inflight := rfl
@[simp] theorem Chip.sendOn_waiting (c : Chip) (d l : Nat) (syms : List Sym) : (c.sendOn d l syms).waiting = c.waiting := rfl
@[simp] theorem Chip.sendOn_bcast (c : Chip) (d l : Nat) (syms : List Sym) : (c.sendOn d l syms).bcast = c.bcast := rfl
@[simp] theorem Chip.sendOn_linksDown (c : Chip) (d l : Nat) (syms : List Sym) : (c.sendOn d l syms).linksDown = c.linksDown := rfl
@[simp] theorem Chip.sendOn_raisedAt (c : Chip) (d l : Nat) (syms : List Sym) : (c.sendOn d l syms).raisedAt = c.raisedAt := rfl
@[simp] theorem Chip.sendOn_raised (c : Chip) (d l : Nat) (syms : List Sym) : (c.sendOn d l syms).raised = c.raised := rfl
@[simp] theorem Chip.sendOn_wroteAt (c : Chip) (d l : Nat) (syms : List Sym) : (c.sendOn d l syms).wroteAt = c.wroteAt := rfl
@[simp] theorem Chip.sendOn_wrote (c : Chip) (d l : Nat) (syms : List Sym) : (c.sendOn d l syms).wrote = c.wrote := rfl
@[simp] theorem Chip.sendOn_svcOut (c : Chip) (d l : Nat) (syms : List Sym) : (c.sendOn d l syms).svcOut = c.svcOut := rfl
@[simp] theorem Chip.sendOn_carried (c : Chip) (d l : Nat) (syms : List Sym) : (c.sendOn d l syms).carried = c.carried := rfl
@[simp] theorem Chip.sendOn_rxMaps (c : Chip) (d l : Nat) (syms : List Sym) : (c.sendOn d l syms).rxMaps = c.rxMaps := rfl
@[simp] theorem Chip.sendOn_inReset (c : Chip) (d l : Nat) (syms : List Sym) : (c.sendOn d l syms).inReset = c.inReset := rfl
@[simp] theorem Chip.sendOn_boot (c : Chip) (d l : Nat) (syms : List Sym) : (c.sendOn d l syms).boot = c.boot := rfl
@[simp] theorem Chip.sendOn_profile (c : Chip) (d l : Nat) (syms : List Sym) : (c.sendOn d l syms).profile = c.profile := rfl
@[simp] theorem Chip.sendOn_outs (c : Chip) (d l : Nat) (syms : List Sym) : (c.sendOn d l syms).outs = c.outs := rfl
@[simp] theorem Chip.sendOn_lanes (c : Chip) (d l : Nat) (syms : List Sym) : (c.sendOn d l syms).lanes = c.lanes := rfl
@[simp] theorem Chip.sendOn_layers (c : Chip) (d l : Nat) (syms : List Sym) : (c.sendOn d l syms).layers = c.layers := rfl
@[simp] theorem Chip.sendOn_dies (c : Chip) (d l : Nat) (syms : List Sym) : (c.sendOn d l syms).dies = c.dies := rfl
@[simp] theorem Chip.sendOn_drivers (c : Chip) (d l : Nat) (syms : List Sym) : (c.sendOn d l syms).drivers = c.drivers := rfl
@[simp] theorem Chip.sendOn_chans (c : Chip) (d l : Nat) (syms : List Sym) : (c.sendOn d l syms).chans = c.chans := rfl
@[simp] theorem Chip.sendOn_codes (c : Chip) (d l : Nat) (syms : List Sym) : (c.sendOn d l syms).codes = c.codes := rfl
@[simp] theorem Chip.sendOn_resends (c : Chip) (d l : Nat) (syms : List Sym) : (c.sendOn d l syms).resends = c.resends := rfl
@[simp] theorem Chip.sendOn_badWords (c : Chip) (d l : Nat) (syms : List Sym) : (c.sendOn d l syms).badWords = c.badWords := rfl
@[simp] theorem Chip.sendOn_fixups (c : Chip) (d l : Nat) (syms : List Sym) : (c.sendOn d l syms).fixups = c.fixups := rfl
@[simp] theorem Chip.sendOn_ramblers (c : Chip) (d l : Nat) (syms : List Sym) : (c.sendOn d l syms).ramblers = c.ramblers := rfl
@[simp] theorem Chip.sendOn_baskets (c : Chip) (d l : Nat) (syms : List Sym) : (c.sendOn d l syms).baskets = c.baskets := rfl
@[simp] theorem Chip.sendOn_otp (c : Chip) (d l : Nat) (syms : List Sym) : (c.sendOn d l syms).otp = c.otp := rfl
@[simp] theorem Chip.sendOn_fatals (c : Chip) (d l : Nat) (syms : List Sym) : (c.sendOn d l syms).fatals = c.fatals := rfl
@[simp] theorem Chip.sendOn_quote (c : Chip) (d l : Nat) (syms : List Sym) : (c.sendOn d l syms).quote = c.quote := rfl
@[simp] theorem Chip.sendOn_otpSkew (c : Chip) (d l : Nat) (syms : List Sym) : (c.sendOn d l syms).otpSkew = c.otpSkew := rfl
@[simp] theorem Chip.sendOn_logRestarted (c : Chip) (d l : Nat) (syms : List Sym) : (c.sendOn d l syms).logRestarted = c.logRestarted := rfl
@[simp] theorem Chip.sendOn_via (c : Chip) (d l : Nat) (syms : List Sym) : (c.sendOn d l syms).via = c.via := rfl
@[simp] theorem Chip.sendOn_jtagIr (c : Chip) (d l : Nat) (syms : List Sym) : (c.sendOn d l syms).jtagIr = c.jtagIr := rfl
@[simp] theorem Chip.sendOn_jtagCredit (c : Chip) (d l : Nat) (syms : List Sym) : (c.sendOn d l syms).jtagCredit = c.jtagCredit := rfl
@[simp] theorem Chip.sendOn_jtagDr (c : Chip) (d l : Nat) (syms : List Sym) : (c.sendOn d l syms).jtagDr = c.jtagDr := rfl

/-! ### sendMore -/

@[simp] theorem Chip.sendMore_member (c : Chip) (d l : Nat) (syms : List Sym) : (c.sendMore d l syms).member = c.member := rfl
@[simp] theorem Chip.sendMore_power (c : Chip) (d l : Nat) (syms : List Sym) : (c.sendMore d l syms).power = c.power := rfl
@[simp] theorem Chip.sendMore_porN (c : Chip) (d l : Nat) (syms : List Sym) : (c.sendMore d l syms).porN = c.porN := rfl
@[simp] theorem Chip.sendMore_now (c : Chip) (d l : Nat) (syms : List Sym) : (c.sendMore d l syms).now = c.now := rfl
@[simp] theorem Chip.sendMore_porAt (c : Chip) (d l : Nat) (syms : List Sym) : (c.sendMore d l syms).porAt = c.porAt := rfl
@[simp] theorem Chip.sendMore_cycleAt (c : Chip) (d l : Nat) (syms : List Sym) : (c.sendMore d l syms).cycleAt = c.cycleAt := rfl
@[simp] theorem Chip.sendMore_startAt (c : Chip) (d l : Nat) (syms : List Sym) : (c.sendMore d l syms).startAt = c.startAt := rfl
@[simp] theorem Chip.sendMore_fresh (c : Chip) (d l : Nat) (syms : List Sym) : (c.sendMore d l syms).fresh = c.fresh := rfl
@[simp] theorem Chip.sendMore_fuseOpen (c : Chip) (d l : Nat) (syms : List Sym) : (c.sendMore d l syms).fuseOpen = c.fuseOpen := rfl
@[simp] theorem Chip.sendMore_regs (c : Chip) (d l : Nat) (syms : List Sym) : (c.sendMore d l syms).regs = c.regs := rfl
@[simp] theorem Chip.sendMore_staged (c : Chip) (d l : Nat) (syms : List Sym) : (c.sendMore d l syms).staged = c.staged := rfl
@[simp] theorem Chip.sendMore_commits (c : Chip) (d l : Nat) (syms : List Sym) : (c.sendMore d l syms).commits = c.commits := rfl
@[simp] theorem Chip.sendMore_ports (c : Chip) (d l : Nat) (syms : List Sym) : (c.sendMore d l syms).ports = c.ports := rfl
@[simp] theorem Chip.sendMore_nextReq (c : Chip) (d l : Nat) (syms : List Sym) : (c.sendMore d l syms).nextReq = c.nextReq := rfl
@[simp] theorem Chip.sendMore_inflight (c : Chip) (d l : Nat) (syms : List Sym) : (c.sendMore d l syms).inflight = c.inflight := rfl
@[simp] theorem Chip.sendMore_waiting (c : Chip) (d l : Nat) (syms : List Sym) : (c.sendMore d l syms).waiting = c.waiting := rfl
@[simp] theorem Chip.sendMore_bcast (c : Chip) (d l : Nat) (syms : List Sym) : (c.sendMore d l syms).bcast = c.bcast := rfl
@[simp] theorem Chip.sendMore_linksDown (c : Chip) (d l : Nat) (syms : List Sym) : (c.sendMore d l syms).linksDown = c.linksDown := rfl
@[simp] theorem Chip.sendMore_raisedAt (c : Chip) (d l : Nat) (syms : List Sym) : (c.sendMore d l syms).raisedAt = c.raisedAt := rfl
@[simp] theorem Chip.sendMore_raised (c : Chip) (d l : Nat) (syms : List Sym) : (c.sendMore d l syms).raised = c.raised := rfl
@[simp] theorem Chip.sendMore_wroteAt (c : Chip) (d l : Nat) (syms : List Sym) : (c.sendMore d l syms).wroteAt = c.wroteAt := rfl
@[simp] theorem Chip.sendMore_wrote (c : Chip) (d l : Nat) (syms : List Sym) : (c.sendMore d l syms).wrote = c.wrote := rfl
@[simp] theorem Chip.sendMore_svcOut (c : Chip) (d l : Nat) (syms : List Sym) : (c.sendMore d l syms).svcOut = c.svcOut := rfl
@[simp] theorem Chip.sendMore_carried (c : Chip) (d l : Nat) (syms : List Sym) : (c.sendMore d l syms).carried = c.carried := rfl
@[simp] theorem Chip.sendMore_rxMaps (c : Chip) (d l : Nat) (syms : List Sym) : (c.sendMore d l syms).rxMaps = c.rxMaps := rfl
@[simp] theorem Chip.sendMore_inReset (c : Chip) (d l : Nat) (syms : List Sym) : (c.sendMore d l syms).inReset = c.inReset := rfl
@[simp] theorem Chip.sendMore_boot (c : Chip) (d l : Nat) (syms : List Sym) : (c.sendMore d l syms).boot = c.boot := rfl
@[simp] theorem Chip.sendMore_profile (c : Chip) (d l : Nat) (syms : List Sym) : (c.sendMore d l syms).profile = c.profile := rfl
@[simp] theorem Chip.sendMore_outs (c : Chip) (d l : Nat) (syms : List Sym) : (c.sendMore d l syms).outs = c.outs := rfl
@[simp] theorem Chip.sendMore_lanes (c : Chip) (d l : Nat) (syms : List Sym) : (c.sendMore d l syms).lanes = c.lanes := rfl
@[simp] theorem Chip.sendMore_layers (c : Chip) (d l : Nat) (syms : List Sym) : (c.sendMore d l syms).layers = c.layers := rfl
@[simp] theorem Chip.sendMore_dies (c : Chip) (d l : Nat) (syms : List Sym) : (c.sendMore d l syms).dies = c.dies := rfl
@[simp] theorem Chip.sendMore_drivers (c : Chip) (d l : Nat) (syms : List Sym) : (c.sendMore d l syms).drivers = c.drivers := rfl
@[simp] theorem Chip.sendMore_chans (c : Chip) (d l : Nat) (syms : List Sym) : (c.sendMore d l syms).chans = c.chans := rfl
@[simp] theorem Chip.sendMore_codes (c : Chip) (d l : Nat) (syms : List Sym) : (c.sendMore d l syms).codes = c.codes := rfl
@[simp] theorem Chip.sendMore_resends (c : Chip) (d l : Nat) (syms : List Sym) : (c.sendMore d l syms).resends = c.resends := rfl
@[simp] theorem Chip.sendMore_badWords (c : Chip) (d l : Nat) (syms : List Sym) : (c.sendMore d l syms).badWords = c.badWords := rfl
@[simp] theorem Chip.sendMore_fixups (c : Chip) (d l : Nat) (syms : List Sym) : (c.sendMore d l syms).fixups = c.fixups := rfl
@[simp] theorem Chip.sendMore_ramblers (c : Chip) (d l : Nat) (syms : List Sym) : (c.sendMore d l syms).ramblers = c.ramblers := rfl
@[simp] theorem Chip.sendMore_baskets (c : Chip) (d l : Nat) (syms : List Sym) : (c.sendMore d l syms).baskets = c.baskets := rfl
@[simp] theorem Chip.sendMore_otp (c : Chip) (d l : Nat) (syms : List Sym) : (c.sendMore d l syms).otp = c.otp := rfl
@[simp] theorem Chip.sendMore_fatals (c : Chip) (d l : Nat) (syms : List Sym) : (c.sendMore d l syms).fatals = c.fatals := rfl
@[simp] theorem Chip.sendMore_quote (c : Chip) (d l : Nat) (syms : List Sym) : (c.sendMore d l syms).quote = c.quote := rfl
@[simp] theorem Chip.sendMore_otpSkew (c : Chip) (d l : Nat) (syms : List Sym) : (c.sendMore d l syms).otpSkew = c.otpSkew := rfl
@[simp] theorem Chip.sendMore_logRestarted (c : Chip) (d l : Nat) (syms : List Sym) : (c.sendMore d l syms).logRestarted = c.logRestarted := rfl
@[simp] theorem Chip.sendMore_via (c : Chip) (d l : Nat) (syms : List Sym) : (c.sendMore d l syms).via = c.via := rfl
@[simp] theorem Chip.sendMore_jtagIr (c : Chip) (d l : Nat) (syms : List Sym) : (c.sendMore d l syms).jtagIr = c.jtagIr := rfl
@[simp] theorem Chip.sendMore_jtagCredit (c : Chip) (d l : Nat) (syms : List Sym) : (c.sendMore d l syms).jtagCredit = c.jtagCredit := rfl
@[simp] theorem Chip.sendMore_jtagDr (c : Chip) (d l : Nat) (syms : List Sym) : (c.sendMore d l syms).jtagDr = c.jtagDr := rfl

/-! ### hush -/

@[simp] theorem Chip.hush_member (c : Chip) (o : Nat) : (c.hush o).member = c.member := rfl
@[simp] theorem Chip.hush_power (c : Chip) (o : Nat) : (c.hush o).power = c.power := rfl
@[simp] theorem Chip.hush_porN (c : Chip) (o : Nat) : (c.hush o).porN = c.porN := rfl
@[simp] theorem Chip.hush_now (c : Chip) (o : Nat) : (c.hush o).now = c.now := rfl
@[simp] theorem Chip.hush_porAt (c : Chip) (o : Nat) : (c.hush o).porAt = c.porAt := rfl
@[simp] theorem Chip.hush_cycleAt (c : Chip) (o : Nat) : (c.hush o).cycleAt = c.cycleAt := rfl
@[simp] theorem Chip.hush_startAt (c : Chip) (o : Nat) : (c.hush o).startAt = c.startAt := rfl
@[simp] theorem Chip.hush_fresh (c : Chip) (o : Nat) : (c.hush o).fresh = c.fresh := rfl
@[simp] theorem Chip.hush_fuseOpen (c : Chip) (o : Nat) : (c.hush o).fuseOpen = c.fuseOpen := rfl
@[simp] theorem Chip.hush_regs (c : Chip) (o : Nat) : (c.hush o).regs = c.regs := rfl
@[simp] theorem Chip.hush_staged (c : Chip) (o : Nat) : (c.hush o).staged = c.staged := rfl
@[simp] theorem Chip.hush_commits (c : Chip) (o : Nat) : (c.hush o).commits = c.commits := rfl
@[simp] theorem Chip.hush_ports (c : Chip) (o : Nat) : (c.hush o).ports = c.ports := rfl
@[simp] theorem Chip.hush_nextReq (c : Chip) (o : Nat) : (c.hush o).nextReq = c.nextReq := rfl
@[simp] theorem Chip.hush_inflight (c : Chip) (o : Nat) : (c.hush o).inflight = c.inflight := rfl
@[simp] theorem Chip.hush_waiting (c : Chip) (o : Nat) : (c.hush o).waiting = c.waiting := rfl
@[simp] theorem Chip.hush_bcast (c : Chip) (o : Nat) : (c.hush o).bcast = c.bcast := rfl
@[simp] theorem Chip.hush_linksDown (c : Chip) (o : Nat) : (c.hush o).linksDown = c.linksDown := rfl
@[simp] theorem Chip.hush_raisedAt (c : Chip) (o : Nat) : (c.hush o).raisedAt = c.raisedAt := rfl
@[simp] theorem Chip.hush_raised (c : Chip) (o : Nat) : (c.hush o).raised = c.raised := rfl
@[simp] theorem Chip.hush_wroteAt (c : Chip) (o : Nat) : (c.hush o).wroteAt = c.wroteAt := rfl
@[simp] theorem Chip.hush_wrote (c : Chip) (o : Nat) : (c.hush o).wrote = c.wrote := rfl
@[simp] theorem Chip.hush_svcOut (c : Chip) (o : Nat) : (c.hush o).svcOut = c.svcOut := rfl
@[simp] theorem Chip.hush_carried (c : Chip) (o : Nat) : (c.hush o).carried = c.carried := rfl
@[simp] theorem Chip.hush_rxMaps (c : Chip) (o : Nat) : (c.hush o).rxMaps = c.rxMaps := rfl
@[simp] theorem Chip.hush_inReset (c : Chip) (o : Nat) : (c.hush o).inReset = c.inReset := rfl
@[simp] theorem Chip.hush_boot (c : Chip) (o : Nat) : (c.hush o).boot = c.boot := rfl
@[simp] theorem Chip.hush_profile (c : Chip) (o : Nat) : (c.hush o).profile = c.profile := rfl
@[simp] theorem Chip.hush_outs (c : Chip) (o : Nat) : (c.hush o).outs = c.outs := rfl
@[simp] theorem Chip.hush_lanes (c : Chip) (o : Nat) : (c.hush o).lanes = c.lanes := rfl
@[simp] theorem Chip.hush_layers (c : Chip) (o : Nat) : (c.hush o).layers = c.layers := rfl
@[simp] theorem Chip.hush_dies (c : Chip) (o : Nat) : (c.hush o).dies = c.dies := rfl
@[simp] theorem Chip.hush_drivers (c : Chip) (o : Nat) : (c.hush o).drivers = c.drivers := rfl
@[simp] theorem Chip.hush_chans (c : Chip) (o : Nat) : (c.hush o).chans = c.chans := rfl
@[simp] theorem Chip.hush_codes (c : Chip) (o : Nat) : (c.hush o).codes = c.codes := rfl
@[simp] theorem Chip.hush_resends (c : Chip) (o : Nat) : (c.hush o).resends = c.resends := rfl
@[simp] theorem Chip.hush_badWords (c : Chip) (o : Nat) : (c.hush o).badWords = c.badWords := rfl
@[simp] theorem Chip.hush_fixups (c : Chip) (o : Nat) : (c.hush o).fixups = c.fixups := rfl
@[simp] theorem Chip.hush_ramblers (c : Chip) (o : Nat) : (c.hush o).ramblers = c.ramblers := rfl
@[simp] theorem Chip.hush_baskets (c : Chip) (o : Nat) : (c.hush o).baskets = c.baskets := rfl
@[simp] theorem Chip.hush_otp (c : Chip) (o : Nat) : (c.hush o).otp = c.otp := rfl
@[simp] theorem Chip.hush_fatals (c : Chip) (o : Nat) : (c.hush o).fatals = c.fatals := rfl
@[simp] theorem Chip.hush_quote (c : Chip) (o : Nat) : (c.hush o).quote = c.quote := rfl
@[simp] theorem Chip.hush_otpSkew (c : Chip) (o : Nat) : (c.hush o).otpSkew = c.otpSkew := rfl
@[simp] theorem Chip.hush_logRestarted (c : Chip) (o : Nat) : (c.hush o).logRestarted = c.logRestarted := rfl
@[simp] theorem Chip.hush_via (c : Chip) (o : Nat) : (c.hush o).via = c.via := rfl
@[simp] theorem Chip.hush_jtagIr (c : Chip) (o : Nat) : (c.hush o).jtagIr = c.jtagIr := rfl
@[simp] theorem Chip.hush_jtagCredit (c : Chip) (o : Nat) : (c.hush o).jtagCredit = c.jtagCredit := rfl
@[simp] theorem Chip.hush_jtagDr (c : Chip) (o : Nat) : (c.hush o).jtagDr = c.jtagDr := rfl

/-! ### setRxMap -/

@[simp] theorem Chip.setRxMap_member (c : Chip) (d f v : Nat) : (c.setRxMap d f v).member = c.member := rfl
@[simp] theorem Chip.setRxMap_power (c : Chip) (d f v : Nat) : (c.setRxMap d f v).power = c.power := rfl
@[simp] theorem Chip.setRxMap_porN (c : Chip) (d f v : Nat) : (c.setRxMap d f v).porN = c.porN := rfl
@[simp] theorem Chip.setRxMap_now (c : Chip) (d f v : Nat) : (c.setRxMap d f v).now = c.now := rfl
@[simp] theorem Chip.setRxMap_porAt (c : Chip) (d f v : Nat) : (c.setRxMap d f v).porAt = c.porAt := rfl
@[simp] theorem Chip.setRxMap_cycleAt (c : Chip) (d f v : Nat) : (c.setRxMap d f v).cycleAt = c.cycleAt := rfl
@[simp] theorem Chip.setRxMap_startAt (c : Chip) (d f v : Nat) : (c.setRxMap d f v).startAt = c.startAt := rfl
@[simp] theorem Chip.setRxMap_fresh (c : Chip) (d f v : Nat) : (c.setRxMap d f v).fresh = c.fresh := rfl
@[simp] theorem Chip.setRxMap_fuseOpen (c : Chip) (d f v : Nat) : (c.setRxMap d f v).fuseOpen = c.fuseOpen := rfl
@[simp] theorem Chip.setRxMap_regs (c : Chip) (d f v : Nat) : (c.setRxMap d f v).regs = c.regs := rfl
@[simp] theorem Chip.setRxMap_staged (c : Chip) (d f v : Nat) : (c.setRxMap d f v).staged = c.staged := rfl
@[simp] theorem Chip.setRxMap_commits (c : Chip) (d f v : Nat) : (c.setRxMap d f v).commits = c.commits := rfl
@[simp] theorem Chip.setRxMap_ports (c : Chip) (d f v : Nat) : (c.setRxMap d f v).ports = c.ports := rfl
@[simp] theorem Chip.setRxMap_nextReq (c : Chip) (d f v : Nat) : (c.setRxMap d f v).nextReq = c.nextReq := rfl
@[simp] theorem Chip.setRxMap_inflight (c : Chip) (d f v : Nat) : (c.setRxMap d f v).inflight = c.inflight := rfl
@[simp] theorem Chip.setRxMap_waiting (c : Chip) (d f v : Nat) : (c.setRxMap d f v).waiting = c.waiting := rfl
@[simp] theorem Chip.setRxMap_bcast (c : Chip) (d f v : Nat) : (c.setRxMap d f v).bcast = c.bcast := rfl
@[simp] theorem Chip.setRxMap_linksDown (c : Chip) (d f v : Nat) : (c.setRxMap d f v).linksDown = c.linksDown := rfl
@[simp] theorem Chip.setRxMap_raisedAt (c : Chip) (d f v : Nat) : (c.setRxMap d f v).raisedAt = c.raisedAt := rfl
@[simp] theorem Chip.setRxMap_raised (c : Chip) (d f v : Nat) : (c.setRxMap d f v).raised = c.raised := rfl
@[simp] theorem Chip.setRxMap_wroteAt (c : Chip) (d f v : Nat) : (c.setRxMap d f v).wroteAt = c.wroteAt := rfl
@[simp] theorem Chip.setRxMap_wrote (c : Chip) (d f v : Nat) : (c.setRxMap d f v).wrote = c.wrote := rfl
@[simp] theorem Chip.setRxMap_svcOut (c : Chip) (d f v : Nat) : (c.setRxMap d f v).svcOut = c.svcOut := rfl
@[simp] theorem Chip.setRxMap_wires (c : Chip) (d f v : Nat) : (c.setRxMap d f v).wires = c.wires := rfl
@[simp] theorem Chip.setRxMap_carried (c : Chip) (d f v : Nat) : (c.setRxMap d f v).carried = c.carried := rfl
@[simp] theorem Chip.setRxMap_inReset (c : Chip) (d f v : Nat) : (c.setRxMap d f v).inReset = c.inReset := rfl
@[simp] theorem Chip.setRxMap_boot (c : Chip) (d f v : Nat) : (c.setRxMap d f v).boot = c.boot := rfl
@[simp] theorem Chip.setRxMap_profile (c : Chip) (d f v : Nat) : (c.setRxMap d f v).profile = c.profile := rfl
@[simp] theorem Chip.setRxMap_outs (c : Chip) (d f v : Nat) : (c.setRxMap d f v).outs = c.outs := rfl
@[simp] theorem Chip.setRxMap_lanes (c : Chip) (d f v : Nat) : (c.setRxMap d f v).lanes = c.lanes := rfl
@[simp] theorem Chip.setRxMap_layers (c : Chip) (d f v : Nat) : (c.setRxMap d f v).layers = c.layers := rfl
@[simp] theorem Chip.setRxMap_dies (c : Chip) (d f v : Nat) : (c.setRxMap d f v).dies = c.dies := rfl
@[simp] theorem Chip.setRxMap_drivers (c : Chip) (d f v : Nat) : (c.setRxMap d f v).drivers = c.drivers := rfl
@[simp] theorem Chip.setRxMap_chans (c : Chip) (d f v : Nat) : (c.setRxMap d f v).chans = c.chans := rfl
@[simp] theorem Chip.setRxMap_codes (c : Chip) (d f v : Nat) : (c.setRxMap d f v).codes = c.codes := rfl
@[simp] theorem Chip.setRxMap_resends (c : Chip) (d f v : Nat) : (c.setRxMap d f v).resends = c.resends := rfl
@[simp] theorem Chip.setRxMap_badWords (c : Chip) (d f v : Nat) : (c.setRxMap d f v).badWords = c.badWords := rfl
@[simp] theorem Chip.setRxMap_fixups (c : Chip) (d f v : Nat) : (c.setRxMap d f v).fixups = c.fixups := rfl
@[simp] theorem Chip.setRxMap_ramblers (c : Chip) (d f v : Nat) : (c.setRxMap d f v).ramblers = c.ramblers := rfl
@[simp] theorem Chip.setRxMap_baskets (c : Chip) (d f v : Nat) : (c.setRxMap d f v).baskets = c.baskets := rfl
@[simp] theorem Chip.setRxMap_otp (c : Chip) (d f v : Nat) : (c.setRxMap d f v).otp = c.otp := rfl
@[simp] theorem Chip.setRxMap_fatals (c : Chip) (d f v : Nat) : (c.setRxMap d f v).fatals = c.fatals := rfl
@[simp] theorem Chip.setRxMap_quote (c : Chip) (d f v : Nat) : (c.setRxMap d f v).quote = c.quote := rfl
@[simp] theorem Chip.setRxMap_otpSkew (c : Chip) (d f v : Nat) : (c.setRxMap d f v).otpSkew = c.otpSkew := rfl
@[simp] theorem Chip.setRxMap_logRestarted (c : Chip) (d f v : Nat) : (c.setRxMap d f v).logRestarted = c.logRestarted := rfl
@[simp] theorem Chip.setRxMap_via (c : Chip) (d f v : Nat) : (c.setRxMap d f v).via = c.via := rfl
@[simp] theorem Chip.setRxMap_jtagIr (c : Chip) (d f v : Nat) : (c.setRxMap d f v).jtagIr = c.jtagIr := rfl
@[simp] theorem Chip.setRxMap_jtagCredit (c : Chip) (d f v : Nat) : (c.setRxMap d f v).jtagCredit = c.jtagCredit := rfl
@[simp] theorem Chip.setRxMap_jtagDr (c : Chip) (d f v : Nat) : (c.setRxMap d f v).jtagDr = c.jtagDr := rfl

/-! ### noteWrite -/

@[simp] theorem Chip.noteWrite_member (c : Chip) (port : Port) (d p o : Nat) : (c.noteWrite port d p o).member = c.member := rfl
@[simp] theorem Chip.noteWrite_power (c : Chip) (port : Port) (d p o : Nat) : (c.noteWrite port d p o).power = c.power := rfl
@[simp] theorem Chip.noteWrite_porN (c : Chip) (port : Port) (d p o : Nat) : (c.noteWrite port d p o).porN = c.porN := rfl
@[simp] theorem Chip.noteWrite_now (c : Chip) (port : Port) (d p o : Nat) : (c.noteWrite port d p o).now = c.now := rfl
@[simp] theorem Chip.noteWrite_porAt (c : Chip) (port : Port) (d p o : Nat) : (c.noteWrite port d p o).porAt = c.porAt := rfl
@[simp] theorem Chip.noteWrite_cycleAt (c : Chip) (port : Port) (d p o : Nat) : (c.noteWrite port d p o).cycleAt = c.cycleAt := rfl
@[simp] theorem Chip.noteWrite_startAt (c : Chip) (port : Port) (d p o : Nat) : (c.noteWrite port d p o).startAt = c.startAt := rfl
@[simp] theorem Chip.noteWrite_fresh (c : Chip) (port : Port) (d p o : Nat) : (c.noteWrite port d p o).fresh = c.fresh := rfl
@[simp] theorem Chip.noteWrite_fuseOpen (c : Chip) (port : Port) (d p o : Nat) : (c.noteWrite port d p o).fuseOpen = c.fuseOpen := rfl
@[simp] theorem Chip.noteWrite_regs (c : Chip) (port : Port) (d p o : Nat) : (c.noteWrite port d p o).regs = c.regs := rfl
@[simp] theorem Chip.noteWrite_staged (c : Chip) (port : Port) (d p o : Nat) : (c.noteWrite port d p o).staged = c.staged := rfl
@[simp] theorem Chip.noteWrite_commits (c : Chip) (port : Port) (d p o : Nat) : (c.noteWrite port d p o).commits = c.commits := rfl
@[simp] theorem Chip.noteWrite_ports (c : Chip) (port : Port) (d p o : Nat) : (c.noteWrite port d p o).ports = c.ports := rfl
@[simp] theorem Chip.noteWrite_nextReq (c : Chip) (port : Port) (d p o : Nat) : (c.noteWrite port d p o).nextReq = c.nextReq := rfl
@[simp] theorem Chip.noteWrite_inflight (c : Chip) (port : Port) (d p o : Nat) : (c.noteWrite port d p o).inflight = c.inflight := rfl
@[simp] theorem Chip.noteWrite_waiting (c : Chip) (port : Port) (d p o : Nat) : (c.noteWrite port d p o).waiting = c.waiting := rfl
@[simp] theorem Chip.noteWrite_bcast (c : Chip) (port : Port) (d p o : Nat) : (c.noteWrite port d p o).bcast = c.bcast := rfl
@[simp] theorem Chip.noteWrite_linksDown (c : Chip) (port : Port) (d p o : Nat) : (c.noteWrite port d p o).linksDown = c.linksDown := rfl
@[simp] theorem Chip.noteWrite_raisedAt (c : Chip) (port : Port) (d p o : Nat) : (c.noteWrite port d p o).raisedAt = c.raisedAt := rfl
@[simp] theorem Chip.noteWrite_raised (c : Chip) (port : Port) (d p o : Nat) : (c.noteWrite port d p o).raised = c.raised := rfl
@[simp] theorem Chip.noteWrite_svcOut (c : Chip) (port : Port) (d p o : Nat) : (c.noteWrite port d p o).svcOut = c.svcOut := rfl
@[simp] theorem Chip.noteWrite_wires (c : Chip) (port : Port) (d p o : Nat) : (c.noteWrite port d p o).wires = c.wires := rfl
@[simp] theorem Chip.noteWrite_carried (c : Chip) (port : Port) (d p o : Nat) : (c.noteWrite port d p o).carried = c.carried := rfl
@[simp] theorem Chip.noteWrite_rxMaps (c : Chip) (port : Port) (d p o : Nat) : (c.noteWrite port d p o).rxMaps = c.rxMaps := rfl
@[simp] theorem Chip.noteWrite_inReset (c : Chip) (port : Port) (d p o : Nat) : (c.noteWrite port d p o).inReset = c.inReset := rfl
@[simp] theorem Chip.noteWrite_boot (c : Chip) (port : Port) (d p o : Nat) : (c.noteWrite port d p o).boot = c.boot := rfl
@[simp] theorem Chip.noteWrite_profile (c : Chip) (port : Port) (d p o : Nat) : (c.noteWrite port d p o).profile = c.profile := rfl
@[simp] theorem Chip.noteWrite_outs (c : Chip) (port : Port) (d p o : Nat) : (c.noteWrite port d p o).outs = c.outs := rfl
@[simp] theorem Chip.noteWrite_lanes (c : Chip) (port : Port) (d p o : Nat) : (c.noteWrite port d p o).lanes = c.lanes := rfl
@[simp] theorem Chip.noteWrite_layers (c : Chip) (port : Port) (d p o : Nat) : (c.noteWrite port d p o).layers = c.layers := rfl
@[simp] theorem Chip.noteWrite_dies (c : Chip) (port : Port) (d p o : Nat) : (c.noteWrite port d p o).dies = c.dies := rfl
@[simp] theorem Chip.noteWrite_drivers (c : Chip) (port : Port) (d p o : Nat) : (c.noteWrite port d p o).drivers = c.drivers := rfl
@[simp] theorem Chip.noteWrite_chans (c : Chip) (port : Port) (d p o : Nat) : (c.noteWrite port d p o).chans = c.chans := rfl
@[simp] theorem Chip.noteWrite_codes (c : Chip) (port : Port) (d p o : Nat) : (c.noteWrite port d p o).codes = c.codes := rfl
@[simp] theorem Chip.noteWrite_resends (c : Chip) (port : Port) (d p o : Nat) : (c.noteWrite port d p o).resends = c.resends := rfl
@[simp] theorem Chip.noteWrite_badWords (c : Chip) (port : Port) (d p o : Nat) : (c.noteWrite port d p o).badWords = c.badWords := rfl
@[simp] theorem Chip.noteWrite_fixups (c : Chip) (port : Port) (d p o : Nat) : (c.noteWrite port d p o).fixups = c.fixups := rfl
@[simp] theorem Chip.noteWrite_ramblers (c : Chip) (port : Port) (d p o : Nat) : (c.noteWrite port d p o).ramblers = c.ramblers := rfl
@[simp] theorem Chip.noteWrite_baskets (c : Chip) (port : Port) (d p o : Nat) : (c.noteWrite port d p o).baskets = c.baskets := rfl
@[simp] theorem Chip.noteWrite_otp (c : Chip) (port : Port) (d p o : Nat) : (c.noteWrite port d p o).otp = c.otp := rfl
@[simp] theorem Chip.noteWrite_fatals (c : Chip) (port : Port) (d p o : Nat) : (c.noteWrite port d p o).fatals = c.fatals := rfl
@[simp] theorem Chip.noteWrite_quote (c : Chip) (port : Port) (d p o : Nat) : (c.noteWrite port d p o).quote = c.quote := rfl
@[simp] theorem Chip.noteWrite_otpSkew (c : Chip) (port : Port) (d p o : Nat) : (c.noteWrite port d p o).otpSkew = c.otpSkew := rfl
@[simp] theorem Chip.noteWrite_logRestarted (c : Chip) (port : Port) (d p o : Nat) : (c.noteWrite port d p o).logRestarted = c.logRestarted := rfl
@[simp] theorem Chip.noteWrite_via (c : Chip) (port : Port) (d p o : Nat) : (c.noteWrite port d p o).via = c.via := rfl
@[simp] theorem Chip.noteWrite_jtagIr (c : Chip) (port : Port) (d p o : Nat) : (c.noteWrite port d p o).jtagIr = c.jtagIr := rfl
@[simp] theorem Chip.noteWrite_jtagCredit (c : Chip) (port : Port) (d p o : Nat) : (c.noteWrite port d p o).jtagCredit = c.jtagCredit := rfl
@[simp] theorem Chip.noteWrite_jtagDr (c : Chip) (port : Port) (d p o : Nat) : (c.noteWrite port d p o).jtagDr = c.jtagDr := rfl

/-! ### Reading after writing -/

@[simp] theorem Chip.reg_setReg (c : Chip) (d p o : Nat) (w : Word) (d' p' o' : Nat) :
    (c.setReg d p o w).reg d' p' o' = if ra d' p' o' = ra d p o then w else c.reg d' p' o' := by
  unfold Chip.reg
  by_cases h : ra d' p' o' = ra d p o
  · rw [h]; simp [Chip.setReg]
  · simp only [Chip.setReg, KMap.getD, KMap.get?_put_of_ne _ _ _ _ _ h, if_neg h]

theorem Chip.get?_setReg_of_ne (c : Chip) (d p o : Nat) (w : Word) (a : Nat) (h : a ≠ ra d p o) :
    KMap.get? (c.setReg d p o w).regs a = KMap.get? c.regs a := KMap.get?_put_of_ne _ _ _ _ _ h

/-- A register is what its address lists; two chips of one member that list the same under it hold the same in it. -/
theorem Chip.reg_congr {c c' : Chip} (hm : c'.member = c.member) (d p o : Nat)
    (h : KMap.get? c'.regs (ra d p o) = KMap.get? c.regs (ra d p o)) : c'.reg d p o = c.reg d p o := by
  unfold Chip.reg KMap.getD; rw [h, hm]

@[simp] theorem Chip.out_setOut (c : Chip) (o : Nat) (x : OutSt) (q : Nat) :
    (c.setOut o x).out q = if q = o then x else c.out q := by simp [Chip.out, Chip.setOut]
@[simp] theorem Chip.lane_setLane (c : Chip) (d l : Nat) (x : LaneSt) (e k : Nat) :
    (c.setLane d l x).lane e k = if e * 24 + k = d * 24 + l then x else c.lane e k := by simp [Chip.lane, Chip.setLane]
@[simp] theorem Chip.layer_setLayer (c : Chip) (n : Nat) (x : LayerSt) (k : Nat) :
    (c.setLayer n x).layer k = if k = n then x else c.layer k := by simp [Chip.layer, Chip.setLayer]
@[simp] theorem Chip.die_setDie (c : Chip) (d : Nat) (x : DieSt) (e : Nat) :
    (c.setDie d x).die e = if e = d then x else c.die e := by simp [Chip.die, Chip.setDie]
@[simp] theorem Chip.chan_setChan (c : Chip) (d h : Nat) (x : ChanSt) (e k : Nat) :
    (c.setChan d h x).chan e k = if e * 2 + k = d * 2 + h then x else c.chan e k := by simp [Chip.chan, Chip.setChan]
@[simp] theorem Chip.driver_setDriver (c : Chip) (d k p : Nat) (x : DriverSt) (e j q : Nat) :
    (c.setDriver d k p x).driver e j q = if e * 128 + j * 8 + q = d * 128 + k * 8 + p then x else c.driver e j q := by
  simp [Chip.driver, Chip.setDriver]
@[simp] theorem Chip.port_setPort (c : Chip) (p : Port) (x : PortSt) (q : Port) :
    (c.setPort p x).port q = if portKey q = portKey p then x else c.port q := by simp [Chip.port, Chip.setPort]
@[simp] theorem Chip.otpOf_setOtp (c : Chip) (d : Nat) (x : OtpSt) (e : Nat) :
    (c.setOtp d x).otpOf e = if e = d then x else c.otpOf e := by simp [Chip.otpOf, Chip.setOtp]
@[simp] theorem Chip.rambler_setRambler (c : Chip) (d : Nat) (x : RamblerSt) (e : Nat) :
    (c.setRambler d x).rambler e = if e = d then x else c.rambler e := by simp [Chip.rambler, Chip.setRambler]
@[simp] theorem Chip.wire_sendOn (c : Chip) (d l : Nat) (syms : List Sym) (e k : Nat) :
    (c.sendOn d l syms).wire e k = if e * 24 + k = d * 24 + l then syms else c.wire e k := by simp [Chip.wire, Chip.sendOn]
@[simp] theorem Chip.rxMap_setRxMap (c : Chip) (d f v e g : Nat) :
    (c.setRxMap d f v).rxMap e g = if e * 8 + g = d * 8 + f then v else c.rxMap e g := by simp [Chip.rxMap, Chip.setRxMap]

/-- The writes of a field, of a number and of a state are writes of one register. -/
theorem Chip.put_eq (c : Chip) (d p o hi lo v : Nat) : c.put d p o hi lo v = c.setReg d p o (setBits (c.reg d p o) hi lo v) := rfl
theorem Chip.setNum_eq (c : Chip) (d p o v : Nat) : c.setNum d p o v = c.setReg d p o (BitVec.ofNat 32 v) := rfl
theorem Chip.count_eq (c : Chip) (d p o : Nat) :
    c.count d p o = c.setReg d p o (BitVec.ofNat 32 (min 0xFFFFFFFF (c.num d p o + 1))) := rfl

/-- Addresses of registers tell the die, the page and the offset apart. -/
theorem ra_inj {d p o d' p' o' : Nat} (hp : p < 0x1000) (ho : o < 0x1000) (hp' : p' < 0x1000) (ho' : o' < 0x1000) :
    ra d p o = ra d' p' o' ↔ d = d' ∧ p = p' ∧ o = o' := by unfold ra; omega

end Sys2Proof.Machine
end

