-- ==== Sys2Proof/Laws/Events.lean ====
section
/-! SUPPORT. What setting PAGE_EVENT bits, raising records, queueing messages and completing commands can do (R113, R128 to R130,
R152): only registers of the event pages and of the ports change, and the ports' queues. -/

namespace Sys2Proof.Machine

/-- Only registers within `p`, and the ports, differ. -/
def Chip.touches (c c' : Chip) (p : Nat → Prop) : Prop := c.sameBeside c' ∧ c.regsBut c' p

theorem Chip.touches_refl (c : Chip) (p : Nat → Prop) : c.touches c p := ⟨rfl, fun _ _ => rfl⟩

theorem Chip.touches_trans {c c' c'' : Chip} {p : Nat → Prop} (h : c.touches c' p) (h' : c'.touches c'' p) : c.touches c'' p := by
  refine ⟨?_, fun a ha => (h'.2 a ha).trans (h.2 a ha)⟩
  have e1 := h.1; have e2 := h'.1
  unfold Chip.sameBeside at *
  rw [e2, e1]

theorem Chip.touches_mono {c c' : Chip} {p q : Nat → Prop} (h : c.touches c' p) (hpq : ∀ a, p a → q a) : c.touches c' q :=
  ⟨h.1, fun a ha => h.2 a (fun hp => ha (hpq a hp))⟩

theorem Chip.touches_foldl {α : Type} (p : Nat → Prop) (f : Chip → α → Chip) (l : List α) (c : Chip)
    (h : ∀ (c : Chip) (x : α), x ∈ l → c.touches (f c x) p) : c.touches (l.foldl f c) p := by
  induction l generalizing c with
  | nil => exact Chip.touches_refl c p
  | cons x l ih => exact Chip.touches_trans (h c x (List.mem_cons_self ..)) (ih _ (fun c y hy => h c y (List.mem_cons_of_mem _ hy)))

theorem Chip.touches_setReg (c : Chip) (d p o : Nat) (w : Word) : c.touches (c.setReg d p o w) (fun a => a = ra d p o) :=
  ⟨rfl, fun _ h => KMap.get?_put_of_ne _ _ _ _ _ h⟩

theorem Chip.touches_setNum (c : Chip) (d p o v : Nat) : c.touches (c.setNum d p o v) (fun a => a = ra d p o) :=
  c.touches_setReg d p o _

theorem Chip.touches_put (c : Chip) (d p o hi lo v : Nat) : c.touches (c.put d p o hi lo v) (fun a => a = ra d p o) :=
  c.touches_setReg d p o _

theorem Chip.touches_countBy (c : Chip) (d p o n : Nat) : c.touches (c.countBy d p o n) (fun a => a = ra d p o) :=
  c.touches_setReg d p o _

theorem Chip.touches_count (c : Chip) (d p o : Nat) : c.touches (c.count d p o) (fun a => a = ra d p o) := c.touches_setReg d p o _

theorem Chip.touches_setPort (c : Chip) (p : Port) (x : PortSt) (q : Nat → Prop) : c.touches (c.setPort p x) q := ⟨rfl, fun _ _ => rfl⟩

theorem Chip.touches_send (c : Chip) (p : Port) (m : Msg) (q : Nat → Prop) : c.touches (c.send p m) q := c.touches_setPort p _ q

theorem Chip.touches_answer (c : Chip) (p : Port) (op : Nat) (tag : Byte) (die status detail : Nat) (bs : List Byte) (q : Nat → Prop) :
    c.touches (c.answer p op tag die status detail bs) q :=
  Chip.touches_foldl q _ _ c (fun c m _ => c.touches_send p m q)

theorem Chip.touches_setEvents (c : Chip) (d p : Nat) (sets : List Nat) :
    c.touches (c.setEvents d p sets).1 (fun a => a = ra d p PAGE_EVENT ∨ a = ra d p PAGE_EVENT_LOST) := by
  unfold Chip.setEvents
  simp only
  suffices h : ∀ (l : List Nat) (x : Chip × Nat), x.1.touches (l.foldl (fun (x : Chip × Nat) (b : Nat) =>
      if (x.1.num d p PAGE_EVENT).testBit b then (x.1.count d p PAGE_EVENT_LOST, x.2)
      else (x.1.setNum d p PAGE_EVENT (x.1.num d p PAGE_EVENT ||| 2 ^ b), x.2 ||| 2 ^ b)) x).1
      (fun a => a = ra d p PAGE_EVENT ∨ a = ra d p PAGE_EVENT_LOST) from h sets (c, 0)
  intro l
  induction l with
  | nil => intro x; exact Chip.touches_refl _ _
  | cons b l ih =>
    intro x
    refine Chip.touches_trans ?_ (ih _)
    dsimp only
    split
    · exact Chip.touches_mono (x.1.touches_count d p PAGE_EVENT_LOST) (fun a h => .inr h)
    · exact Chip.touches_mono (x.1.touches_setNum d p PAGE_EVENT _) (fun a h => .inl h)

theorem pageOf_ra (d p o : Nat) (hp : p < 0x1000) (ho : o < 0x1000) : pageOf (ra d p o) = p := by unfold pageOf ra; omega
theorem offsetOf_ra (d p o : Nat) (ho : o < 0x1000) : offsetOf (ra d p o) = o := by unfold offsetOf ra; omega

theorem portReg_of_svc (e o : Nat) (h : o = PAGE_EVENT ∨ o = PAGE_EVENT_LOST ∨ o = PORT_SVC.EVENTS_LOST) : portReg (ra e PORT_SVC o) := by
  have ho : o < 0x1000 := by rcases h with rfl | rfl | rfl <;> decide
  refine .inl ⟨pageOf_ra e _ o (by decide) ho, ?_⟩
  rw [offsetOf_ra e _ o ho]; exact h

theorem portReg_of_inb (e o : Nat) (h : o = PAGE_EVENT ∨ o = PAGE_EVENT_LOST ∨ (PORT_INB.EVENTS_LOST ≤ o ∧ o ≤ PORT_INB.EVENTS_LOST + 32)) :
    portReg (ra e PORT_INB o) := by
  have ho : o < 0x1000 := by
    rcases h with rfl | rfl | h
    · decide
    · decide
    · exact lt_of_le_of_lt h.2 (by decide)
  refine .inr ⟨pageOf_ra e _ o (by decide) ho, ?_⟩
  rw [offsetOf_ra e _ o ho]; exact h

theorem Chip.groupNumber_le (c : Chip) (d f : Nat) : c.groupNumber d f ≤ 8 := by
  unfold Chip.groupNumber Chip.groups
  refine le_trans List.findIdx_le_length ?_
  refine le_trans (List.length_filter_le _ _) ?_
  simp

/-- The page and counter of a dropped record are a port's. -/
theorem Chip.lostAt_portReg (c : Chip) (p : Port) (e page b cnt : Nat) (h : c.lostAt p = some (e, page, b, cnt)) :
    portReg (ra e page cnt) ∧ portReg (ra e page PAGE_EVENT) ∧ portReg (ra e page PAGE_EVENT_LOST) := by
  cases p with
  | service =>
    simp only [Chip.lostAt, Option.some.injEq, Prod.mk.injEq] at h
    obtain ⟨rfl, rfl, rfl, rfl⟩ := h
    exact ⟨portReg_of_svc _ _ (by simp), portReg_of_svc _ _ (by simp), portReg_of_svc _ _ (by simp)⟩
  | inband d f =>
    simp only [Chip.lostAt, Option.some.injEq, Prod.mk.injEq] at h
    obtain ⟨rfl, rfl, rfl, rfl⟩ := h
    have := c.groupNumber_le d f
    exact ⟨portReg_of_inb _ _ (.inr (.inr ⟨by omega, by omega⟩)), portReg_of_inb _ _ (by simp), portReg_of_inb _ _ (by simp)⟩
  | test => simp [Chip.lostAt] at h
  | steward d => simp [Chip.lostAt] at h

theorem Chip.touches_queueRecord (c : Chip) (p : Port) (d code : Nat) (u : Bool) (bs : List Byte) (q : Nat → Prop) :
    c.touches (c.queueRecord p d code u bs).1 q := by
  unfold Chip.queueRecord
  simp only
  split <;> exact c.touches_setPort p _ q

theorem Chip.touches_queueAll (c : Chip) (ports : List Port) (d code : Nat) (u : Bool) (bs : List Byte) (q : Nat → Prop) :
    c.touches (c.queueAll ports d code u bs).1 q := by
  unfold Chip.queueAll
  suffices h : ∀ (l : List Port) (x : Chip × List Port), x.1.touches (l.foldl (fun (x : Chip × List Port) p =>
      if x.1.routed code p then
        let r := x.1.queueRecord p d code u bs
        (r.1, if r.2 then x.2 ++ [p] else x.2)
      else x) x).1 q from h ports (c, [])
  intro l
  induction l with
  | nil => intro x; exact Chip.touches_refl _ _
  | cons p l ih =>
    intro x
    refine Chip.touches_trans ?_ (ih _)
    dsimp only
    split
    · exact x.1.touches_queueRecord p d code u bs q
    · exact Chip.touches_refl _ _

theorem Chip.touches_noteRaised (c : Chip) (d p : Nat) (q : Nat → Prop) : c.touches (c.noteRaised d p) q := ⟨rfl, fun _ _ => rfl⟩

theorem Chip.touches_joinRecord (c : Chip) (d p bits : Nat) (q : Nat → Prop) : c.touches (c.joinRecord d p bits) q :=
  Chip.touches_foldl q _ _ c (fun c p _ => c.touches_setPort p _ q)

/-- A record changes nothing but the ports' queues, the note of which pages have raised one, and, where a port drops it, the
registers of that port (R128 to R130). -/
theorem Chip.touches_recordTo (fuel : Nat) (c : Chip) (ports : List Port) (d code : Nat) (u : Bool) (bs : List Byte) :
    c.touches (Chip.recordTo fuel c ports d code u bs) portReg := by
  induction fuel generalizing c ports d code u bs with
  | zero => exact Chip.touches_refl _ _
  | succ fuel ih =>
    unfold Chip.recordTo
    refine Chip.touches_trans (c.touches_queueAll ports d code u bs portReg) (Chip.touches_foldl _ _ _ _ (fun c p _ => ?_))
    split
    · rename_i e page b cnt hl
      obtain ⟨h1, h2, h3⟩ := c.lostAt_portReg p e page b cnt hl
      have h := Chip.touches_trans (Chip.touches_mono (c.touches_count e page cnt) (q := portReg) (fun a h => h ▸ h1))
        (Chip.touches_mono ((c.count e page cnt).touches_setEvents e page [b]) (q := portReg)
          (fun a h => h.elim (fun h => h ▸ h2) (fun h => h ▸ h3)))
      dsimp only
      split
      · exact h
      · split
        · exact Chip.touches_trans h (Chip.touches_joinRecord _ _ _ _ _)
        · exact Chip.touches_trans (Chip.touches_trans h (Chip.touches_noteRaised _ _ _ _)) (ih _ _ _ _ _ _)
    · exact Chip.touches_refl _ _

theorem Chip.touches_record (c : Chip) (d code : Nat) (u : Bool) (bs : List Byte) : c.touches (c.record d code u bs) portReg := by
  unfold Chip.record; exact Chip.touches_recordTo 80 c _ d code u bs

/-- Setting PAGE_EVENT bits of a page changes its PAGE_EVENT and PAGE_EVENT_LOST, the ports' queues, and the registers of a port
that drops the record. -/
theorem Chip.touches_events (c : Chip) (d p : Nat) (sets : List Nat) : c.touches (c.events d p sets) (eventReg d p) := by
  have h := Chip.touches_mono (c.touches_setEvents d p sets) (q := eventReg d p) (fun a h => by
    rcases h with h | h
    · exact .inl h
    · exact .inr (.inl h))
  unfold Chip.events
  simp only
  split
  · exact h
  · split
    · exact Chip.touches_trans h (Chip.touches_joinRecord _ _ _ _ _)
    · exact Chip.touches_trans (Chip.touches_trans h (Chip.touches_noteRaised _ _ _ _))
        (Chip.touches_mono (Chip.touches_record _ d 0x02 false _) (fun a h => .inr (.inr h)))

theorem Chip.touches_event (c : Chip) (d p b : Nat) : c.touches (c.event d p b) (eventReg d p) := c.touches_events d p [b]

theorem Chip.touches_eventIf (c : Chip) (h : Bool) (d p b : Nat) : c.touches (c.eventIf h d p b) (eventReg d p) := by
  unfold Chip.eventIf; split
  · exact c.touches_event d p b
  · exact Chip.touches_refl _ _

theorem Chip.touches_noteReady (old c : Chip) (d : Nat) : c.touches (Chip.noteReady old c d) (eventReg d SYS) := c.touches_events d SYS _

theorem Chip.touches_setReady (c : Chip) (d p : Nat) (b : Bool) :
    c.touches (c.setReady d p b) (fun a => a = ra d p PAGE_STATUS ∨ eventReg d SYS a) :=
  Chip.touches_trans (Chip.touches_mono (c.touches_put d p PAGE_STATUS 0 0 _) (fun _ h => .inl h))
    (Chip.touches_mono (Chip.touches_noteReady c _ d) (fun _ h => .inr h))

/-! What `touches` says of a field, and of a register outside its set. -/

theorem Chip.touches_member {c c' : Chip} {p : Nat → Prop} (h : c.touches c' p) : c'.member = c.member := by rw [h.1]
theorem Chip.touches_inflight {c c' : Chip} {p : Nat → Prop} (h : c.touches c' p) : c'.inflight = c.inflight := by rw [h.1]
theorem Chip.touches_dies {c c' : Chip} {p : Nat → Prop} (h : c.touches c' p) : c'.dies = c.dies := by rw [h.1]
theorem Chip.touches_outs {c c' : Chip} {p : Nat → Prop} (h : c.touches c' p) : c'.outs = c.outs := by rw [h.1]
theorem Chip.touches_now {c c' : Chip} {p : Nat → Prop} (h : c.touches c' p) : c'.now = c.now := by rw [h.1]
theorem Chip.touches_reg {c c' : Chip} {q : Nat → Prop} (h : c.touches c' q) (d p o : Nat) (hq : ¬q (ra d p o)) :
    c'.reg d p o = c.reg d p o := Chip.reg_congr (Chip.touches_member h) d p o (h.2 _ hq)

/-! ### Wanting a basket (R386) -/

/-- The CONFLICT counters of a die. -/
def conflictReg (d a : Nat) : Prop := ∃ m, a = ra d BASKET (BASKET.CONFLICT + 4 * m)

/-- A master that wants a basket changes the CONFLICT counters and the note of who wants it in this cycle, and nothing else. -/
theorem Chip.wantBasket_touches (c : Chip) (m d b : Nat) :
    ∃ c' w, c.touches c' (conflictReg d) ∧ c.wantBasket m d b = { c' with baskets := w } := by
  unfold Chip.wantBasket
  simp only
  generalize (if (KMap.getD c.baskets (d * 32 + b) { at_ := 0, masters := [] }).at_ = c.now then _ else _) = there
  split
  · exact ⟨c, c.baskets, c.touches_refl _, rfl⟩
  · exact ⟨_, _, Chip.touches_trans (Chip.touches_mono (c.touches_countBy _ _ _ _) fun a h => ⟨m, h⟩)
      (Chip.touches_foldl _ _ _ _ fun c x _ => Chip.touches_mono (c.touches_count _ _ _) fun a h => ⟨x, h⟩), rfl⟩

theorem Chip.wantBasket_inflight (c : Chip) (m d b : Nat) : (c.wantBasket m d b).inflight = c.inflight := by
  obtain ⟨c', w, h, e⟩ := c.wantBasket_touches m d b
  rw [e]; show c'.inflight = _; exact Chip.touches_inflight h

theorem Chip.wantBasket_dies (c : Chip) (m d b : Nat) : (c.wantBasket m d b).dies = c.dies := by
  obtain ⟨c', w, h, e⟩ := c.wantBasket_touches m d b
  rw [e]; show c'.dies = _; exact Chip.touches_dies h

theorem Chip.wantBasket_reg (c : Chip) (m d b e p o : Nat) (h : ¬conflictReg d (ra e p o)) : (c.wantBasket m d b).reg e p o = c.reg e p o := by
  obtain ⟨c', w, ht, hc⟩ := c.wantBasket_touches m d b
  rw [hc]; show c'.reg e p o = _; exact Chip.touches_reg ht e p o h

/-! ### Completing commands -/

/-- A completion changes no register: the command leaves those in flight, or stays there with nothing left to do, and its port's
queue may grow. -/
theorem Chip.finish_regs (c : Chip) (r : Req) (st dt : Nat) (bs : List Byte) : (c.finish r st dt bs).regs = c.regs := by
  unfold Chip.finish Chip.reply
  split
  · simp only; split
    · rfl
    · exact (Chip.foldl_regs _ _ _)
  · rfl
where
  Chip.foldl_regs (p : Port) (l : List Msg) (c : Chip) : (l.foldl (fun c m => c.send p m) c).regs = c.regs := by
    induction l generalizing c with
    | nil => rfl
    | cons m l ih => exact (ih _).trans rfl

end Sys2Proof.Machine
end

