-- ==== Sys2Proof/Laws/Memory.lean ====
section
/-! SUPPORT. The byte memories: what is read after a write, and that every operation on them keeps their canonical form. -/

namespace Sys2Proof.Machine

/-! ### Reading after writing -/

@[simp] theorem Mem.word_setWord (m : Mem) (a : Nat) (w : Word) (b : Nat) :
    (m.setWord a w).word b = if b = a then w else m.word b := by simp [Mem.word, Mem.setWord]

@[simp] theorem Mem.slot_setSlot (m : Mem) (d n : Nat) (bs : List Byte) (e k : Nat) :
    (m.setSlot d n bs).slot e k = if slotKey e k = slotKey d n then bs else m.slot e k := by simp [Mem.slot, Mem.setSlot]

@[simp] theorem Mem.flashByte_setFlash (m : Mem) (fresh a : Nat) (b : Byte) (x : Nat) :
    (m.setFlash a b).flashByte fresh x = if x = a then b else m.flashByte fresh x := by
  unfold Mem.flashByte Mem.setFlash
  by_cases h : x = a
  · subst h; simp
  · simp [h]

@[simp] theorem Mem.setWord_flash (m : Mem) (a : Nat) (w : Word) : (m.setWord a w).flash = m.flash := rfl
@[simp] theorem Mem.setWord_flashOpen (m : Mem) (a : Nat) (w : Word) : (m.setWord a w).flashOpen = m.flashOpen := rfl
@[simp] theorem Mem.setWord_dram (m : Mem) (a : Nat) (w : Word) : (m.setWord a w).dram = m.dram := rfl
@[simp] theorem Mem.setSlot_flash (m : Mem) (d n : Nat) (bs : List Byte) : (m.setSlot d n bs).flash = m.flash := rfl
@[simp] theorem Mem.setSlot_flashOpen (m : Mem) (d n : Nat) (bs : List Byte) : (m.setSlot d n bs).flashOpen = m.flashOpen := rfl
@[simp] theorem Mem.setSlot_baskets (m : Mem) (d n : Nat) (bs : List Byte) : (m.setSlot d n bs).baskets = m.baskets := rfl
@[simp] theorem Mem.setFlash_baskets (m : Mem) (a : Nat) (b : Byte) : (m.setFlash a b).baskets = m.baskets := rfl
@[simp] theorem Mem.setFlash_dram (m : Mem) (a : Nat) (b : Byte) : (m.setFlash a b).dram = m.dram := rfl
@[simp] theorem Mem.dropSlots_flash (m : Mem) (d : Nat) (p : Nat → Bool) : (m.dropSlots d p).flash = m.flash := rfl
@[simp] theorem Mem.dropSlots_flashOpen (m : Mem) (d : Nat) (p : Nat → Bool) : (m.dropSlots d p).flashOpen = m.flashOpen := rfl
@[simp] theorem Mem.dropSlots_baskets (m : Mem) (d : Nat) (p : Nat → Bool) : (m.dropSlots d p).baskets = m.baskets := rfl

/-! ### The canonical form -/

theorem Mem.wf_iff (m : Mem) : m.wf = true ↔
    KMap.wf (fun _ => (0xFF : Byte)) m.flash = true ∧ KMap.wf (fun _ => (0 : Word)) m.baskets = true ∧
      KMap.wf (fun _ => ([] : List Byte)) m.dram = true := by
  simp [Mem.wf, Bool.and_eq_true, and_assoc]

theorem Mem.wf_reset : Mem.reset.wf = true := rfl

theorem Mem.wf_setFlash (m : Mem) (a : Nat) (b : Byte) (h : m.wf = true) : (m.setFlash a b).wf = true := by
  rw [Mem.wf_iff] at *; exact ⟨KMap.wf_put _ _ _ _ h.1, h.2⟩

theorem Mem.wf_setWord (m : Mem) (a : Nat) (w : Word) (h : m.wf = true) : (m.setWord a w).wf = true := by
  rw [Mem.wf_iff] at *; exact ⟨h.1, KMap.wf_put _ _ _ _ h.2.1, h.2.2⟩

theorem Mem.wf_setSlot (m : Mem) (d n : Nat) (bs : List Byte) (h : m.wf = true) : (m.setSlot d n bs).wf = true := by
  rw [Mem.wf_iff] at *; exact ⟨h.1, h.2.1, KMap.wf_put _ _ _ _ h.2.2⟩

theorem Mem.wf_storeHamper (m : Mem) (d n : Nat) (bs : List Byte) (h : m.wf = true) : (m.storeHamper d n bs).wf = true :=
  m.wf_setSlot d n _ h

theorem Mem.wf_dropSlots (m : Mem) (d : Nat) (p : Nat → Bool) (h : m.wf = true) : (m.dropSlots d p).wf = true := by
  rw [Mem.wf_iff] at *; exact ⟨h.1, h.2.1, KMap.wf_filter _ _ _ h.2.2⟩

theorem Mem.wf_setBasketBytes (m : Mem) (a : Nat) (bs : List Byte) (h : m.wf = true) : (m.setBasketBytes a bs).wf = true := by
  fun_induction Mem.setBasketBytes m a bs with
  | case1 => exact h
  | case2 m a x y z w rest ih => exact ih (m.wf_setWord _ _ h)
  | case3 => exact Mem.wf_setWord _ _ _ h

theorem Mem.wf_eraseSector (m : Mem) (a : Nat) (h : m.wf = true) : (m.eraseSector a).wf = true := by
  rw [Mem.wf_iff] at *; exact ⟨KMap.wf_filter _ _ _ h.1, h.2⟩

theorem Mem.wf_spoilFlash (m : Mem) (a n : Nat) (h : m.wf = true) : (m.spoilFlash a n).wf = true := by
  rw [Mem.wf_iff] at *; exact h

theorem Mem.wf_programByte (m : Mem) (a : Nat) (b : Byte) (h : m.wf = true) : (m.programByte a b).wf = true := by
  unfold Mem.programByte
  split
  · exact h
  · split
    · exact m.wf_setFlash a b h
    · rw [Mem.wf_iff] at *; exact h

theorem Mem.wf_programBytes (m : Mem) (a : Nat) (bs : List Byte) (h : m.wf = true) : (m.programBytes a bs).wf = true := by
  induction bs generalizing m a with
  | nil => exact h
  | cons b bs ih => exact ih _ _ (m.wf_programByte a b h)

/-- Losing the baskets of a set of addresses, and the whole frame memory. -/
theorem Mem.wf_lose (m : Mem) (p : Nat × Word → Bool) (h : m.wf = true) :
    Mem.wf { m with baskets := m.baskets.filter p, dram := [] } = true := by
  rw [Mem.wf_iff] at *; exact ⟨h.1, KMap.wf_filter _ _ _ h.2.1, rfl⟩

/-! ### The state's operations -/

theorem State.wf_setWord (s : State) (a : Nat) (w : Word) (h : s.mem.wf = true) : (s.setWord a w).mem.wf = true :=
  s.mem.wf_setWord a w h

theorem State.wf_setBytes (s : State) (a : Nat) (bs : List Byte) (h : s.mem.wf = true) : (s.setBytes a bs).mem.wf = true :=
  s.mem.wf_setBasketBytes a bs h

theorem State.wf_each {α : Type} (s : State) (l : List α) (f : State → α → State)
    (hf : ∀ (s : State) (x : α), s.mem.wf = true → (f s x).mem.wf = true) (h : s.mem.wf = true) : (s.each l f).mem.wf = true := by
  unfold State.each
  induction l generalizing s with
  | nil => exact h
  | cons x l ih => exact ih _ (hf s x h)

theorem State.wf_when (s : State) (b : Bool) (f : State → State) (hf : (f s).mem.wf = true) (h : s.mem.wf = true) :
    (s.when b f).mem.wf = true := by
  unfold State.when; split
  · exact hf
  · exact h

theorem State.wf_log (s : State) (d type page code arg : Nat) (h : s.mem.wf = true) : (s.log d type page code arg).mem.wf = true := by
  unfold State.log; exact s.wf_setBytes _ _ h

theorem State.wf_latch (s : State) (d p code : Nat) (h : s.mem.wf = true) : (s.latch d p code).mem.wf = true := by
  unfold State.latch; split
  · exact h
  · exact State.wf_log _ _ _ _ _ _ h

theorem State.wf_fatal (s : State) (d code : Nat) (h : s.mem.wf = true) : (s.fatal d code).mem.wf = true := by
  unfold State.fatal; exact s.wf_latch _ _ _ h

theorem State.wf_changeMode (s : State) (o old new cause first : Nat) (h : s.mem.wf = true) :
    (s.changeMode o old new cause first).mem.wf = true := by
  unfold State.changeMode; exact State.wf_log _ _ _ _ _ _ h

end Sys2Proof.Machine
end

