-- ==== Sys2Proof/Tests/Slice0.lean ====
section
/-! SUPPORT. Tests of the model, each one step on a small state: ill-formed commands that the checks refuse, worked values of the
manual, and for every statement about states with hypotheses a witness that meets them together. Expected values come from
the rules named. -/

namespace Sys2Proof

open Machine

set_option Elab.async false

/-! ### Small states -/

/-- Registers set one by one: die, page, offset, word. -/
def withRegs (c : Chip) (l : List (Nat × Nat × Nat × Nat)) : Chip := l.foldl (fun c x => c.setNum x.1 x.2.1 x.2.2.1 x.2.2.2) c

/-- A running PN9802 whose stewards are READY, with more registers set. -/
def runs (l : List (Nat × Nat × Nat × Nat)) : Chip :=
  withRegs { Chip.reset with member := .pn9802, power := .running, porN := true, now := 5000000000 }
    ([(0, STEWARD, PAGE_STATUS, 1), (1, STEWARD, PAGE_STATUS, 1)] ++ l)

def at_ (c : Chip) : State := { State.reset with chip := c }

/-- The state after a step; the reset state when the step stops. -/
def after (i : Instr) (s : State) : State := match exec i s with | .next t => t | _ => State.reset

/-- A command is admitted, as a test that runs. -/
def admitted (c : Chip) (h : Hdr) (cmd : Cmd) : Bool := decide (c.admits h cmd)

/-- And a write of one register of the header's die. -/
def writable (c : Chip) (h : Hdr) (p o : Nat) (w : Word) : Bool := decide ((at_ c).mayWrite h p o w)

def svc : Hdr := { port := .service, tag := 7, die := 0, limit := 0 }

/-! ### WellFormed -/

/-- One ill-formed term for each check. -/
theorem test_ill_formed_is_refused :
    (Instr.regRead { svc with die := 256 } 0#32 1).wf = false ∧ (Instr.regRead { svc with limit := 65536 } 0#32 1).wf = false ∧
    (Instr.wake { svc with port := .steward 8 }).wf = false ∧ (Instr.wake { svc with port := .inband 0 8 }).wf = false ∧
    (Instr.regRead svc 0#32 256).wf = false ∧ (Instr.regWrite svc 0#32 (List.replicate 14 0#32)).wf = false ∧
    (Instr.bcastRegWrite svc 0x1000000 []).wf = false ∧ (Instr.bcastRegRead svc 0x1000000 1).wf = false ∧
    (Instr.bcastApply [8]).wf = false ∧ (Instr.stewardDirectLoad 8 0#32 ⟨4, .none⟩).wf = false ∧
    (Instr.pageCommitCommit svc 0x1000).wf = false ∧ (Instr.pageEventClear svc 0 0#32 [32]).wf = false ∧
    (Instr.abort svc 256 0).wf = false ∧ (Instr.outputMode svc 256 0 0 0).wf = false ∧ (Instr.outputMode svc 0 0 0 256).wf = false ∧
    (Instr.safeExit svc 0 256).wf = false ∧ (Instr.timingSet svc 256 0).wf = false ∧ (Instr.liveSource svc 0 65536).wf = false ∧
    (Instr.layerCommit svc 256 0#32).wf = false ∧ (Instr.layoutArmed 8).wf = false ∧ (Instr.tableLoad svc 256 0 0 0#32 0).wf = false ∧
    (Instr.laneTrain svc 65536 0).wf = false ∧ (Instr.lanePower svc 0 256).wf = false ∧ (Instr.laneLoop svc 0 256).wf = false ∧
    (Instr.dramConfig svc (List.replicate 57 0#8)).wf = false ∧ (Instr.dramFreq svc 256 0).wf = false ∧
    (Instr.rankSpare svc 0 256).wf = false ∧ (Instr.calRun svc (List.replicate 57 0#8)).wf = false ∧
    (Instr.ageScan svc (List.replicate 57 0#8)).wf = false ∧ (Instr.marginScan svc (List.replicate 57 0#8)).wf = false ∧
    (Instr.flashRead svc 0#32 256).wf = false ∧ (Instr.flashWrite svc 0#32 (List.replicate 53 0#8)).wf = false ∧
    (Instr.fwActivate svc 256 0#32 0).wf = false ∧ (Instr.signatureRead svc 256 0).wf = false ∧ (Instr.logRead svc 0#32 256).wf = false ∧
    (Instr.attest svc (List.replicate 57 0#8)).wf = false ∧ (Instr.commandTimeLimit (.inband 8 0) 0#8).wf = false ∧
    (Instr.msgIoUpdate (List.replicate 65 0#8)).wf = false ∧ (Instr.stewardDirectLoad 0 0#32 ⟨3, .none⟩).wf = false ∧
    (Instr.stewardDirectStore 0 0#32 ⟨0, 0#32⟩).wf = false := by decide

theorem test_ill_formed_event_is_refused :
    (Instr.calRunDone 0 ⟨[], 0, 0, 0, []⟩).wf = false ∧ (Instr.rankScanDone 0 2 0 (List.replicate 8 ⟨none, none⟩)).wf = false ∧
    (Instr.rankScanDone 0 0 3 (List.replicate 8 ⟨none, none⟩)).wf = false ∧ (Instr.aonReady (List.replicate 9 0)).wf = false ∧
    (Instr.brownOut 8 .vddAon).wf = false ∧ (Instr.pllLoss 8 .core).wf = false ∧ (Instr.frameBoundary 8).wf = false ∧
    (Instr.linkDown 8).wf = false ∧ (Instr.pixelPacketRx 0 0 [] []).wf = false ∧
    (Instr.sourceFrmRx 0 0 [⟨8, false, []⟩]).wf = false ∧ (Instr.freezeDigest 4096).wf = false ∧
    (Instr.scpMessageRx 0 8 0 [] symEND []).wf = false ∧ (Instr.skpOrderedSetRx 0 0 [⟨0, false, []⟩] []).wf = false ∧
    (Instr.tsOrderedSetRx 0 24 ⟨false, List.replicate 16 0#10⟩).wf = false ∧ (Instr.tsOrderedSetRx 0 0 ⟨false, []⟩).wf = false ∧
    (Instr.fomMeasured 0 0 256 0 0 (List.replicate 8 0)).wf = false ∧ (Instr.fomMeasured 0 0 0 0 0 []).wf = false ∧ (Instr.statusFrameRx 0 16 0 true 0 false 0 0 0).wf = false ∧
    (Instr.tempFrameRx 0 0 0 2048).wf = false ∧ (Instr.helloFrameRx 0 0 8 0).wf = false ∧ (Instr.tileFetchDone 0 4096 0 0).wf = false ∧
    (Instr.refreshDue 0 0 3).wf = false ∧ (Instr.mr4Poll 0 0 [0, 0, 0, 0]).wf = false ∧ (Instr.vddqLoss 0 2).wf = false ∧
    (Instr.ramblerAbort 0 [16]).wf = false ∧ (Instr.basketOwnerWrite svc 4 0#32).wf = false ∧ (Instr.thermalSample 0 []).wf = false ∧
    (Instr.tsDeselect 0 8).wf = false ∧ (Instr.codeClear svc 4096).wf = false ∧
    (Instr.ageScanDone 0 [⟨[], [], []⟩]).wf = false := by decide

/-- And well-formed ones that they let through. -/
theorem test_well_formed : (Instr.wake svc).wf = true ∧ (Instr.regWrite svc 0#32 [1#32]).wf = true ∧ (Instr.frameBoundary 7).wf = true ∧
    (Instr.tsOrderedSetRx 7 23 ⟨false, List.replicate 16 0#10⟩).wf = true := by decide

/-! ### Witnesses: arrival, admission and completion -/

theorem witness_step : State.reset.pending = [] ∧ exec .statusRead State.reset = .next State.reset := ⟨rfl, rfl⟩

theorem witness_memory_canonical :
    let s : State := { State.reset with mem := { Mem.reset with baskets := [(0x800000, 5#32)] }, pending := [.statusRead] }
    s.mem.wf = true ∧ step s = .next { s with pending := [] } ∧ touchesFlash .statusRead = false := ⟨rfl, rfl, rfl⟩

theorem witness_admitted : (Instr.regRead svc 0x40#32 1).asCommand = some (svc, .regRead 0x40#32 1) ∧
    (runs []).admits svc (.regRead 0x40#32 1) ∧ (runs []).admits svc (.laneTrain 23 4) := by decide +kernel

theorem witness_discarded :
    let c := (runs []).setPort .service { tags := [7] }
    let full := (runs []).setPort .service { tags := (List.range 64).map fun i => BitVec.ofNat 8 (i + 8) }
    c.power = .running ∧ portDie svc.port < dieCount c.member ∧ c.hears svc.port = true ∧
    (c.port svc.port).tags.length < portCredits svc.port ∧ svc.tag ∈ (c.port svc.port).tags ∧
    portCredits svc.port ≤ (full.port svc.port).tags.length ∧ full.hears svc.port = true := by decide +kernel

theorem witness_refused_on_arrival :
    let c := runs []
    let asleep : Chip := { runs [(0, AON, PAGE_STATUS, 1)] with power := .standby }
    asleep.hears svc.port = true ∧ arrivalStatus asleep (Hdr.message svc (.rankSpare 0 0)) = OK ∧
    asleep.asleepStatus (Hdr.message svc (.rankSpare 0 0)) = STATE ∧ c.hears svc.port = true ∧ (c.port svc.port).tags.length < portCredits svc.port ∧ svc.tag ∉ (c.port svc.port).tags ∧
    arrivalStatus c (Hdr.message svc (.regRead 0#32 15)) = ARG ∧
    arrivalStatus c (Hdr.message { svc with port := .test } .wake) = AUTH := by decide +kernel

theorem witness_refused_at_target :
    (runs []).hearsCommand (Hdr.message svc (.rankSpare 0 0)) (.rankSpare 0 0) ∧
    ((at_ (withRegs (runs []) [(0, STEWARD, PAGE_STATUS, 0)])).starts svc (.rankSpare 0 0)).chip.targetStatus
      ((at_ (withRegs (runs []) [(0, STEWARD, PAGE_STATUS, 0)])).req svc (.rankSpare 0 0)) = BUSY := by decide +kernel

theorem witness_refused_write :
    (runs []).admits svc (.regWrite (regWord 0 CAL CAL.TS_TRIM) [0x7F#32]) ∧ (regWord 0 CAL CAL.TS_TRIM).toNat % 0x1000000 / 0x1000 ≠ TGEN ∧
    ((at_ (runs [])).starts svc (.regWrite (regWord 0 CAL CAL.TS_TRIM) [0x7F#32])).chip.writesStatus svc.port svc.die (CAL * 0x1000 + CAL.TS_TRIM) [0x7F#32] ≠ OK := by decide +kernel

theorem witness_write_classes : (runs []).portClass .test < SERVICE ∧ pageKind COMP = some .comp ∧
    (runs []).portClass .test < pageAuth .comp ∧ (runs []).portClass (.inband 0 0) < SERVICE := by decide +kernel

theorem witness_completion_frame : (runs []).answers (portDie Port.service) 0 = true := by decide +kernel

theorem witness_event_bits :
    let c := runs [(0, CAL, PAGE_EVENT, 1), (0, CAL, PAGE_EVENT_EN, 6)]
    (c.num 0 CAL PAGE_EVENT).testBit 0 = true ∧ (c.num 0 CAL PAGE_EVENT).testBit 31 = false ∧ (c.num 0 CAL PAGE_EVENT_EN).testBit 31 = false ∧
    (c.num 0 CAL PAGE_EVENT).testBit 1 = false ∧ (c.num 0 CAL PAGE_EVENT).testBit 2 = false ∧
    (c.num 0 CAL PAGE_EVENT_EN).testBit 1 = true ∧ (c.num 0 CAL PAGE_EVENT_EN).testBit 2 = true ∧ c.raisedNow 0 CAL = false ∧
    (c.noteRaised 0 CAL).raisedNow 0 CAL = true := by decide +kernel

theorem witness_record_queue :
    let m : Msg := { event := true, opcode := 2, tag := 0, urgent := false, more := false, die := 0, status := 0, aux := 0, payload := [] }
    let c := (runs []).setPort .service { out := List.replicate 64 m }
    64 ≤ ((c.port .service).out.filter (fun m => m.event)).length ∧ (((runs []).port .service).out.filter (fun m => m.event)).length < 64 := by
  decide +kernel

/-! ### Witnesses: registers, pages and baskets -/

theorem witness_reg_read : (0x060 : Nat) < 0x111 ∧ freeReg CAL PAGE_EVENT = false ∧ rcMask CAL PAGE_EVENT = 0 ∧
    (runs []).admits svc (.regRead (regWord 0 CAL PAGE_EVENT) 1) ∧ freeReg SCAN SCAN.TOL_MIN = false ∧ rcMask SCAN SCAN.TOL_MIN ≠ 0 ∧
    (runs []).admits svc (.regRead (regWord 0 SCAN SCAN.TOL_MIN) 1) := by decide +kernel

/-- Fourteen words from the last register of CAL's header on, and two basket words beside an uncorrectable one. -/
theorem witness_read_of_words :
    let c : Chip := { runs [] with badWords := [0x800008] }
    c.admits svc (.regRead (regWord 0 CAL PAGE_EVENT) 14) ∧ c.admits svc (.regRead 0x800000#32 2) ∧
    (∀ x ∈ wordAddrs (CAL * 0x1000 + PAGE_EVENT) 14, ∀ b, place 0 x ∈ [.word b, .setAlias b, .clearAlias b] → b ∉ c.badWords) ∧
    (∀ x ∈ wordAddrs 0x800000 2, ∀ b, place 0 x ∈ [.word b, .setAlias b, .clearAlias b] → b ∉ c.badWords) := by
  refine ⟨by decide +kernel, by decide +kernel, ?_, ?_⟩
  · intro x hx b hb
    have : ∀ y ∈ wordAddrs (CAL * 0x1000 + PAGE_EVENT) 14, ∃ p o, place 0 y = .reg p o := by
      intro y hy
      simp only [wordAddrs, List.mem_map, List.mem_range] at hy
      obtain ⟨k, hk, rfl⟩ := hy
      have hp : (CAL * 0x1000 + PAGE_EVENT + 4 * k) / 0x1000 = CAL := by simp only [CAL, PAGE_EVENT]; omega
      exact ⟨_, _, by unfold place; rw [if_pos (by simp only [CAL, PAGE_EVENT]; omega), hp, if_pos (by decide)]⟩
    obtain ⟨p, o, h⟩ := this x hx
    simp [h] at hb
  · have h : wordAddrs 0x800000 2 = [0x800000, 0x800004] := by decide
    intro x hx b hb hm
    rw [h] at hx
    rw [List.mem_singleton.mp hm] at hb
    simp only [List.mem_cons, List.not_mem_nil, or_false] at hx
    rcases hx with rfl | rfl <;> revert hb <;> decide

/-- The test port's write of this cycle comes later than the service port's; a read by the service port returns the value before. -/
theorem witness_accesses_of_one_cycle :
    let c : Chip := { runs [(0, CAL, PAGE_EVENT_EN, 7)] with
      wroteAt := 5000000000, wrote := [{ port := .test, addr := ra 0 CAL PAGE_EVENT_EN, before := 3#32 }] }
    (at_ c).passes svc CAL PAGE_EVENT_EN 1#32 ∧ c.outdone .service 0 CAL PAGE_EVENT_EN ∧
    c.admits svc (.regRead (regWord 0 CAL PAGE_EVENT_EN) 1) ∧
    (c.cycleWrites 0 CAL PAGE_EVENT_EN).getLast?.map (fun v => v.before) = some 3#32 ∧
    ∀ x ∈ c.cycleWrites 0 CAL PAGE_EVENT_EN, x.port ≠ svc.port := by decide +kernel

theorem witness_reg_write : hasHeader 0 CAL .cal ∧ (at_ (runs [])).mayWrite svc CAL PAGE_EVENT_EN 7#32 ∧
    (at_ (runs [])).mayWrite svc CAL (CAL.TS_TRIM + 4 * 1) 1#32 ∧
    let c := withRegs (runs []) [(0, BASKET, BASKET.OWNER, 0x55555566)]
    c.admits svc (.regWrite 0x880000#32 [9#32]) ∧
    ((at_ c).starts svc (.regWrite 0x880000#32 [9#32])).chip.writesStatus .service 0 0x880000 [9#32] = OK := by decide +kernel

theorem witness_alias_writes :
    let c := withRegs (runs []) [(0, BASKET, BASKET.OWNER, 0x55555566)]
    let bad : Chip := { c with badWords := [0x880000] }
    c.admits svc (.regWrite 0x480000#32 [9#32]) ∧ c.admits svc (.regWrite 0x680000#32 [9#32]) ∧ bad.admits svc (.regWrite 0x480000#32 [9#32]) ∧
    ((at_ c).starts svc (.regWrite 0x480000#32 [9#32])).chip.writesStatus .service 0 0x480000 [9#32] = OK ∧
    ((at_ c).starts svc (.regWrite 0x680000#32 [9#32])).chip.writesStatus .service 0 0x680000 [9#32] = OK ∧
    0x480000 + 0x400000 ∈ bad.badWords ∧ 0x680000 + 0x200000 ∈ bad.badWords := by decide +kernel

theorem witness_page_commit : hasHeader 0 CAL .cal ∧ plainCommit .cal ∧ plainAbort .cal ∧
    (at_ (runs [])).mayWrite svc CAL PAGE_COMMIT 1#32 ∧ (runs []).stagedChange 0 CAL = false ∧
    (at_ (runs [])).mayWrite svc CAL PAGE_COMMIT 2#32 ∧
    (at_ ((runs []).stage 0 CAL CAL.TS_TRIM 1#32)).mayWrite svc CAL PAGE_COMMIT 1#32 ∧
    ((runs []).stage 0 CAL CAL.TS_TRIM 1#32).stagedChange 0 CAL = true := by decide +kernel

theorem witness_step_point : (0 : Nat) < dieCount (runs []).member ∧
    (((runs []).stage 0 CAL CAL.TS_TRIM 1#32).setCommit 0 CAL).committing 0 CAL = true := by decide +kernel

theorem witness_page_events :
    let s := at_ (runs [(0, CAL, PAGE_EVENT, 1)])
    hasHeader 0 CAL .cal ∧ s.mayWrite svc CAL PAGE_EVENT_FORCE 7#32 ∧ s.mayWrite svc CAL PAGE_EVENT 1#32 ∧ s.chip.dieRuns 0 = true ∧
    bit (s.chip.reg 0 CAL PAGE_EVENT) 0 = true ∧ bit 1#32 0 = true := by decide +kernel

theorem witness_broadcast :
    let s := at_ (runs [])
    let x := CAL * 0x1000 + PAGE_EVENT_EN
    let cmd := Cmd.regWrite (BitVec.ofNat 32 (0x08000000 + x)) [7#32]
    let b : Bcast := { req := s.req svc cmd, offset := x, words := [7#32], checked := 4999999488 }
    let t := at_ { runs [] with bcast := some b }
    s.chip.admits svc cmd ∧ (∀ d < dieCount s.chip.member, (s.starts svc cmd).chip.writesStatus svc.port d x [7#32] = OK) ∧
    (∀ d < dieCount t.chip.member, t.chip.answers 0 d = true) ∧ t.chip.waiting = [] ∧ b.checked + 512 ≤ t.chip.now ∧
    (∀ d < dieCount t.chip.member, ¬t.chip.outdone b.req.port d CAL PAGE_EVENT_EN) := by decide +kernel

theorem witness_broadcast_read :
    let cmd := Cmd.regRead (BitVec.ofNat 32 (0x08000000 + (CAL * 0x1000 + PAGE_EVENT_EN))) 1
    let rc := Cmd.regRead (BitVec.ofNat 32 (0x08000000 + (SCAN * 0x1000 + SCAN.TOL_MIN))) 1
    let same := runs []
    let other := runs [(1, CAL, PAGE_EVENT_EN, 7)]
    same.admits svc cmd ∧ other.admits svc cmd ∧ same.admits svc rc ∧ freeReg CAL PAGE_EVENT_EN = false ∧ rcMask CAL PAGE_EVENT_EN = 0 ∧
    rcMask SCAN SCAN.TOL_MIN ≠ 0 ∧ same.readsAs .service 1 CAL PAGE_EVENT_EN = same.readsAs .service 0 CAL PAGE_EVENT_EN ∧
    other.readsAs .service 1 CAL PAGE_EVENT_EN ≠ other.readsAs .service 0 CAL PAGE_EVENT_EN := by decide +kernel

theorem witness_direct_access :
    let c := (runs []).setDie 1 { steward := .running }
    c.stewardRuns 1 = true ∧ (pageKind CAL).isSome = true ∧ rcMask CAL PAGE_EVENT = 0 ∧ freeReg CAL PAGE_EVENT = false ∧
    (0x1880000#32).toNat / 0x1000000 = 1 ∧ c.writeStatus (.steward 1) true 1 0x880000 0#32 = OK ∧
    (0x880000#32).toNat / 0x1000000 ≠ 1 ∧ (2 : Nat) ≠ 4 := by decide +kernel

/-- The steward has the basket in this cycle, and the mailbox or another port comes later. -/
theorem witness_basket_conflict :
    let c : Chip := { runs [] with baskets := [(0 * 32 + 4, { at_ := 5000000000, masters := [0] })] }
    KMap.get? c.baskets (0 * 32 + 4) = some { at_ := c.now, masters := [0] } ∧ basketRank 0 < basketRank 5 := by decide +kernel

/-! ### Witnesses: lanes and the stream link -/

/-- A lane in a state and at a rate. -/
def laneIs (d l state rate : Nat) : Nat × Nat × Nat × Nat := (d, lanePage l, LANE.STATUS, state + rate * 65536)

theorem witness_lane_signal : isLane (at_ (runs [])) 1 23 ∧ ∀ st ∈ [laneLOCK, laneCONFIRM, laneSTEP, laneDOWN],
    (runs [laneIs 1 7 st 0]).lstate 1 7 ∈ [laneLOCK, laneCONFIRM, laneSTEP, laneDOWN] ∧ (runs [laneIs 1 23 st 0]).lstate 1 23 ≠ laneLOOP := by
  decide +kernel

theorem witness_lane_departs :
    let c := runs [laneIs 0 8 laneREADY 2, (0, DLINK, DLINK.CHAINS, 0x101)]
    (0 : Nat) < c.chainDrivers 0 ∧ c.lstate 0 (8 + 0) = laneREADY ∧ c.lrate 0 (8 + 0) < 3 ∧ (c.die 0).drv = none := by decide +kernel

theorem witness_lane_phases :
    let step := runs [laneIs 0 23 laneSTEP 3]
    let fail := (runs [laneIs 0 0 laneCONFIRM 1])
    let down := runs [laneIs 0 0 laneDOWN 0, (0, lanePage 0, LANE.RETRY, 10)]
    isLane (at_ step) 0 23 ∧ step.lstate 0 23 = laneSTEP ∧ step.sent16 0 23 = true ∧ step.lrate 0 23 < 4 ∧ fail.training 0 0 = true ∧
    ¬(fail.lstate 0 0 = laneLOCK ∧ fail.lrate 0 0 = 0) ∧ (fail.lane 0 0).failRate ≠ fail.lrate 0 0 ∧ down.lstate 0 0 = laneDOWN ∧
    down.lget 0 0 LANE.RETRY 15 0 ≠ 0 := by decide +kernel

/-- The 14 bytes of a TS_A, or TS_B, of the best partner that lane 0 can have. -/
def tsOf (kind : Byte) : List Byte :=
  let bs : List Byte := [kind, 31, 4, 0, 0xFF, 0xFF, 15, 0, 3, 0, 0, 0, 0]
  bs ++ [crc8 bs]

theorem witness_training_sets :
    let c := (runs [laneIs 0 0 laneLOCK 0, (0, SLINK, SLINK.GROUP_START, 0xFF)]).setLane 0 0 { rxCount := 6 }
    tsValid (tsOf 1) = true ∧ tsValid (tsOf 2) = true ∧ tsValid [] = false ∧ c.lstate 0 0 = laneLOCK ∧ c.lrate 0 0 = 0 ∧
    fieldAt (tsOf 1) 0 1 = 1 ∧ fieldAt (tsOf 2) 0 1 = 2 ∧ c.positionOk 0 0 (tsOf 1) = true ∧ (c.lane 0 0).rxCount < 7 := by decide +kernel

theorem witness_training_sets_sent :
    let step := runs [laneIs 0 23 laneSTEP 3]
    let down := runs [laneIs 1 0 laneDOWN 0]
    step.effCeiling 0 23 ≤ 4 ∧ step.lrate 0 23 ≤ 3 ∧ step.lstate 0 23 = laneSTEP ∧ step.training 0 23 = true ∧ down.effCeiling 1 0 ≤ 4 ∧
    down.lrate 1 0 ≤ 4 ∧ down.lstate 1 0 = laneDOWN := by decide +kernel

theorem witness_line_code : ∀ x ∈ [symCOM, symSKP, symIDL, symTS, symSTP, symSCP, symFRM, symLNM, symEND, symEDB, symPAD],
    symControl x = true ∧ isControl (symByte x) = true := by decide +kernel

theorem witness_fom : let c := runs [laneIs 0 7 laneREADY 3]
    isLane (at_ c) 0 7 ∧ c.lstate 0 7 = laneREADY ∧ 3 ≤ c.lrate 0 7 ∧ c.snapOf 0 7 = none ∧
    failOf (c.reg 0 (lanePage 7) LANE.FOM_LIMITS) ≤ 255 := by decide +kernel

theorem witness_lane_commands :
    let c := runs [laneIs 0 0 laneLOCK 0]
    admitted c svc (.laneTrain 0 4) = true ∧ c.lstate 0 (0 % 24) ≠ laneOFF ∧ admitted c svc (.lanePower 23 0) = true ∧ admitted c svc (.lanePower 0 1) = true ∧
    admitted c svc (.laneLoop 0 1) = true ∧ admitted c svc (.laneLoop 0 2) = true := by decide +kernel

theorem witness_holds_and_loops :
    let hold := runs [laneIs 0 7 laneREADY 3]
    let loop := (runs [laneIs 0 7 laneLOOP 0]).setLane 0 7 { check := { seen := List.replicate 31 true, good := 63 } }
    let locked := (runs [laneIs 0 7 laneLOOP 0, (0, lanePage 7, LANE.LOOP, 32)]).setLane 0 7 { check := { seen := List.replicate 31 true } }
    isLane (at_ hold) 0 7 ∧ 3 ≤ hold.lrate 0 7 ∧ hold.snapOf 0 7 = none ∧ loop.lstate 0 7 = laneLOOP ∧ (loop.lane 0 7).far ≠ 3 ∧
    loop.lget 0 7 LANE.LOOP 11 8 ≠ 3 ∧ (prbsTaps (loop.lget 0 7 LANE.LOOP 11 8)).1 ≤ (loop.lane 0 7).check.seen.length ∧
    loop.lget 0 7 LANE.LOOP 5 5 = 0 ∧ (loop.lane 0 7).check.good = 63 ∧ locked.lstate 0 7 = laneLOOP ∧ (locked.lane 0 7).far ≠ 3 ∧
    locked.lget 0 7 LANE.LOOP 11 8 ≠ 3 ∧ (prbsTaps (locked.lget 0 7 LANE.LOOP 11 8)).1 ≤ (locked.lane 0 7).check.seen.length ∧
    locked.lget 0 7 LANE.LOOP 5 5 = 1 := by decide +kernel

/-- A PN9802 whose die 0 has one READY group of eight lanes, and whose output 0 shows stream 5. -/
def streams : Chip :=
  let c := (runs ([(0, SLINK, SLINK.GROUP_START, 0), (0, SLINK, SLINK.GROUP_READY, 1), (0, SLINK, SLINK.GROUP_LMAP, 0x4FF),
    (0, PORT_INB, PORT_INB.GROUP_ENABLE, 1)] ++ (List.range 8).map fun l => laneIs 0 l laneREADY 4)).setOut 0 { live := some 5 }
  c.setRxMap 0 0 0xFF

/-- What the eight lanes of a group carry of a run of symbols, from negative disparity on. -/
def onLanes (syms : List Sym) : List LaneRx :=
  (stripe 0xFF syms).map fun p => { pos := p.1, plus := false, groups := encodeLane false p.2 }

/-- The symbols of a packet or marker after its first, and the PAD that ends its last row. -/
def tailOf (syms : List Sym) : List (Option Sym) := (rowSyms 0xFF ((stripe 0xFF syms).map fun p => (p.1, p.2.map some))).drop 1

/-- A packet of stream 5 with two 12-bit pixels: its header, its payload and the bytes of its CRC, right or not. -/
def pktHeader : List Byte := [5, 0, 0, 0, 0, 0, 2, 0, 3, 0, 0, 0, 0, 0, 0, 0]
def pktPayload : List Byte := List.replicate 9 0
def pktCrc (off : Nat) : List Byte := leBytes 4 ((crc32c (pktHeader ++ pktPayload)).toNat + off)
def packet (stop : Sym) (off : Nat) : List Sym := symSTP :: dataSyms (pktHeader ++ pktPayload ++ pktCrc off) ++ [stop]

theorem witness_pixel_packets :
    let good := onLanes (packet symEND 0)
    let bad := onLanes (packet symEND 1)
    hears (at_ streams) 0 0 0 good symSTP (tailOf (packet symEND 0)) ∧ hears (at_ streams) 0 0 0 bad symSTP (tailOf (packet symEND 1)) ∧
    streams.dieMode 0 ≠ SAFE ∧ (pktCheck (tailOf (packet symEND 0))).toOption.map (fun x => x.1.stream) = some 5 ∧
    (pktCheck (tailOf (packet symEND 1))).toOption = none ∧ streams.uses 5 = [.live 0] ∧ (streams.setOut 0 {}).uses 5 = [] ∧
    hears (at_ (streams.setOut 0 {})) 0 0 0 good symSTP (tailOf (packet symEND 0)) ∧ streams.mode 0 ≠ SAFE ∧
    (extendSeq 0 (streams.seqAgo 0 (streams.rowTime 0 0 good))).2 = true := by decide +kernel

theorem witness_packet_checks :
    let h := pktHead pktHeader
    let wide : List Byte := [5, 0, 0, 0, 0, 0, 0, 0, 3, 0, 0, 0, 0, 0, 0, 0]
    pktHeader.length = 16 ∧ (pktCrc 0).length = 4 ∧ formatBits h.format = some 36 ∧ h.count ≤ 1024 ∧ pktPayload.length = (h.count * 36 + 7) / 8 ∧
    (crc32c (pktHeader ++ pktPayload)).toNat ≠ leNat (pktCrc 1) ∧ (crc32c (pktHeader ++ pktPayload)).toNat = leNat (pktCrc 0) ∧
    h.bad = false ∧ h.count ≠ 0 ∧ h.x + h.count ≤ 32768 ∧ wide.length = 16 ∧ formatBits (pktHead wide).format = some 36 ∧
    (pktHead wide).count = 0 ∧ (crc32c wide).toNat = leNat (leBytes 4 (crc32c wide).toNat) := by decide +kernel

/-- A source FRM of stream 5, frame 0, with its CRC right or not. -/
def frmOf (off : Byte) : List Sym := symFRM :: dataSyms ([5, 0, 0] ++ [crc8 [5, 0, 0] + off])

theorem witness_source_frame :
    let c := streams.setOut 0 {}
    (∀ off ∈ [0#8, 1#8], hears (at_ c) 0 0 0 (onLanes (frmOf off)) symFRM (tailOf (frmOf off)) ∧ (takeData (tailOf (frmOf off))).1.length = 4) ∧
    c.dieMode 0 ≠ SAFE ∧ crc8 ((takeData (tailOf (frmOf 1))).1.take 3) ≠ (takeData (tailOf (frmOf 1))).1.getD 3 0 ∧
    crc8 ((takeData (tailOf (frmOf 0))).1.take 3) = (takeData (tailOf (frmOf 0))).1.getD 3 0 ∧
    fieldAt (takeData (tailOf (frmOf 0))).1 0 2 = 5 ∧ fieldAt (takeData (tailOf (frmOf 0))).1 2 1 = 0 := by decide +kernel

theorem witness_command_channel :
    let m : Msg := { event := true, opcode := 2, tag := 0, urgent := false, more := false, die := 0, status := 0, aux := 0, payload := [] }
    let c := streams.setPort (.inband 0 0) { out := [m], txBase := 1, rxExpect := 255 }
    let message := Msg.bytes m
    let heard := fun (kind cseq : Nat) (bs : List Byte) (stop : Sym) =>
      let l := scpSyms kind cseq bs stop
      hears (at_ c) 0 0 0 (c.arriving 0 0 l []) symSCP ((l.drop 1).map some ++ (tailOf l).drop (l.length - 1))
    heard 0 255 message symEND ∧ heard 0 255 message symEDB ∧ heard 1 1 [] symEND ∧ heard 2 0 [] symEND ∧
    255 = (c.port (.inband 0 0)).rxExpect ∧ 1 = (c.port (.inband 0 0)).txBase ∧ 1 ≤ (c.port (.inband 0 0)).sent ∧
    (0 + 1) % 256 = (c.port (.inband 0 0)).txBase ∧ c.firstReady 0 0 = true := by decide +kernel

/-- R157, R176: a code group that the way turns into none of the code counts on its lane, and the ACK that it was part of is a symbol
error; a nullified message counts as such. -/
theorem test_hit_on_the_way :
    let t := (after (.scpAckRx 0 0 1 [⟨4, 0, [0#10]⟩]) (at_ streams)).chip
    let n := (after (.scpMessageRx 0 0 0 [] symEDB []) (at_ streams)).chip
    t.num 0 (lanePage 4) LANE.CODE_ERR_COUNT = 1 ∧ t.num 0 SLINK SLINK.SYMBOL_ERR_COUNT = 1 ∧ t.num 0 SLINK SLINK.NULLIFIED_COUNT = 0 ∧
      n.num 0 SLINK SLINK.NULLIFIED_COUNT = 1 ∧ n.num 0 SLINK SLINK.CRC_ERR_COUNT = 0 := by decide +kernel

theorem witness_group_readiness :
    let c := withRegs streams [(0, SLINK, SLINK.GROUP_READY, 0)]
    let spare := withRegs streams [(0, SLINK, SLINK.SPARE, 0x80), laneIs 0 7 laneDOWN 0]
    isGroup (at_ c) 0 0 0 ∧ c.power = .running ∧ c.firstReady 0 0 = false ∧
    (∀ l ∈ c.groupLanes 0 0, c.isReady 0 l = true ∧ c.lrate 0 l = c.lrate 0 0) ∧
    spare.firstReady 0 0 = true ∧ 7 ∈ spare.groupLanes 0 0 ∧ spare.isReady 0 7 = false ∧ ∀ m < 8, (spare.lane 0 m).capBy = 24 := by
  decide +kernel

/-! ### A hamper that reads back -/

theorem leNat_leBytes_word (w : Word) : leNat (leBytes 4 w.toNat) = w.toNat := by
  have := w.isLt
  simp only [leNat, leBytes, List.range_succ, List.range_zero, List.nil_append, List.cons_append, List.map_cons, List.map_nil, List.foldr, BitVec.toNat_ofNat, Nat.shiftRight_eq_div_pow]
  omega

theorem reads_fill (bs : List Byte) (owner : Nat) (seq : Option Nat) (px : List Px) (hpx : List.replicate 1024 (pxRaw 0) = px)
    (h1 : headerOk (bs.take 16) = true) (h2 : fieldAt bs 0 1 = fmtFILL) (h3 : fieldAt bs 4 2 = owner)
    (h4 : seq.any (fun q => fieldAt bs 6 1 ≠ q % 256) = false) (h5 : fieldAt bs 7 5 = 0)
    (h6 : fieldAt bs 12 4 = (crc32c (rawBytes px)).toNat) : readHamper bs owner seq = .ok px := by
  simp only [readHamper, h1, h2, h3, h4, h5, hpx, h6]
  simp

/-- A FILL hamper of black pixels, with the CRC of its pixels. -/
def fillHamper (owner : Nat) (w : Word) : List Byte := hamperHeader fmtFILL false 0 owner 0 0 w


/-- The owners that the witnesses use: layer 0, and frame planes 0 and 1 of output 0. -/
abbrev someOwner (owner : Nat) : Prop := owner = 0 ∨ owner = 0x8000 ∨ owner = 0x8008

theorem leBytes_some_owner (owner : Nat) (ho : someOwner owner) : leNat (leBytes 2 owner) = owner := by
  rcases ho with rfl | rfl | rfl <;> decide

theorem fill_header_ok (w : Word) (tail : List Byte) (owner : Nat) (ho : someOwner owner) :
    headerOk ((fillHamper owner w ++ tail).take 16) = true := by
  have h0 : fieldAt ((fillHamper owner w ++ tail).take 16) 0 1 = 1 := rfl
  have h1 : fieldAt ((fillHamper owner w ++ tail).take 16) 1 1 = 0 := rfl
  have h2 : fieldAt ((fillHamper owner w ++ tail).take 16) 2 2 = 0 := rfl
  have h3 : fieldAt ((fillHamper owner w ++ tail).take 16) 7 5 = 0 := rfl
  have h4 : fieldAt ((fillHamper owner w ++ tail).take 16) 4 2 = leNat (leBytes 2 owner) := rfl
  simp only [headerOk, h0, h1, h2, h3, h4, leBytes_some_owner owner ho]
  clear h0 h1 h2 h3 h4 w tail
  rcases ho with rfl | rfl | rfl <;> decide

/-- A FILL hamper with the CRC of its pixels reads back, whatever bytes follow it in its slot. -/
theorem fill_reads (tail : List Byte) (owner : Nat) (seq : Option Nat) (px : List Px) (hpx : List.replicate 1024 (pxRaw 0) = px)
    (hs : seq = none ∨ seq = some 0) (ho : someOwner owner) :
    readHamper (fillHamper owner (crc32c (rawBytes px)) ++ tail) owner seq = .ok px := by
  refine reads_fill _ _ _ px hpx (fill_header_ok _ _ _ ho) rfl ?_ ?_ rfl ?_
  · exact Eq.trans (b := leNat (leBytes 2 owner)) rfl (leBytes_some_owner owner ho)
  · have h : fieldAt (fillHamper owner (crc32c (rawBytes px)) ++ tail) 6 1 = 0 := rfl
    rw [h]; rcases hs with rfl | rfl <;> rfl
  · exact Eq.trans (b := leNat (leBytes 4 (crc32c (rawBytes px)).toNat)) rfl (leNat_leBytes_word _)

/-- A tile of black pixels, and a FILL hamper of it. -/
def blackTile : List Px := List.replicate 1024 (pxRaw 0)
def blackHamper (owner : Nat) : List Byte := fillHamper owner (crc32c (rawBytes blackTile))

/-- Memory that holds the FILL hamper in one slot of die 0. -/
def holdsBlack (slot owner : Nat) : Mem := Mem.reset.setSlot 0 slot (blackHamper owner)

theorem black_reads (c : Chip) (slot owner : Nat) (seq : Option Nat) (hs : seq = none ∨ seq = some 0) (ho : someOwner owner) :
    readHamper (c.slotBytes (holdsBlack slot owner) 0 slot) owner seq = .ok blackTile := by
  have h : (holdsBlack slot owner).slot 0 slot = blackHamper owner := by simp [holdsBlack]
  have hne : blackHamper owner ≠ [] := by intro hc; have := congrArg List.length hc; exact absurd this (by simp [blackHamper, fillHamper, hamperHeader, leBytes])
  simp only [Chip.slotBytes, h, hne, false_and, if_false]
  exact fill_reads _ _ _ _ rfl hs ho

/-! ### Witnesses: baskets, the rambler and layers -/

theorem witness_owner_write : (at_ (runs [])).mayWrite svc BASKET (BASKET.OWNER + 4 * 3) 0x12345055#32 := by decide +kernel

theorem witness_corrections :
    let bad : Chip := { runs [] with badWords := [0x800000] }
    (0x1800000#32).toNat / 0x1000000 = 1 ∧ 0x800000 ∈ bad.badWords ∧ 0x800004 ∉ bad.badWords ∧ 0x800004 ∉ bad.fixups := by decide +kernel

theorem witness_rambler :
    let c := runs [(0, RAMBLER, PAGE_STATUS, 1), (0, RAMBLER, RAMBLER.CTRL, 3), (0, BASKET, BASKET.OWNER, 0x66666666)]
    c.ramblerOn 0 = true ∧ ((c.nextRegion 0).any fun r => decide (r.1 < spareBase)) = true ∧
    (∀ r, c.nextRegion 0 = some r → ∀ a ∈ stepWords 0 r.1, a ∉ c.badWords ∧ a ∉ c.fixups) ∧ c.flag 0 RAMBLER RAMBLER.CTRL 1 = true ∧
    (∀ r, c.nextRegion 0 = some r → 0 < c.spares 0 (r.1 / 4096)) := by
  refine ⟨by decide +kernel, by decide +kernel, ?_, by decide +kernel, ?_⟩
  · intro r h a _
    exact ⟨List.not_mem_nil, List.not_mem_nil⟩
  · decide +kernel

/-- Output 0 in COMPOSE with entry `n` of the standard modes, both channels of die 0 serving, and an owned basket for the line
lists; more registers set. -/
def composes (l : List (Nat × Nat × Nat × Nat)) : Chip :=
  runs ([(0, CLK, CLK.PLL_STATUS, 7), (0, TGEN, TGEN.ENTRY, 0x80000000), (0, TGEN, TGEN.OUT_STATE, COMPOSE), (0, memcPage 0, PAGE_STATUS, 0x101),
    (0, memcPage 1, PAGE_STATUS, 0x101), (0, BASKET, BASKET.OWNER, 0x55543266)] ++ l)

theorem witness_layer_commit_busy :
    let h := svc
    let q := (at_ (composes [])).req { h with tag := 9 } (.layerCommit 0 1#32)
    let c : Chip := { composes [] with inflight := [{ q with started := true }], nextReq := 5 }
    let off := composes [(0, memcPage 0, PAGE_STATUS, 0)]
    c.admits h (.layerCommit 0 2#32) ∧ (∃ x ∈ c.inflight, isLayerCommit 0 x = true ∧ x.started = true ∧ x.id ≠ c.nextReq) ∧
    (runs []).hasEntry 0 = false ∧ off.hasEntry 0 = true ∧ (∃ d ∈ off.gang 0, off.serving d 0 = false ∨ off.serving d 1 = false) ∧
    (runs []).admits h (.layerCommit 0 2#32) ∧ off.admits h (.layerCommit 0 2#32) ∧
    let host := composes [(0, BASKET, BASKET.OWNER, 0x55555566)]
    host.admits h (.layerCommit 0 2#32) ∧ ∃ d ∈ host.gang 0, host.ownsBasket d 2 = false := by
  decide +kernel

/-- One staged layer of die 0: 64 × 16 pixels at (0, 0), filled. -/
def stagedLayer : List (Nat × Nat × Nat × Nat) :=
  [(0, layerPage 0, 0, 3), (0, layerPage 0, 4, 0x10000), (0, layerPage 0, 12, 0x100040), (0, layerPage 0, 16, 255)]

theorem witness_layer_commit_runs :
    let c := composes stagedLayer
    c.admits svc (.layerCommit 0 1#32) ∧ c.hasEntry 0 = true ∧ (∀ q ∈ c.inflight, isLayerCommit 0 q = false) ∧
    (∀ d ∈ c.gang 0, c.serving d 0 = true ∧ c.serving d 1 = true ∧ c.ownsBasket d 2 = true) ∧ c.takes 0 ≠ [] ∧
    (∀ x ∈ c.takes 0, c.descBad (c.takes 0) x.1 x.2 = false) ∧
    c.lineLimit 0 (((c.after (c.takes 0)).filter (fun x => x.2.enable && decide (x.2.output = 0))).foldl (fun acc x => insertLayer x acc) []) = none := by
  decide +kernel

theorem witness_layout_and_drain :
    let q := (at_ (composes [])).req { svc with tag := 9 } (.layerCommit 0 1#32)
    let c : Chip := { composes [] with inflight := [{ q with started := true }] }
    let y : Drain := { id := 1#32, frame := 0#32, told := [], ranges := [(0, 0, 1)] }
    let drain := c.setOut 0 { draining := some y }
    let j : EncJob := { layer := some 0, plane := 0, slot := 0, tx := 0, ty := 0, owner := 0, seq := 0, subst := false, pixels := none }
    let writes := drain.setDie 0 { drain.die 0 with encQ := [j] }
    c.formed 0 = true ∧ c.commitPending 0 = true ∧ (c.out 0).draining = none ∧ (drain.out 0).draining = some y ∧
    drain.stillWriting y.ranges = false ∧ (writes.out 0).draining = some y ∧ writes.stillWriting y.ranges = true := by
  decide +kernel

/-- The words of layer 0: fed by stream 5, one tile at (0, 0) whose slots are 0. -/
def fedWords : Desc := #v[0x03000001#32, 5#32, 0#32, 0x00100040#32, 255#32, 0#32, 0#32, 0#32, 0#32]

theorem witness_layer_fetches :
    let c := (composes []).setLayer 0 { words := fedWords, off := false }
    let off := (composes []).setLayer 0 { words := fedWords, off := true }
    isLayer (at_ c) 0 0 ∧ c.fetches 0 0 0 0 = true ∧ c.reads 0 (fedWords.show_ % 2) = true ∧ fedWords.show_ + 0 * fedWords.tw + 0 = 0 ∧
    ((runs []).setLayer 0 { words := fedWords }).mode fedWords.output ≠ COMPOSE ∧ (off.layer 0).off = true ∧
    off.leadOf 0 = fedWords.output ∧ KMap.get? (off.die 0).offLayers 0 = none ∧ c.hasEntry fedWords.output = true ∧
    c.leadOf 0 = fedWords.output ∧ c.mode fedWords.output = COMPOSE ∧
    0 < ((c.missing fedWords.output 0 (c.nextCompose fedWords.output)).filter (fun m => m = 0)).length := by decide +kernel

theorem witness_layer_tile (c : Chip) : readHamper (c.slotBytes (holdsBlack (layerSlot 0) 0) 0 (layerSlot 0)) 0 none = .ok blackTile :=
  black_reads c _ _ _ (.inl rfl) (.inl rfl)

theorem witness_source_frame_layer :
    let c := ((streams.setOut 0 {}).setLayer 0 { words := fedWords, tiles := [(0, [0])] })
    hears (at_ c) 0 0 0 (onLanes (frmOf 0)) symFRM (tailOf (frmOf 0)) ∧ c.dieMode 0 ≠ SAFE ∧
    c.uses 5 = [.layer 0] ∧ (extendSeq 0 (c.seq (c.layer 0).words.output)).1 = 0 ∧ c.mode (c.layer 0).words.output ≠ SAFE ∧
    (KMap.getD (c.layer 0).tiles ((c.layer 0).received 0 * 2 ^ 32 + 0) []).length = (c.layer 0).words.slots := by decide +kernel

theorem witness_freeze_digests :
    let w : Desc := #v[0x03000009#32, 5#32, 0#32, 0x00100040#32, 0x000002FF#32, 0#32, 0#32, 0#32, 0#32]
    let y : LayerSt := { words := w, closed := some (0#32, true, 0), freeze := 0 }
    let c := (composes []).setLayer 0 y
    (0 : Nat) < layerCount c.member ∧ (c.layer 0).closed = some (0#32, true, 0) ∧ w.watched = true ∧ w.freezeN = 2 ∧
    c.hasEntry w.output = true ∧ (c.layer 0).digest = none ∧
    ({ y with freeze := 0 }.freeze + 1 < w.freezeN ∧ w.freezeN ≤ { y with freeze := 1 }.freeze + 1) ∧ (c.layer 0).frozen = false := by
  decide +kernel

/-- R224: (128 × 4095 + 127) ÷ 255 = 2056. -/
theorem test_blend : blend 128 4095 0 = 2056 ∧ blend 255 1 9 = 1 ∧ blend 0 1 9 = 9 := by decide +kernel

/-! ### Witnesses: frame memory -/

/-- Both DRAM channels of die 0 run with their defaults of CFG, on timing sets that are valid; more registers set. -/
def drams (l : List (Nat × Nat × Nat × Nat)) : Chip :=
  let c := runs ([(0, memcPage 0, PAGE_STATUS, 0x301), (0, memcPage 1, PAGE_STATUS, 0x301),
    (0, memphyPage 0, MEMPHY.PHY_STATUS, 4), (0, memphyPage 1, MEMPHY.PHY_STATUS, 4)] ++
    [0, 1].flatMap (fun ch => [MEMC.TSET_A, MEMC.TSET_B].flatMap fun o =>
      [(0, memcPage ch, o, 0x01010101), (0, memcPage ch, o + 4, 0x01010101), (0, memcPage ch, o + 8, 0x01010127)]) ++ l)
  (c.setChan 0 0 { c.chan 0 0 with phyOk := true }).setChan 0 1 { c.chan 0 1 with phyOk := true }

theorem witness_dram_config :
    let c := drams [(0, memcPage 0, PAGE_STATUS, 0x100), (0, memcPage 1, PAGE_STATUS, 0x100)]
    let p : List Byte := [0, 1, 0, 1]
    let r := (at_ c).req svc (.dramConfig p)
    let busy : Chip := { c with inflight := [{ r with started := true }] }
    admitted c svc (.dramConfig p) = true ∧ c.chanRuns 0 (1 - fieldAt p 0 1) = false ∧
    c.get 0 (memphyPage (fieldAt p 0 1)) MEMPHY.PHY_STATUS 2 2 = 1 ∧ c.setValid 0 (fieldAt p 0 1) (fieldAt p 3 1) = true ∧
    isChannel (at_ busy) 0 0 ∧ (busy.reqs (isDramConfig 0 0)).find? (fun q => q.started) = some { r with started := true } := by
  decide +kernel

theorem witness_dram_freq :
    let c := drams []
    let r := (at_ c).req svc (.dramFreq 3 1)
    let waits : Chip := { drams [(0, SCAN, SCAN.LAT_TOL, 0xFFFFFF)] with inflight := [{ r with started := true, pnr := false }] }
    let moving := c.setChan 0 0 { c.chan 0 0 with freqTo := some 1 }
    admitted c svc (.dramFreq 3 1) = true ∧ (∀ k ∈ maskChannels 3, c.serving 0 k = true ∧ c.migrating 0 k = false ∧ c.setValid 0 k 1 = true) ∧
    (∃ k ∈ maskChannels 3, c.mget 0 k MEMC.CFG 0 0 ≠ 1) ∧ waits.reqs (isDramFreq 0 true) = [] ∧
    waits.reqs (isDramFreq 0 false) = [{ r with started := true, pnr := false }] ∧
    (∀ k ∈ maskChannels 3, waits.freqTol 0 k ≤ waits.tol 0 ∧ waits.serving 0 k = true) ∧
    (moving.chan 0 0).freqTo = some 1 ∧ (∀ j < 2, (moving.chan 0 j).errAfter = none) ∧
    ∀ j < 2, (moving.chan 0 j).freqTo ≠ none → (moving.chan 0 j).freqAt + 12000 ≤ ({ moving with now := 12000 } : Chip).now := by decide +kernel

theorem witness_migration :
    let c := drams [(0, memcPage 0, MEMC.CFG, 0x28), (0, memcPage 0, MEMC.STATUS, 0x40000000)]
    let moves := drams [(0, memcPage 0, PAGE_STATUS, 0x401), (0, memcPage 0, MEMC.MIGRATE, 0x80000000)]
    let last := moves.setChan 0 0 { moves.chan 0 0 with units := 262144 }
    admitted c svc (.rankSpare 0 1) = true ∧ c.serving 0 0 = true ∧ 1 < c.mget 0 0 MEMC.CFG 5 4 ∧ c.migrating 0 0 = false ∧
    c.mget 0 0 MEMC.STATUS 31 30 = 1 ∧ moves.migrating 0 0 = true ∧ (moves.chan 0 0).units < 262144 ∧ last.migrating 0 0 = true ∧
    (last.chan 0 0).units = 262144 := by decide +kernel

theorem witness_refresh :
    let c := drams [(0, SCAN, SCAN.LAT_TOL, 0), (0, memcPage 0, MEMC.STATUS, 0x3), (0, memcPage 0, MEMC.CFG, 0x10)]
    let q : QueuedReq := { req := { port := 1, write := false, slot := 0, granule := 0 }, policy := 0#32, prio := 0, gap := 64000 }
    let busy := c.setChan 0 0 { c.chan 0 0 with queue := [q] }
    let full := drams [(0, memcPage 0, MEMC.STATUS, 0x4), (0, memcPage 0, MEMC.CFG, 0x10)]
    isChannel (at_ c) 0 0 ∧ busy.chanRuns 0 0 = true ∧ busy.mget 0 0 MEMC.STATUS 27 26 < 2 ∧ busy.pendingRef 0 0 0 < 4 ∧
    busy.refreshAllowed 0 0 0 = false ∧ busy.refreshAt 0 0 0 ≤ busy.now ∧ full.refreshAt 0 0 0 ≤ full.now ∧
    (busy.refreshStart 0 0).now < (busy.refreshStart 0 0).refreshAt 0 0 0 ∧ full.pendingRef 0 0 0 = 4 ∧ full.chanRuns 0 0 = true ∧
    0 ∈ busy.refreshRanks 0 0 ∧ 0 ∈ full.refreshRanks 0 0 := by decide +kernel

theorem witness_scheduler :
    let c := drams [(0, CLK, CLK.PLL_STATUS, 7)]
    c.serving 0 0 = true ∧ c.unclocked 0 0 = false ∧ (c.chan 0 0).queue = [] ∧ c.mget 0 0 MEMC.STATUS 27 26 = 0 ∧ (c.chan 0 0).throttle = [] ∧
    (KMap.getD (c.chan 0 0).banks 95 {}).usedAt + c.ctlTime 0 0 64 ≤ 200 := by decide +kernel

theorem witness_power_states :
    let c := drams [(0, SCAN, SCAN.LAT_TOL, 0xFFFFFF), (0, memcPage 0, MEMC.POWER, 0x10010)]
    c.chanRuns 0 0 = true ∧ c.mget 0 0 MEMC.STATUS 27 26 = 0 ∧ c.mget 0 0 MEMC.POWER 7 0 ≠ 0 ∧ 20 ≤ c.tol 0 ∧
    ({ c with now := 1000 } : Chip).idleFor 0 0 16 = true ∧ ({ c with now := 1000 } : Chip).idleFor 0 0 (4 * c.mget 0 0 MEMC.POWER 15 8) = true ∧
    (drams [(0, SCAN, SCAN.LAT_TOL, 20), (0, memcPage 0, MEMC.STATUS, 0x4000000)]).tol 0 ≤
      (drams [(0, SCAN, SCAN.LAT_TOL, 20), (0, memcPage 0, MEMC.STATUS, 0x4000000)]).exitTime 0 0 ∧ (c.chan 0 0).queue = [] ∧
    c.exitTime 0 0 < c.tol 0 ∧
    c.mget 0 0 MEMC.POWER 31 16 ≠ 0xFFFF ∧ c.mget 0 0 MEMC.POWER 31 16 ≤ c.tol 0 ∧ (∀ r < c.mget 0 0 MEMC.CFG 5 4, c.pendingRef 0 0 r ≤ 0) ∧
    (drams [(0, memcPage 0, MEMC.STATUS, 0x4000000)]).mget 0 0 MEMC.STATUS 27 26 = 1 ∧
    (drams [(0, memcPage 0, MEMC.STATUS, 0x8000000)]).mget 0 0 MEMC.STATUS 27 26 = 2 := by decide +kernel

theorem witness_dram_errors :
    let c := drams []
    c.chanRuns 0 1 = true ∧ (c.chan 0 1).retry = none ∧ (c.chan 0 1).wcrcErrs = [] ∧ (c.chan 0 1).cmdErrs = [] ∧ (c.chan 0 1).errors = [] ∧ (c.chan 0 1).suspects = [] ∧
    (runs []).chanRuns 0 1 = false := by decide +kernel

/-! ### Witnesses: hampers and the panel stages -/

theorem witness_hampers : blackTile.length = 1024 ∧ ownerOk 0xFFF ∧ ownerOk 0x800F ∧ (1 : Nat) ≠ 0xFFF ∧ (7 : Nat) % 256 ≠ 8 % 256 ∧
    16 ≤ (blackHamper 0).length ∧ headerOk ((blackHamper 0).take 16) = true := by
  refine ⟨List.length_replicate .., by decide, by decide, by decide, by decide, ?_, ?_⟩
  · simp [blackHamper, fillHamper, hamperHeader, leBytes]
  · have := fill_header_ok (crc32c (rawBytes blackTile)) [] 0 (.inl rfl)
    simpa [blackHamper] using this

theorem witness_layer_slots : (drams []).serving 0 0 = true ∧ (drams []).serving 0 1 = true := by decide +kernel

theorem witness_panel_stages : (∀ i j, odNode #[] 0 i j = 0) ∧ (4095 : Nat) < 4096 ∧ (10 : Nat) ≤ 16 ∧ (65535 : Nat) < 65536 := by
  refine ⟨fun i j => ?_, by decide, by decide, by decide⟩
  simp [odNode]
  decide

/-- Pinned to bank 2, TEMP_SET below every point: the bank of the temperature differs. -/
theorem witness_pinned_bank :
    let c := runs [(0, PANEL_OD, OD.CTRL, 0x2C), (0, PANEL_OD, OD.TEMP_SET, 0x80)]
    c.flag 0 PANEL_OD OD.CTRL 3 = true ∧ c.formed 0 = true ∧ c.get 0 PANEL_OD OD.CTRL 5 4 = 2 ∧ c.panelTemp 0 = some (-128) ∧
    selectBank (fun k => signed 8 (c.get 0 PANEL_OD OD.TEMP_POINTS (8 * k + 7) (8 * k))) (-128) (c.get 0 PANEL_OD OD.STATUS 9 8) ≠ 2 := by
  decide +kernel

/-- A table image without a body: its header, with CRC. -/
def image (t cols rows first total : Nat) (body : List Byte) : List Byte :=
  let h := leBytes 4 0x4C425450 ++ [BitVec.ofNat 8 t, 0] ++ leBytes 2 1 ++ leBytes 2 cols ++ leBytes 2 rows ++ leBytes 2 first ++
    leBytes 2 total ++ leBytes 4 body.length ++ List.replicate 8 0
  h ++ leBytes 4 (crc32c (h ++ body)).toNat ++ body

/-- The boot flash with bytes from address 0 on. -/
def inFlash (bs : List Byte) : Mem := bs.zipIdx.foldl (fun m x => m.setFlash x.2 x.1) Mem.reset

theorem witness_table_load :
    let c := withRegs (drams []) [(0, TGEN, TGEN.ENTRY, 0x80000000), (0, BASKET, BASKET.OWNER, 0x55543266)]
    let cmd := Cmd.tableLoad 3 0 0 0#32 32
    let r := { (at_ c).req svc cmd with started := true }
    let s : State := { at_ { c with inflight := [r] } with mem := inFlash (image 3 0 0 0 0 []) }
    let due := { s with chip := s.chip.setCommit 0 PANEL_DM }
    admitted c svc cmd = true ∧ c.committing (c.leadOf 0) (tablePage 3) = false ∧ c.ownsBasket 0 4 = true ∧ c.serving 0 0 = true ∧
    (s.chip.reqs (fun r => isTableLoad 0 r && r.started)).head? = some r ∧
    s.chip.readImage 0 3 0 32 0 (s.mem.flashBytes s.chip.fresh 0 32) = some (.defects []) ∧
    due.chip.committing (due.chip.leadOf 0) (tablePage 3) = true ∧
    due.chip.commitTime (due.chip.leadOf 0) (tablePage 3) = due.chip.now ∧
    (let later : Chip := { due.chip with now := due.chip.now + 1 }
     later.commitTime 0 (tablePage 3) < later.now ∧ later.committing (later.leadOf 0) (tablePage 3) = true) ∧
    admitted due.chip { svc with tag := 8 } cmd = true ∧
    due.chip.readImage 0 3 0 32 0 (due.mem.flashBytes due.chip.fresh 0 32) = some (.defects []) := by decide +kernel

/-- The last, empty piece of a demura map of entry 0. -/
theorem witness_demura_image :
    let e := modeEntry 0
    let img := image 2 (e.w / 8) 0 (e.vActive / 8) (e.vActive / 8) []
    let c := (withRegs (drams []) [(0, TGEN, TGEN.ENTRY, 0x80000000)]).setDie 0
      { partialMap := some { cols := e.w / 8, rows := e.vActive / 8, half := 0, late := [] } }
    c.readImage 0 2 0 32 (((c.die 0).partialMap.map (fun m => m.rows)).getD 0) img = some (.demura (e.w / 8) 0 (e.vActive / 8) (e.vActive / 8) []) := by decide +kernel

theorem witness_prev_tile :
    let c := (composes [(0, PANEL_OD, OD.CTRL, 1), (0, PANEL_OD, PAGE_STATUS, 1), (0, memcPage 0, MEMC.CFG, 0x20), (0, memcPage 1, MEMC.CFG, 0x20)]).setOut 0
      { odIdentity := false, planes := #v[{}, { frame := some 0#32 }] }
    let p := (c.seq 0 + 1) % 2
    ((c.out 0).planes.getD p {}).frame = some 0#32 ∧ c.hasEntry 0 = true ∧ c.odOff 0 = false ∧ 0 < (c.entry 0).w / 64 ∧ 0 < (c.entry 0).vActive / 16 ∧
    c.reads 0 p = true ∧ KMap.get? (c.die 0).prev 0 = none ∧ planeOwner 0 p = 0x8008 := by decide +kernel

theorem witness_plane_tile (c : Chip) (slot : Nat) :
    readHamper (c.slotBytes (holdsBlack slot 0x8008) 0 slot) 0x8008 (some (0#32).toNat) = .ok blackTile ∧
    readHamper (c.slotBytes (holdsBlack slot 0x8000) 0 slot) 0x8000 (some ((0#32).toNat % 256)) = .ok blackTile :=
  ⟨black_reads c _ _ _ (.inr rfl) (.inr (.inr rfl)), black_reads c _ _ _ (.inr rfl) (.inr (.inl rfl))⟩

/-- The samples of a row of one column. -/
def zeros12 : List Byte := List.replicate 12 0

/-- Memory whose first demura granule of a slot holds a record: one sample with the CRC of its 12 bytes, or with another. -/
def holdsRow (slot off : Nat) : Mem :=
  Mem.reset.setSlot 0 slot ((zeros12 ++ leBytes 4 ((crc32c zeros12).toNat + off)) ++ List.replicate 48 0)

theorem witness_rows_and_halos :
    let m : DemuraMap := { cols := 1, rows := 1, half := 0, late := [] }
    let c := (composes [(0, PANEL_DM, PAGE_STATUS, 1), (0, PANEL_DM, DM.CTRL, 1)]).setDie 0 { active := { demura := some m } }
    let ch := if c.serving 0 (0 % 2) then 0 % 2 else 1 - 0 % 2
    let slot := c.demuraSlot 0 ch (m.granule 0)
    let wide := (composes []).setDie 0 {}
    let gang := withRegs wide [(0, BRIDGE, BRIDGE.GANG_MAP, 5)]
    (c.die 0).active.demura = some m ∧ c.demuraOn 0 = true ∧ 0 < c.mapRows (c.leadOf 0) ∧ KMap.get? (c.die 0).dmRows 0 = none ∧
    0 ∉ (c.die 0).dmFailed ∧ c.reads 0 ch = true ∧
    readRow 1 (c.granules (holdsRow slot 0) 0 ch (m.granule 0) (recordGranules 1)) = some zeros12 ∧
    readRow 1 (c.granules (holdsRow slot 1) 0 ch (m.granule 0) (recordGranules 1)) = none ∧
    gang.gangCode 0 = 1 ∧ gang.leadOf 1 = 0 ∧ gang.hasEntry 0 = true ∧ 0 < (gang.entry 0).vActive ∧ 0 ∉ (gang.die 1).halo ∧
    1 ∉ (gang.die 0).halo ∧ 0 < dieCount gang.member ∧ 0 + 1 < 0 + 2 ^ gang.gangCode 0 := by decide +kernel

/-! ### Witnesses: column drivers, faults, calibration, voltage and gangs -/

theorem witness_drivers :
    let c := runs [laneIs 1 23 laneREADY 1, (1, DLINK, DLINK.CHAINS, 0x70F), (1, DLINK, DLINK.RET_STATUS + 60, 0x8000)]
    isDriver (at_ c) 1 15 7 ∧ c.training 1 (8 + 15) = false ∧ c.isReady 1 (8 + 15) = true ∧ c.lrate 1 (8 + 15) < 3 ∧
    c.retGet 1 15 (8 + 7) (8 + 7) = 1 := by decide +kernel

/-- A configuration access to chain 15, position 7 that has gone out. -/
def access (read : Bool) : DrvCmd :=
  { lane := 15, pos := 7, bcast := false, read := read, tag := 1, addr := 5, data := 0, sent := true, answered := [], refused := false }

theorem witness_driver_commands :
    let c := runs [laneIs 0 23 laneREADY 1, (0, DLINK, DLINK.CHAINS, 0x70F), (0, TGEN, TGEN.ENTRY, 0x80000000)]
    let w := (BitVec.ofNat 32 (2 ^ 31 + 15 * 2 ^ 24 + 5 * 2 ^ 8))
    let waits := fun read => c.setDie 0 { c.die 0 with drv := some (access read) }
    (at_ c).mayWrite svc DLINK DLINK.DRV_CMD w ∧ bit w 31 = true ∧ c.isReady 0 (8 + bits w 27 24) = true ∧ c.hasEntry (c.leadOf 0) = true ∧
    isDriver (at_ (waits true)) 0 15 7 ∧ ((waits true).die 0).drv = some (access true) ∧ ((waits false).die 0).drv = some (access false) := by
  decide +kernel

theorem witness_fault_codes : ∀ x ∈ (4 :: ((runs []).latchCode 0 PWR 1).codesOf 0 PWR), x < 2 ^ 32 := by decide +kernel

theorem witness_fatal_cause :
    let c : Chip := { composes [] with fatals := [(0, 4)] }
    let dark : Chip := { runs [] with fatals := [(0, 5)] }
    (0, 4) ∈ c.fatals ∧ (0, 5) ∈ dark.fatals ∧ c.power = .running ∧ c.mode (c.leadOf 0) ≠ SAFE ∧ (c.out (c.leadOf 0)).safeDue = none ∧
    c.hasEntry (c.leadOf 0) = true ∧ dark.hasEntry (dark.leadOf 0) = false ∧ dark.mode 0 ≠ SAFE ∧ c.num 0 FAULT FAULT.LATCHED = 0 := by decide +kernel

theorem witness_fault_clears :
    let c := (runs [(0, FAULT, PAGE_STATUS, 0x101), (0, FAULT, FAULT.LATCHED, 3)]).latchCode 0 BASKET 2
    (at_ c).mayWrite svc FAULT FAULT.LATCHED 1#32 ∧ (at_ c).mayWrite svc FAULT FAULT.CODE_CLEAR (BitVec.ofNat 32 (2 ^ 31 + BASKET)) ∧
    c.faultCode 0 BASKET ≠ 0 ∧ (at_ c).mayWrite svc FAULT FAULT.AVAIL_CLR 1#32 ∧ c.leadOf svc.die = svc.die ∧ (c.out 0).lastCount.1 = 0 := by decide +kernel

theorem witness_clear_beside_frame :
    let c := (runs [(0, FAULT, PAGE_STATUS, 0x101)]).setOut 0 { frameAt := (runs []).now, lastCount := (1, 8333333) }
    (at_ c).mayWrite svc FAULT FAULT.AVAIL_CLR 1#32 ∧ c.leadOf svc.die = svc.die ∧ (c.out 0).frameAt = c.now ∧
    (c.out 0).lastCount.1 = 1 ∧ (c.out 0).lastCount.2 = 8333333 := by decide +kernel

theorem witness_watchdog :
    let steward : Hdr := { port := .steward 0, tag := 1, die := 0, limit := 0 }
    let c := (runs []).setDie 0 { steward := .running, wdogAt := 0, wdogMs := 100 }
    let again := (runs []).setDie 0 { steward := .running, wdogAt := 0, wdogMs := 100, expiries := [4000000000, 4500000000] }
    let restarts := (runs []).setDie 0 { steward := .restarting 1000000000 }
    ((at_ c).mayWrite svc STEWARD STEWARD.WDOG_CTRL 2000#32 ∨ (at_ c).mayWrite steward STEWARD STEWARD.WDOG_CTRL 2000#32) ∧
    (c.die 0).steward = .running ∧ (c.die 0).wdogAt + (c.die 0).wdogMs * 1000000 < c.now ∧ 2 ≤ (again.expiries 0).length ∧
    (restarts.die 0).steward = .restarting 1000000000 ∧ 1000000000 + 100000000 < restarts.now := by decide +kernel

theorem witness_cal :
    let c := runs [(0, CAL, PAGE_STATUS, 0x101)]
    let p : List Byte := [0, 2, 0, 0]
    let r := { (at_ c).req svc (.calRun p) with started := true }
    let going : Chip := { c.setOut 0 { cal := some {} } with inflight := [r] }
    let x : CalSamples := { tsense := [], vrefCell := 3, vrefErrUv := -8000, vrefSpread := 2000, laneRx := [] }
    admitted c svc (.calRun p) = true ∧ (c.out 0).cal = none ∧ (fieldAt p 1 1).testBit 2 = false ∧ (going.out 0).cal = some {} ∧
    0 ∉ ({} : CalRun).done ∧ (going.reqs (isCalRun 0)).head? = some r ∧ fieldAt p 1 1 = 2 ∧ vrefFail x = 0 ∧ x.vrefCell < 4 := by decide +kernel

theorem witness_age :
    let c := runs [(0, AGE, PAGE_STATUS, 0x101), (0, TGEN, TGEN.OUT_STATE, MEASURE)]
    let p : List Byte := [0, 1]
    let r := { (at_ c).req svc (.ageScan p) with started := true }
    let going : Chip := { c with inflight := [r] }
    admitted c svc (.ageScan p) = true ∧ going.formed 0 = true ∧ going.gangCode 0 = 0 ∧ (going.reqs (isAgeScan 0)).head? = some r ∧
    (fieldAt p 1 1).testBit 0 = true ∧ going.answers (portDie r.port) r.die = true := by decide +kernel

theorem witness_margin :
    let c := withRegs (drams [(0, AGE, PAGE_STATUS, 0x101), (0, memcPage 0, MEMC.CFG, 0x310), (0, memcPage 1, MEMC.CFG, 0x310)])
      [(0, memcPage 0, MEMC.STATUS, 0x40000000)]
    let w : LaneWindow := { read := some (4, 20), write := some (0, 255) }
    let going := c.setOut 0 { scan := some { todo := [scanKey 0 0 0] } }
    let holds := c.setChan 0 0 { c.chan 0 0 with holding := true }
    admitted c svc (.marginScan [0, 0, 1, 1]) = true ∧ admitted c svc (.marginScan [0, 1, 1, 0]) = true ∧ (c.out 0).scan = none ∧
    (∀ d ∈ c.gang 0, ∀ ch ∈ maskChannels 1, c.serving d ch = true) ∧ c.mget 0 0 MEMC.CFG 9 8 = 3 ∧
    (∃ k ∈ c.goodRanks 0 0, (1 : Nat).testBit k = true) ∧ c.mget 0 0 MEMC.STATUS 31 30 = 1 ∧ c.migrating 0 0 = false ∧
    (going.out (going.leadOf 0)).scan.any (fun m => m.todo.contains (scanKey 0 0 0)) = true ∧ (going.chan 0 0).holding = false ∧
    4 ≤ narrowest (List.replicate 8 w) ∧ (holds.chan 0 0).holding = true := by decide +kernel

theorem witness_voltage :
    let c := runs [(0, PWR, PWR.AVS_CTRL, 0x2BC0003)]
    c.pinned 0 = true ∧ (c.codesOf 0 PWR).contains 1 = false ∧ (8 : Int) ≤ 8 ∧ (c.avs 0).crit = false ∧
    (8 : Int) < heldLow (withRegs c [(0, PWR, PWR.AVS_SLACK, 20)] |>.reg 0 PWR PWR.AVS_SLACK) := by decide +kernel

theorem witness_avs_rows :
    let c := runs [(0, PWR, PWR.AVS_CTRL, 0), (0, AON, PAGE_STATUS, 1)]
    c.dieRuns 0 = true ∧ c.loopOn 0 = false ∧ c.committing 0 PWR = false ∧ (c.avs 0).start = false ∧
    ((c.latchCode 0 PWR 1).codesOf 0 PWR).contains 1 = true ∧ c.ready 0 AON = true ∧ c.power ≠ .standby := by decide +kernel

theorem witness_thermal_rows :
    let c := runs [(0, AON, PAGE_STATUS, 1), (0, PWR, PWR.THERM_STATUS, 0xFF00), (0, PWR, PWR.TS_READ, 0x78), (0, PWR, PWR.THERM, 0x05000069)]
    c.ready 0 AON = true ∧ c.committing 0 PWR = false ∧ (List.replicate 8 (114 : Int)).length = 8 ∧
    (∀ v ∈ List.replicate 8 (114 : Int), -128 ≤ v ∧ v < 115) ∧ 0 ∈ c.sensors 0 ∧ 3 < (c.sensors 0).length ∧
    c.flag 0 PWR PWR.THERM 16 = false ∧
    2 * c.get 0 PWR PWR.THERM 27 24 < (2 * c.tsRead 0 0 - twiceMedian ((c.sensors 0).map (fun i => c.tsRead 0 i))).natAbs ∧
    ({ c with power := .standby } : Chip).ready 0 AON = true := by decide +kernel

theorem witness_ring :
    let c : Chip := { runs [] with member := .pn9808, linksDown := [7] }
    2 < dieCount c.member ∧ c.linksDown = [7] ∧ 7 < dieCount c.member ∧ 3 ∉ c.linksDown ∧ 3 ∉ c.inReset ∧
    c.linkUp (sideLink (dieCount c.member) 3 .next) = true := by decide +kernel

theorem witness_gang_map :
    let c := ((runs []).stage 0 BRIDGE BRIDGE.GANG_MAP 5#32).setCommit 0 BRIDGE
    let same := ((runs []).stage 0 BRIDGE BRIDGE.GANG_MAP 0#32).setCommit 0 BRIDGE
    c.committing 0 BRIDGE = true ∧ c.stagedOf 0 BRIDGE = [(BRIDGE.GANG_MAP, 5#32)] ∧
    (∀ d < dieCount c.member, widthCode 5#32 d ≠ c.gangCode d → c.dieMode d = BRINGUP) ∧ widthCode 5#32 0 ≠ c.gangCode 0 ∧ same.committing 0 BRIDGE = true ∧
    same.stagedOf 0 BRIDGE = [(BRIDGE.GANG_MAP, 0#32)] ∧ (∀ d < dieCount same.member, widthCode 0#32 d = same.gangCode d) := by decide +kernel

theorem witness_tokens :
    let c := composes [(0, BRIDGE, BRIDGE.GANG_MAP, 5)]
    let many := c.setDie 1 { misses := 15 }
    c.isFollower 1 = true ∧ c.reg 1 TGEN TGEN.FRAME_SEQ ≠ 7#32 ∧ (c.die 1).misses < 15 ∧ many.isFollower 1 = true ∧ (many.die 1).misses = 15 := by
  decide +kernel


/-! The return line -/

/-- A return frame as the levels of its half bits (R314). -/
def retHalves (bs : List Byte) : List Bool :=
  (retStart ++ (bs ++ [crc8 bs]).flatMap fun b => (List.range 8).map b.getLsbD).flatMap fun x => [!x, x]

/-- The report of the worked example: driver 7 locked at code 3 with FOM 52. A bit without its transition, a reserved TYPE and a
reserved bit discard the frame. -/
theorem test_return_frame :
    let frame : List Byte := [0x71, 0x07, 0x34, 0x00, 0x00]
    retFrame (retHalves frame) = some frame ∧ retFrame ((retHalves frame).set 40 true) = none ∧ retFrame ((retHalves frame).take 114) = none ∧
    retFrame (retHalves [0x76, 0x07, 0x34, 0x00, 0x00]) = none ∧ retFrame (retHalves [0x71, 0x27, 0x34, 0x00, 0x00]) = none ∧
    ((composes []).takeFrame 0 15 frame).retGet 0 15 7 7 = 1 := by decide +kernel

/-! ### Witnesses: supplies, boot and STANDBY -/

theorem witness_power_off : (1 : Nat) < dieCount (runs []).member ∧ (runs []).dieRuns 1 = true := by decide +kernel

theorem witness_boot_begins : State.reset.chip.porN = false ∧ State.reset.chip.inReset = [] ∧ (runs []).porN = true ∧
    ({ State.reset.chip with inReset := [3] } : Chip).inReset ≠ [] ∧ ({ runs [] with inReset := [1] } : Chip).inReset ≠ [] := by decide +kernel

theorem witness_boot_steps :
    let c : Chip := { Chip.reset with power := .starting, porN := true }
    let aon := withRegs c [(0, AON, PAGE_STATUS, 1)]
    let hot := (withRegs aon [(0, AON, AON.THERM_NOW, 110)]).latchCode 0 PWR 4
    c.ready 0 AON = false ∧ aon.power = .starting ∧ aon.ready 0 AON = true ∧ aon.clockHeld = false ∧ hot.ready 0 AON = true ∧
    hot.clockHeld = true ∧ ({ runs [] with boot := .sfdp } : Chip).boot = .sfdp := by decide +kernel

/-- The first 32 bytes of a directory that names one image, of type IMAGE_B and preferred; zeros and a CRC follow. -/
def directoryHead (length : Nat) : List Byte :=
  leBytes 4 0x50444E50 ++ leBytes 2 1 ++ leBytes 2 1 ++ leBytes 4 1 ++ leBytes 4 0 ++
    ([2, 2, 0, 0] ++ leBytes 4 0x2000 ++ leBytes 4 length ++ leBytes 4 0)

def zeros (n : Nat) : List Byte := List.replicate n 0

theorem zeros_length (n : Nat) : (zeros n).length = n := List.length_replicate ..

/-- The entry that it holds. -/
def imageEntry (length : Nat) : DirEntry := { type := 2, flags := 2, offset := 0x2000, length := length, crc := 0 }

def directoryBytes (length : Nat) (crc : Nat) : List Byte := directoryHead length ++ zeros 220 ++ leBytes 4 crc

theorem crc_zeros : (zeros 44).foldl crc32cByte 179640700#32 = 129804558#32 ∧ (zeros 44).foldl crc32cByte 129804558#32 = 498600961#32 ∧
    (zeros 44).foldl crc32cByte 498600961#32 = 1471064679#32 ∧ (zeros 44).foldl crc32cByte 1471064679#32 = 933695992#32 ∧
    (zeros 44).foldl crc32cByte 933695992#32 = 1766423626#32 := by decide +kernel

theorem crc_head : (directoryHead 16).foldl crc32cByte 0xFFFFFFFF#32 = 179640700#32 := by decide +kernel

theorem directory_crc : crc32c (directoryHead 16 ++ zeros 220) = 2528543669#32 := by
  have h : zeros 220 = zeros 44 ++ (zeros 44 ++ (zeros 44 ++ (zeros 44 ++ zeros 44))) := by simp [zeros]
  simp only [crc32c, h, List.foldl_append, crc_head, crc_zeros]
  decide

theorem directory_valid : dirValid (directoryBytes 16 2528543669) = true := by
  have h : (directoryBytes 16 2528543669).take 252 = directoryHead 16 ++ zeros 220 :=
    List.take_left' (by simp [directoryHead, zeros_length, leBytes])
  simp only [dirValid, h, directory_crc]
  decide +kernel

/-- Memory whose flash holds the directory, and an erased image. -/
def directoryMem (length crc : Nat) : Mem := { Mem.reset with flash := (directoryBytes length crc).zipIdx.map fun x => (x.2, x.1) }

theorem get_listed (bs : List Byte) (k i : Nat) : KMap.get? ((bs.zipIdx k).map fun x => (x.2, x.1)) (k + i) = bs[i]? := by
  induction bs generalizing k i with
  | nil => rfl
  | cons b bs ih =>
    cases i with
    | zero => simp [KMap.get?]
    | succ i =>
      have := ih (k + 1) i
      simp only [List.zipIdx_cons, List.map_cons, KMap.get?]
      rw [if_neg (by omega), show k + (i + 1) = k + 1 + i by omega, this]
      simp

theorem directory_in_flash (fresh length crc : Nat) : (directoryMem length crc).flashBytes fresh 0 256 = directoryBytes length crc := by
  have hl : (directoryBytes length crc).length = 256 := by simp [directoryBytes, directoryHead, zeros_length, leBytes]
  apply List.ext_getElem?
  intro i
  have hg := get_listed (directoryBytes length crc) 0 i
  simp only [Nat.zero_add] at hg
  by_cases hi : i < 256
  · simp [Mem.flashBytes, Mem.flashByte, directoryMem, KMap.getD, Mem.reset, hg, hi, hl]
  · simp [Mem.flashBytes, hi, hl]

theorem directory_of_mem (s : State) (length crc : Nat) (h : s.mem = directoryMem length crc) : s.directory =
    chooseDirectory (directoryBytes length crc) ((directoryMem length crc).flashBytes s.chip.fresh 0x1000 256) := by
  simp only [State.directory, h, directory_in_flash]

/-- The same with an image that is too large. -/
theorem large_valid : dirValid (directoryBytes 0x100001 3447808665) = true := by
  have h : (directoryBytes 0x100001 3447808665).take 252 = directoryHead 0x100001 ++ zeros 220 :=
    List.take_left' (by simp [directoryHead, zeros_length, leBytes])
  have hz : zeros 220 = zeros 44 ++ (zeros 44 ++ (zeros 44 ++ (zeros 44 ++ zeros 44))) := by simp [zeros]
  have hc : crc32c (directoryHead 0x100001 ++ zeros 220) = 3447808665#32 := by
    have h0 : (directoryHead 0x100001).foldl crc32cByte 0xFFFFFFFF#32 = 133389777#32 := by decide +kernel
    have h1 : (zeros 44).foldl crc32cByte 133389777#32 = 3980634192#32 := by decide +kernel
    have h2 : (zeros 44).foldl crc32cByte 3980634192#32 = 1267731622#32 := by decide +kernel
    have h3 : (zeros 44).foldl crc32cByte 1267731622#32 = 3416832760#32 := by decide +kernel
    have h4 : (zeros 44).foldl crc32cByte 3416832760#32 = 2202518067#32 := by decide +kernel
    have h5 : (zeros 44).foldl crc32cByte 2202518067#32 = 847158630#32 := by decide +kernel
    simp only [crc32c, hz, List.foldl_append, h0, h1, h2, h3, h4, h5]
    decide
  simp only [dirValid, h, hc]
  decide +kernel

def bootState (b : BootStep) (length crc : Nat) : State := { at_ { runs [] with boot := b } with mem := directoryMem length crc }

theorem boot_directory (b : BootStep) : (bootState b 16 2528543669).directory = some [imageEntry 16] ∧
    (bootState b 0x100001 3447808665).directory = some [imageEntry 0x100001] := by
  constructor
  · rw [directory_of_mem _ _ _ rfl, show (bootState b 16 2528543669).chip.fresh = 0 from rfl]
    simp only [chooseDirectory, directory_valid]
    clear b
    decide +kernel
  · rw [directory_of_mem _ _ _ rfl, show (bootState b 0x100001 3447808665).chip.fresh = 0 from rfl]
    simp only [chooseDirectory, large_valid]
    clear b
    decide +kernel

theorem image_listed (s : State) (n : Nat) (h : s.directory = some [imageEntry n]) :
    (n ≤ 0x100000 → ∃ e, s.imageBytes 2 = some e) ∧ (0x100000 < n → s.imageBytes 2 = none) ∧ s.imageBytes 1 = none := by
  have h2 : s.imageBytes 2 = if 0x100000 < n then none else
      if Nat.testBit 2 0 = true ∧ (crc32c (s.region (imageEntry n))).toNat ≠ 0 then none else some (s.region (imageEntry n)) := by
    unfold State.imageBytes
    rw [h]
    rfl
  have h1 : s.imageBytes 1 = none := by
    unfold State.imageBytes
    rw [h]
    rfl
  refine ⟨fun hn => ?_, fun hn => ?_, h1⟩
  · rw [h2, if_neg (by omega), if_neg (by simp)]
    exact ⟨_, rfl⟩
  · rw [h2, if_pos hn]

theorem witness_directory :
    let s := bootState .directory 16 2528543669
    let large := bootState .directory 0x100001 3447808665
    s.chip.boot = .directory ∧ s.directory = some [imageEntry 16] ∧ imageOrder [imageEntry 16] = [2, 1] ∧ (∃ e, s.imageBytes 2 = some e) ∧
    large.chip.boot = .directory ∧ large.directory = some [imageEntry 0x100001] ∧ imageOrder [imageEntry 0x100001] = [2, 1] ∧
    large.imageBytes 2 = none ∧ large.imageBytes 1 = none :=
  ⟨rfl, (boot_directory _).1, by decide, (image_listed _ _ (boot_directory _).1).1 (by decide), rfl, (boot_directory _).2, by decide,
    (image_listed _ _ (boot_directory _).2).2.1 (by decide), (image_listed _ _ (boot_directory _).2).2.2⟩

theorem witness_no_directory : (at_ { runs [] with boot := .directory }).directory = none := by decide +kernel

theorem witness_image : (bootState (.image 1 2) 16 2528543669).chip.boot = .image 1 2 ∧
    (∃ e, (bootState (.image 1 2) 16 2528543669).imageBytes 2 = some e) ∧ (bootState (.image 1 2) 16 2528543669).chip.logCount 0 < 32 :=
  ⟨rfl, (image_listed _ _ (boot_directory _).1).1 (by decide), by decide +kernel⟩

/-- The copy that die 1 checks is not of die 0's flash, and comes for the first or the second time. -/
theorem witness_image_copy : ∀ n ∈ [0, 1],
    let x : ImageCopy := { kind := 2, bytes := [1, 2, 3] }
    let c := (runs []).setDie 1 { steward := .booting n, copy := some x }
    (1 : Nat) < dieCount c.member ∧ (c.die 1).steward = .booting n ∧ (c.die 1).copy = some x ∧ c.logCount 1 < 32 := by decide +kernel

theorem witness_profile :
    let c := ({ runs [] with boot := .profile } : Chip).setDie 0 { steward := .running }
    c.boot = .profile ∧ (c.die 0).steward = .running ∧ (runs []).boot ≠ .profile := by decide +kernel

/-- Items of a profile that are valid, and an SPI clock that is not. -/
theorem test_profile_items :
    let p : Profile := { gangMap := 0#32, outputs := [], groups := [], streams := [], channels := [], rails := [], spiMhz := 133 }
    profileOk .pn9802 false p = true ∧ profileOk .pn9802 false { p with spiMhz := 24 } = false := by decide +kernel

theorem witness_standby :
    let c := (runs [(1, TGEN, TGEN.ENTRY, 0x80000000)])
    let ends := (c.setOut 0 { goodbye := 3 }).setOut 1 { goodbye := 3 }
    let again := c.setOut 1 { goodbye := 1 }
    admitted c svc .pkgStandby = true ∧ (∀ o ∈ c.outputs, (c.out o).goodbye = 0) ∧ c.outputs = [0, 1] ∧ c.hasEntry 1 = true ∧
    c.hasEntry 0 = false ∧ admitted again svc .pkgStandby = true ∧ (∃ o ∈ again.outputs, (again.out o).goodbye ≠ 0) ∧
    ends.power = .running ∧ ∀ o ∈ ends.outputs, (ends.out o).goodbye = 3 := by decide +kernel

theorem witness_wake :
    let c : Chip := { runs [(0, AON, PAGE_STATUS, 0x201)] with power := .standby }
    c.power = .standby ∧ (c.port .service).tags.length < 64 ∧ svc.tag ∉ (c.port .service).tags ∧
    arrivalStatus c (Hdr.message svc (.rankSpare 0 0)) = OK ∧ c.asleepStatus (Hdr.message svc (.rankSpare 0 0)) = STATE := by decide +kernel

theorem witness_plls :
    let c := runs [laneIs 0 4 laneLOCK 0]
    c.dieRuns 0 = true ∧ c.state 0 (memcPage 1) ≠ mcFREQ ∧ (∃ l ∈ pllLanes 1, c.lstate 0 l ≠ laneOFF) ∧ ∀ l ∈ pllLanes 0, c.lstate 0 l = laneOFF := by
  decide +kernel

/-! ### Witnesses: modes, timing and scan-out -/

theorem witness_output_mode :
    let c := (composes []).setOut 0 { live := some 5, lineAt := 5000000000, lines := 2250 }
    c.admits svc (.outputMode 0 COMPOSE 0 0) ∧ c.admits svc (.outputMode 0 HOLD 0 0) ∧ (runs []).admits svc (.outputMode 0 HOLD 0 0) ∧
    c.reqs (isOutputMode 0) = [] ∧ c.mode 0 = COMPOSE ∧ legalChange COMPOSE HOLD (c.returnMode 0) = true ∧
    c.changeReady 0 COMPOSE HOLD = true ∧ c.nearBoundary 0 = false ∧ legalChange BRINGUP HOLD ((runs []).returnMode 0) = false ∧ (runs []).mode 0 = BRINGUP ∧
    legalChange COMPOSE LIVE (c.returnMode 0) = true ∧ (composes []).changeReady 0 COMPOSE LIVE = false ∧
    admitted (composes []) svc (.outputMode 0 LIVE 0 0) = true := by decide +kernel

theorem witness_live_source :
    let c := (runs [(0, TGEN, TGEN.OUT_STATE, LIVE)]).setOut 0 { heardAt := 10, lineNo := 75 }
    admitted (runs []) svc (.liveSource 0 1023) = true ∧ c.formed 0 = true ∧ c.mode 0 = LIVE ∧ (c.out 0).heardAt + 65 ≤ (c.out 0).lineNo ∧
    ((runs []).out 0).lineNo < ((runs []).out 0).heardAt + 65 := by decide +kernel

theorem witness_safe_exit :
    let safe := runs [(0, TGEN, TGEN.OUT_STATE, SAFE)]
    let timed := (composes [(0, TGEN, TGEN.OUT_STATE, SAFE)]).setOut 0 { lineAt := 5000000000, lines := 2250 }
    let latched := runs [(0, TGEN, TGEN.OUT_STATE, SAFE), (0, FAULT, FAULT.LATCHED, 1)]
    let st := fun (c : Chip) => ((at_ c).starts svc (.safeExit 0 0)).chip.safeExitStatus ((at_ c).req svc (.safeExit 0 0)) 0 0
    safe.admits svc (.safeExit 0 0) ∧ st safe = OK ∧ safe.hasEntry 0 = false ∧ timed.admits svc (.safeExit 0 0) ∧ st timed = OK ∧
    timed.hasEntry 0 = true ∧ timed.nearBoundary 0 = false ∧ latched.admits svc (.safeExit 0 0) ∧ st latched = BUSY := by decide +kernel

theorem witness_timing_set :
    let c := runs [(0, DLINK, DLINK.CHAINS, 0x10F)]
    let has := composes []
    let v := fun (c : Chip) (n : Nat) => ((at_ c).starts svc (.timingSet 0 n)).chip.stage 0 TGEN TGEN.ENTRY (BitVec.ofNat 32 n)
    admitted c svc (.timingSet 0 63) = true ∧ admitted has svc (.timingSet 0 0) = true ∧ has.committing 0 TGEN = false ∧
    (v c 8).tgenStatus 0 ≠ OK ∧ (v has 0).tgenStatus 0 = OK ∧ (v has 0).sameEntry 0 = true ∧
    admitted (runs []) svc (.timingSet 0 0) = true ∧ (runs []).committing 0 TGEN = false ∧ (v (runs []) 0).tgenStatus 0 = OK ∧ (v (runs []) 0).sameEntry 0 = false := by decide +kernel

theorem witness_frame_boundary :
    let c := composes [(0, TGEN, TGEN.POSITION, 2159 * 65536)]
    let start := ((runs []).stage 0 TGEN TGEN.ENTRY 0#32).setCommit 0 TGEN
    let due : Chip := { start with now := start.now + 2000 }
    c.formed 0 = true ∧ c.power = .running ∧ (c.out 0).bound = false ∧ c.hasEntry 0 = true ∧
    c.get 0 TGEN TGEN.POSITION 31 16 + 1 = (c.entry 0).vActive ∧ (runs []).formed 0 = true ∧ (runs []).hasEntry 0 = false ∧
    due.formed 0 = true ∧ due.power = .running ∧ due.hasEntry 0 = false ∧ due.commitDue 0 TGEN = true ∧
    due.isStaged 0 TGEN TGEN.ENTRY = true ∧ start.commitDue 0 TGEN = false := by decide +kernel

/-- Output 0 of a die with one READY driver lane and one READY group, in line `line` of its timing. -/
def inLine (line : Nat) : Chip :=
  let c := composes ([(0, TGEN, TGEN.POSITION, line * 65536), (0, SLINK, SLINK.GROUP_START, 0), (0, SLINK, SLINK.GROUP_READY, 1),
    laneIs 0 8 laneREADY 2, (0, DLINK, DLINK.CHAINS, 0x101)] ++ (List.range 8).map fun l => laneIs 0 l laneREADY 4)
  c.setOut 0 { lines := 2250 }

theorem witness_line_start :
    let c := inLine 2200
    let last := inLine 2249
    c.formed 0 = true ∧ c.power = .running ∧ c.hasEntry 0 = true ∧ c.nextLine 0 = some 2201 ∧
    (((((at_ c).up fun c => c.hush 0).closeLine 0).chip).out 0).safeDue = none ∧ (c.out 0).bound = false ∧
    (c.entry 0).vActive < (c.out 0).lines ∧ last.nextLine 0 = some 0 ∧ last.get 0 TGEN TGEN.POSITION 31 16 + 1 = (last.out 0).lines ∧
    (inLine 2159).nextLine 0 = none ∧ (inLine 2159).formed 0 = true := by decide +kernel

theorem witness_markers :
    let ends := inLine 2159
    (inLine 2200).drvReady 0 = [8] ∧ (inLine 2200).readyGroups 0 = [0] ∧ ends.drvReady 0 = [8] ∧ ends.formed 0 = true ∧
    ends.power = .running ∧ ends.hasEntry 0 = true ∧ (ends.out 0).bound = false ∧
    ends.get 0 TGEN TGEN.POSITION 31 16 + 1 = (ends.entry 0).vActive := by decide +kernel

theorem witness_te_edge :
    let c := (composes [(0, TGEN, TGEN.POSITION, 100 * 65536), (0, TGEN, TGEN.TE_CTRL, 0x640F01)]).setOut 0 { lines := 2250 }
    let early := (composes [(0, TGEN, TGEN.POSITION, 80 * 65536), (0, TGEN, TGEN.TE_CTRL, 0x640F01)]).setOut 0 { lines := 2250 }
    c.formed 0 = true ∧ c.power = .running ∧ c.hasEntry 0 = true ∧
    (composes []).teMode 0 = 0 ∧ c.teMode 0 ≠ 0 ∧ (c.out 0).teInside = false ∧ (c.teFrom 0 100).natAbs ≤ c.get 0 TGEN TGEN.TE_CTRL 11 8 ∧
    early.teMode 0 ≠ 0 ∧ (early.out 0).teFirst = none ∧ early.teFrom 0 80 < -(15 : Int) ∧ early.get 0 TGEN TGEN.TE_CTRL 11 8 = 15 := by
  decide +kernel

/-- Gate pins: one clock, active for eight lines, with STV_B together with STV_A in the one and never in the other, in active lines;
line 2200 is outside every window, and RISE is 16 core cycles. -/
theorem witness_gate_pins :
    let g := fun (word line : Nat) => (composes [(0, TGEN, TGEN.POSITION, line * 65536), (0, DLINK, DLINK.GATE_CTRL, word)]).setOut 0
      { lines := 2250, lineAt := 5000000000 }
    let on := g 0x1002F0 100
    let never := g 0x1012F0 2200
    (composes []).flag 0 DLINK DLINK.GATE_CTRL 7 = false ∧ (runs []).hasEntry 0 = false ∧ on.get 0 DLINK DLINK.GATE_CTRL 13 12 = 0 ∧
    never.get 0 DLINK DLINK.GATE_CTRL 13 12 ≠ 0 ∧ (on.entry 0).vActive ≤ (on.out 0).lines ∧ on.stvLines 0 ≤ (on.out 0).lines ∧
    on.gatesRun 0 = true ∧ on.clockLine 0 0 99 = true ∧ on.clockLine 0 0 100 = true ∧ on.clockLine 0 0 101 = true ∧
    never.clockLine 0 0 2200 = false ∧ never.clockLine 0 0 2199 = false ∧
    never.now < (never.out 0).lineAt + never.get 0 DLINK DLINK.GATE_CTRL 23 16 := by decide +kernel

theorem witness_backlight : (at_ (runs [])).mayWrite svc TGEN TGEN.BL_PWM 0x80000000#32 ∧ (at_ (runs [])).mayWrite svc TGEN TGEN.BL_PWM 1#32 := by
  decide +kernel

theorem witness_splash :
    let c := drams []
    let loading := withRegs c [(0, SCAN, SCAN.SPLASH_CTRL, 0x100)]
    (at_ c).mayWrite svc SCAN SCAN.SPLASH_CTRL 1#32 ∧ c.get 0 SCAN SCAN.SPLASH_CTRL 9 8 ≠ 1 ∧ loading.formed 0 = true ∧
    loading.get 0 SCAN SCAN.SPLASH_CTRL 9 8 = 1 := by decide +kernel

theorem witness_held_tile :
    let c := (composes [(0, TGEN, TGEN.OUT_STATE, HOLD), (0, memcPage 0, MEMC.CFG, 0x20)]).setOut 0 { held := some 0, planes := #v[{ frame := some 0#32 }, {}] }
    (c.out 0).held = some 0 ∧ ((c.out 0).planes.getD 0 {}).frame = some 0#32 ∧ c.hasEntry 0 = true ∧ heldMode (c.mode 0) = true ∧
    0 < (c.entry 0).w / 64 ∧ 0 < (c.entry 0).vActive / 16 ∧ c.reads 0 0 = true ∧ KMap.get? (c.die 0).heldTiles 0 = none ∧
    planeOwner 0 0 = 0x8000 := by decide +kernel

theorem witness_late_segment :
    let c := (composes [(0, TGEN, TGEN.OUT_STATE, LIVE), (0, TGEN, TGEN.POSITION, 5 * 65536)]).setOut 0 { closed := false }
    let here := c.setDie 0 { livePx := (List.range 64).map fun i => ((0 * 2 ^ 15 + 5) * 4096 + i, blackPx) }
    c.openLine 0 = some 5 ∧ c.mode 0 = LIVE ∧ (c.out 0).black = false ∧ 0 < (c.entry 0).w / 64 ∧ KMap.get? (c.die 0).substs (5 * 64) = none ∧
    (c.die 0).segLive (c.seq 0) 5 0 = none ∧ ((here.die 0).segLive (here.seq 0) 5 0).isSome = true := by decide +kernel

theorem witness_tolerance :
    let c := (runs []).setOut 0 { sigReady := some (1#32, 2#32) }
    c.dieRuns 0 = true ∧ (runs []).hasEntry ((runs []).leadOf 0) = false ∧ (composes []).tolerances 0 0 ≠ [] ∧ c.formed 0 = true ∧ (c.out 0).sigReady = some (1#32, 2#32) ∧ ((runs []).out 0).sigReady = none := by decide +kernel

theorem witness_encoders :
    let j : EncJob := { layer := none, plane := 0, slot := 3, tx := 1, ty := 2, owner := 0x8000, seq := 0, subst := false, pixels := none }
    let c := (drams [(0, CLK, CLK.PLL_STATUS, 7)]).setDie 0 { encQ := [j] }
    takeJob 1 2 (c.die 0).encQ = some (j, []) ∧ takeJob 2 1 (c.die 0).encQ = none ∧ j.pixels = none ∧ c.reads 0 (j.slot / 2 ^ 24) = true ∧
    (runs []).reads 0 0 = false ∧ (runs []).dieRuns 0 = true ∧ (∀ x ∈ [2, 5, 7, 8, 9], KMap.getD ((runs []).die 0).pairs x 0 ≠ 15) := by decide +kernel

/-! ### Witnesses: flash, firmware, identity and the ports -/

theorem witness_flash_commands :
    let erase := Cmd.flashWrite 0x3000#32 []
    let prog := Cmd.flashWrite 0x2000#32 [1, 2, 3]
    let waits := fun cmd => { (at_ (runs [])).req svc cmd with started := true }
    let s := fun cmd => at_ { runs [] with inflight := [waits cmd] }
    admitted (runs []) svc (.flashRead 0x2000#32 56) = true ∧ admitted (runs []) svc erase = true ∧ admitted (runs []) svc prog = true ∧
    (runs []).reqs isFlashWrite = [] ∧ ((s erase).chip.reqs isFlashWrite).head? = some (waits erase) ∧
    ((s prog).chip.reqs isFlashWrite).head? = some (waits prog) ∧
    (∀ i < 3, 0x2000 + i ∉ (s prog).mem.flashOpen ∧ (s prog).mem.flashByte 0 (0x2000 + i) = 0xFF) := by decide +kernel

/-- Both stewards of a PN9802 run, and B28 to B31 belong to them. -/
def stewards : Chip := ((runs []).setDie 0 { steward := .running }).setDie 1 { steward := .running }

theorem witness_firmware :
    let cmd := Cmd.fwActivate 1 0#32 0
    let full := withRegs stewards [(0, BASKET, BASKET.OWNER + 12, 0x55555555)]
    admitted stewards svc cmd = true ∧ (∀ r ∈ stewards.inflight, isFwOpen r = false ∧ isActivate r = false) ∧ stewards.fwStatus 1 0#32 0 = OK ∧
    admitted full svc cmd = true ∧ full.fwStatus 1 0#32 0 = BUSY ∧ stewards.reqs isFwOpen = [] := by decide +kernel

theorem witness_firmware_restart :
    let c : Chip := { stewards with inflight := [{ (at_ stewards).req svc (.fwActivate 1 0#32 0) with started := true }] }
    let s : State := { at_ c with mem := directoryMem 16 2528543669 }
    (c.reqs isFwOpen).head?.map (fun r => r.cmd) = some (.fwActivate 1 0#32 0) ∧
    (∀ d < dieCount c.member, c.answers 0 d = true ∧ c.logCount d < 32) ∧ (∃ e, s.imageBytes (1 + 1) = some e) := by
  refine ⟨by decide +kernel, by decide +kernel, (image_listed _ 16 ?_).1 (by decide)⟩
  rw [directory_of_mem _ _ _ rfl]
  exact (directory_of_mem _ _ _ rfl).symm.trans (boot_directory .idle).1

theorem witness_otp :
    let staged := runs [(0, SEC, SEC.OWNER_STAGE, 5), (0, SEC, PAGE_STATUS, 0x101), (0, SEC, SEC.RUNNING, 4)]
    let enrolled : Chip := staged.setOtp 0 { owner := 5, enrolled := true }
    let busy : Chip := staged.setOtp 0 { prog := some (.counter 3, 0) }
    (at_ staged).mayWrite svc SEC SEC.OTP_CTRL 1#32 ∧ (at_ enrolled).mayWrite svc SEC SEC.OTP_CTRL 2#32 ∧
    (at_ staged).mayWrite svc SEC SEC.ROLLBACK (BitVec.ofNat 32 (2 ^ 31 + 3)) ∧
    (busy.otpOf 0).prog = some (.counter 3, 0) ∧ (staged.otpOf 0).prog = none := by decide +kernel

theorem witness_measurements :
    let c := runs [(0, SEC, PAGE_STATUS, 0x101)]
    (zeros 32).length = 32 ∧ c.logCount 0 < 32 ∧ (at_ c).mayWrite svc SEC SEC.EXT_CTRL (BitVec.ofNat 32 (2 ^ 31 + 256 * 0x80 + 2)) := by
  decide +kernel

theorem witness_identity :
    let c := runs []
    let ready := runs [(0, SEC, PAGE_STATUS, 0x101)]
    let none' := c.setOtp 0 { seed := none }
    let first := c.setOtp 0 { seed := none, booted := false }
    let failed := c.latchCode 0 SEC 1
    c.inReset.contains 0 = false ∧ c.ready 0 SEC = false ∧ 1 ∉ c.codesOf 0 SEC ∧ (c.otpOf 0).seed.isSome = true ∧ (none'.otpOf 0).seed = none ∧
    (none'.otpOf 0).booted = true ∧ (first.otpOf 0).booted = false ∧ admitted failed svc (.attest (zeros 32)) = true ∧ 1 ∈ failed.codesOf 0 SEC ∧
    admitted c svc (.attest (zeros 32)) = true ∧ admitted ready svc (.attest (zeros 32)) = true ∧ ready.ready 0 SEC = true ∧
    ready.reqs isAttest = [] ∧ ready.quote = none := by decide +kernel

theorem witness_quote :
    let r := { (at_ (runs [])).req svc (.attest (zeros 32)) with started := true }
    let c : Chip := { runs [] with inflight := [r], quote := some (r.id, []) }
    c.quote = some (r.id, []) ∧ (c.reqs fun x => isAttest x && decide (x.id = r.id)) = [r] ∧ c.reqs isAttest = [r] ∧
    c.answers (portDie r.port) r.die = true := by decide +kernel

theorem witness_log_read :
    let c := runs [(0, FAULT, FAULT.LOG_HEAD, 12290)]
    admitted c svc (.logRead 2#32 3) = true ∧ admitted c svc (.logRead 1#32 3) = true ∧ c.badWords = [] ∧ c.fixups = [] ∧
    (∀ k < 3, 2 + k < c.num 0 FAULT FAULT.LOG_HEAD ∧ c.num 0 FAULT FAULT.LOG_HEAD ≤ 2 + k + 12288) ∧
    ¬(∀ k < 3, 1 + k < c.num 0 FAULT FAULT.LOG_HEAD ∧ c.num 0 FAULT FAULT.LOG_HEAD ≤ 1 + k + 12288) := by decide +kernel

theorem witness_signature_read :
    let c := runs []
    admitted c svc (.signatureRead 0 0) = true ∧ admitted c svc (.signatureRead 0 1) = true ∧ c.ready 0 SEC = false ∧
    admitted (runs [(0, SEC, PAGE_STATUS, 0x101)]) svc (.signatureRead 0 1) = true ∧ (runs [(0, SEC, PAGE_STATUS, 0x101)]).ready 0 SEC = true := by
  decide +kernel

theorem witness_abort : admitted (runs []) svc (.abort 0 3) = true ∧ admitted (runs []) svc (.abort 1 0) = true := by decide +kernel

theorem witness_time_limits :
    let r := { (at_ (runs [])).req { svc with limit := 1 } (.flashWrite 0x3000#32 []) with accepted := 0 }
    let c : Chip := { runs [] with inflight := [{ r with started := true }] }
    let w : Chip := { runs [] with waiting := [{ r with started := false }] }
    (c.inflight ++ c.waiting).filter (fun q => decide (q.port = .service) && decide (q.tag = 7)) = [{ r with started := true }] ∧
    c.overdue { r with started := true } = true ∧ c.bcast = none ∧
    (w.inflight ++ w.waiting).filter (fun q => decide (q.port = .service) && decide (q.tag = 7)) = [{ r with started := false }] ∧
    w.overdue { r with started := false } = true ∧
    (∀ q ∈ c.inflight ++ c.waiting, q.port = .test → q.tag = 7 → c.overdue q = false) := by decide +kernel

/-- A completion of one part. -/
def part (more : Bool) : Msg :=
  { event := false, opcode := 1, tag := 7, urgent := false, more := more, die := 0, status := 0, aux := 0, payload := [] }

theorem witness_ports :
    let c := (runs []).setPort .service { tags := [7], out := [part false] }
    let t : Chip := { ((runs []).setPort .test { tags := [7], out := [part false] }) with jtagIr := 0x20, jtagCredit := true }
    let more := (runs []).setPort .service { tags := [7], out := [part true] }
    8 ≤ (List.replicate 9 (0 : Byte)).length ∧ ([0, 0, 0, 1, 0, 0, 0, 0, 9] : List Byte).length = 8 + fieldAt [0, 0, 0, 1, 0, 0, 0, 0, 9] 3 1 ∧
    (c.port .service).out = [part false] ∧ (part false).bytes.length ≤ 8 ∧ 7 < (part false).bytes.length ∧ ((runs []).port .service).out = [] ∧
    t.jtagIr = 0x20 ∧ (t.port .test).out = [part false] ∧ t.jtagCredit = true ∧ fieldAt ([0, 0, 4] : List Byte) 2 1 % 4 = 0 ∧
    (runs []).jtagIr ≠ 0x20 ∧ (more.port .service).out = [part true] ∧ (part false).tag = 7 ∧
    (streams.setPort (.inband 0 0) { tags := [7], out := [part false] }).firstReady 0 0 = true := by decide +kernel

theorem witness_mailbox :
    let c := ((runs []).setDie 0 { steward := .running }).setPort (.steward 0) { out := [part false] }
    let s : State := { at_ c with mem := Mem.reset.setWord (basketAddr 0 0 0) 1#32 }
    let full : State := { at_ c with mem := Mem.reset.setWord (basketAddr 0 1 0) 128#32 }
    c.stewardRuns 0 = true ∧ c.dieRuns 0 = true ∧ c.badWords = [] ∧ c.fixups = [] ∧
    s.mem.word (basketAddr 0 0 0) ≠ s.mem.word (basketAddr 0 0 4) ∧ s.mem.word (basketAddr 0 0 4) = (at_ c).mem.word (basketAddr 0 0 0) ∧
    (c.port (.steward 0)).out = [part false] ∧ (s.mem.word (basketAddr 0 1 0) - s.mem.word (basketAddr 0 1 4)).toNat ≠ 128 ∧
    (full.mem.word (basketAddr 0 1 0) - full.mem.word (basketAddr 0 1 4)).toNat = 128 := by decide +kernel

/-! ### Worked values of the manual -/

/-- R160: the check value of CRC-32C over the ASCII bytes "123456789". -/
theorem test_crc32c_check : crc32c [0x31, 0x32, 0x33, 0x34, 0x35, 0x36, 0x37, 0x38, 0x39] = 0xE3069283#32 := by decide +kernel

/-- R174: an 8-bit 0xC8 becomes 0xC8C, and 0xFF becomes 0xFFF. -/
theorem test_canonical : canonical 1 0xC8 = 0xC8C ∧ canonical 1 0xFF = 0xFFF := by decide

/-- The worked packet of the stream link: six 12-bit codes in nine bytes. -/
theorem test_payload : payloadPixels 3 2 [0xBC, 0x3A, 0x12, 0xF0, 0x00, 0x80, 0xFF, 0x17, 0x00] =
    [pxOf 0xABC 0x123 0x0F0, pxOf 0x800 0x7FF 0x001] := by decide +kernel

/-- The worked example of the panel stages: bank, demura, defect boost and dither of one green subpixel. -/
theorem test_panel_example : selectBank (fun k => [10, 25, 40, 55].getD k 0) 31 1 = 1 ∧
    demura 2392 (16896, -16) (16640, -16) (16896, -16) (16640, -16) 7 1 = 2448 ∧
    maskCh [{ line := 900, column := 11520, sub := 2, kind := 1, spread := 64 }] 11519 1 2448 = 3060 ∧
    maskAt none 1 0 900 11519 = 162 ∧ ditherCh 10 0 47940 162 = 749 ∧ maskAt none 1 1 900 11519 = 10 ∧ ditherCh 10 0 47940 10 = 750 := by
  decide +kernel

/-- And its overdrive: four grid nodes of the green channel. -/
theorem test_overdrive_example :
    let node := fun (k v : Nat) (b : List Byte) => (b.set (2 * k) (BitVec.ofNat 8 v)).set (2 * k + 1) (BitVec.ofNat 8 (v / 256))
    let bank := node (289 + 17 * 4 + 8) 300 (node (289 + 17 * 5 + 8) 260 (node (289 + 17 * 4 + 9) 320 (node (289 + 17 * 5 + 9) 280 (zeros 1734))))
    overdrive bank.toArray 1 1100 2100 = 2392 := by decide +kernel

/-- The worked examples of timing and of the driver link: entries 0x3E and 0x3F. -/
theorem test_timing_example : (modeEntry 0x3E).frameCycles = 16666667 ∧ (modeEntry 0x3E).lineCycles 0 = 962 ∧ (modeEntry 0x3E).minRate = 2 ∧
    (modeEntry 0x3E).gang = 3 ∧ (modeEntry 0x3F).frameCycles / (modeEntry 0x3F).vTotal = 481 := by decide +kernel

/-- The plan of the worked window (R416): SLOW_PPM 2,300 gives 5 mV; a delay moves by 2 to 16 units. -/
theorem test_margin_plan :
    (withRegs (runs []) [(3, AGE, AGE.RO + 20, 2300)]).planOffset 3 = 5 ∧ (withRegs (runs []) [(3, AGE, AGE.RETENTION, 9)]).planPin 3 1 = 2 ∧
    planDelay 40 30 53 = 40 ∧ planDelay 40 30 54 = 42 ∧ planDelay 40 80 90 = 40 ∧ planCeiling 4 4 40 47 62 = 4 ∧ planCeiling 4 4 40 47 63 = 3 ∧
    (at_ (runs [])).storeSlot = (0, 1) := by decide +kernel

/-- The worked place of slot 567,663 (R358): RANK 0, ROW 10,136, BA 3; granule 0 in SC 0, BG 1, COL 18. -/
theorem test_dram_place :
    dramPlace 3 283831 0 = { rank := 0, row := 10136, bg := 1, ba := 3, sc := 0, col := 18, unit := 40547 } ∧
    (dramPlace 0 1838599 0).rank = 0 ∧ (dramPlace 0 1838599 1).rank = 1 ∧ (dramPlace 1 0 72).col = 2 ∧ (dramPlace 2 0 72).col = 9 ∧ (dramPlace 0 0 72).col = 36 := by decide +kernel

/-- The worked slot of the frame memory: channel slot 283,831 lies in rank 0, unit 40,547. -/
theorem test_slot_example : layerSlot 567663 = 2 ^ 24 + 283831 ∧ (drams [(0, memcPage 1, MEMC.CFG, 0x320)]).slotPlace 0 1 283831 = (0, 40547) := by
  decide +kernel

/-- R144: differing dies set BCAST_MISMATCH and its event on die 0. -/
theorem test_broadcast_mismatch :
    let t := (after (.bcastRegRead svc (CAL * 0x1000 + PAGE_EVENT_EN) 1) (at_ (runs [(1, CAL, PAGE_EVENT_EN, 7)]))).chip
    t.num 0 SYS SYS.BCAST_MISMATCH = 2 * 2 ^ 24 + CAL * 0x1000 + PAGE_EVENT_EN ∧ bit (t.reg 0 SYS PAGE_EVENT) 0 = true := by decide +kernel

/-- R9 and R20: a command that names die 4 of a PN9802 completes ARG. -/
theorem test_die_out_of_range :
    let t := (after (.regRead { svc with die := 4 } (regWord 4 CAL PAGE_EVENT) 1) (at_ (runs []))).chip
    ((t.port .service).out.map fun m => m.status) = [ARG] := by decide +kernel

/-- R16 and R149: a staged value is read back, and is in effect only after the step point. -/
theorem test_staged_value :
    let s := after (.regWrite svc (regWord 0 CAL CAL.TS_TRIM) [0x01020304#32]) (at_ (runs []))
    let t := after (.commitStepPoint 0 CAL) (after (.pageCommitCommit { svc with tag := 8 } CAL) s)
    s.chip.reg 0 CAL CAL.TS_TRIM = 0#32 ∧ s.chip.stagedReg 0 CAL CAL.TS_TRIM = 0x01020304#32 ∧ t.chip.reg 0 CAL CAL.TS_TRIM = 0x01020304#32 := by
  decide +kernel

/-- The line code of the worked packet: D18.6 in either disparity, and STP under negative disparity; both decode again. -/
theorem test_line_code : encodeSym false (.data 0xD2) = 0b0100110110#10 ∧ encodeSym true (.data 0xD2) = 0b0100110110#10 ∧
    encodeSym false symSTP = 0b1101101000#10 ∧ decodeSym false 0b1101101000#10 = some symSTP ∧
    decodeSym true 0b0100110110#10 = some (.data 0xD2) := by decide +kernel

/-- Its stripe rows on four lanes: 31 symbols in 8 rows, the last filled with PAD. -/
theorem test_stripe :
    let p := packetSyms symSTP (leBytes 8 0x00020064001104D2 ++ leBytes 8 0x3C03 ++ [0xBC, 0x3A, 0x12, 0xF0, 0x00, 0x80, 0xFF, 0x17, 0x00]) symEND
    p.length = 31 ∧ (stripe 0x0F p).map (fun l => (l.1, l.2.length)) = [(0, 8), (1, 8), (2, 8), (3, 8)] ∧
      ((stripe 0x0F p).map fun l => l.2.take 2) = [[symSTP, .data 0x00], [.data 0xD2, .data 0x64], [.data 0x04, .data 0x00], [.data 0x11, .data 0x02]] ∧
      ((stripe 0x0F p).map fun l => l.2.getD 7 symIDL).drop 2 = [symEND, symPAD] := by decide +kernel

/-- R177: SEQ 0x3C beside the current frame 0x1A3B is frame 0x1A3C. -/
theorem test_extend_seq : extendSeq 0x3C 0x1A3B = (0x1A3C, true) := by decide

/-- The worked example of the driver link, with H = 2, eight phases and one start line: of rows 896 to 903, GCK0_4 is active for row 900,
during lines 900 and 901, and STV0_A during the last line of the frame. -/
theorem test_gate_example :
    let c := (runs [(0, TGEN, TGEN.ENTRY, 0x3F), (0, DLINK, DLINK.GATE_CTRL, 0x197)]).setOut 0 { lines := 17320 }
    c.gatePhases 0 = 8 ∧ c.gateHigh 0 = 2 ∧ c.stvLines 0 = 1 ∧
      (List.range 10).map (fun j => c.clockLine 0 4 (896 + j)) = [false, false, false, false, true, true, false, false, false, false] ∧
      c.startLine 0 17319 = true ∧ c.startLine 0 0 = false := by decide +kernel

end Sys2Proof
end

section
/-! PROOFS. Reading after writing (O8). -/

namespace Sys2Proof.Machine

/-- Slot numbers below 2^32 tell the die and the slot of a key apart. -/
theorem slotKey_inj {d n e k : Nat} (hn : n < 2 ^ 32) (hk : k < 2 ^ 32) : slotKey e k = slotKey d n ↔ e = d ∧ k = n := by
  unfold slotKey; omega

/-- Settles O8: what each of the four memories reads after a write, with the keys of two places told apart. -/
theorem readAfterWrite : Obligations.ReadAfterWrite := by
  refine ⟨fun m a b w => m.word_setWord a w b, fun m d n e k bs hn hk => ?slot, fun m fresh a b v => m.flashByte_setFlash fresh a v b,
    fun c d p o e q x w hp ho hq hx => ?register⟩
  case slot => rw [Mem.slot_setSlot]; simp only [slotKey_inj hn hk]
  case register => rw [Chip.reg_setReg]; simp only [ra_inj hq hx hp ho]

end Sys2Proof.Machine
end

section
/-! PROOFS. Commands on arrival: what a row of the table that is a command message does, up to the point at which the command runs
(R21, R110 to R112), and the lowest of several statuses (R21). -/

namespace Sys2Proof.Machine

/-! ### The lowest status (R21) -/

/-- One step of `lowest`: the smaller of two statuses, 0 counting as none. -/
def lower (a b : Nat) : Nat := if a = 0 then b else if b = 0 then a else min a b

theorem lowest_eq_foldl (l : List Nat) : lowest l = l.foldl lower 0 := rfl

theorem foldl_lower_eq_zero (l : List Nat) (a : Nat) : l.foldl lower a = 0 ↔ a = 0 ∧ ∀ x ∈ l, x = 0 := by
  induction l generalizing a with
  | nil => simp
  | cons b l ih =>
    have h : lower a b = 0 ↔ a = 0 ∧ b = 0 := by unfold lower; grind
    simp [ih, h, and_assoc]

/-- Several checks pass together when each of them passes. -/
theorem lowest_eq_ok (l : List Nat) : lowest l = OK ↔ ∀ x ∈ l, x = OK := by
  rw [lowest_eq_foldl, foldl_lower_eq_zero]; simp

theorem foldl_lower_le (l : List Nat) (a : Nat) :
    (a ≠ 0 → l.foldl lower a ≤ a) ∧ ∀ x ∈ l, x ≠ 0 → l.foldl lower a ≤ x := by
  induction l generalizing a with
  | nil => simp
  | cons b l ih =>
    obtain ⟨hstart, hrest⟩ := ih (lower a b)
    have h : ∀ y, y = a ∨ y = b → y ≠ 0 → lower a b ≠ 0 ∧ lower a b ≤ y := by unfold lower; grind
    refine ⟨fun ha => ?_, fun x hx hx0 => ?_⟩
    · exact (hstart (h a (.inl rfl) ha).1).trans (h a (.inl rfl) ha).2
    · rcases List.mem_cons.1 hx with rfl | hx
      · exact (hstart (h x (.inr rfl) hx0).1).trans (h x (.inr rfl) hx0).2
      · exact hrest x hx hx0

/-- A failed check bounds the status from above. -/
theorem lowest_le {l : List Nat} {x : Nat} (hx : x ∈ l) (h : x ≠ OK) : lowest l ≤ x := (foldl_lower_le l 0).2 x hx h

/-- Where the class of the port is too low the status is AUTH, or the one status below it (R21). -/
theorem lowest_of_auth {l : List Nat} (h : AUTH ∈ l) : lowest l = AUTH ∨ lowest l = STATE := by
  have hle : lowest l ≤ AUTH := lowest_le h (by decide)
  have hne : lowest l ≠ OK := fun h0 => absurd ((lowest_eq_ok l).1 h0 _ h) (by decide)
  simp only [AUTH, STATE, OK] at *; omega

/-! ### Arrival -/

/-- Every row that is a command message reaches its port as that message (R109, R123). -/
theorem exec_of_asCommand {i : Instr} {h : Hdr} {cmd : Cmd} (s : State) (hi : i.asCommand = some (h, cmd)) :
    exec i s = s.command h cmd := by
  cases i <;> simp only [Instr.asCommand, Option.some.injEq, Prod.mk.injEq, reduceCtorEq] at hi
  case pageEventClear g p w sets =>
    cases sets with
    | cons b l => simp at hi
    | nil =>
      obtain ⟨rfl, rfl⟩ : g = h ∧ oneWord g p PAGE_EVENT w = cmd := by simpa using hi
      show execPageEventClear g p w [] s = s.writeOne g p PAGE_EVENT w
      unfold execPageEventClear State.writeOne State.command
      split <;> simp_all
  all_goals obtain ⟨rfl, rfl⟩ := hi; rfl

/-- A message reaches the port it names when the member has the port's die. -/
theorem State.command_of_port (s : State) (h : Hdr) (cmd : Cmd) (hp : portDie h.port < dieCount s.chip.member) :
    s.command h cmd = .next (s.accept (Hdr.message h cmd)) := if_pos hp

/-- The chip once a port has accepted a message: its tag is in use, and it has a number (R111). -/
def Chip.tagged (c : Chip) (p : Port) (tag : Byte) : Chip :=
  { c.setPort p { c.port p with tags := (c.port p).tags ++ [tag] } with nextReq := c.nextReq + 1 }

/-- A message that its port accepts and the checks on arrival refuse is answered with the lowest status (R21, R110). -/
theorem State.accept_refused (s : State) (a : Arrival) (hh : s.chip.hears a.port = true)
    (hc : (s.chip.port a.port).tags.length < portCredits a.port) (ht : a.tag ∉ (s.chip.port a.port).tags)
    (hst : lowest [arrivalStatus s.chip a, s.chip.asleepStatus a] ≠ OK) :
    s.accept a = s.up fun c => (c.tagged a.port a.tag).answer a.port a.opcode a.tag a.die
      (lowest [arrivalStatus s.chip a, s.chip.asleepStatus a]) 0 [] := by
  unfold State.accept
  rw [if_neg (by simp [hh]), if_neg (by omega), if_neg (by simpa using ht)]
  dsimp only
  split
  · rfl
  · rw [if_pos hst]; rfl

/-- While the clocks run, an accepted message that passes the checks on arrival is offered to its target (R110). -/
theorem State.accept_offered (s : State) (a : Arrival) (cmd : Cmd) (hcmd : a.cmd = some cmd) (hpow : s.chip.power = .running)
    (hh : s.chip.hears a.port = true) (hc : (s.chip.port a.port).tags.length < portCredits a.port)
    (ht : a.tag ∉ (s.chip.port a.port).tags) (hst : arrivalStatus s.chip a = OK) :
    s.accept a = (s.up fun c => c.tagged a.port a.tag).offer (s.chip.request a cmd) := by
  have hpass : lowest [arrivalStatus s.chip a, s.chip.asleepStatus a] = OK := by
    rw [lowest_eq_ok]; simp [hst, Chip.asleepStatus, hpow]
  unfold State.accept
  rw [if_neg (by simp [hh]), if_neg (by omega), if_neg (by simpa using ht)]
  dsimp only
  rw [hcmd]
  dsimp only
  rw [if_neg (not_not_intro hpass), if_pos hpow]
  rfl

/-- A command that nothing holds back, and whose dies all answer, is judged at its target, and runs when it is not refused. -/
theorem State.offer_answered (s : State) (r : Req) (hwait : s.chip.mustWait r = false)
    (hans : ∀ d ∈ (if isBcast r.cmd then s.chip.dies' else [r.die]), s.chip.answers (portDie r.port) d = true) :
    s.offer r =
      let u := s.up fun c => { c with inflight := c.inflight ++ [{ r with started := true }] }
      if u.chip.targetStatus { r with started := true } = OK then u.run { r with started := true }
      else u.done { r with started := true } (lowest [u.chip.targetStatus { r with started := true }, u.chip.ownStatus { r with started := true }]) := by
  have hthere : ¬((if isBcast r.cmd then s.chip.dies' else [r.die]).any (fun d => !s.chip.answers (portDie r.port) d) = true) := by
    simpa [List.any_eq_true] using hans
  unfold State.offer
  rw [if_neg (by simp [hwait])]
  unfold State.launch
  exact if_neg hthere

/-- A message that its port hears, and that neither the checks on arrival nor a broadcast write nor an absent die stops, comes to its
target: it is refused there, or runs (R21, R79, R93, R112). -/
theorem State.accept_heard (s : State) (h : Hdr) (cmd : Cmd) (ha : s.chip.hearsCommand (Hdr.message h cmd) cmd) :
    s.accept (Hdr.message h cmd) =
      if (s.starts h cmd).chip.targetStatus (s.req h cmd) = OK then (s.starts h cmd).run (s.req h cmd)
      else (s.starts h cmd).done (s.req h cmd)
        (lowest [(s.starts h cmd).chip.targetStatus (s.req h cmd), (s.starts h cmd).chip.ownStatus (s.req h cmd)]) := by
  obtain ⟨hcmd, -, hpow, hh, hc, ht, hst, hwait, hans⟩ := ha
  rw [s.accept_offered _ cmd hcmd hpow hh hc ht hst]
  exact State.offer_answered _ _ hwait hans

/-- What the rows of the table do with a message that comes to its target. -/
theorem exec_heard {i : Instr} {h : Hdr} {cmd : Cmd} {s : State} (hi : i.asCommand = some (h, cmd))
    (ha : s.chip.hearsCommand (Hdr.message h cmd) cmd) :
    exec i s = .next (if (s.starts h cmd).chip.targetStatus (s.req h cmd) = OK then (s.starts h cmd).run (s.req h cmd)
      else (s.starts h cmd).done (s.req h cmd)
        (lowest [(s.starts h cmd).chip.targetStatus (s.req h cmd), (s.starts h cmd).chip.ownStatus (s.req h cmd)])) := by
  rw [exec_of_asCommand s hi, s.command_of_port h cmd ha.2.1, s.accept_heard h cmd ha]

/-- An admitted command runs in the state in which it starts. -/
theorem exec_admitted {i : Instr} {h : Hdr} {cmd : Cmd} {s : State} (hi : i.asCommand = some (h, cmd)) (ha : s.chip.admits h cmd) :
    exec i s = .next ((s.starts h cmd).run (s.req h cmd)) := by
  rw [exec_heard hi ha.1]; exact congrArg _ (if_pos ha.2)

/-- An admitted command names a die of the member (R9, R110). -/
theorem die_lt_of_admits {c : Chip} {h : Hdr} {cmd : Cmd} (ha : c.admits h cmd) : h.die < dieCount c.member := by
  obtain ⟨⟨-, -, -, -, -, -, hst, -⟩, -⟩ := ha
  have := (lowest_eq_ok _).1 hst _ (List.mem_cons_self ..)
  by_contra hlt
  rw [if_neg (fun hx => hlt hx.1)] at this
  exact absurd this (by decide)

/-- What an admitted command names is there (R8, R9, R112, R124). -/
theorem namesOk_of_admits {c : Chip} {h : Hdr} {cmd : Cmd} (ha : c.admits h cmd) :
    namesOk (c.taken (Hdr.message h cmd) cmd) h.die cmd = true := by
  have := (lowest_eq_ok _).1 ha.2 _ (List.mem_cons_of_mem _ (List.mem_cons_self ..))
  by_contra hn
  rw [if_neg (by exact hn)] at this
  exact absurd this (by decide)

theorem dieCount_le (m : Member) : dieCount m ≤ 8 := by cases m <;> decide

/-- A completion without payload is one message at the end of its port's queue (R113). -/
theorem Chip.answer_nil (c : Chip) (p : Port) (op : Nat) (tag : Byte) (die st dt : Nat) :
    (c.answer p op tag die st dt []).regs = c.regs ∧ (c.answer p op tag die st dt []).inflight = c.inflight ∧
      (c.answer p op tag die st dt []).port p = { c.port p with out := (c.port p).out ++ completionParts 0 op tag die st dt [] } := by
  refine ⟨rfl, rfl, ?_⟩
  show (c.send p _).port p = _
  unfold Chip.send
  rw [Chip.port_setPort, if_pos rfl]
  rfl

theorem refusedOnArrival : Claim.RefusedOnArrival := by
  intro i h cmd s hi hp hh hc ht st hst
  refine ⟨_, (exec_of_asCommand s hi).trans ((s.command_of_port h cmd hp).trans (congrArg _ (s.accept_refused _ hh hc ht hst))),
    rfl, ?_⟩
  obtain ⟨hregs, hflight, hport⟩ := (s.chip.tagged h.port h.tag).answer_nil h.port (opcodeOf cmd) h.tag h.die st 0
  refine ⟨hregs, hflight, hport.trans ?_⟩
  have htagged : (s.chip.tagged h.port h.tag).port h.port =
      { s.chip.port h.port with tags := (s.chip.port h.port).tags ++ [h.tag] } := by
    show (s.chip.setPort h.port _).port h.port = _
    rw [Chip.port_setPort, if_pos rfl]
  rw [htagged]

theorem refusedAtTheTarget : Claim.RefusedAtTheTarget := by
  intro i h cmd s hi ha u st hst
  rw [exec_heard hi ha, if_neg hst]

/-! ### Writes of registers (R20, R21, R124) -/

/-- The words of a REG_WRITE that its target takes lie in one page of the register map (R13, R124). -/
theorem page_of_wordAddrs {a n x : Nat} (hx : x ∈ wordAddrs a n) (hfit : a % 0x1000 + 4 * n ≤ 0x1000) : x / 0x1000 = a / 0x1000 := by
  obtain ⟨i, hi, rfl⟩ := List.mem_map.1 hx
  have := List.mem_range.1 hi
  omega

/-- Only a commit of the TGEN page has its refusal reported by an event (R281). -/
theorem Chip.noteRefused_of_page_ne (c : Chip) (d x : Nat) (w : Word) (hx : x / 0x1000 ≠ TGEN) : c.noteRefused d x w = c := by
  unfold Chip.noteRefused place Chip.eventIf
  split_ifs <;> simp_all

theorem Chip.foldl_noteRefused (l : List (Nat × Word)) (c : Chip) (d : Nat) (hl : ∀ x ∈ l, x.1 / 0x1000 ≠ TGEN) :
    l.foldl (fun c x => c.noteRefused d x.1 x.2) c = c := by
  induction l generalizing c with
  | nil => rfl
  | cons x l ih =>
    rw [List.foldl_cons, c.noteRefused_of_page_ne d x.1 x.2 (hl x (List.mem_cons_self ..))]
    exact ih c fun y hy => hl y (List.mem_cons_of_mem _ hy)

/-- The words of an admitted REG_WRITE fit into one unit of 4 KiB (R124). -/
theorem fit_of_admits {c : Chip} {h : Hdr} {a : Word} {ws : List Word} (ha : c.admits h (.regWrite a ws)) :
    a.toNat % 0x1000 + 4 * ws.length ≤ 0x1000 := by
  have hn := namesOk_of_admits ha
  simp only [namesOk, cmdOutput, cmdLane, addrOk, Bool.and_eq_true, decide_eq_true_eq] at hn
  obtain ⟨-, ⟨⟨⟨-, hfit⟩, -⟩, -⟩, -⟩ := hn
  exact hfit

/-- A REG_WRITE that some word is refused for completes with the lowest status of its words (R21, R124). -/
theorem State.regWrite_refused (s : State) (r : Req) (d x : Nat) (ws : List Word) (h : s.chip.writesStatus r.port d x ws ≠ OK) :
    s.regWrite r d x ws = (s.up fun c => ((wordAddrs x ws.length).zip ws).foldl (fun c a => c.noteRefused d a.1 a.2) c).done r
      (s.chip.writesStatus r.port d x ws) := if_pos h

/-- A REG_WRITE that no word is refused for writes its words (R124). -/
theorem State.regWrite_taken (s : State) (r : Req) (d x : Nat) (ws : List Word) (h : s.chip.writesStatus r.port d x ws = OK) :
    s.regWrite r d x ws = (s.writeWords r.port d x ws).1.done r (if (s.writeWords r.port d x ws).2 then OK else FAIL) :=
  if_neg (not_not_intro h)

/-- A REG_WRITE to the window of a die runs at that die (R132). -/
theorem State.run_regWrite (s : State) (r : Req) (a : Word) (ws : List Word) (hr : r.cmd = .regWrite a ws)
    (ha : a.toNat / 0x1000000 < 8) : s.run r = s.regWrite r r.die (a.toNat % 0x1000000) ws := by
  unfold State.run
  rw [hr]
  exact if_neg (by omega)

/-- A refused REG_WRITE outside the TGEN page leaves everything as it was (R21, R281). -/
theorem State.regWrite_refused_off_tgen (s : State) (r : Req) (d x : Nat) (ws : List Word)
    (h : s.chip.writesStatus r.port d x ws ≠ OK) (hx : ∀ y ∈ wordAddrs x ws.length, y / 0x1000 ≠ TGEN) :
    s.regWrite r d x ws = s.done r (s.chip.writesStatus r.port d x ws) := by
  have hnote := Chip.foldl_noteRefused ((wordAddrs x ws.length).zip ws) s.chip d fun y hy => hx y.1 (List.of_mem_zip hy).1
  rw [s.regWrite_refused r d x ws h]
  simp only [State.up, hnote]

theorem refusedWriteWritesNothing : Claim.RefusedWriteWritesNothing := by
  intro s h a ws ha hdie hpage u st hst
  have hunit : ∀ x ∈ wordAddrs (a.toNat % 0x1000000) ws.length, x / 0x1000 ≠ TGEN := by
    intro x hx
    have hfit := fit_of_admits ha
    rw [page_of_wordAddrs hx (by omega)]
    exact hpage
  have hrun := State.run_regWrite u (s.req h (.regWrite a ws)) a ws rfl hdie
  have hdone := State.regWrite_refused_off_tgen u (s.req h (.regWrite a ws)) h.die (a.toNat % 0x1000000) ws hst hunit
  rw [exec_admitted (i := .regWrite h a ws) rfl ha]
  exact congrArg Host.Outcome.next (hrun.trans hdone)

/-- Basket words and their aliases fill the upper part of a die's window (R133, R135). -/
theorem place_of_basket (d x : Nat) (hx : 0x400000 ≤ x) : ∃ a, place d x ∈ [Place.setAlias a, .clearAlias a, .word a] := by
  unfold place
  rw [if_neg (by omega), if_neg (by omega)]
  split_ifs <;> simp

theorem writeNeedsItsClass : Claim.WriteNeedsItsClass := by
  refine ⟨fun c p direct d x w hx hclass => ?basket, fun c p direct d pg o w k hk hclass => ?register⟩
  case basket =>
    obtain ⟨a, ha⟩ := place_of_basket d x hx
    have hauth : c.writeStatus p direct d x w =
        lowest [AUTH, c.basketStatus d (basketOf a) (c.ownerFor p d (basketOf a)) direct] := by
      unfold Chip.writeStatus
      simp only [List.mem_cons, List.not_mem_nil, or_false] at ha
      rcases ha with ha | ha | ha <;> simp only [ha, if_pos hclass]
    rw [hauth]
    exact lowest_of_auth (List.mem_cons_self ..)
  case register =>
    have hneed : c.portClass p < needClass k o := by
      unfold needClass
      split_ifs
      · exact lt_max_of_lt_right hclass
      · exact hclass
    unfold Chip.regStatus
    rw [hk]
    dsimp only
    rw [if_pos hneed]
    exact lowest_of_auth (List.mem_cons_of_mem _ (List.mem_cons_self ..))

/-- Settles O15: a refused command only completes, a refused REG_WRITE writes nothing, and a port below the class of a page or of the
baskets gets AUTH or the one status below it. -/
theorem refusedCommands : Obligations.RefusedCommands :=
  ⟨refusedOnArrival, refusedAtTheTarget, refusedWriteWritesNothing, writeNeedsItsClass⟩

end Sys2Proof.Machine
end

section
/-! PROOFS. Commits and aborts of a page, and its step point (O16; R16, R149). -/

namespace Sys2Proof.Machine

/-! ### What is staged and what is pending -/

/-- Dropping keys leaves what the other keys hold. -/
theorem KMap.get?_filter {α : Type} (m : KMap α) {p : Nat × α → Bool} (q : Nat → Bool) (hpq : ∀ kv, p kv = q kv.1) (k : Nat) :
    KMap.get? (m.filter p) k = if q k then KMap.get? m k else none := by
  induction m with
  | nil => simp
  | cons x m ih =>
    obtain ⟨a, v⟩ := x
    rw [List.filter_cons, hpq]
    by_cases hak : a = k
    · subst hak; by_cases hq : q a <;> simp [KMap.get?, hq, ih]
    · by_cases hq : q a <;> simp [KMap.get?, hq, ih, hak]

/-- Page and die of a register address, as `unstage` and `stagedOf` tell them. -/
theorem ra_div (d p o : Nat) (ho : o < 0x1000) : ra d p o / 0x1000 = pageKey d p := by unfold ra pageKey; omega

theorem pageKey_inj {d p e q : Nat} (hp : p < 0x1000) (hq : q < 0x1000) : pageKey e q = pageKey d p ↔ e = d ∧ q = p := by
  unfold pageKey; omega

theorem Chip.reg_unstage (c : Chip) (d p e q o : Nat) : (c.unstage d p).reg e q o = c.reg e q o := rfl

/-- Dropping the staged words of a page: its registers read as they are in effect, those of other pages as before. -/
theorem Chip.stagedReg_unstage (c : Chip) (d p e q o : Nat) (ho : o < 0x1000) :
    (c.unstage d p).stagedReg e q o = if pageKey e q = pageKey d p then c.reg e q o else c.stagedReg e q o := by
  have hget : KMap.get? (c.unstage d p).staged (ra e q o) = _ :=
    KMap.get?_filter c.staged (fun a => decide (a / 0x1000 ≠ pageKey d p)) (fun _ => rfl) (ra e q o)
  rw [ra_div e q o ho] at hget
  show (KMap.get? (c.unstage d p).staged (ra e q o)).getD (c.reg e q o) = _
  rw [hget]
  by_cases h : pageKey e q = pageKey d p
  · rw [if_pos h, if_neg (by simpa using h)]; exact Option.getD_none
  · rw [if_neg h, if_pos (by simpa using h)]; rfl

theorem Chip.stagedOf_unstage (c : Chip) (d p : Nat) : (c.unstage d p).stagedOf d p = [] := by
  simp [Chip.stagedOf, Chip.unstage, List.filter_filter]

theorem Chip.committing_clearCommit (c : Chip) (d p : Nat) : (c.clearCommit d p).committing d p = false := by
  simp [Chip.committing, Chip.clearCommit]

theorem abortReturnsToInEffect : Claim.AbortReturnsToInEffect := by
  intro c d p hp
  refine ⟨rfl, Chip.committing_clearCommit _ d p, fun o ho => ?own, fun e q o ho hq hne => ?other⟩
  case own => exact (c.stagedReg_unstage d p d p o ho).trans (if_pos rfl)
  case other =>
    refine (c.stagedReg_unstage d p e q o ho).trans (if_neg fun h => hne ?_)
    obtain ⟨rfl, rfl⟩ := (pageKey_inj hp hq).1 h
    rfl

theorem stepPointApplies : Claim.StepPointApplies := by
  intro s d hd hc
  refine ⟨?step, fun c hcc => ?_⟩
  case step =>
    have hstep : s.stepPoint d CAL = s.up fun c => (c.applyStaged d CAL).clearCommit d CAL := if_neg (by simp [hc])
    exact (if_pos hd).trans (congrArg Host.Outcome.next hstep)
  · subst hcc
    exact ⟨Chip.committing_clearCommit _ d CAL, Chip.stagedOf_unstage _ d CAL⟩

/-! ### A REG_WRITE of one register (R124) -/

theorem pageKind_lt {p : Nat} {k : PageKind} (h : pageKind p = some k) : p < 0x111 := by
  by_contra hp
  simp (disch := omega) only [pageKind, SYS, AON, CLK, PWR, FAULT, CAL, AGE, SEC, STEWARD, PORT_SVC, PORT_INB, BRIDGE, SLINK, DLINK,
    TGEN, SCAN, COMP, PANEL_OD, PANEL_DM, PANEL_DT, CODEC, BASKET, RAMBLER, MODES, if_neg, reduceCtorEq] at h

/-- The address of a register splits into its die and its place in the die's window. -/
theorem regWord_toNat {d p o : Nat} (hd : d < 8) (hp : p < 0x1000) (ho : o < 0x1000) :
    (regWord d p o).toNat / 0x1000000 = d ∧ (regWord d p o).toNat % 0x1000000 = p * 0x1000 + o := by
  have : (regWord d p o).toNat = ra d p o := by
    unfold regWord; rw [BitVec.toNat_ofNat]; apply Nat.mod_eq_of_lt; unfold ra; omega
  rw [this]; unfold ra; omega

/-- A page of the register map stands at its place in the window of every die (R133). -/
theorem place_of_page (d : Nat) {p o : Nat} {k : PageKind} (hk : pageKind p = some k) (ho : o < 0x1000) :
    place d (p * 0x1000 + o) = .reg p o := by
  have hp := pageKind_lt hk
  have hpage : (p * 0x1000 + o) / 0x1000 = p := by omega
  have hoff : (p * 0x1000 + o) % 0x1000 = o := by omega
  unfold place
  rw [if_pos (by omega), hpage, hoff, hk]
  rfl

/-- A REG_WRITE of one word of a page writes that register. -/
theorem State.writeWords_one (s : State) (port : Port) (d : Nat) {p o : Nat} {k : PageKind} (w : Word) (hk : pageKind p = some k)
    (ho : o < 0x1000) : s.writeWords port d (p * 0x1000 + o) [w] = (s.portWrite port d p o w, true) := by
  have hword : s.writeWord port 5 d (p * 0x1000 + o) w = (s.portWrite port d p o w, true) := by
    unfold State.writeWord
    rw [place_of_page d hk ho]
  unfold State.writeWords State.writeList
  rw [show wordAddrs (p * 0x1000 + o) [w].length = [p * 0x1000 + o] by simp [wordAddrs]]
  simp only [List.zip_cons_cons, List.zip_nil_right, List.foldl_cons, List.foldl_nil, hword, Bool.and_self]

/-- A write of a register that no later port of the cycle outdoes has its effect, and is noted (R115). -/
theorem State.portWrite_last {s : State} {port : Port} {d p o : Nat} {w : Word} {f : Chip → Chip} (hlast : ¬s.chip.outdone port d p o)
    (hf : s.writeReg d p o w = s.up f) : s.portWrite port d p o w = s.up fun c => (f c).noted c port d p o := by
  unfold State.portWrite State.when
  rw [hf]
  dsimp only
  rw [if_neg hlast]
  rfl

/-- A REG_WRITE of one register whose value is judged OK writes it, is noted, and completes OK (R115, R124). -/
theorem State.run_oneWord {s : State} {r : Req} {h : Hdr} {p o : Nat} {k : PageKind} {w : Word} {f : Chip → Chip}
    (hr : r.cmd = oneWord h p o w) (hport : r.port = h.port) (hdie : r.die = h.die) (hd : h.die < 8) (hk : pageKind p = some k)
    (ho : o < 0x1000) (hst : s.chip.writesStatus h.port h.die (p * 0x1000 + o) [w] = OK) (hlast : ¬s.chip.outdone h.port h.die p o)
    (hf : s.writeReg h.die p o w = s.up f) : s.run r = (s.up fun c => (f c).noted c h.port h.die p o).done r OK := by
  have hp := pageKind_lt hk
  obtain ⟨hwin, hplace⟩ := regWord_toNat hd (show p < 0x1000 by omega) ho
  rw [State.run_regWrite s r (regWord h.die p o) [w] hr (by omega), hplace, hdie,
    State.regWrite_taken _ _ _ _ _ (by rw [hport]; exact hst), State.writeWords_one _ _ _ w hk ho, hport, State.portWrite_last hlast hf]
  rfl

/-- An admitted write of one register, whose value is judged OK and which no later port of the cycle outdoes, has its effect (R115, R124). -/
theorem exec_mayWrite {i : Instr} {h : Hdr} {s : State} {p o : Nat} {k : PageKind} {w : Word}
    (hi : i.asCommand = some (h, oneWord h p o w)) (hk : pageKind p = some k) (ho : o < 0x1000) (hw : s.mayWrite h p o w)
    {f : Chip → Chip} (hf : (s.starts h (oneWord h p o w)).writeReg h.die p o w = (s.starts h (oneWord h p o w)).up f) :
    exec i s = .next (s.wrote h p o w f) := by
  obtain ⟨⟨ha, hst⟩, hlast⟩ := hw
  have hd : h.die < 8 := lt_of_lt_of_le (die_lt_of_admits ha) (dieCount_le _)
  rw [exec_admitted hi ha]
  exact congrArg Host.Outcome.next (State.run_oneWord rfl rfl rfl hd hk ho hst hlast hf)

/-- What a write of PAGE_COMMIT does (R149). -/
theorem State.writeReg_commit (s : State) {d p : Nat} {k : PageKind} (w : Word) (hk : hasHeader d p k) :
    s.writeReg d p PAGE_COMMIT w = s.up fun c => if bit w 1 then c.abortCommit d p k else if bit w 0 then c.commitPage d p k else c := by
  obtain ⟨hkind, hlayer, hsvc⟩ := hk
  unfold State.writeReg
  rw [hkind]
  dsimp only
  rw [if_neg (fun h => h.2 (hsvc h.1)), if_neg hlayer, if_neg (by decide), if_neg (by decide), if_pos rfl]

/-- A commit of a page without rules of its own (R149). -/
theorem Chip.commitPage_plain (c : Chip) (d p : Nat) {k : PageKind} (hk : plainCommit k) :
    c.commitPage d p k = if c.stagedChange d p then c.setCommit d p else c.unstage d p := by
  simp only [plainCommit, List.mem_cons, List.not_mem_nil, or_false, not_or] at hk
  obtain ⟨htgen, hod, hdm, hdt, hdlink⟩ := hk
  have hstaged : c.hasStaged d p k = c.stagedChange d p := by
    unfold Chip.hasStaged
    split <;> simp_all
  unfold Chip.commitPage
  simp only [hstaged, htgen, hod, hdm, hdt, if_false, or_false]

/-- An abort of a page without rules of its own (R149). -/
theorem Chip.abortCommit_plain (c : Chip) (d p : Nat) {k : PageKind} (hk : plainAbort k) : c.abortCommit d p k = c.abortPage d p := by
  simp only [plainAbort, List.mem_cons, List.not_mem_nil, or_false, not_or] at hk
  unfold Chip.abortCommit
  split <;> simp_all

theorem pageCommitCompletes : Claim.PageCommitCompletes := by
  intro s h p k hk
  refine ⟨fun hplain hw => ⟨fun hch => ?commit, fun hch => ?nothing⟩, fun hplain hw => ?abort⟩
  case commit =>
    refine exec_mayWrite rfl hk.1 (by decide) hw ((State.writeReg_commit _ 1#32 hk).trans ?_)
    unfold State.up
    dsimp only
    rw [if_neg (by decide), if_pos (by decide), Chip.commitPage_plain _ _ _ hplain, if_pos (by exact hch)]
  case nothing =>
    refine exec_mayWrite rfl hk.1 (by decide) hw ((State.writeReg_commit _ 1#32 hk).trans ?_)
    unfold State.up
    dsimp only
    rw [if_neg (by decide), if_pos (by decide), Chip.commitPage_plain _ _ _ hplain, if_neg (by rw [Bool.not_eq_true]; exact hch)]
  case abort =>
    refine exec_mayWrite rfl hk.1 (by decide) hw ((State.writeReg_commit _ 2#32 hk).trans ?_)
    unfold State.up
    dsimp only
    rw [if_pos (by decide), Chip.abortCommit_plain _ _ _ hplain]

/-- Settles O16: COMMIT makes the staged values pending, ABORT discards them, and the step point of the calibration page applies them. -/
theorem pageCommits : Obligations.PageCommits := ⟨pageCommitCompletes, abortReturnsToInEffect, stepPointApplies⟩

end Sys2Proof.Machine
end

section
/-! PROOFS. Frame boundaries (O54): the statement is about every state, and one that no run reaches breaks it. A CAL_RUN that ends
without results puts back the registers that it lists (R71); nothing in the state's type keeps FRAME_SEQ out of that list. -/

namespace Sys2Proof.Machine

/-- A CAL_RUN of output 0 that has been started. -/
def startedCalRun : Req :=
  { id := 0, port := .service, tag := 7, opcode := 0x30, die := 0, limit := 0, cmd := .calRun [0, 1, 0, 0], accepted := 0, started := true,
    pnr := false, aux := 0, orphan := false }

/-- Output 0 of a running PN9802 in the last active line of frame 0, in MEASURE with return mode HOLD and one frame of its window left,
while a CAL_RUN is in progress whose list of registers to put back holds FRAME_SEQ of die 0 with the value 7. -/
def strayUndo : State :=
  let c : Chip := { Chip.reset with member := .pn9802, power := .running, porN := true, now := 5000000000, nextReq := 1,
                                    inflight := [startedCalRun] }
  let c := ((c.setNum 0 TGEN TGEN.ENTRY (2 ^ 31)).setNum 0 TGEN TGEN.POSITION (2159 * 65536)).setNum 0 TGEN TGEN.OUT_STATE
    (0x100 + HOLD * 16 + MEASURE)
  { State.reset with chip := c.setOut 0 { cal := some { undo := [(ra 0 TGEN TGEN.FRAME_SEQ, 7#32)] } } }

/-- In that state the boundary of output 0 is due, and frame 0 is about to end on die 0. -/
theorem strayUndo_boundaryDue :
    strayUndo.chip.formed 0 = true ∧ strayUndo.chip.power = .running ∧ strayUndo.chip.hasEntry 0 = true ∧
      (strayUndo.chip.out 0).bound = false ∧ strayUndo.chip.get 0 TGEN TGEN.POSITION 31 16 + 1 = (strayUndo.chip.entry 0).vActive ∧
      0 ∈ strayUndo.chip.gang 0 ∧ strayUndo.chip.seq 0 = 0 := by decide +kernel

/-- The boundary ends the window, and with it the CAL_RUN, whose list then overwrites the number of the frame that begins. -/
theorem strayUndo_frameSeq : (strayUndo.frameBoundary 0).chip.num 0 TGEN TGEN.FRAME_SEQ = 7 := by decide +kernel

/-- The boundary of a formed output is carried out. -/
theorem exec_frameBoundary (s : State) (o : Nat) (h : s.chip.formed o = true) : exec (.frameBoundary o) s = .next (s.frameBoundary o) := by
  have hmember : o < dieCount s.chip.member := by
    simp only [Chip.formed, Bool.and_eq_true, decide_eq_true_eq] at h
    exact h.1
  show onOutput s o (fun s => s.frameBoundary o) = _
  rw [onOutput, if_pos hmember, if_pos h]

/-- A boundary does not number the frame that begins one higher than the frame that ends, in every state (R280, R298). -/
theorem not_frameBoundaries : ¬Claim.FrameBoundaries := by
  rintro ⟨-, hbegins⟩
  obtain ⟨hformed, hpower, hentry, hbound, hline, hdie, hseq⟩ := strayUndo_boundaryDue
  obtain ⟨t, ht, -, -, -, hnumber⟩ := hbegins strayUndo 0 hformed hpower hentry hbound hline
  rw [exec_frameBoundary strayUndo 0 hformed] at ht
  obtain rfl := Host.Outcome.next.inj ht
  have hone := hnumber 0 hdie
  rw [hseq, strayUndo_frameSeq] at hone
  exact absurd hone (by decide)

/-- Refutes O54: at a frame boundary that ends a MEASURE window, the list of registers that a CAL_RUN puts back may hold FRAME_SEQ, so
that the frame that begins has number 7 where 1 is claimed. The state is not reachable: a CAL_RUN lists registers of the CAL page only. -/
theorem not_framesAndLines : ¬Obligations.FramesAndLines := fun h => not_frameBoundaries h.1

end Sys2Proof.Machine
end

section
/-! PROOFS. The pages CLK and BRIDGE, and what is staged on BRIDGE: what the operations on lanes, groups and commands leave as it was
there. Each operation has one lemma, about the view `Chip.clkBridge`; a view is a function of the chip, so that the lemmas rewrite. -/

namespace Sys2Proof.Machine

/-- A page of the map other than CLK and BRIDGE. -/
def offClkBridge (p : Nat) : Bool := decide (p < 0x1000) && decide (p ≠ CLK) && decide (p ≠ BRIDGE)

/-- What is staged and pending on the BRIDGE page of die 0, where the gang map is committed (R29 to R31), and the member. -/
structure BridgeStaging where
  member  : Member
  staged  : List (Nat × Word)
  pending : Bool

/-- The same, with the words of CLK and BRIDGE of every die. -/
structure ClkBridge where
  staging : BridgeStaging
  words   : Nat → Fin 0x1000 → Word × Word

def Chip.staging (c : Chip) : BridgeStaging := ⟨c.member, c.stagedOf 0 BRIDGE, c.committing 0 BRIDGE⟩

def Chip.clkBridge (c : Chip) : ClkBridge := ⟨c.staging, fun d o => (c.reg d CLK o, c.reg d BRIDGE o)⟩

/-! ### What two chips of one view have in common -/

theorem Chip.staging_of_clkBridge {c c' : Chip} (h : c'.clkBridge = c.clkBridge) : c'.staging = c.staging :=
  congrArg ClkBridge.staging h

theorem Chip.reg_of_clkBridge {c c' : Chip} (h : c'.clkBridge = c.clkBridge) (d o : Nat) (ho : o < 0x1000) :
    c'.reg d CLK o = c.reg d CLK o ∧ c'.reg d BRIDGE o = c.reg d BRIDGE o :=
  Prod.mk.inj (congrFun (congrFun (congrArg ClkBridge.words h) d) ⟨o, ho⟩)

/-- An operation that changes registers of other pages only keeps the view. -/
theorem Chip.clkBridge_of_touches {c c' : Chip} {q : Nat → Prop} (h : c.touches c' q)
    (hq : ∀ a, q a → offClkBridge (pageOf a) = true) : c'.clkBridge = c.clkBridge := by
  have hkeep : ∀ d p o, offClkBridge p = false → p < 0x1000 → o < 0x1000 → c'.reg d p o = c.reg d p o := by
    intro d p o hp hp' ho
    refine Chip.touches_reg h d p o fun hx => ?_
    have hoff := hq _ hx
    rw [pageOf_ra d p o hp' ho, hp] at hoff
    exact absurd hoff (by decide)
  have hstaged : c'.staged = c.staged := by rw [h.1]
  have hcommits : c'.commits = c.commits := by rw [h.1]
  have hreg : (fun d (o : Fin 0x1000) => (c'.reg d CLK o, c'.reg d BRIDGE o)) =
      fun d (o : Fin 0x1000) => (c.reg d CLK o, c.reg d BRIDGE o) := by
    funext d o
    rw [hkeep d CLK o rfl (by decide) o.2, hkeep d BRIDGE o rfl (by decide) o.2]
  unfold Chip.clkBridge Chip.staging Chip.stagedOf Chip.committing
  rw [hreg, hstaged, hcommits, Chip.touches_member h]

/-- A view of the chip that one round keeps is kept by all of them. -/
theorem Chip.each_keeps {α β : Type} (v : Chip → β) (c : Chip) (l : List α) {f : Chip → α → Chip}
    (h : ∀ c x, x ∈ l → v (f c x) = v c) : v (c.each l f) = v c := by
  unfold Chip.each
  induction l generalizing c with
  | nil => rfl
  | cons x l ih => exact (ih _ fun c y hy => h c y (List.mem_cons_of_mem _ hy)).trans (h c x (List.mem_cons_self ..))

theorem State.each_keeps {α β : Type} (v : State → β) (s : State) (l : List α) {f : State → α → State}
    (h : ∀ s x, x ∈ l → v (f s x) = v s) : v (s.each l f) = v s := by
  unfold State.each
  induction l generalizing s with
  | nil => rfl
  | cons x l ih => exact (ih _ fun s y hy => h s y (List.mem_cons_of_mem _ hy)).trans (h s x (List.mem_cons_self ..))

theorem Chip.each_clkBridge {α : Type} (c : Chip) (l : List α) (f : Chip → α → Chip)
    (h : ∀ c x, x ∈ l → (f c x).clkBridge = c.clkBridge) : (c.each l f).clkBridge = c.clkBridge := each_keeps Chip.clkBridge c l h

@[simp] theorem Chip.clkBridge_ite (b : Prop) [Decidable b] (x y : Chip) :
    (if b then x else y).clkBridge = if b then x.clkBridge else y.clkBridge := apply_ite ..

/-! ### Pages and offsets -/

theorem lt_of_offClkBridge {p : Nat} (h : offClkBridge p = true) : p < 0x1000 := by
  simp only [offClkBridge, Bool.and_eq_true, decide_eq_true_eq] at h
  exact h.1.1

@[simp] theorem offClkBridge_blocks : offClkBridge SYS = true ∧ offClkBridge PORT_INB = true ∧ offClkBridge SLINK = true ∧
    offClkBridge DLINK = true := by decide

@[simp] theorem offClkBridge_lanePage {l : Nat} (h : l < 24) : offClkBridge (lanePage l) = true := by
  revert l; decide

theorem offClkBridge_memphyPage {ch : Nat} (h : ch < 2) : offClkBridge (memphyPage ch) = true := by
  revert ch; decide

@[simp] theorem offset_in_page : PAGE_STATUS < 0x1000 ∧ LANE.STATUS < 0x1000 ∧ LANE.CTRL < 0x1000 ∧ LANE.FOM < 0x1000 ∧ LANE.LOOP < 0x1000 ∧
    LANE.RETRAIN_COUNT < 0x1000 ∧ DLINK.DRV_RESULT < 0x1000 ∧ SLINK.GROUP_READY < 0x1000 := by decide

theorem offClkBridge_eventReg {d p a : Nat} (hp : offClkBridge p = true) (h : eventReg d p a) : offClkBridge (pageOf a) = true := by
  have hp' := lt_of_offClkBridge hp
  rcases h with rfl | rfl | ⟨h, -⟩ | ⟨h, -⟩
  · rwa [pageOf_ra d p _ hp' (by decide)]
  · rwa [pageOf_ra d p _ hp' (by decide)]
  · rw [h]; decide
  · rw [h]; decide

/-! ### Registers and events -/

section
variable (c : Chip) (d : Nat) {p o : Nat} (hp : offClkBridge p = true) (ho : o < 0x1000)
include hp

theorem Chip.clkBridge_of_touches_reg {c c' : Chip} {d : Nat} (h : c.touches c' fun a => a = ra d p o) (ho : o < 0x1000) :
    c'.clkBridge = c.clkBridge := by
  refine clkBridge_of_touches h fun a ha => ?_
  subst ha
  rwa [pageOf_ra d p o (lt_of_offClkBridge hp) ho]

include ho in
@[simp] theorem Chip.setReg_clkBridge (w : Word) : (c.setReg d p o w).clkBridge = c.clkBridge :=
  clkBridge_of_touches_reg hp (c.touches_setReg d p o w) ho
include ho in
@[simp] theorem Chip.put_clkBridge (hi lo v : Nat) : (c.put d p o hi lo v).clkBridge = c.clkBridge := c.setReg_clkBridge d hp ho _
include ho in
@[simp] theorem Chip.setNum_clkBridge (v : Nat) : (c.setNum d p o v).clkBridge = c.clkBridge := c.setReg_clkBridge d hp ho _
include ho in
@[simp] theorem Chip.count_clkBridge : (c.count d p o).clkBridge = c.clkBridge := c.setReg_clkBridge d hp ho _

@[simp] theorem Chip.setState_clkBridge (v : Nat) : (c.setState d p v).clkBridge = c.clkBridge := c.put_clkBridge d hp (by decide) _ _ _
@[simp] theorem Chip.setBusy_clkBridge (b : Bool) : (c.setBusy d p b).clkBridge = c.clkBridge := c.put_clkBridge d hp (by decide) _ _ _
@[simp] theorem Chip.setDegraded_clkBridge (b : Bool) : (c.setDegraded d p b).clkBridge = c.clkBridge := c.put_clkBridge d hp (by decide) _ _ _

@[simp] theorem Chip.events_clkBridge (sets : List Nat) : (c.events d p sets).clkBridge = c.clkBridge :=
  clkBridge_of_touches (c.touches_events d p sets) fun _ => offClkBridge_eventReg hp
@[simp] theorem Chip.event_clkBridge (b : Nat) : (c.event d p b).clkBridge = c.clkBridge := c.events_clkBridge d hp [b]

@[simp] theorem Chip.setReady_clkBridge (b : Bool) : (c.setReady d p b).clkBridge = c.clkBridge := by
  simp [Chip.setReady, Chip.noteReady, hp]

end

@[simp] theorem Chip.noteReady_clkBridge (old c : Chip) (d : Nat) : (Chip.noteReady old c d).clkBridge = c.clkBridge := by simp [Chip.noteReady]

/-! ### Units and commands -/

@[simp] theorem Chip.setOut_clkBridge (c : Chip) (o : Nat) (x : OutSt) : (c.setOut o x).clkBridge = c.clkBridge := rfl
@[simp] theorem Chip.setLane_clkBridge (c : Chip) (d l : Nat) (x : LaneSt) : (c.setLane d l x).clkBridge = c.clkBridge := rfl
@[simp] theorem Chip.setDie_clkBridge (c : Chip) (d : Nat) (x : DieSt) : (c.setDie d x).clkBridge = c.clkBridge := rfl
@[simp] theorem Chip.setRxMap_clkBridge (c : Chip) (d f v : Nat) : (c.setRxMap d f v).clkBridge = c.clkBridge := rfl
@[simp] theorem Chip.sendOn_clkBridge (c : Chip) (d l : Nat) (syms : List Sym) : (c.sendOn d l syms).clkBridge = c.clkBridge := rfl
theorem Chip.carried_clkBridge (c : Chip) (m : KMap (List Nat)) : ({ c with carried := m } : Chip).clkBridge = c.clkBridge := rfl
@[simp] theorem Chip.losePort_clkBridge (c : Chip) (d f : Nat) : (c.losePort d f).clkBridge = c.clkBridge := rfl

@[simp] theorem Chip.reply_clkBridge (c : Chip) (r : Req) (st dt : Nat) (bs : List Byte) : (c.reply r st dt bs).clkBridge = c.clkBridge := by
  unfold Chip.reply
  dsimp only
  split
  · rfl
  · exact (clkBridge_of_touches (q := fun _ => False) (touches_answer ..) fun _ => False.elim).trans rfl

@[simp] theorem Chip.finish_clkBridge (c : Chip) (r : Req) (st dt : Nat) (bs : List Byte) : (c.finish r st dt bs).clkBridge = c.clkBridge := by
  unfold Chip.finish
  split
  · exact c.reply_clkBridge ..
  · rfl

@[simp] theorem Chip.finishAll_clkBridge (c : Chip) (p : Req → Bool) (st dt : Nat) : (c.finishAll p st dt).clkBridge = c.clkBridge :=
  each_clkBridge c _ (fun c r => c.finish r st dt []) fun c r _ => c.finish_clkBridge r st dt []

/-! ### Lanes (R190 to R217) -/

@[simp] theorem Chip.endDrv_clkBridge (c : Chip) (d st : Nat) : (c.endDrv d st).clkBridge = c.clkBridge := by simp [Chip.endDrv]
@[simp] theorem Chip.drvLost_clkBridge (c : Chip) (d l : Nat) : (c.drvLost d l).clkBridge = c.clkBridge := by simp [Chip.drvLost]

theorem Chip.loseStreams_clkBridge (c : Chip) (d f : Nat) : (c.loseStreams d f).clkBridge = c.clkBridge := by
  refine each_clkBridge c _ _ fun c o _ => ?_
  dsimp only
  split <;> simp

theorem groupLmap_in_page (c : Chip) (d f : Nat) : SLINK.GROUP_LMAP + 4 * c.groupNumber d f < 0x1000 := by
  have := c.groupNumber_le d f
  show 0x060 + 4 * _ < 0x1000
  omega

theorem Chip.groupDown_clkBridge (c : Chip) (d f : Nat) : (c.groupDown d f).clkBridge = c.clkBridge := by
  unfold Chip.groupDown
  dsimp only
  split
  · rw [Chip.event_clkBridge _ _ rfl, Chip.noteInband, Chip.setReady_clkBridge _ _ rfl, Chip.sendOn_clkBridge, Chip.setRxMap_clkBridge,
      Chip.losePort_clkBridge, Chip.carried_clkBridge, Chip.setDegraded_clkBridge _ _ rfl,
      Chip.setNum_clkBridge _ _ rfl (groupLmap_in_page ..), Chip.put_clkBridge _ _ rfl (by decide), Chip.put_clkBridge _ _ rfl (by decide)]
  · rfl

theorem Chip.spareLost_clkBridge (c : Chip) (d f : Nat) : (c.spareLost d f).clkBridge = c.clkBridge := by simp [Chip.spareLost]

section
variable (c : Chip) (d : Nat) {l : Nat} (hl : l < 24)
include hl

@[simp] theorem Chip.lput_clkBridge {o : Nat} (ho : o < 0x1000) (hi lo v : Nat) : (c.lput d l o hi lo v).clkBridge = c.clkBridge := by
  simp [Chip.lput, hl, ho]
@[simp] theorem Chip.levent_clkBridge (b : Nat) : (c.levent d l b).clkBridge = c.clkBridge := by simp [Chip.levent, hl]
@[simp] theorem Chip.showFails_clkBridge : (c.showFails d l).clkBridge = c.clkBridge := by simp [Chip.showFails, hl]
@[simp] theorem Chip.setFails_clkBridge (n r : Nat) : (c.setFails d l n r).clkBridge = c.clkBridge := by simp [Chip.setFails, hl]
@[simp] theorem Chip.setRate_clkBridge (r : Nat) : (c.setRate d l r).clkBridge = c.clkBridge := by simp [Chip.setRate, hl]
@[simp] theorem Chip.setLaneState_clkBridge (v : Nat) : (c.setLaneState d l v).clkBridge = c.clkBridge := by simp [Chip.setLaneState, hl]
@[simp] theorem Chip.startAttempt_clkBridge : (c.startAttempt d l).clkBridge = c.clkBridge := by simp [Chip.startAttempt, hl]

omit hl in
theorem Chip.laneLost_clkBridge : (c.laneLost d l).clkBridge = c.clkBridge := by
  unfold Chip.laneLost
  dsimp only
  split_ifs
  · rfl
  · exact (groupDown_clkBridge ..).trans (loseStreams_clkBridge ..)
  · rfl
  · exact c.spareLost_clkBridge d _
  · rfl

theorem Chip.depart_clkBridge (b : Bool) : (c.depart d l b).clkBridge = c.clkBridge := by
  unfold Chip.depart
  simp [Chip.laneLost_clkBridge, hl]

theorem Chip.laneAgain_clkBridge : (c.laneAgain d l).clkBridge = c.clkBridge := by
  unfold Chip.laneAgain
  split_ifs
  · exact c.depart_clkBridge d hl false
  · exact c.startAttempt_clkBridge d hl
  · rfl

omit hl in
theorem Chip.snapLane_clkBridge : (c.snapLane d l).clkBridge = c.clkBridge := by
  unfold Chip.snapLane
  dsimp only
  split_ifs <;> rfl

theorem Chip.signalLost_clkBridge (statusBit eventBit : Nat) : (c.signalLost d l statusBit eventBit).clkBridge = c.clkBridge := by
  unfold Chip.signalLost
  simp [Chip.depart_clkBridge, Chip.snapLane_clkBridge, Chip.endFar, hl]

end

end Sys2Proof.Machine
end

section
/-! PROOFS. The queue (O2; R51). -/

namespace Sys2Proof.Machine

/-- Settles O2: with nothing waiting a step is one core cycle. -/
theorem emptyQueueLetsACyclePass : Obligations.EmptyQueueLetsACyclePass := by
  intro s h
  unfold step
  rw [h]

end Sys2Proof.Machine
end

section
/-! PROOFS. Fields of registers, and what an event of one page leaves as it was (R13, R152). -/

namespace Sys2Proof.Machine

theorem testBit_bits (w : Word) (hi lo i : Nat) : (bits w hi lo).testBit i = (decide (i < hi + 1 - lo) && bit w (lo + i)) := by
  simp [bits, bit, Nat.testBit_mod_two_pow, Nat.testBit_shiftRight]

/-- Nat form of `setBits`: the part below the field, the field, and the part above it. -/
theorem testBit_replace (n lo k v j : Nat) :
    (n - (n >>> lo % 2 ^ k) <<< lo + (v % 2 ^ k) <<< lo).testBit j =
      if lo ≤ j ∧ j < lo + k then v.testBit (j - lo) else n.testBit j := by
  have hsplit : n = 2 ^ lo * (2 ^ k * (n / 2 ^ lo / 2 ^ k) + n / 2 ^ lo % 2 ^ k) + n % 2 ^ lo := by
    rw [Nat.div_add_mod, Nat.div_add_mod]
  have hlow : n % 2 ^ lo < 2 ^ lo := Nat.mod_lt _ (by positivity)
  have hnew : n - (n >>> lo % 2 ^ k) <<< lo + (v % 2 ^ k) <<< lo =
      2 ^ lo * (2 ^ k * (n / 2 ^ lo / 2 ^ k) + v % 2 ^ k) + n % 2 ^ lo := by
    rw [Nat.shiftRight_eq_div_pow, Nat.shiftLeft_eq, Nat.shiftLeft_eq]
    have h1 : n = 2 ^ lo * (2 ^ k * (n / 2 ^ lo / 2 ^ k)) + (n / 2 ^ lo % 2 ^ k) * 2 ^ lo + n % 2 ^ lo := by
      rw [Nat.mul_comm (n / 2 ^ lo % 2 ^ k), ← Nat.mul_add]; exact hsplit
    rw [Nat.mul_add, Nat.mul_comm (2 ^ lo) (v % 2 ^ k)]
    omega
  rw [hnew, Nat.testBit_two_pow_mul_add _ hlow, Nat.testBit_two_pow_mul_add _ (Nat.mod_lt _ (by positivity))]
  conv_rhs => rw [hsplit]
  rw [Nat.testBit_two_pow_mul_add _ hlow, Nat.testBit_two_pow_mul_add _ (Nat.mod_lt _ (by positivity))]
  by_cases h1 : j < lo
  · simp [h1]
  · by_cases h2 : j < lo + k
    · simp [h1, h2, Nat.testBit_mod_two_pow, show lo ≤ j by omega, show j - lo < k by omega]
    · simp [h1, h2, show ¬ j - lo < k by omega]

/-- A bit of a word with one field replaced (R13). -/
theorem bit_setBits (w : Word) {hi lo : Nat} (v : Nat) {j : Nat} (hlo : lo ≤ hi) (hj : j < 32) :
    bit (setBits w hi lo v) j = if lo ≤ j ∧ j ≤ hi then v.testBit (j - lo) else bit w j := by
  unfold bit setBits bits
  rw [BitVec.toNat_ofNat, Nat.testBit_mod_two_pow, testBit_replace]
  simp [hj, show j < lo + (hi + 1 - lo) ↔ j ≤ hi by omega]

/-- A flag of a register after the write of another one of its flags, or of the same one. -/
theorem Chip.flag_put (c : Chip) (d p o n v : Nat) {j : Nat} (hj : j < 32) :
    (c.put d p o n n v).flag d p o j = if j = n then v.testBit 0 else c.flag d p o j := by
  rw [Chip.flag, Chip.put_eq, Chip.reg_setReg, if_pos rfl, bit_setBits _ _ le_rfl hj]
  by_cases h : j = n
  · subst h; simp
  · rw [if_neg h, if_neg (by omega)]; rfl

/-- An event bit of one page leaves the registers of every other page but the ports', and those of its own page but two. -/
theorem Chip.reg_event (c : Chip) (d p b : Nat) {e q o : Nat} (hp : p < 0x1000) (hq : q < 0x1000) (ho : o < 0x1000)
    (hport : q ≠ PORT_SVC ∧ q ≠ PORT_INB) (hne : q ≠ p ∨ o ≠ PAGE_EVENT ∧ o ≠ PAGE_EVENT_LOST) :
    (c.event d p b).reg e q o = c.reg e q o := by
  refine Chip.touches_reg (c.touches_event d p b) e q o ?_
  rintro (h | h | h)
  · obtain ⟨-, rfl, rfl⟩ := (ra_inj hq ho hp (by decide)).1 h
    exact hne.elim (fun h => h rfl) (fun h => h.1 rfl)
  · obtain ⟨-, rfl, rfl⟩ := (ra_inj hq ho hp (by decide)).1 h
    exact hne.elim (fun h => h rfl) (fun h => h.2 rfl)
  · rcases h with ⟨h, -⟩ | ⟨h, -⟩ <;> rw [pageOf_ra e q o hq ho] at h
    · exact hport.1 h
    · exact hport.2 h

end Sys2Proof.Machine
end

section
/-! PROOFS. Supplies, the start of boot, and PLLs (O52; R54, R56, R77, R101, R471). -/

namespace Sys2Proof.Machine

/-- Two changes of the chip that agree on it. -/
theorem State.up_congr {s : State} {f g : Chip → Chip} (h : f s.chip = g s.chip) : s.up f = s.up g := by
  unfold State.up
  rw [h]

/-- The outcome of a row that changes the chip only. -/
theorem State.next_up_eq {s : State} {f : Chip → Chip} {c : Chip} (h : f s.chip = c) :
    (.next (s.up f) : Host.Outcome State Fault Refusal) = .next { s with chip := c } := by rw [State.up, h]

/-! ### The start of boot (R77, R83) -/

theorem bootBegins : Claim.BootBegins := by
  refine ⟨fun s hp => ?noRise, fun s hp hr => ?railsOut, fun s hp hr => ?porLast, fun s hr => ?noRails, fun s hr hp => ?porHeld,
    fun s hr hp => ?railsLast⟩
  case noRise => exact State.next_up_eq (if_pos hp)
  case railsOut => exact State.next_up_eq ((if_neg (ne_true_of_eq_false hp)).trans (if_neg hr))
  case porLast => exact State.next_up_eq ((if_neg (ne_true_of_eq_false hp)).trans (if_pos hr))
  case noRails => exact State.next_up_eq (if_pos hr)
  case porHeld => exact State.next_up_eq ((if_neg hr).trans (if_neg (ne_true_of_eq_false hp)))
  case railsLast => exact State.next_up_eq ((if_neg hr).trans (if_pos hp))

/-! ### OFF (R77, R101, R471) -/

/-- What an interrupted OTP operation may change. -/
theorem Chip.otpCut_eq (c : Chip) (d : Nat) : ∃ otp n, c.otpCut d = { c with otp := otp, fresh := n } := by
  unfold Chip.otpCut
  dsimp only
  split
  · exact ⟨c.otp, c.fresh, rfl⟩
  · exact ⟨_, _, rfl⟩

theorem Chip.each_otpCut_eq (c : Chip) (l : List Nat) : ∃ otp n, c.each l Chip.otpCut = { c with otp := otp, fresh := n } := by
  induction l generalizing c with
  | nil => exact ⟨c.otp, c.fresh, rfl⟩
  | cons d l ih =>
    obtain ⟨otp, n, h⟩ := c.otpCut_eq d
    obtain ⟨otp', n', h'⟩ := ih (c.otpCut d)
    exact ⟨otp', n', h'.trans (by rw [h])⟩

/-- The level of VDDQ_MEM is all that is written into the registers of a package in OFF. -/
theorem Chip.touches_keepVddq (old c : Chip) :
    c.touches (old.keepVddq c) fun a => ∃ d ch, ch < 2 ∧ a = ra d (memphyPage ch) MEMPHY.PHY_STATUS := by
  refine Chip.touches_foldl _ _ _ c fun c d _ => Chip.touches_foldl _ _ _ c fun c ch hch => ?_
  refine Chip.touches_mono (c.touches_put ..) fun a ha => ⟨d, ch, ?_, ha⟩
  simp only [List.mem_cons, List.not_mem_nil, or_false] at hch
  omega

/-- Every output is in BRINGUP after reset (R61). -/
theorem resetAt_outState (m : Member) : ∀ d < 8, bits (resetAt m (ra d TGEN TGEN.OUT_STATE)) 2 0 = BRINGUP := by
  cases m <;> decide

/-- A package that has gone to OFF (R77, R101). -/
theorem Chip.powerOff_spec (c : Chip) : c.powerOff.power = .off ∧ c.powerOff.porN = c.porN ∧ c.powerOff.inReset = c.inReset ∧
    c.powerOff.inflight = [] ∧ c.powerOff.waiting = [] ∧ ∀ o < 8, c.powerOff.mode o = BRINGUP := by
  obtain ⟨otp, n, hotp⟩ := c.each_otpCut_eq c.dies'
  unfold Chip.powerOff
  rw [hotp]
  dsimp only
  generalize hx : ({ Chip.reset with member := c.member, porN := c.porN, now := c.now, startAt := c.now, fresh := n, fuseOpen := c.fuseOpen,
                                     inReset := c.inReset, otp := otp, jtagIr := c.jtagIr, jtagCredit := c.jtagCredit,
                                     jtagDr := c.jtagDr } : Chip) = x
  have ht := Chip.touches_keepVddq { c with otp := otp, fresh := n } x
  have hsame := ht.1
  refine ⟨?_, ?_, ?_, ?_, ?_, fun o ho => ?mode⟩
  case mode =>
    have hreg : x.reg o TGEN TGEN.OUT_STATE = resetAt x.member (ra o TGEN TGEN.OUT_STATE) := by subst hx; rfl
    rw [Chip.mode, Chip.get, Chip.touches_reg ht o TGEN TGEN.OUT_STATE, hreg, resetAt_outState _ o ho]
    rintro ⟨d, ch, hch, h⟩
    have hpage : ∀ ch < 2, memphyPage ch < 0x1000 ∧ TGEN ≠ memphyPage ch := by decide
    exact (hpage ch hch).2 ((ra_inj (by decide) (by decide) (hpage ch hch).1 (by decide)).1 h).2.1
  all_goals rw [hsame]; subst hx; rfl

/-- A flash write that is cut off leaves the flash as it was, and bytes of it unspecified (R101). -/
theorem State.each_spoilWrite (s : State) (l : List Req) :
    (s.each l fun s r => s.spoilWrite r).mem.flash = s.mem.flash ∧ (s.each l fun s r => s.spoilWrite r).chip = s.chip := by
  refine Prod.mk.inj (State.each_keeps (fun s : State => (s.mem.flash, s.chip)) s l fun s r _ => ?_)
  unfold State.spoilWrite
  split
  · split <;> rfl
  · rfl

/-- The package in OFF: the memories but the flash are lost (R77, R101). -/
theorem State.powerOff_spec (s : State) : s.powerOff.chip = s.chip.powerOff ∧ s.powerOff.mem.baskets = [] ∧ s.powerOff.mem.dram = [] ∧
    s.powerOff.mem.flash = s.mem.flash := by
  obtain ⟨hflash, hchip⟩ := s.each_spoilWrite s.chip.inflight
  exact ⟨congrArg Chip.powerOff hchip, rfl, rfl, hflash⟩

/-- A brown-out: OFF, with the die held in reset (R471). -/
theorem State.brownOut_spec (s : State) (d : Nat) : (s.brownOut d).chip.power = .off ∧ (s.brownOut d).chip.porN = s.chip.porN ∧
    (s.brownOut d).chip.inReset.contains d = true ∧ (s.brownOut d).chip.inflight = [] ∧ (s.brownOut d).mem.baskets = [] ∧
    (s.brownOut d).mem.dram = [] ∧ (s.brownOut d).mem.flash = s.mem.flash ∧ ∀ o < 8, (s.brownOut d).chip.mode o = BRINGUP := by
  obtain ⟨hchip, hbaskets, hdram, hflash⟩ := s.powerOff_spec
  obtain ⟨hpower, hpor, -, hflight, -, hmode⟩ := s.chip.powerOff_spec
  rw [← hchip] at hpower hpor hflight hmode
  refine ⟨hpower, hpor, ?_, hflight, hbaskets, hdram, hflash, hmode⟩
  show (if s.powerOff.chip.inReset.contains d then s.powerOff.chip.inReset else d :: s.powerOff.chip.inReset).contains d = true
  split
  · assumption
  · simp

theorem powerGoesOff : Claim.PowerGoesOff := by
  refine ⟨fun s => ?por, fun s d rail hd => ?brownOut, fun s d hd hruns => ?core⟩
  case por =>
    let u : State := { s with chip := { s.chip with porN := false } }
    obtain ⟨hchip, hbaskets, hdram, hflash⟩ := u.powerOff_spec
    obtain ⟨hpower, hpor, -, hflight, hwaiting, hmode⟩ := u.chip.powerOff_spec
    rw [← hchip] at hpower hpor hflight hwaiting hmode
    exact ⟨u.powerOff, rfl, hpower, hpor, hflight, hwaiting, hbaskets, hdram, hflash, hmode⟩
  case brownOut =>
    have hexec : exec (.brownOut d rail) s = .next (s.brownOut d) := if_pos hd
    obtain ⟨hpower, hpor, hheld, hflight, hbaskets, hdram, hflash, hmode⟩ := s.brownOut_spec d
    exact ⟨_, hexec, hpower, hpor, hheld, hflight, hbaskets, hdram, hflash, hmode⟩
  case core =>
    have hexec : exec (.pllLoss d .core) s = .next ((s.up fun c => (c.count d CLK CLK.PLL_LOSS_COUNT).event d CLK 0).brownOut d) := by
      exact (if_pos hd).trans (congrArg _ (if_neg (by simp [hruns])))
    obtain ⟨hpower, -, hheld, -⟩ := (s.up fun c => (c.count d CLK CLK.PLL_LOSS_COUNT).event d CLK 0).brownOut_spec d
    exact ⟨_, hexec, hpower, hheld⟩

/-! ### PLLs (R54) -/

/-- A flag of a CLK register is what the view shows. -/
theorem Chip.flag_clk_of_clkBridge {c c' : Chip} (h : c'.clkBridge = c.clkBridge) (d o n : Nat) (ho : o < 0x1000) :
    c'.flag d CLK o n = c.flag d CLK o n := by rw [Chip.flag, (reg_of_clkBridge h d o ho).1, Chip.flag]

theorem Chip.notePhy_clkBridge (c : Chip) (d : Nat) {ch : Nat} (hch : ch < 2) : (c.notePhy d ch).clkBridge = c.clkBridge := by
  have hp := offClkBridge_memphyPage hch
  unfold Chip.notePhy
  exact (put_clkBridge _ d hp (by decide) _ _ _).trans (put_clkBridge _ d hp (by decide) _ _ _)

/-- A PLL shows whether it is locked, whatever else follows that is not of the CLK page. -/
theorem Chip.flag_pll {c' : Chip} (c : Chip) (d k v : Nat) (hk : k < 32) (h : c'.clkBridge = (c.put d CLK CLK.PLL_STATUS k k v).clkBridge) :
    c'.flag d CLK CLK.PLL_STATUS k = v.testBit 0 := by
  rw [flag_clk_of_clkBridge h d _ k (by decide), Chip.flag_put _ _ _ _ _ _ hk, if_pos rfl]

/-- The chip once it has counted the loss of a PLL's lock. -/
def Chip.pllLost (c : Chip) (d : Nat) : Chip := (c.count d CLK CLK.PLL_LOSS_COUNT).event d CLK 0

theorem Chip.num_pllLost (c : Chip) (d : Nat) :
    (c.pllLost d).num d CLK CLK.PLL_LOSS_COUNT = min 0xFFFFFFFF (c.num d CLK CLK.PLL_LOSS_COUNT + 1) := by
  rw [Chip.pllLost, Chip.num, Chip.reg_event _ _ _ _ (by decide) (by decide) (by decide) (by decide) (.inr (by decide)), Chip.count_eq,
    Chip.reg_setReg, if_pos rfl, BitVec.toNat_ofNat]
  exact Nat.mod_eq_of_lt (by omega)

theorem Chip.state_pllLost (c : Chip) (d : Nat) {ch : Nat} (hch : ch < 2) : (c.pllLost d).state d (memcPage ch) = c.state d (memcPage ch) := by
  obtain ⟨hin, hclk, hport⟩ : memcPage ch < 0x1000 ∧ memcPage ch ≠ CLK ∧ memcPage ch ≠ PORT_SVC ∧ memcPage ch ≠ PORT_INB := by
    revert ch; decide
  rw [Chip.pllLost, Chip.state, Chip.get, Chip.reg_event _ _ _ _ (by decide) hin (by decide) hport (.inl hclk), Chip.count_eq, Chip.reg_setReg,
    if_neg fun h => hclk ((ra_inj hin (by decide) (by decide) (by decide)).1 h).2.1]
  rfl

section
variable {s : State} {d : Nat} (hruns : s.chip.dieRuns d = true)
include hruns

/-- A memory PLL loses lock outside a frequency change (R54, R369). -/
theorem State.pllLoss_mem {ch : Nat} (hch : ch < 2) (hfreq : s.chip.state d (memcPage ch) ≠ mcFREQ) :
    s.pllLoss d (.mem ch) = s.up fun c => ((c.pllLost d).put d CLK CLK.PLL_STATUS (1 + ch) (1 + ch) 0).notePhy d ch := by
  unfold State.pllLoss
  rw [if_neg (by simp [hruns])]
  have hstill : (s.up fun c => (c.count d CLK CLK.PLL_LOSS_COUNT).event d CLK 0).chip.state d (memcPage ch) ≠ mcFREQ :=
    (s.chip.state_pllLost d hch).trans_ne hfreq
  dsimp only
  rw [if_neg hstill, State.up_up]
  rfl

/-- A lane PLL loses lock: the lanes that it serves and that are on lose theirs (R54, R201). -/
theorem State.pllLoss_lane (k : Nat) : s.pllLoss d (.lane k) = s.up fun c =>
    ((c.pllLost d).put d CLK CLK.PLL_STATUS (8 + k) (8 + k) 0).each (pllLanes k) fun c l =>
      if c.lstate d l = laneOFF then c else c.signalLost d l 12 7 := by
  unfold State.pllLoss
  rw [if_neg (by simp [hruns])]
  dsimp only
  rw [State.up_up]
  rfl

theorem Chip.pllRelock_mem (ch : Nat) :
    s.chip.pllRelock d (.mem ch) = (s.chip.put d CLK CLK.PLL_STATUS (1 + ch) (1 + ch) 1).notePhy d ch := by
  unfold Chip.pllRelock
  rw [if_neg (by simp [hruns])]

/-- A lane PLL gains lock, if it serves a lane that is on (R54). -/
theorem Chip.pllRelock_lane (k : Nat) : s.chip.pllRelock d (.lane k) =
    let on := (pllLanes k).filter (fun l => s.chip.lstate d l ≠ laneOFF)
    if on = [] then s.chip
    else (s.chip.put d CLK CLK.PLL_STATUS (8 + k) (8 + k) 1).each on fun c l =>
      (c.lput d l LANE.STATUS 12 12 0).finishAll (isPowerOn (d * 24 + l)) OK 0 := by
  unfold Chip.pllRelock
  rw [if_neg (by simp [hruns])]

end

theorem memPllLocks (s : State) (d ch : Nat) (hd : d < dieCount s.chip.member) (hch : ch < 2) (hruns : s.chip.dieRuns d = true)
    (hfreq : s.chip.state d (memcPage ch) ≠ mcFREQ) :
    (∃ t, exec (.pllLoss d (.mem ch)) s = .next t ∧ t.mem = s.mem ∧ t.chip.flag d CLK CLK.PLL_STATUS (1 + ch) = false ∧
      t.chip.num d CLK CLK.PLL_LOSS_COUNT = min 0xFFFFFFFF (s.chip.num d CLK CLK.PLL_LOSS_COUNT + 1)) ∧
    ∃ t, exec (.pllRelock d (.mem ch)) s = .next t ∧ t.mem = s.mem ∧ t.chip.flag d CLK CLK.PLL_STATUS (1 + ch) = true := by
  constructor
  · have hexec : exec (.pllLoss d (.mem ch)) s = .next (s.pllLoss d (.mem ch)) := if_pos ⟨hd, hch⟩
    rw [State.pllLoss_mem hruns hch hfreq] at hexec
    have hview := ((s.chip.pllLost d).put d CLK CLK.PLL_STATUS (1 + ch) (1 + ch) 0).notePhy_clkBridge d hch
    refine ⟨_, hexec, s.up_mem _, Chip.flag_pll (s.chip.pllLost d) d (1 + ch) 0 (by omega) hview, ?_⟩
    have hcount := (Chip.reg_of_clkBridge hview d CLK.PLL_LOSS_COUNT (by decide)).1.trans ((Chip.reg_setReg ..).trans
      (if_neg fun h => absurd ((ra_inj (by decide) (by decide) (by decide) (by decide)).1 h).2.2 (by decide)))
    exact (congrArg BitVec.toNat hcount).trans (s.chip.num_pllLost d)
  · have hexec : exec (.pllRelock d (.mem ch)) s = _ := (if_pos ⟨hd, hch⟩).trans (State.next_up_eq (Chip.pllRelock_mem hruns ch))
    exact ⟨_, hexec, rfl, Chip.flag_pll s.chip d (1 + ch) 1 (by omega) (Chip.notePhy_clkBridge _ d hch)⟩

theorem lt_of_mem_pllLanes {k l : Nat} (hk : k < 6) (hl : l ∈ pllLanes k) : l < 24 := by
  obtain ⟨i, hi, rfl⟩ := List.mem_map.1 hl
  have := List.mem_range.1 hi
  omega

/-- What a lane PLL does to its lanes is nothing to the CLK page. -/
theorem Chip.signalsLost_clkBridge (c : Chip) (d : Nat) {k : Nat} (hk : k < 6) :
    (c.each (pllLanes k) fun c l => if c.lstate d l = laneOFF then c else c.signalLost d l 12 7).clkBridge = c.clkBridge :=
  each_clkBridge c _ _ fun c l hl => by simp [signalLost_clkBridge, lt_of_mem_pllLanes hk hl]

theorem Chip.powerOns_clkBridge (c : Chip) (d : Nat) {k : Nat} (hk : k < 6) (on : Nat → Bool) :
    (c.each ((pllLanes k).filter on) fun c l =>
      (c.lput d l LANE.STATUS 12 12 0).finishAll (isPowerOn (d * 24 + l)) OK 0).clkBridge = c.clkBridge :=
  each_clkBridge c _ _ fun c l hl => by simp [lt_of_mem_pllLanes hk (List.mem_filter.1 hl).1]

theorem lanePllLocks (s : State) (d k : Nat) (hd : d < dieCount s.chip.member) (hk : k < 6) (hruns : s.chip.dieRuns d = true) :
    (∃ t, exec (.pllLoss d (.lane k)) s = .next t ∧ t.mem = s.mem ∧ t.chip.flag d CLK CLK.PLL_STATUS (8 + k) = false) ∧
    ((∃ l ∈ pllLanes k, s.chip.lstate d l ≠ laneOFF) →
      ∃ t, exec (.pllRelock d (.lane k)) s = .next t ∧ t.mem = s.mem ∧ t.chip.flag d CLK CLK.PLL_STATUS (8 + k) = true) ∧
    ((∀ l ∈ pllLanes k, s.chip.lstate d l = laneOFF) → exec (.pllRelock d (.lane k)) s = .next s) := by
  have hrelock : exec (.pllRelock d (.lane k)) s = .next (s.up fun c => c.pllRelock d (.lane k)) := if_pos ⟨hd, hk⟩
  refine ⟨?loss, fun hon => ?relock, fun hoff => ?off⟩
  case loss =>
    have hexec : exec (.pllLoss d (.lane k)) s = .next (s.pllLoss d (.lane k)) := if_pos ⟨hd, hk⟩
    rw [State.pllLoss_lane hruns k] at hexec
    have hview := ((s.chip.pllLost d).put d CLK CLK.PLL_STATUS (8 + k) (8 + k) 0).signalsLost_clkBridge d hk
    refine ⟨_, hexec, s.up_mem _, ?_⟩
    rw [State.up_chip]
    exact Chip.flag_pll (s.chip.pllLost d) d (8 + k) 0 (by omega) hview
  case relock =>
    have hsome : (pllLanes k).filter (fun l => s.chip.lstate d l ≠ laneOFF) ≠ [] := by simpa using hon
    rw [State.next_up_eq ((Chip.pllRelock_lane hruns k).trans (if_neg hsome))] at hrelock
    have hview := (s.chip.put d CLK CLK.PLL_STATUS (8 + k) (8 + k) 1).powerOns_clkBridge d hk fun l => s.chip.lstate d l ≠ laneOFF
    exact ⟨_, hrelock, rfl, Chip.flag_pll s.chip d (8 + k) 1 (by omega) hview⟩
  case off =>
    have hnone : (pllLanes k).filter (fun l => s.chip.lstate d l ≠ laneOFF) = [] := by simpa using hoff
    exact hrelock.trans (State.next_up_eq ((Chip.pllRelock_lane hruns k).trans (if_pos hnone)))

/-- Settles O52: OFF loses all but the flash, boot begins with the last of POR_N and the rails, and PLL_STATUS follows each PLL. -/
theorem powerAndClocks : Obligations.PowerAndClocks := ⟨powerGoesOff, bootBegins, memPllLocks, lanePllLocks⟩

end Sys2Proof.Machine
end

section
/-! PROOFS. The ring, its links and the timing tokens (R33 to R37, R44). -/

namespace Sys2Proof.Machine

theorem Chip.linkUp_eq (c : Chip) (i : Nat) (h : dieCount c.member ≠ 2) : c.linkUp i = !c.linksDown.contains (i % dieCount c.member) :=
  if_neg h

/-- With one link down, a way along the ring that is not open crosses that link. -/
theorem Chip.crosses_of_not_open {c : Chip} {l a k : Nat} (hn : 2 < dieCount c.member) (hl : c.linksDown = [l])
    (h : (List.range k).all (fun i => c.linkUp (a + i)) = false) : ∃ i < k, (a + i) % dieCount c.member = l := by
  obtain ⟨i, hi, hdown⟩ := List.all_eq_false.1 h
  rw [c.linkUp_eq _ (by omega), hl] at hdown
  exact ⟨i, List.mem_range.1 hi, by simpa using hdown⟩

/-- Two ways from one die to another, one each way round, have no link in common. -/
theorem ways_disjoint {n a b i j : Nat} (hn : n = 2 ∨ n = 4 ∨ n = 8) (ha : a < n) (hb : b < n) (hi : i < (b + n - a) % n)
    (hj : j < (a + n - b) % n) : (a + i) % n ≠ (b + j) % n := by
  rcases hn with rfl | rfl | rfl <;> omega

theorem dieCount_cases (m : Member) : dieCount m = 2 ∨ dieCount m = 4 ∨ dieCount m = 8 := by cases m <;> decide

theorem ringReach : Claim.RingReach := by
  intro c l a b hn hl ha hb
  by_contra hreach
  unfold Chip.reach at hreach
  obtain ⟨hforth, hback⟩ := Bool.or_eq_false_iff.1 (Bool.eq_false_iff.2 hreach)
  obtain ⟨i, hi, hil⟩ := Chip.crosses_of_not_open hn hl hforth
  obtain ⟨j, hj, hjl⟩ := Chip.crosses_of_not_open hn hl hback
  exact ways_disjoint (dieCount_cases c.member) ha hb hi hj (hil.trans hjl.symm)

/-! ### Timing tokens (R33 to R35) -/

theorem timingTokens : Claim.TimingTokens := by
  intro s d hd hf
  have hrx : ∀ frame, exec (.timingTokenRx d frame) s = .next (s.up fun c => c.tokenRx d frame) := fun frame => if_pos hd
  have hmiss : exec (.timingTokenMiss d) s = .next (s.up fun c => c.tokenMiss d) := if_pos hd
  have hgo : ¬(!s.chip.isFollower d) = true := by simp [hf]
  refine ⟨?noFrame, fun f hne => ?frame, fun hlt => ?miss, fun h15 => ?cutOff⟩
  case noFrame => exact (hrx none).trans (State.next_up_eq (if_neg hgo))
  case frame =>
    refine (hrx (some f)).trans (State.next_up_eq ((if_neg hgo).trans (if_neg ?_)))
    rw [show (s.chip.setDie d _).reg d TGEN TGEN.FRAME_SEQ = s.chip.reg d TGEN TGEN.FRAME_SEQ from rfl]
    exact hne
  case miss =>
    refine hmiss.trans (State.next_up_eq ((if_neg hgo).trans ?_))
    simp [Chip.eventIf, show ¬16 ≤ (s.chip.die d).misses + 1 by omega, show (s.chip.die d).misses + 1 ≠ 16 by omega]
  case cutOff =>
    refine hmiss.trans (State.next_up_eq ((if_neg hgo).trans ?_))
    simp [Chip.eventIf, h15]

/-! ### Links (R37, R44) -/

/-- The links that are down, and what LINK_STATUS of each die shows of its previous and its next one. -/
structure LinkFlags where
  member : Member
  down   : List Nat
  flags  : Nat → Bool × Bool

def Chip.linkFlags (c : Chip) : LinkFlags :=
  ⟨c.member, c.linksDown, fun d => (c.flag d BRIDGE BRIDGE.LINK_STATUS 0, c.flag d BRIDGE BRIDGE.LINK_STATUS 1)⟩

theorem Chip.event_linkFlags (c : Chip) (d b : Nat) : (c.event d BRIDGE b).linkFlags = c.linkFlags := by
  have ht := c.touches_event d BRIDGE b
  have hreg : ∀ e, (c.event d BRIDGE b).reg e BRIDGE BRIDGE.LINK_STATUS = c.reg e BRIDGE BRIDGE.LINK_STATUS := fun e =>
    c.reg_event d BRIDGE b (by decide) (by decide) (by decide) (by decide) (.inr (by decide))
  have hlinks : (c.event d BRIDGE b).linksDown = c.linksDown := by rw [ht.1]
  unfold Chip.linkFlags Chip.flag
  simp only [hreg, hlinks, Chip.touches_member ht]

/-- The bit of LINK_STATUS on detours leaves the two of the links as they are. -/
theorem Chip.detour_linkFlags (c : Chip) (d : Nat) : (c.put d BRIDGE BRIDGE.LINK_STATUS 2 2 1).linkFlags = c.linkFlags := by
  have hflag : ∀ e j, j < 2 → (c.put d BRIDGE BRIDGE.LINK_STATUS 2 2 1).flag e BRIDGE BRIDGE.LINK_STATUS j =
      c.flag e BRIDGE BRIDGE.LINK_STATUS j := by
    intro e j hj
    by_cases h : e = d
    · subst h; rw [c.flag_put _ _ _ _ _ (by omega), if_neg (by omega)]
    · rw [Chip.flag, Chip.put_eq, Chip.reg_setReg, if_neg fun hx => h ((ra_inj (by decide) (by decide) (by decide) (by decide)).1 hx).1]
      rfl
  unfold Chip.linkFlags
  simp only [hflag _ 0 (by decide), hflag _ 1 (by decide)]
  rfl

/-- LINK_STATUS of a die shows the links of its two sides (R44). -/
def Chip.showsLinks (c : Chip) (d : Nat) : Prop :=
  c.flag d BRIDGE BRIDGE.LINK_STATUS 0 = c.linkUp (sideLink (dieCount c.member) d .prev) ∧
    c.flag d BRIDGE BRIDGE.LINK_STATUS 1 = c.linkUp (sideLink (dieCount c.member) d .next)

theorem Chip.showsLinks_of_linkFlags {c c' : Chip} (h : c'.linkFlags = c.linkFlags) (d : Nat) (hd : c.showsLinks d) : c'.showsLinks d := by
  obtain ⟨hm, hdown, hflags⟩ := LinkFlags.mk.inj h
  obtain ⟨h0, h1⟩ := Prod.mk.inj (congrFun hflags d)
  have hup : ∀ i, c'.linkUp i = c.linkUp i := fun i => by unfold Chip.linkUp; rw [hm, hdown]
  unfold Chip.showsLinks
  rw [h0, h1, hm, hup, hup]
  exact hd

theorem testBit_toNat (b : Bool) : b.toNat.testBit 0 = b := by cases b <;> rfl

theorem Chip.showsLinks_noteLinks (c : Chip) (d e : Nat) (h : e = d ∨ c.showsLinks e) : (c.noteLinks d).showsLinks e := by
  have hmember : (c.noteLinks d).member = c.member := rfl
  have hup : ∀ i, (c.noteLinks d).linkUp i = c.linkUp i := fun _ => rfl
  unfold Chip.showsLinks
  rw [hmember, hup, hup]
  by_cases hde : e = d
  · subst hde
    unfold Chip.noteLinks
    dsimp only
    rw [Chip.flag_put _ _ _ _ _ _ (by decide), Chip.flag_put _ _ _ _ _ _ (by decide), Chip.flag_put _ _ _ _ _ _ (by decide),
      if_neg (by decide), if_pos rfl, if_pos rfl, testBit_toNat, testBit_toNat]
    exact ⟨rfl, rfl⟩
  · have hreg : (c.noteLinks d).reg e BRIDGE BRIDGE.LINK_STATUS = c.reg e BRIDGE BRIDGE.LINK_STATUS := by
      have hne : ra e BRIDGE BRIDGE.LINK_STATUS ≠ ra d BRIDGE BRIDGE.LINK_STATUS := fun hx =>
        hde ((ra_inj (by decide) (by decide) (by decide) (by decide)).1 hx).1
      unfold Chip.noteLinks
      dsimp only
      rw [Chip.put_eq, Chip.reg_setReg, if_neg hne, Chip.put_eq, Chip.reg_setReg, if_neg hne]
    unfold Chip.flag
    rw [hreg]
    exact h.resolve_left hde

theorem Chip.showsLinks_each_noteLinks (c : Chip) (l : List Nat) (e : Nat) (h : e ∈ l ∨ c.showsLinks e) :
    (c.each l Chip.noteLinks).showsLinks e := by
  unfold Chip.each
  induction l generalizing c with
  | nil => simpa using h
  | cons d l ih =>
    refine ih _ ?_
    rcases h with h | h
    · rcases List.mem_cons.1 h with rfl | h
      · exact .inr (c.showsLinks_noteLinks _ _ (.inl rfl))
      · exact .inl h
    · exact .inr (c.showsLinks_noteLinks _ _ (.inr h))

theorem Chip.each_noteLinks_links (c : Chip) (l : List Nat) :
    (c.each l Chip.noteLinks).member = c.member ∧ (c.each l Chip.noteLinks).linksDown = c.linksDown :=
  Prod.mk.inj (Chip.each_keeps (fun c => (c.member, c.linksDown)) c l fun _ _ _ => rfl)

/-- The loss of a link is noted by every die; what follows is told by events and by the note of detours (R44). -/
theorem Chip.linkDown_linkFlags (c : Chip) {l : Nat} (hl : l < dieCount c.member) (hn : 2 < dieCount c.member) (hup : l ∉ c.linksDown) :
    (c.linkDown l).linkFlags = (Chip.each { c with linksDown := l :: c.linksDown } c.dies' Chip.noteLinks).linkFlags := by
  have htwo : dieCount c.member ≠ 2 := by omega
  unfold Chip.linkDown
  simp only [if_neg htwo, Nat.mod_eq_of_lt hl]
  rw [if_neg (by simpa using hup)]
  have hends : ∀ (c : Chip) (l : List Nat) (b : Nat), (c.each l fun c d => c.event d BRIDGE b).linkFlags = c.linkFlags :=
    fun c l b => Chip.each_keeps Chip.linkFlags c l fun c d _ => c.event_linkFlags d b
  split
  · exact (hends ..).trans (hends ..)
  · refine Eq.trans (Chip.each_keeps Chip.linkFlags _ _ fun c d _ => ?_) (hends ..)
    split
    · exact (event_linkFlags ..).trans (c.detour_linkFlags d)
    · rfl

/-- A die shows a link that has gone down on the side that it has there (R44). -/
theorem Chip.linkDown_showsLinks (c : Chip) {l e : Nat} (hl : l < dieCount c.member) (hn : 2 < dieCount c.member) (hup : l ∉ c.linksDown)
    (he : e < dieCount c.member) :
    (c.linkDown l).member = c.member ∧ (c.linkDown l).linksDown = l :: c.linksDown ∧ (c.linkDown l).showsLinks e := by
  have hflags := c.linkDown_linkFlags hl hn hup
  obtain ⟨hmember, hdown⟩ := Chip.each_noteLinks_links { c with linksDown := l :: c.linksDown } c.dies'
  refine ⟨(congrArg LinkFlags.member hflags).trans hmember, (congrArg LinkFlags.down hflags).trans hdown, ?_⟩
  exact Chip.showsLinks_of_linkFlags hflags e (Chip.showsLinks_each_noteLinks _ _ e (.inl (List.mem_range.2 he)))

/-- The two ends of a link of a ring of more than two dies. -/
theorem sideLink_ends {n l : Nat} (hn : 2 < n) (hl : l < n) : sideLink n l .next = l ∧ sideLink n ((l + 1) % n) .prev = l := by
  have hmod : ((l + 1) % n + n - 1) % n = l := by
    by_cases h : l + 1 = n
    · rw [h, Nat.mod_self, Nat.zero_add, Nat.mod_eq_of_lt (by omega)]; omega
    · rw [Nat.mod_eq_of_lt (show l + 1 < n by omega), show l + 1 + n - 1 = l + n by omega, Nat.add_mod_right, Nat.mod_eq_of_lt hl]
  exact ⟨if_neg (by omega), (if_neg (by omega)).trans hmod⟩

theorem bridgeLinks : Claim.BridgeLinks := by
  intro s hpower
  refine ⟨fun d side hd hreset hup => ?retry, fun l hl hn hup => ?down⟩
  case retry =>
    have hexec : exec (.flitRetry d side) s = _ := if_pos hd
    exact hexec.trans (State.next_up_eq (if_pos ⟨hpower, by simpa using hreset, hup⟩))
  case down =>
    have hexec : exec (.linkDown l) s = .next { s with chip := s.chip.linkDown l } :=
      (if_pos hl).trans (State.next_up_eq (if_pos hpower))
    obtain ⟨hmember, hdown, -, hnext⟩ := s.chip.linkDown_showsLinks hl hn hup hl
    obtain ⟨-, -, hprev, -⟩ := s.chip.linkDown_showsLinks hl hn hup (Nat.mod_lt (l + 1) (by omega : 0 < dieCount s.chip.member))
    obtain ⟨hsideNext, hsidePrev⟩ := sideLink_ends hn hl
    have hlink : (s.chip.linkDown l).linkUp l = false := by
      rw [Chip.linkUp_eq _ _ (by rw [hmember]; omega), hmember, hdown, Nat.mod_eq_of_lt hl]
      simp
    rw [hmember] at hnext hprev
    rw [hsideNext, hlink] at hnext
    rw [hsidePrev, hlink] at hprev
    exact ⟨_, hexec, rfl, hdown, hlink, hnext, hprev⟩

end Sys2Proof.Machine
end

section
/-! PROOFS. What taking an output apart, forming one, and entry into SAFE leave as it was: the view of CLK and BRIDGE, the flash and the
frame memory (R31, R62, R72). -/

namespace Sys2Proof.Machine

/-! ### The pages of an output -/

@[simp] theorem Chip.noteDlink_clkBridge (c : Chip) (d : Nat) : (c.noteDlink d).clkBridge = c.clkBridge := by
  unfold Chip.noteDlink
  rw [put_clkBridge _ _ rfl (by decide), put_clkBridge _ _ rfl (by decide), setState_clkBridge _ _ rfl, put_clkBridge _ _ rfl (by decide)]

@[simp] theorem Chip.notePanel_clkBridge (c : Chip) (d : Nat) : (c.notePanel d).clkBridge = c.clkBridge := by
  unfold Chip.notePanel
  rw [setState_clkBridge _ _ rfl, setState_clkBridge _ _ rfl, noteReady_clkBridge, put_clkBridge _ _ rfl (by decide),
    put_clkBridge _ _ rfl (by decide), put_clkBridge _ _ rfl (by decide), put_clkBridge _ _ rfl (by decide),
    setNum_clkBridge _ _ rfl (by decide), setNum_clkBridge _ _ rfl (by decide), setNum_clkBridge _ _ rfl (by decide),
    put_clkBridge _ _ rfl (by decide), put_clkBridge _ _ rfl (by decide)]

theorem Chip.noteLineMax_clkBridge (c : Chip) (o : Nat) : (c.noteLineMax o).clkBridge = c.clkBridge :=
  each_clkBridge c _ _ fun c d _ => c.setNum_clkBridge d rfl (by decide) _

theorem Chip.dropCommit_clkBridge (c : Chip) (o : Nat) : (c.dropCommit o).clkBridge = c.clkBridge := by
  have hidle : ∀ c : Chip, (c.compIdle o).clkBridge = c.clkBridge := fun c =>
    ((c.each _ _).setBusy_clkBridge o rfl false).trans (each_clkBridge c _ _ fun c d _ => c.setState_clkBridge d rfl 1)
  have htaken : (c.each (c.layers.map fun kv => kv.1) fun c n =>
      let y := c.layer n
      c.setLayer n { y with taken := y.taken.filter fun t => t.1 ≠ o }).clkBridge = c.clkBridge := each_clkBridge c _ _ fun _ _ _ => rfl
  unfold Chip.dropCommit
  dsimp only
  split
  · exact htaken
  · exact (hidle _).trans htaken

/-! ### Staged values -/

/-- A staged register of the BRIDGE page of die 0. -/
def onBridge (kv : Nat × Word) : Bool := decide (kv.1 / 0x1000 = pageKey 0 BRIDGE)

/-- A change of what is staged shows in the view only by what BRIDGE of die 0 has staged. -/
theorem Chip.clkBridge_of_staged {c : Chip} {l : KMap Word} (h : l.filter onBridge = c.staged.filter onBridge) :
    ({ c with staged := l } : Chip).clkBridge = c.clkBridge := by
  have hstaged : ({ c with staged := l } : Chip).stagedOf 0 BRIDGE = c.stagedOf 0 BRIDGE :=
    congrArg (List.map fun kv : Nat × Word => (kv.1 % 0x1000, kv.2)) h
  unfold Chip.clkBridge Chip.staging
  rw [hstaged]
  rfl

theorem pageKey_bridge_ne {d p : Nat} (hp : offClkBridge p = true) : pageKey 0 BRIDGE ≠ pageKey d p := by
  intro h
  obtain ⟨-, rfl⟩ := (pageKey_inj (lt_of_offClkBridge hp) (by decide)).1 h
  exact absurd hp (by decide)

theorem Chip.unstage_clkBridge (c : Chip) (d : Nat) {p : Nat} (hp : offClkBridge p = true) : (c.unstage d p).clkBridge = c.clkBridge := by
  refine clkBridge_of_staged ?_
  rw [List.filter_filter]
  refine List.filter_congr fun kv _ => ?_
  have hstays : kv.1 / 0x1000 = pageKey 0 BRIDGE → kv.1 / 0x1000 ≠ pageKey d p := fun h => h.trans_ne (pageKey_bridge_ne hp)
  simpa [onBridge, pageKey] using hstays

theorem Chip.clearCommit_clkBridge (c : Chip) (d : Nat) {p : Nat} (hp : offClkBridge p = true) : (c.clearCommit d p).clkBridge = c.clkBridge := by
  have hpending : (c.clearCommit d p).committing 0 BRIDGE = c.committing 0 BRIDGE := by
    unfold Chip.committing KMap.getD Chip.clearCommit
    dsimp only
    rw [KMap.get?_put_of_ne _ _ _ _ _ (pageKey_bridge_ne hp)]
  unfold Chip.clkBridge Chip.staging
  rw [hpending]
  rfl

theorem Chip.abortPage_clkBridge (c : Chip) (d : Nat) {p : Nat} (hp : offClkBridge p = true) : (c.abortPage d p).clkBridge = c.clkBridge :=
  (clearCommit_clkBridge _ d hp).trans (c.unstage_clkBridge d hp)

theorem KMap.filter_erase {α : Type} (m : KMap α) (k : Nat) {p : Nat × α → Bool} (h : ∀ v, p (k, v) = false) :
    (KMap.erase m k).filter p = m.filter p := by
  induction m with
  | nil => rfl
  | cons x m ih =>
    obtain ⟨a, v⟩ := x
    unfold KMap.erase
    by_cases hak : a = k
    · subst hak; rw [if_pos rfl, ih, List.filter_cons, h]; rfl
    · rw [if_neg hak, List.filter_cons, List.filter_cons, ih]

/-- Dropping the staged entry of an output leaves what BRIDGE has staged. -/
theorem Chip.eraseEntry_clkBridge (c : Chip) (o : Nat) :
    ({ c with staged := KMap.erase c.staged (ra o TGEN TGEN.ENTRY) } : Chip).clkBridge = c.clkBridge := by
  refine clkBridge_of_staged (KMap.filter_erase _ _ fun v => decide_eq_false ?_)
  rw [ra_div o TGEN _ (by decide)]
  exact (pageKey_bridge_ne rfl).symm

theorem Chip.panelAbort_clkBridge (c : Chip) (o : Nat) {p : Nat} (hp : offClkBridge p = true) : (c.panelAbort o p).clkBridge = c.clkBridge := by
  refine each_clkBridge c _ _ fun c d _ => ?_
  exact (notePanel_clkBridge _ d).trans (abortPage_clkBridge _ d hp)

/-! ### Windows (R71) -/

/-- What a CAL_RUN or MARGIN_SCAN puts back are registers, and none of them is staged. -/
theorem Chip.dropWindow_staging (c : Chip) (o st : Nat) : (c.dropWindow o st).staging = c.staging := by
  have hcal : ∀ c : Chip, (c.dropCal o).staging = c.staging := by
    intro c
    unfold Chip.dropCal
    dsimp only
    split
    · rfl
    · refine (staging_of_clkBridge (each_clkBridge _ _ _ fun c d _ => ?_)).trans rfl
      exact (setState_clkBridge _ d rfl 1).trans (c.setBusy_clkBridge d rfl false)
  have hscan : ∀ c : Chip, (c.dropScan o).staging = c.staging := by
    intro c
    unfold Chip.dropScan
    dsimp only
    split
    · rfl
    · refine (staging_of_clkBridge (each_clkBridge _ _ _ fun c d _ => ?_)).trans rfl
      exact each_clkBridge _ _ _ fun _ _ _ => rfl
  unfold Chip.dropWindow
  split
  · rfl
  · refine (staging_of_clkBridge (each_clkBridge _ _ _ fun c d _ => c.setState_clkBridge d rfl 1)).trans ?_
    exact (hscan _).trans ((hcal _).trans (staging_of_clkBridge (c.finishAll_clkBridge _ st 0)))

/-! What leaves the state of the outputs as it was, in which their windows stand. -/

section
variable (c : Chip) (d p o : Nat)

theorem Chip.put_outs (hi lo v : Nat) : (c.put d p o hi lo v).outs = c.outs := rfl
theorem Chip.setNum_outs (v : Nat) : (c.setNum d p o v).outs = c.outs := rfl
theorem Chip.setState_outs (v : Nat) : (c.setState d p v).outs = c.outs := rfl
theorem Chip.noteReady_outs (old c : Chip) (d : Nat) : (Chip.noteReady old c d).outs = c.outs := touches_outs (touches_noteReady old c d)
theorem Chip.setReady_outs (b : Bool) : (c.setReady d p b).outs = c.outs := touches_outs (c.touches_setReady d p b)
end

theorem Chip.noteDlink_outs (c : Chip) (d : Nat) : (c.noteDlink d).outs = c.outs := by
  unfold Chip.noteDlink
  rw [put_outs, put_outs, setState_outs, put_outs]

theorem Chip.notePanel_outs (c : Chip) (d : Nat) : (c.notePanel d).outs = c.outs := by
  unfold Chip.notePanel
  rw [setState_outs, setState_outs, noteReady_outs, put_outs, put_outs, put_outs, put_outs, setNum_outs, setNum_outs, setNum_outs,
    put_outs, put_outs]

theorem Chip.out_congr {c c' : Chip} (h : c'.outs = c.outs) (o : Nat) : c'.out o = c.out o := by unfold Chip.out; rw [h]

/-- No CAL_RUN and no MARGIN_SCAN is in progress on an output. -/
def Chip.windowless (c : Chip) (o : Nat) : Prop := (c.out o).cal = none ∧ (c.out o).scan = none

theorem Chip.windowless_of_outs {c c' : Chip} (h : c'.outs = c.outs) {o : Nat} (hw : c.windowless o) : c'.windowless o := by
  unfold Chip.windowless
  rw [out_congr h]
  exact hw

theorem Chip.reply_outs (c : Chip) (r : Req) (st dt : Nat) (bs : List Byte) : (c.reply r st dt bs).outs = c.outs := by
  unfold Chip.reply
  dsimp only
  split
  · rfl
  · exact (touches_outs (p := fun _ => False) (touches_answer ..)).trans rfl

theorem Chip.finishAll_outs (c : Chip) (p : Req → Bool) (st dt : Nat) : (c.finishAll p st dt).outs = c.outs := by
  refine Chip.each_keeps Chip.outs c (c.reqs p) (f := fun c r => c.finish r st dt []) fun c r _ => ?_
  unfold Chip.finish
  split
  · exact c.reply_outs ..
  · rfl

/-- With no window there is nothing to put back. -/
theorem Chip.dropWindow_clkBridge {c : Chip} {o : Nat} (h : c.windowless o) (st : Nat) : (c.dropWindow o st).clkBridge = c.clkBridge := by
  obtain ⟨hcal, hscan⟩ := Chip.windowless_of_outs (c.finishAll_outs (isWindowCmd o) st 0) h
  have hdropCal : (c.finishAll (isWindowCmd o) st 0).dropCal o = c.finishAll (isWindowCmd o) st 0 := by
    unfold Chip.dropCal
    dsimp only
    rw [hcal]
  have hdropScan : (c.finishAll (isWindowCmd o) st 0).dropScan o = c.finishAll (isWindowCmd o) st 0 := by
    unfold Chip.dropScan
    dsimp only
    rw [hscan]
  unfold Chip.dropWindow
  split
  · rfl
  · rw [hdropCal, hdropScan]
    exact (each_clkBridge _ _ _ fun c d _ => c.setState_clkBridge d rfl 1).trans (c.finishAll_clkBridge ..)

/-- Taking an output apart leaves what BRIDGE has staged and pending (R31). -/
theorem Chip.takeApart_staging (c : Chip) (o : Nat) : (c.takeApart o).staging = c.staging := by
  have hpages : ∀ c : Chip, (c.each (c.gang o) fun c d => (c.abortPage d TGEN).abortPage d DLINK).clkBridge = c.clkBridge := fun c =>
    each_clkBridge c _ _ fun c d _ => (abortPage_clkBridge _ d rfl).trans (abortPage_clkBridge _ d rfl)
  have hpanels : ∀ c : Chip, (c.each [PANEL_OD, PANEL_DM, PANEL_DT] fun c p => c.panelAbort o p).clkBridge = c.clkBridge := fun c =>
    each_clkBridge c _ _ fun c p hp => c.panelAbort_clkBridge o (by revert p; decide)
  have hreplies : ∀ (c : Chip) l, (c.each l fun c r => c.reply r ABORTED 0 []).clkBridge = c.clkBridge := fun c l =>
    each_clkBridge c _ _ fun c r _ => c.reply_clkBridge r ABORTED 0 []
  unfold Chip.takeApart
  dsimp only
  exact calc
    _ = _ := staging_of_clkBridge (hpages _)
    _ = _ := staging_of_clkBridge (hpanels _)
    _ = _ := staging_of_clkBridge (hreplies _ _)
    _ = _ := staging_of_clkBridge (finishAll_clkBridge ..)
    _ = _ := staging_of_clkBridge (dropCommit_clkBridge ..)
    _ = _ := c.dropWindow_staging o ABORTED

/-! ### Modes (R62, R78) -/

/-- The flash, the frame memory, and the view of CLK and BRIDGE. -/
structure MemClkBridge where
  flash : KMap Byte
  dram  : KMap (List Byte)
  chip  : ClkBridge

def State.clkBridge (s : State) : MemClkBridge := ⟨s.mem.flash, s.mem.dram, s.chip.clkBridge⟩

theorem State.up_clkBridge {s : State} {f : Chip → Chip} (h : (f s.chip).clkBridge = s.chip.clkBridge) : (s.up f).clkBridge = s.clkBridge := by
  unfold State.clkBridge
  rw [State.up_chip, State.up_mem, h]

theorem Mem.setBasketBytes_others (m : Mem) (a : Nat) (bs : List Byte) :
    (m.setBasketBytes a bs).flash = m.flash ∧ (m.setBasketBytes a bs).dram = m.dram := by
  fun_induction Mem.setBasketBytes m a bs with
  | case1 => exact ⟨rfl, rfl⟩
  | case2 m a x y z w rest ih => exact ih
  | case3 => exact ⟨rfl, rfl⟩

/-- A change of the chip in which neither the view nor the outputs' state differs. -/
def Chip.settled (c c' : Chip) : Prop := c'.clkBridge = c.clkBridge ∧ c'.outs = c.outs

/-- A change of the state in which the flash, the frame memory, the view and the outputs' state stay as they were. -/
def State.settled (s s' : State) : Prop := s'.clkBridge = s.clkBridge ∧ s'.chip.outs = s.chip.outs

theorem Chip.settled_of_touches {c c' : Chip} {q : Nat → Prop} (h : c.touches c' q) (hq : ∀ a, q a → offClkBridge (pageOf a) = true) :
    c.settled c' := ⟨clkBridge_of_touches h hq, touches_outs h⟩

theorem Chip.settled_trans {c c' c'' : Chip} (h : c.settled c') (h' : c'.settled c'') : c.settled c'' :=
  ⟨h'.1.trans h.1, h'.2.trans h.2⟩

theorem Chip.settled_each {α : Type} (c : Chip) (l : List α) (f : Chip → α → Chip) (h : ∀ (c : Chip) x, c.settled (f c x)) :
    c.settled (c.each l f) :=
  ⟨each_clkBridge c l f fun c x _ => (h c x).1, each_keeps Chip.outs c l fun c x _ => (h c x).2⟩

theorem Chip.settled_setReg (c : Chip) (d : Nat) {p o : Nat} (w : Word) (hp : offClkBridge p = true) (ho : o < 0x1000) :
    c.settled (c.setReg d p o w) := ⟨c.setReg_clkBridge d hp ho w, rfl⟩

theorem Chip.settled_put (c : Chip) (d : Nat) {p o : Nat} (hi lo v : Nat) (hp : offClkBridge p = true) (ho : o < 0x1000) :
    c.settled (c.put d p o hi lo v) := c.settled_setReg d _ hp ho

theorem Chip.settled_setState (c : Chip) (d : Nat) {p : Nat} (v : Nat) (hp : offClkBridge p = true) : c.settled (c.setState d p v) :=
  c.settled_put d 15 8 v hp (by decide)

theorem Chip.settled_events (c : Chip) (d : Nat) {p : Nat} (sets : List Nat) (hp : offClkBridge p = true) : c.settled (c.events d p sets) :=
  settled_of_touches (c.touches_events d p sets) fun _ => offClkBridge_eventReg hp

theorem Chip.settled_event (c : Chip) (d : Nat) {p : Nat} (b : Nat) (hp : offClkBridge p = true) : c.settled (c.event d p b) :=
  c.settled_events d [b] hp

theorem State.settled_up {s : State} {f : Chip → Chip} (h : s.chip.settled (f s.chip)) : s.settled (s.up f) := ⟨State.up_clkBridge h.1, h.2⟩

theorem State.settled_trans {s s' s'' : State} (h : s.settled s') (h' : s'.settled s'') : s.settled s'' := ⟨h'.1.trans h.1, h'.2.trans h.2⟩

/-- A log entry goes into a basket, and counts LOG_HEAD (R456). -/
theorem State.settled_log (s : State) (d type page code arg : Nat) : s.settled (s.log d type page code arg) := by
  have hbytes : ∀ a bs, s.settled (s.setBytes a bs) := by
    intro a bs
    obtain ⟨hflash, hdram⟩ := s.mem.setBasketBytes_others a bs
    obtain ⟨hview, houts⟩ : s.chip.settled (s.setBytes a bs).chip :=
      Chip.settled_each s.chip (List.range ((bs.length + 3) / 4)) (fun c i => c.wordWritten (a + 4 * i)) fun _ _ => ⟨rfl, rfl⟩
    refine ⟨?_, houts⟩
    unfold State.clkBridge
    exact congr (congr (congrArg MemClkBridge.mk hflash) hdram) hview
  have hevent : ∀ (c : Chip) b, c.settled (c.eventIf b d FAULT 2) := fun c b =>
    Chip.settled_of_touches (c.touches_eventIf b d FAULT 2) fun _ => offClkBridge_eventReg rfl
  unfold State.log
  dsimp only
  exact State.settled_trans (hbytes _ _) (State.settled_up (Chip.settled_trans (Chip.settled_setReg _ d _ rfl (by decide)) (hevent _ _)))

/-- A mode change is reported, shown on every die of the gang, and logged (R78). -/
theorem State.settled_changeMode (s : State) (o old new cause first : Nat) : s.settled (s.changeMode o old new cause first) := by
  have hshown : ∀ c : Chip, c.settled (c.each (c.gang o) fun c e => (c.put e TGEN TGEN.OUT_STATE 2 0 new).setState e SCAN (scanState new)) :=
    fun c => c.settled_each _ _ fun c e =>
      Chip.settled_trans (c.settled_put e 2 0 new rfl (by decide)) (Chip.settled_setState _ e _ rfl)
  have hrecord : ∀ (c : Chip) code u bs, c.settled (c.record o code u bs) := fun c code u bs =>
    Chip.settled_of_touches (c.touches_record o code u bs) fun _ h => offClkBridge_eventReg (d := o) (p := TGEN) rfl (.inr (.inr h))
  unfold State.changeMode
  dsimp only
  refine State.settled_trans (State.settled_up ?_) (State.settled_log ..)
  exact Chip.settled_trans (Chip.settled_trans (hshown _) (Chip.settled_event _ o 0 rfl)) (hrecord ..)

theorem State.enterMode_clkBridge (s : State) (o m cause first : Nat) : (s.enterMode o m cause first).clkBridge = s.clkBridge := by
  have hdies : ∀ c : Chip, (c.each (c.gang o) fun c d =>
      let y := c.die d
      c.setDie d { y with heldTiles := [], heldLate := [] }).clkBridge = c.clkBridge := fun c => Chip.each_clkBridge c _ _ fun _ _ _ => rfl
  have hstate : ∀ (c : Chip) hi lo v, (c.putOutState o hi lo v).clkBridge = c.clkBridge := fun c hi lo v =>
    Chip.each_clkBridge c _ _ fun c d _ => c.put_clkBridge d rfl (by decide) _ _ _
  unfold State.enterMode
  dsimp only
  refine (State.settled_changeMode ..).1.trans (State.up_clkBridge ?_)
  split
  · exact (hstate ..).trans ((hdies _).trans rfl)
  · exact (hstate ..).trans ((hstate ..).trans ((hdies _).trans rfl))

/-! ### Entry into SAFE (R72) -/

/-- The part of entry into SAFE that is not a mode change: a pending change of entry is discarded. -/
theorem Chip.dropEntry_clkBridge (c : Chip) (o : Nat) :
    (if c.committing o TGEN ∧ c.isStaged o TGEN TGEN.ENTRY then
      let c : Chip := { c with staged := KMap.erase c.staged (ra o TGEN TGEN.ENTRY) }
      if c.stagedOf o TGEN = [] then c.clearCommit o TGEN else c
    else c).clkBridge = c.clkBridge := by
  dsimp only
  split_ifs
  · exact (clearCommit_clkBridge _ o rfl).trans (c.eraseEntry_clkBridge o)
  · exact c.eraseEntry_clkBridge o
  · rfl

theorem State.enterSafe_clkBridge (s : State) (o cause first : Nat) (h : s.chip.windowless o) :
    (s.enterSafe o cause first).clkBridge = s.clkBridge := by
  have hpanels : ∀ c : Chip, (c.each [(PANEL_OD, 5), (PANEL_DM, 4), (PANEL_DT, 0)] fun c p =>
      if c.committing o p.1 then (c.panelAbort o p.1).event o p.1 p.2 else c).clkBridge = c.clkBridge := by
    refine fun c => Chip.each_clkBridge c _ _ fun c p hp => ?_
    have hoff : offClkBridge p.1 = true := by revert p; decide
    split
    · exact (Chip.event_clkBridge _ o hoff _).trans (c.panelAbort_clkBridge o hoff)
    · rfl
  unfold State.enterSafe
  dsimp only
  refine (State.enterMode_clkBridge ..).trans (State.up_clkBridge ?_)
  rw [Chip.setOut_clkBridge]
  exact calc
    _ = _ := Chip.dropEntry_clkBridge _ o
    _ = _ := hpanels _
    _ = _ := Chip.dropCommit_clkBridge _ o
    _ = _ := Chip.dropWindow_clkBridge (Chip.windowless_of_outs (Chip.finishAll_outs ..) h) ABORTED
    _ = _ := Chip.finishAll_clkBridge ..

/-! ### Forming an output (R31, R78) -/

/-- What `State.formOutput` does to the timing of one die of the new gang of an output. -/
def Chip.stopTiming (o : Nat) (c : Chip) (d : Nat) : Chip :=
  let c := c.setNum d SYS SYS.FIRST_LIGHT_US 0
  let c := if d = o then c else c.setOut d {}
  let c := (c.setNum d TGEN TGEN.ENTRY 0).setNum d TGEN TGEN.FRAME_SEQ 0
  ((c.setNum d TGEN TGEN.POSITION 0).setReady d TGEN false).setState d TGEN 1

/-- What it does to one die. -/
def Chip.formDie (o : Nat) (c : Chip) (d : Nat) : Chip :=
  let c := c.stopTiming o d
  let y := c.die d
  let c := c.setDie d { y with livePx := [], substs := [], failed := [], composed := [], picture := [], line := {}, prev := [],
                               heldTiles := [], heldLate := [], fetched := [], dmRows := [], dmFailed := [], halo := [],
                               txCodes := none, txDrop := [], sigCrcs := [], misses := 0, cutOff := false, holdLine := 0 }
  (c.noteDlink d).notePanel d

/-- What it does before the mode change. -/
def Chip.formGang (c : Chip) (o : Nat) : Chip :=
  ((c.setOut o { pwmAt := (c.out o).pwmAt }).each ((c.setOut o { pwmAt := (c.out o).pwmAt }).gang o) (Chip.formDie o)).noteLineMax o

theorem State.formOutput_eq (s : State) (o : Nat) (due : List (Nat × Nat)) : s.formOutput o due =
    let s := (s.up fun c => c.formGang o).changeMode o BRINGUP BRINGUP 10 0
    match due.find? (fun x => (s.chip.gang o).contains x.1) with
    | some x => s.enterSafe o x.2 0
    | none => s := rfl

theorem Chip.stopTiming_clkBridge (o : Nat) (c : Chip) (d : Nat) : (c.stopTiming o d).clkBridge = c.clkBridge := by
  unfold Chip.stopTiming
  rw [setState_clkBridge _ _ rfl, setReady_clkBridge _ _ rfl, setNum_clkBridge _ _ rfl (by decide), setNum_clkBridge _ _ rfl (by decide),
    setNum_clkBridge _ _ rfl (by decide)]
  split
  · exact setNum_clkBridge _ _ rfl (by decide) 0
  · exact (setOut_clkBridge ..).trans (setNum_clkBridge _ _ rfl (by decide) 0)

theorem Chip.formDie_clkBridge (o : Nat) (c : Chip) (d : Nat) : (c.formDie o d).clkBridge = c.clkBridge := by
  unfold Chip.formDie
  rw [notePanel_clkBridge, noteDlink_clkBridge, setDie_clkBridge, stopTiming_clkBridge]

theorem Chip.formGang_clkBridge (c : Chip) (o : Nat) : (c.formGang o).clkBridge = c.clkBridge :=
  (noteLineMax_clkBridge _ o).trans (each_clkBridge _ _ _ fun c d _ => c.formDie_clkBridge o d)

theorem Chip.stopTiming_out (o : Nat) (c : Chip) (d : Nat) : (c.stopTiming o d).out o = c.out o := by
  have hother : ∀ c : Chip, (if d = o then c else c.setOut d {}).out o = c.out o := by
    intro c
    split
    · rfl
    · rename_i h
      rw [Chip.out_setOut, if_neg (Ne.symm h)]
  unfold Chip.stopTiming
  dsimp only
  rw [out_congr (setState_outs ..), out_congr (setReady_outs ..), out_congr (setNum_outs ..), out_congr (setNum_outs ..),
    out_congr (setNum_outs ..), hother, out_congr (setNum_outs ..)]

theorem Chip.formDie_out (o : Nat) (c : Chip) (d : Nat) : (c.formDie o d).out o = c.out o := by
  unfold Chip.formDie
  rw [out_congr (notePanel_outs ..), out_congr (noteDlink_outs ..), out_congr (setDie_outs ..), stopTiming_out]

/-- An output that has been formed anew has no window. -/
theorem Chip.formGang_windowless (c : Chip) (o : Nat) : (c.formGang o).windowless o := by
  have hgang : ∀ (l : List Nat) (c : Chip), (c.each l (Chip.formDie o)).out o = c.out o := fun l c =>
    Chip.each_keeps (fun c => c.out o) c l fun c d _ => c.formDie_out o d
  have hlines : ∀ c : Chip, (c.noteLineMax o).outs = c.outs := fun c => Chip.each_keeps Chip.outs c _ fun _ _ _ => rfl
  unfold Chip.formGang
  refine Chip.windowless_of_outs (hlines _) ?_
  unfold Chip.windowless
  rw [hgang, Chip.out_setOut, if_pos rfl]
  exact ⟨rfl, rfl⟩

theorem State.formOutput_clkBridge (s : State) (o : Nat) (due : List (Nat × Nat)) : (s.formOutput o due).clkBridge = s.clkBridge := by
  obtain ⟨hview, houts⟩ := (s.up fun c => c.formGang o).settled_changeMode o BRINGUP BRINGUP 10 0
  have hwindow := Chip.windowless_of_outs houts (s.chip.formGang_windowless o)
  have hformed : _ = s.clkBridge := hview.trans (State.up_clkBridge (s.chip.formGang_clkBridge o))
  rw [State.formOutput_eq]
  dsimp only
  split
  · exact (State.enterSafe_clkBridge _ o _ 0 hwindow).trans hformed
  · exact hformed

end Sys2Proof.Machine
end

section
/-! PROOFS. The gang map in effect (R29 to R31), and with it the statement on gangs and the slice bridge (O49). -/

namespace Sys2Proof.Machine

/-! ### The map that is staged -/

/-- A page with one staged register lists it, and nothing else. -/
theorem Chip.get?_staged_of_stagedOf {c : Chip} {d p o : Nat} {w : Word} (h : c.stagedOf d p = [(o, w)]) :
    KMap.get? c.staged (ra d p o) = some w := by
  obtain ⟨⟨a, v⟩, hlist, hpair⟩ := List.map_eq_singleton_iff.1 h
  obtain ⟨hoff, rfl⟩ := Prod.mk.inj hpair
  have hpage : a / 0x1000 = pageKey d p := by
    have hmem : (a, v) ∈ c.staged.filter (fun kv => decide (kv.1 / 0x1000 = d * 0x1000 + p)) := hlist ▸ List.mem_cons_self ..
    exact of_decide_eq_true (List.mem_filter.1 hmem).2
  have haddr : ra d p o = a := by
    dsimp only at hoff
    unfold pageKey at hpage
    unfold ra
    omega
  have hfilter : c.staged.filter (fun kv => decide (kv.1 / 0x1000 = pageKey d p)) = [(a, v)] := hlist
  have hget := KMap.get?_filter c.staged (fun a => decide (a / 0x1000 = pageKey d p)) (fun _ => rfl) a
  rw [hfilter, if_pos (decide_eq_true hpage)] at hget
  rw [haddr, ← hget]
  exact if_pos rfl

theorem Chip.stagedReg_of_stagedOf {c : Chip} {d p o : Nat} {w : Word} (h : c.stagedOf d p = [(o, w)]) : c.stagedReg d p o = w := by
  unfold Chip.stagedReg KMap.getD
  rw [get?_staged_of_stagedOf h]
  rfl

/-- A register that takes its staged bits: a field of staged bits only reads as staged (R15). -/
theorem bits_mergeBits (k hi lo : Nat) (old new : Word) (hlo : lo ≤ hi) (hhi : hi < k) (hk : k ≤ 32) :
    bits (mergeBits (2 ^ k - 1) old new) hi lo = bits new hi lo := by
  refine Nat.eq_of_testBit_eq fun i => ?_
  rw [testBit_bits, testBit_bits]
  by_cases h : i < hi + 1 - lo
  · have hmask : (BitVec.ofNat 32 (2 ^ k - 1)).getLsbD (lo + i) = true := by
      rw [BitVec.getLsbD_ofNat, Nat.testBit_two_pow_sub_one, Bool.and_eq_true]
      exact ⟨decide_eq_true (by omega), decide_eq_true (by omega)⟩
    have hbit : (mergeBits (2 ^ k - 1) old new).getLsbD (lo + i) = new.getLsbD (lo + i) := by
      rw [mergeBits, BitVec.getLsbD_or, BitVec.getLsbD_and, BitVec.getLsbD_and, BitVec.getLsbD_not, hmask]
      simp
    exact congrArg _ hbit
  · simp [h]

/-- The committed gang map is in effect (R31). -/
theorem Chip.gangCode_applied {c : Chip} {w : Word} (h : c.stagedOf 0 BRIDGE = [(BRIDGE.GANG_MAP, w)]) {d : Nat} (hd : d < 8) :
    ((c.applyStaged 0 BRIDGE).clearCommit 0 BRIDGE).gangCode d = widthCode w d := by
  have hreg : ((c.applyStaged 0 BRIDGE).clearCommit 0 BRIDGE).reg 0 BRIDGE BRIDGE.GANG_MAP =
      mergeBits (2 ^ 16 - 1) (c.reg 0 BRIDGE BRIDGE.GANG_MAP) w := by
    show (c.applyStaged 0 BRIDGE).reg 0 BRIDGE BRIDGE.GANG_MAP = _
    unfold Chip.applyStaged
    rw [h, Chip.reg_unstage]
    exact (c.reg_setReg ..).trans (if_pos rfl)
  unfold Chip.gangCode Chip.get widthCode
  rw [hreg]
  exact bits_mergeBits 16 _ _ _ _ (by omega) (by omega) (by omega)

/-! ### The event -/

/-- An event bit that sets is set, unless it is one of a port page, where a dropped record may follow (R130, R152). -/
theorem Chip.bit_event (c : Chip) (d : Nat) {p b : Nat} (hp : p < 0x1000) (hport : p ≠ PORT_SVC ∧ p ≠ PORT_INB) (hb : b < 32) :
    bit ((c.event d p b).reg d p PAGE_EVENT) b = true := by
  have hset : bit ((c.setEvents d p [b]).1.reg d p PAGE_EVENT) b = true := by
    unfold Chip.setEvents
    dsimp only [List.foldl]
    by_cases h : (c.num d p PAGE_EVENT).testBit b = true
    · rw [if_pos h]
      dsimp only
      rw [Chip.count_eq, Chip.reg_setReg, if_neg fun hx => absurd ((ra_inj hp (by decide) hp (by decide)).1 hx).2.2 (by decide)]
      exact h
    · rw [if_neg h]
      dsimp only
      rw [Chip.setNum_eq, Chip.reg_setReg, if_pos rfl]
      show (BitVec.ofNat 32 _).getLsbD b = true
      rw [BitVec.getLsbD_ofNat, Nat.testBit_or, Nat.testBit_two_pow_self]
      simp [hb]
  have hrest : (c.setEvents d p [b]).1.touches (c.event d p b) portReg := by
    unfold Chip.event Chip.events
    dsimp only
    split
    · exact Chip.touches_refl _ _
    · split
      · exact Chip.touches_joinRecord _ _ _ _ _
      · exact Chip.touches_trans (Chip.touches_noteRaised _ _ _ _) (Chip.touches_record _ d 0x02 false _)
  rw [Chip.touches_reg hrest d p PAGE_EVENT ?_]
  · exact hset
  · rintro (⟨h, -⟩ | ⟨h, -⟩) <;> rw [pageOf_ra d p _ hp (by decide)] at h
    · exact hport.1 h
    · exact hport.2 h

theorem Chip.committing_event (c : Chip) (d p b e q : Nat) : (c.event d p b).committing e q = c.committing e q := by
  have hcommits : (c.event d p b).commits = c.commits := by rw [(c.touches_event d p b).1]
  unfold Chip.committing
  rw [hcommits]

/-! ### The map takes effect -/

/-- The chip with the outputs that a map changes taken apart, the map in effect, and the lanes of the changed dies training again. -/
def Chip.remapped (c : Chip) (w : Word) : Chip :=
  let changed := c.recoded w
  let c := c.each (c.outputs.filter fun o => changed.contains o) fun c o => c.takeApart o
  let c := (c.applyStaged 0 BRIDGE).clearCommit 0 BRIDGE
  c.each changed fun c d => c.each (List.range 24) fun c l => c.laneAgain d l

/-- A committed map takes effect while the outputs that it takes apart are in BRINGUP (R31). -/
theorem State.gangApply_eq (s : State) {w : Word} (hc : s.chip.committing 0 BRIDGE = true)
    (hw : s.chip.stagedReg 0 BRIDGE BRIDGE.GANG_MAP = w) (hmode : ∀ d ∈ s.chip.recoded w, s.chip.dieMode d = BRINGUP) :
    s.gangApply =
      let changed := s.chip.recoded w
      let t := s.up fun c => c.remapped w
      (t.each (t.chip.outputs.filter fun o => changed.contains o) fun t o => t.formOutput o s.chip.fatalDue).up fun c => c.event 0 BRIDGE 4 := by
  subst hw
  unfold State.gangApply
  dsimp only
  rw [if_neg (by simp [hc]), if_neg (by simpa using hmode)]
  rfl

theorem Chip.each_takeApart_staging (c : Chip) (l : List Nat) : (c.each l fun c o => c.takeApart o).staging = c.staging :=
  each_keeps Chip.staging c l fun c o _ => c.takeApart_staging o

theorem Chip.each_laneAgain_clkBridge (c : Chip) (l : List Nat) :
    (c.each l fun c d => c.each (List.range 24) fun c l => c.laneAgain d l).clkBridge = c.clkBridge :=
  each_clkBridge c l _ fun c d _ => each_clkBridge c _ _ fun c _ hl => c.laneAgain_clkBridge d (List.mem_range.1 hl)

theorem State.each_formOutput_clkBridge (s : State) (l : List Nat) (due : List (Nat × Nat)) :
    (s.each l fun s o => s.formOutput o due).clkBridge = s.clkBridge :=
  State.each_keeps State.clkBridge s l fun s o _ => s.formOutput_clkBridge o due

/-- After the map is in effect nothing is pending on BRIDGE, and every die has the map's width code. -/
theorem Chip.remapped_spec {c : Chip} {w : Word} (h : c.stagedOf 0 BRIDGE = [(BRIDGE.GANG_MAP, w)]) :
    (c.remapped w).committing 0 BRIDGE = false ∧ ∀ d < 8, (c.remapped w).gangCode d = widthCode w d := by
  have hapart := c.each_takeApart_staging (c.outputs.filter fun o => (c.recoded w).contains o)
  have hview := Chip.each_laneAgain_clkBridge (((c.each (c.outputs.filter fun o => (c.recoded w).contains o) fun c o =>
    c.takeApart o).applyStaged 0 BRIDGE).clearCommit 0 BRIDGE) (c.recoded w)
  refine ⟨(congrArg BridgeStaging.pending (Chip.staging_of_clkBridge hview)).trans (Chip.committing_clearCommit _ 0 BRIDGE), fun d hd => ?_⟩
  have hcode := Chip.gangCode_applied ((congrArg BridgeStaging.staged hapart).trans h) hd
  rw [← hcode]
  exact congrArg (fun w => bits w (2 * d + 1) (2 * d)) (Chip.reg_of_clkBridge hview 0 BRIDGE.GANG_MAP (by decide)).2

/-- A map that changes no die's code takes nothing apart (R31). -/
theorem Chip.remapped_of_none {c : Chip} {w : Word} (h : c.recoded w = []) :
    c.remapped w = (c.applyStaged 0 BRIDGE).clearCommit 0 BRIDGE := by
  unfold Chip.remapped
  rw [h]
  simp [Chip.each]

/-- A map that takes apart outputs in BRINGUP only is in effect after the row, with its event (R31). -/
theorem State.gangApply_spec (s : State) {w : Word} (hc : s.chip.committing 0 BRIDGE = true)
    (hw : s.chip.stagedOf 0 BRIDGE = [(BRIDGE.GANG_MAP, w)]) (hmode : ∀ d ∈ s.chip.recoded w, s.chip.dieMode d = BRINGUP) :
    s.gangApply.mem.flash = s.mem.flash ∧ s.gangApply.mem.dram = s.mem.dram ∧ s.gangApply.chip.committing 0 BRIDGE = false ∧
      (∀ d < 8, s.gangApply.chip.gangCode d = widthCode w d) ∧ bit (s.gangApply.chip.reg 0 BRIDGE PAGE_EVENT) 4 = true := by
  obtain ⟨hpending, hcodes⟩ := Chip.remapped_spec hw
  have happly := s.gangApply_eq hc (Chip.stagedReg_of_stagedOf hw) hmode
  dsimp only at happly
  have hview := (s.up fun c => c.remapped w).each_formOutput_clkBridge
    ((s.up fun c => c.remapped w).chip.outputs.filter fun o => (s.chip.recoded w).contains o) s.chip.fatalDue
  generalize ((s.up fun c => c.remapped w).each _ _) = u at happly hview
  unfold State.clkBridge at hview
  rw [State.up_mem, State.up_chip] at hview
  obtain ⟨hflash, hdram, hkept⟩ := MemClkBridge.mk.inj hview
  rw [happly, State.up_mem, State.up_chip]
  refine ⟨hflash, hdram, ?_, fun d hd => ?_, u.chip.bit_event 0 (by decide) (by decide) (by decide)⟩
  · rw [← hpending, Chip.committing_event]
    exact congrArg BridgeStaging.pending (Chip.staging_of_clkBridge hkept)
  · rw [← hcodes d hd]
    have hmap : (u.chip.event 0 BRIDGE 4).reg 0 BRIDGE BRIDGE.GANG_MAP = (s.chip.remapped w).reg 0 BRIDGE BRIDGE.GANG_MAP :=
      (u.chip.reg_event 0 BRIDGE 4 (by decide) (by decide) (by decide) (by decide) (.inr (by decide))).trans
        (Chip.reg_of_clkBridge hkept 0 BRIDGE.GANG_MAP (by decide)).2
    exact congrArg (fun w => bits w (2 * d + 1) (2 * d)) hmap

/-- A map that changes no die's code is in effect as it was staged, and tells of it (R31). -/
theorem State.gangApply_same (s : State) {w : Word} (hc : s.chip.committing 0 BRIDGE = true)
    (hw : s.chip.stagedOf 0 BRIDGE = [(BRIDGE.GANG_MAP, w)]) (hnone : s.chip.recoded w = []) :
    s.gangApply = s.up fun c => ((c.applyStaged 0 BRIDGE).clearCommit 0 BRIDGE).event 0 BRIDGE 4 := by
  rw [s.gangApply_eq hc (Chip.stagedReg_of_stagedOf hw) (by simp [hnone])]
  have hnobody : ∀ l : List Nat, (l.filter fun o => (s.chip.recoded w).contains o) = [] := fun l => by simp [hnone]
  dsimp only
  rw [hnobody, State.each, List.foldl_nil, State.up_up]
  exact State.up_congr (congrArg (fun c : Chip => c.event 0 BRIDGE 4) (Chip.remapped_of_none hnone))

theorem gangMapTakesEffect : Claim.GangMapTakesEffect := by
  intro s w hc hw
  have hexec : exec .gangMapApply s = .next s.gangApply := rfl
  refine ⟨fun hmode => ⟨_, hexec, s.gangApply_spec hc hw fun d hd => ?recoded⟩, fun hsame => ?same⟩
  case recoded =>
    obtain ⟨hdie, hcode⟩ := List.mem_filter.1 hd
    exact hmode d (List.mem_range.1 hdie) (of_decide_eq_true hcode)
  case same =>
    have hnone : s.chip.recoded w = [] := by simpa [Chip.recoded, Chip.dies', List.filter_eq_nil_iff] using hsame
    rw [hexec, s.gangApply_same hc hw hnone]

/-- Settles O49: the ring with one link down, the gang map in effect, the timing tokens of a follower, and the links. -/
theorem gangsAndBridge : Obligations.GangsAndBridge := ⟨ringReach, gangMapTakesEffect, timingTokens, bridgeLinks⟩

end Sys2Proof.Machine
end

section
/-! PROOFS. A command that its port takes or discards (O9, O10; R76, R79, R111, R117). -/

namespace Sys2Proof.Machine

/-- Settles O9: an admitted command runs in the state in which it starts. -/
theorem admittedCommandRuns : Obligations.AdmittedCommandRuns := fun _ _ _ _ hi ha => exec_admitted hi ha

/-! ### Discarding (R111, R117) -/

/-- A message beyond its port's credits is discarded (R111). -/
theorem State.accept_no_credit (s : State) (a : Arrival) (hh : s.chip.hears a.port = true)
    (hc : portCredits a.port ≤ (s.chip.port a.port).tags.length) : s.accept a = s.up fun c => c.discarded a.port 0 := by
  unfold State.accept
  rw [if_neg (by simp [hh]), if_pos hc]

/-- A message within the credits whose tag is in use is discarded (R117). -/
theorem State.accept_tag_in_use (s : State) (a : Arrival) (hh : s.chip.hears a.port = true)
    (hc : (s.chip.port a.port).tags.length < portCredits a.port) (ht : a.tag ∈ (s.chip.port a.port).tags) :
    s.accept a = s.up fun c => c.discarded a.port 1 := by
  unfold State.accept
  rw [if_neg (by simp [hh]), if_neg (Nat.not_le.2 hc), if_pos (by simpa using ht)]

/-- Outside STANDBY a discarded message is counted (R111, R117). -/
theorem State.up_discarded_awake (s : State) (p : Port) (k : Nat) (h : s.chip.power ≠ .standby) :
    (s.up fun c => c.discarded p k) = s.up fun c => c.discard p k k := State.up_congr (if_neg h)

/-- In STANDBY it leaves no trace (R76). -/
theorem State.up_discarded_standby (s : State) (p : Port) (k : Nat) (h : s.chip.power = .standby) :
    (s.up fun c => c.discarded p k) = s := State.up_congr (g := id) (if_pos h)

theorem discardedCommand : Claim.DiscardedCommand := by
  intro i h cmd s hi hp hh tags
  have hexec : exec i s = .next (s.accept (Hdr.message h cmd)) := (exec_of_asCommand s hi).trans (s.command_of_port h cmd hp)
  have hcredit : portCredits h.port ≤ tags.length → exec i s = .next (s.up fun c => c.discarded h.port 0) := fun hc =>
    hexec.trans (congrArg _ (s.accept_no_credit _ hh hc))
  have htag : tags.length < portCredits h.port → h.tag ∈ tags → exec i s = .next (s.up fun c => c.discarded h.port 1) := fun hc ht =>
    hexec.trans (congrArg _ (s.accept_tag_in_use _ hh hc ht))
  refine ⟨fun hawake hc => ?credit, fun hawake hc ht => ?tag, fun hasleep hor => ?standby⟩
  case credit => rw [hcredit hc, s.up_discarded_awake _ _ hawake]
  case tag => rw [htag hc ht, s.up_discarded_awake _ _ hawake]
  case standby =>
    by_cases hc : portCredits h.port ≤ tags.length
    · rw [hcredit hc, s.up_discarded_standby _ _ hasleep]
    · rw [htag (Nat.not_le.1 hc) (hor.resolve_left hc), s.up_discarded_standby _ _ hasleep]

theorem discardIsCounted : Claim.DiscardIsCounted :=
  ⟨fun _ _ _ => rfl, fun _ _ _ _ _ => rfl, fun _ _ _ => rfl, fun _ _ _ _ => rfl⟩

/-- Settles O10: a command without a credit or with a tag in use is only counted, and in STANDBY not even that. -/
theorem discardedCommands : Obligations.DiscardedCommands := ⟨discardedCommand, discardIsCounted⟩

end Sys2Proof.Machine
end

section
/-! PROOFS. The state that reset leaves (O4; R61, R81, R155, R385). -/

namespace Sys2Proof.Machine

/-! ### Reset values of registers (R155) -/

/-- The reset value of a register, by its die, page and offset. -/
theorem resetAt_ra (m : Member) (d : Nat) {p o : Nat} (hp : p < 0x1000) (ho : o < 0x1000) :
    resetAt m (ra d p o) = BitVec.ofNat 32 (resetVal m d p o) := by
  have hdie : ra d p o / 0x1000000 = d := by unfold ra; omega
  have hpage : ra d p o / 0x1000 % 0x1000 = p := by unfold ra; omega
  have hoffset : ra d p o % 0x1000 = o := by unfold ra; omega
  rw [resetAt, hdie, hpage, hoffset]

/-- After reset every register of the PN9808 holds its reset value. -/
theorem Chip.reg_reset (d : Nat) {p o : Nat} (hp : p < 0x1000) (ho : o < 0x1000) :
    Chip.reset.reg d p o = BitVec.ofNat 32 (resetVal .pn9808 d p o) := resetAt_ra .pn9808 d hp ho

/-- Where nothing is staged, the staged word of a register is the one in effect (R15). -/
theorem Chip.stagedReg_of_staged_nil {c : Chip} (h : c.staged = []) (d p o : Nat) : c.stagedReg d p o = c.reg d p o := by
  rw [Chip.stagedReg, h, KMap.getD, KMap.get?_nil, Option.getD_none]

/-- CHIP_ID names the member (R5). -/
theorem resetVal_chipId (m : Member) (d : Nat) : resetVal m d SYS 0x040 = chipId m := rfl

/-- OWNER_0 gives B0 and B1 to MAILBOX, code 6, and the registers after it name the steward only (R382, R385). -/
theorem resetVal_owner (m : Member) (d : Nat) {k : Nat} (hk : k < 4) :
    resetVal m d BASKET (BASKET.OWNER + 4 * k) = if k = 0 then 0x66 else 0 := by
  interval_cases k <;> rfl

theorem pageKind_lanePage : ∀ l < 24, pageKind (lanePage l) = some (if l < 8 then .laneS else .laneD) := by decide

theorem lanePage_lt {l : Nat} (hl : l < 24) : lanePage l < 0x1000 := by unfold lanePage; split <;> omega

/-- STATUS of a lane page reads 0: the lane is OFF, at no rate, with nothing found (R190). -/
theorem resetVal_laneStatus (m : Member) (d : Nat) {l : Nat} (hl : l < 24) : resetVal m d (lanePage l) LANE.STATUS = 0 := by
  unfold resetVal
  rw [pageKind_lanePage l hl]
  by_cases hs : l < 8
  · rw [if_pos hs]; rfl
  · rw [if_neg hs]; rfl

/-! ### Outputs, baskets and lanes after reset -/

/-- The owner of B0 and B1 is MAILBOX, and every other basket is the steward's (R382, R385). -/
theorem Chip.owner_reset (d : Nat) {b : Nat} (hb : b < 32) : Chip.reset.owner d b = if b < 2 then 6 else 0 := by
  have hword : Chip.reset.reg d BASKET (BASKET.OWNER + 4 * (b / 8)) = BitVec.ofNat 32 (if b / 8 = 0 then 0x66 else 0) := by
    rw [Chip.reg_reset d (by decide) (by simp only [BASKET.OWNER]; omega), resetVal_owner .pn9808 d (by omega)]
  have hfield : ∀ b < 32,
      bits (BitVec.ofNat 32 (if b / 8 = 0 then 0x66 else 0)) (4 * (b % 8) + 3) (4 * (b % 8)) = if b < 2 then 6 else 0 := by decide
  rw [Chip.owner, Chip.get, hword, hfield b hb]

theorem Chip.chipId_reset (d : Nat) : Chip.reset.reg d SYS 0x040 = 0x980800B0#32 := by
  rw [Chip.reg_reset d (by decide) (by decide), resetVal_chipId]; rfl

theorem Chip.laneStatus_reset (d : Nat) {l : Nat} (hl : l < 24) : Chip.reset.reg d (lanePage l) LANE.STATUS = 0#32 := by
  rw [Chip.reg_reset d (lanePage_lt hl) (by decide), resetVal_laneStatus .pn9808 d hl]

theorem Chip.mode_reset {o : Nat} (ho : o < 8) : Chip.reset.mode o = BRINGUP := resetAt_outState .pn9808 o ho

/-- Settles O4: reset leaves every list empty, and every register at the value that its page's table gives it. -/
theorem resetState : Obligations.ResetState := by
  refine ⟨rfl, rfl, rfl, rfl, rfl, rfl, fun d hd => ⟨Chip.chipId_reset d, Chip.mode_reset hd, ?b0, ?b1, ?others⟩,
    fun d _ l hl => Chip.laneStatus_reset d hl, fun d p o => ⟨rfl, Chip.stagedReg_of_staged_nil rfl d p o⟩⟩
  case b0 => exact Chip.owner_reset d (by decide)
  case b1 => exact Chip.owner_reset d (by decide)
  case others => exact fun b hb hb' => (Chip.owner_reset d hb').trans (if_neg (Nat.not_lt.2 hb))

end Sys2Proof.Machine
end

section
/-! PROOFS. The memories after reset (O5; R81). -/

namespace Sys2Proof.Machine

/-- Settles O5: nothing is listed after reset. -/
theorem resetMemoryCanonical : Obligations.ResetMemoryCanonical := Mem.wf_reset

end Sys2Proof.Machine
end

section
/-! PROOFS. The boot flash (O7; R101, R124): what each operation of the state that is neither a FLASH_WRITE nor a loss of power leaves
of it. One lemma for an operation, in the order in which they call each other. -/

namespace Sys2Proof.Machine

/-- The boot flash: its bytes, and those that a write has left unspecified (R101, R124). -/
def State.flash (s : State) : KMap Byte × List Nat := (s.mem.flash, s.mem.flashOpen)

/-! ### The memories (R101, R133, R329) -/

theorem Mem.setBasketBytes_flash (m : Mem) (a : Nat) (bs : List Byte) :
    (m.setBasketBytes a bs).flash = m.flash ∧ (m.setBasketBytes a bs).flashOpen = m.flashOpen := by
  fun_induction Mem.setBasketBytes m a bs with
  | case1 => exact ⟨rfl, rfl⟩
  | case2 m a x y z w rest ih => exact ih
  | case3 => exact ⟨rfl, rfl⟩

theorem Chip.putGranules_flash (c : Chip) (d ch n g : Nat) (bs : List Byte) (m : Mem) :
    (c.putGranules d ch n g bs m).flash = m.flash ∧ (c.putGranules d ch n g bs m).flashOpen = m.flashOpen := by
  induction n generalizing g bs m with
  | zero => exact ⟨rfl, rfl⟩
  | succ n ih => exact ih ..

theorem State.flash_up (s : State) (f : Chip → Chip) : (s.up f).flash = s.flash := Prod.ext rfl rfl

theorem State.flash_mapMem {s : State} {f : Mem → Mem} (h : (f s.mem).flash = s.mem.flash ∧ (f s.mem).flashOpen = s.mem.flashOpen) :
    (s.mapMem f).flash = s.flash := Prod.ext h.1 h.2

theorem State.flash_ite {p : Prop} [Decidable p] {a b : State} {x : KMap Byte × List Nat} (ha : a.flash = x) (hb : b.flash = x) :
    (if p then a else b).flash = x := by
  split
  · exact ha
  · exact hb

theorem State.flash_when (s : State) (b : Bool) (f : State → State) : (s.when b f).flash = if b then (f s).flash else s.flash :=
  apply_ite State.flash _ _ _

theorem State.flash_each {α : Type} (s : State) (l : List α) {f : State → α → State} (h : ∀ (s : State) x, (f s x).flash = s.flash) :
    (s.each l f).flash = s.flash := State.each_keeps State.flash s l fun s x _ => h s x

/-- Items taken one after the other, with a result that is collected beside the state. -/
theorem State.flash_foldl {α β : Type} (s : State) (b : β) (l : List α) {f : State × β → α → State × β}
    (h : ∀ q x, (f q x).1.flash = q.1.flash) : (l.foldl f (s, b)).1.flash = s.flash :=
  List.foldlRecOn l f (motive := fun q => q.1.flash = s.flash) rfl fun q hq x _ => (h q x).trans hq

theorem State.flash_setWord (s : State) (a : Nat) (w : Word) : (s.setWord a w).flash = s.flash := by
  unfold State.setWord
  rw [flash_up, flash_mapMem ⟨rfl, rfl⟩]

theorem State.flash_setBytes (s : State) (a : Nat) (bs : List Byte) : (s.setBytes a bs).flash = s.flash := by
  unfold State.setBytes
  rw [flash_up, flash_mapMem (s.mem.setBasketBytes_flash a bs)]

/-! ### The log, fault codes and completions -/

theorem State.flash_finish (s : State) (r : Req) (st dt : Nat) (bs : List Byte) : (s.finish r st dt bs).flash = s.flash := s.flash_up _

theorem State.flash_done (s : State) (r : Req) (st : Nat) : (s.done r st).flash = s.flash := s.flash_finish r st 0 []

theorem State.flash_log (s : State) (d type page code arg : Nat) : (s.log d type page code arg).flash = s.flash := by
  unfold State.log
  rw [flash_up, flash_setBytes]

theorem State.flash_latch (s : State) (d p code : Nat) : (s.latch d p code).flash = s.flash := by
  unfold State.latch
  simp only [↓apply_ite State.flash, ↓flash_log, ↓flash_up, ite_self]

theorem State.flash_fatal (s : State) (d code : Nat) : (s.fatal d code).flash = s.flash := by
  unfold State.fatal
  rw [flash_up, flash_latch]

theorem State.flash_changeMode (s : State) (o old new cause first : Nat) : (s.changeMode o old new cause first).flash = s.flash := by
  unfold State.changeMode
  rw [flash_log, flash_up]

/-! ### Frame memory (R351 to R379) -/

theorem State.flash_pairMismatch (s : State) (d stage : Nat) : (s.pairMismatch d stage).flash = s.flash := by
  unfold State.pairMismatch
  simp only [↓apply_ite State.flash, ↓flash_up, ↓flash_fatal, ite_self]

theorem State.flash_channelLost (s : State) (d ch : Nat) : (s.channelLost d ch).flash = s.flash := by
  unfold State.channelLost
  rw [flash_latch, flash_up]

theorem State.flash_uncorrectable (s : State) (d ch rank : Nat) : (s.uncorrectable d ch rank).flash = s.flash := by
  unfold State.uncorrectable
  simp only [↓apply_ite State.flash, ↓flash_up, ↓flash_channelLost, ↓flash_latch, ite_self]

theorem State.flash_migrateDone (s : State) (d ch : Nat) : (s.migrateDone d ch).flash = s.flash := by
  unfold State.migrateDone
  simp only [↓apply_ite State.flash, ↓flash_up, ↓flash_latch, ite_self]

theorem State.flash_rankSpare (s : State) (r : Req) (d ch rank : Nat) : (s.rankSpare r d ch rank).flash = s.flash := by
  unfold State.rankSpare
  simp only [↓apply_ite State.flash, ↓flash_up, ↓flash_done, ↓flash_finish, ite_self]

theorem State.flash_slotError (s : State) (d ch cs : Nat) (stale : Bool) : (s.slotError d ch cs stale).flash = s.flash := by
  unfold State.slotError
  simp only [↓apply_ite State.flash, ↓flash_up, ↓flash_uncorrectable, ite_self]

theorem State.flash_readFailed (s : State) (d slot shown consumer cause : Nat) :
    (s.readFailed d slot shown consumer cause).flash = s.flash := by
  unfold State.readFailed
  simp only [↓apply_ite State.flash, ↓flash_up, ↓flash_slotError, ite_self]

theorem State.flash_writeSlot (s : State) (d slot : Nat) (bs : List Byte) : (s.writeSlot d slot bs).flash = s.flash := by
  unfold State.writeSlot
  dsimp only
  split
  · rw [flash_up, flash_mapMem ⟨rfl, rfl⟩]
  · rfl

theorem State.flash_putHamper (s : State) (d slot : Nat) (bs : List Byte) : (s.putHamper d slot bs).flash = s.flash := by
  unfold State.putHamper
  rw [flash_up, flash_writeSlot]

theorem State.flash_storeTile (s : State) (d slot owner seq : Nat) (ctrl : Bool × Bool) (subst checkFails : Bool) (px : List Px) :
    (s.storeTile d slot owner seq ctrl subst checkFails px).flash = s.flash := by
  unfold State.storeTile
  rw [flash_up, flash_putHamper]

theorem State.flash_commandError (s : State) (d ch rank : Nat) : (s.commandError d ch rank).flash = s.flash := by
  unfold State.commandError
  simp only [↓apply_ite State.flash, ↓flash_up, ↓flash_uncorrectable, ite_self]

theorem State.flash_dramFreq (s : State) (r : Req) (d mask t : Nat) : (s.dramFreq r d mask t).flash = s.flash := by
  unfold State.dramFreq
  simp only [↓apply_ite State.flash, ↓flash_done, ↓flash_finish, ite_self]

theorem State.flash_freqDone (s : State) (d : Nat) : (s.freqDone d).flash = s.flash := by
  unfold State.freqDone
  dsimp only
  split
  · rfl
  · refine (flash_each _ _ fun s k => ?_).trans (s.flash_up _)
    split
    · rw [flash_uncorrectable, flash_up]
    · rfl

theorem State.flash_dramConfig (s : State) (r : Req) (d : Nat) (p : List Byte) : (s.dramConfig r d p).flash = s.flash := by
  have hdrop : ∀ q, (s.mapMem fun m => m.dropSlots d q).flash = s.flash := fun q => flash_mapMem ⟨rfl, rfl⟩
  unfold State.dramConfig
  simp only [↓apply_ite State.flash, ↓flash_up, ↓flash_done, ↓flash_finish, ↓hdrop, ite_self]

theorem State.flash_dramConfigDone (s : State) (d ch : Nat) (x : ConfigOutcome) : (s.dramConfigDone d ch x).flash = s.flash := by
  unfold State.dramConfigDone
  dsimp only
  split
  · rfl
  · split
    · simp only [↓apply_ite State.flash, ↓flash_up, ↓flash_done, ↓flash_finish, ↓flash_latch, ite_self]
    · rfl

/-! ### Layers and panel tables (R219 to R272) -/

theorem State.flash_layerCommit (s : State) (r : Req) (o : Nat) : (s.layerCommit r o).flash = s.flash := by
  unfold State.layerCommit
  dsimp only
  split
  · rw [flash_done]
  · split
    · rw [flash_finish, flash_up]
    · split
      · rw [flash_finish, flash_up]
      · rw [flash_up]

theorem State.flash_tileFetched (s : State) (d n tx ty : Nat) : (s.tileFetched d n tx ty).flash = s.flash := by
  unfold State.tileFetched
  dsimp only
  split
  · split
    · rw [flash_up]
    · rw [flash_up, flash_readFailed]
  · rfl

theorem State.flash_freezeDigest (s : State) (n : Nat) : (s.freezeDigest n).flash = s.flash := by
  unfold State.freezeDigest
  dsimp only
  split
  · rfl
  · simp only [↓apply_ite State.flash, ↓flash_up, ite_self]

theorem State.flash_putRows (s : State) (d : Nat) (m : DemuraMap) (rows : KMap (List Byte)) : (s.putRows d m rows).flash = s.flash := by
  refine flash_each _ _ fun t ch => flash_mapMem ?_
  exact List.foldlRecOn rows _ (motive := fun mem : Mem => mem.flash = t.mem.flash ∧ mem.flashOpen = t.mem.flashOpen) ⟨rfl, rfl⟩
    fun mem h r _ => ⟨(Chip.putGranules_flash ..).1.trans h.1, (Chip.putGranules_flash ..).2.trans h.2⟩

theorem State.flash_putLate (s : State) (d : Nat) (m : DemuraMap) : (s.putLate d m).1.flash = s.flash := by
  unfold State.putLate
  split
  · rfl
  · exact s.flash_putRows ..

theorem State.flash_takeDemura (s : State) (d p cols rows first total : Nat) (body : List Byte) :
    (s.takeDemura d p cols rows first total body).flash = s.flash := by
  unfold State.takeDemura
  dsimp only
  rw [flash_up]
  split
  · rfl
  · rw [flash_putRows, flash_putLate]

theorem State.flash_takeImage (s : State) (d p : Nat) (img : Image) : (s.takeImage d p img).flash = s.flash := by
  unfold State.takeImage
  split
  · exact s.flash_takeDemura ..
  · exact s.flash_up _

theorem State.flash_tableLoadDone (s : State) (d : Nat) (readError : Bool) : (s.tableLoadDone d readError).flash = s.flash := by
  unfold State.tableLoadDone
  extract_lets c
  split
  · rfl
  · split
    · extract_lets words read u v
      have hv : v.flash = s.flash := by
        unfold v u
        rw [flash_when, flash_log, ite_self, flash_up]
      refine flash_ite ((v.flash_up _).trans hv) ?_
      extract_lets
      split
      · exact (v.flash_up _).trans hv
      · rw [flash_up, flash_takeImage, hv]
    · rfl

theorem State.flash_panelStep (s : State) (o p : Nat) : (s.panelStep o p).flash = s.flash := by
  unfold State.panelStep
  refine (flash_each _ _ fun s d => ?_).trans (s.flash_up _)
  rw [flash_up]
  dsimp only
  split <;> split <;> simp only [flash_putLate]

theorem State.flash_prevTile (s : State) (d tx ty lead : Nat) : (s.prevTile d tx ty lead).flash = s.flash := by
  unfold State.prevTile
  dsimp only
  split
  · rfl
  · split
    · split
      · rw [flash_up]
      · rw [flash_up, flash_readFailed]
    · rfl

theorem State.flash_demuraRow (s : State) (d row : Nat) (good : Bool) : (s.demuraRow d row good).flash = s.flash := by
  unfold State.demuraRow
  extract_lets c o y ch u failed
  have hfailed : ∀ m, (failed m).flash = s.flash := fun m => by
    unfold failed u
    rw [flash_slotError, flash_up]
  split
  · rfl
  · refine flash_ite rfl ?_
    split
    · exact flash_ite (s.flash_up _) (hfailed _)
    · exact hfailed _

/-! ### Modes (R58 to R80) -/

theorem State.flash_enterMode (s : State) (o m cause first : Nat) : (s.enterMode o m cause first).flash = s.flash := by
  unfold State.enterMode
  rw [flash_changeMode, flash_up]

theorem State.flash_enterSafe (s : State) (o cause first : Nat) : (s.enterSafe o cause first).flash = s.flash := by
  unfold State.enterSafe
  rw [flash_enterMode, flash_up]

theorem State.flash_lossBoundary (s : State) (o f : Nat) : (s.lossBoundary o f).flash = s.flash := by
  unfold State.lossBoundary
  dsimp only
  split
  · rfl
  · split
    · rw [flash_up]
    · split
      · simp only [↓apply_ite State.flash, ↓flash_up, ↓flash_enterMode, ite_self]
      · simp only [↓apply_ite State.flash, ↓flash_up, ↓flash_enterSafe, ite_self]

theorem State.flash_windowEnd (s : State) (o f cause : Nat) : (s.windowEnd o f cause).flash = s.flash := by
  unfold State.windowEnd
  rw [flash_enterMode, flash_up]

theorem State.flash_pendingMode (s : State) (o f : Nat) (r : Req) (m flags window : Nat) :
    (s.pendingMode o f r m flags window).flash = s.flash := by
  unfold State.pendingMode
  simp only [↓apply_ite State.flash, ↓flash_up, ↓flash_done, ↓flash_finish, ↓flash_when, ↓flash_enterMode, ↓flash_windowEnd, ite_self]

theorem State.flash_boundaryModes (s : State) (o f : Nat) : (s.boundaryModes o f).flash = s.flash := by
  unfold State.boundaryModes
  extract_lets u v m left t w
  have hu : u.flash = s.flash := by
    unfold u
    split
    · simp only [↓apply_ite State.flash, ↓flash_enterSafe, ite_self]
    · rfl
  have hv : v.flash = s.flash := (flash_lossBoundary ..).trans hu
  have hw : w.flash = s.flash := by
    unfold w t
    simp only [↓apply_ite State.flash, ↓flash_up, ↓flash_enterMode, ↓flash_windowEnd, hv, ite_self]
  split
  · refine flash_ite ((w.flash_up _).trans hw) ?_
    split
    · rw [flash_pendingMode, hw]
    · exact hw
  · exact hw

/-! ### Faults, the core voltage and temperature (R417 to R464) -/

theorem State.flash_fatalLatch (s : State) (d code : Nat) : (s.fatalLatch d code).flash = s.flash := by
  unfold State.fatalLatch
  simp only [↓apply_ite State.flash, ↓flash_enterSafe, ↓flash_log, ↓flash_up, ite_self]

theorem State.flash_latchedClear (s : State) (d : Nat) (w : Word) : (s.latchedClear d w).flash = s.flash :=
  flash_each _ _ fun s _ => flash_ite ((flash_log ..).trans (s.flash_up _)) rfl

theorem State.flash_codeClear (s : State) (d p : Nat) : (s.codeClear d p).flash = s.flash := by
  unfold State.codeClear
  exact flash_ite rfl ((flash_log ..).trans (s.flash_up _))

theorem State.flash_escalate (s : State) (d : Nat) : (s.escalate d).flash = s.flash := by
  unfold State.escalate
  rw [flash_fatal, flash_up]

theorem State.flash_wdogExpire (s : State) (d : Nat) : (s.wdogExpire d).flash = s.flash := by
  unfold State.wdogExpire
  simp only [↓apply_ite State.flash, ↓flash_escalate, ↓flash_log, ↓flash_up, ite_self]

theorem State.flash_judgeTemp (s : State) (d : Nat) : (s.judgeTemp d).flash = s.flash := by
  unfold State.judgeTemp
  simp only [↓apply_ite State.flash, ↓flash_fatal, ↓flash_up, ite_self]

theorem State.flash_pwrStepPoint (s : State) (d : Nat) : (s.pwrStepPoint d).flash = s.flash := by
  unfold State.pwrStepPoint
  simp only [↓apply_ite State.flash, ↓flash_judgeTemp, ↓flash_up, ite_self]

theorem State.flash_loopPeriod (s : State) (d : Nat) (worst : Int) : (s.loopPeriod d worst).flash = s.flash := by
  unfold State.loopPeriod
  simp only [↓apply_ite State.flash, ↓flash_fatal, ↓flash_up, ite_self]

theorem State.flash_avsSend (s : State) (d : Nat) (answered : Bool) : (s.avsSend d answered).flash = s.flash := by
  unfold State.avsSend
  simp only [↓apply_ite State.flash, ↓flash_latch, ↓flash_up, ite_self]

theorem State.flash_avsPeriod (s : State) (d measured : Nat) (answered : Bool) : (s.avsPeriod d measured answered).flash = s.flash := by
  unfold State.avsPeriod
  simp only [↓apply_ite State.flash, ↓flash_avsSend, ↓flash_loopPeriod, ↓flash_pwrStepPoint, ↓flash_up, ite_self]

/-! ### Baskets and margins (R380 to R416) -/

theorem State.flash_aliasWrite (s : State) (d a : Nat) (set : Bool) (w : Word) : (s.aliasWrite d a set w).1.flash = s.flash := by
  unfold State.aliasWrite
  dsimp only
  split
  · exact (flash_setWord ..).trans (s.flash_up _)
  · exact s.flash_up _

theorem State.flash_retire (s : State) (d i : Nat) : (s.retire d i).flash = s.flash := by
  unfold State.retire
  simp only [↓apply_ite State.flash, ↓flash_when, ↓flash_latch, ↓flash_up, ite_self]

theorem State.flash_testRegion (s : State) (d : Nat) (fails1 fails2 : Bool) : (s.testRegion d fails1 fails2).flash = s.flash := by
  unfold State.testRegion
  split
  · rfl
  · simp only [↓flash_when, ↓flash_retire, ↓flash_up, ite_self]

theorem State.flash_rankScanDone (s : State) (d ch rank : Nat) (l : List LaneWindow) : (s.rankScanDone d ch rank l).flash = s.flash := by
  unfold State.rankScanDone
  simp only [↓apply_ite State.flash, ↓flash_uncorrectable, ↓flash_up, ite_self]

/-! ### Gangs, firmware and boot (R29 to R45, R81 to R104, R426 to R444) -/

theorem State.flash_formOutput (s : State) (o : Nat) (due : List (Nat × Nat)) : (s.formOutput o due).flash = s.flash := by
  rw [formOutput_eq]
  extract_lets u
  have hu : u.flash = s.flash := (flash_changeMode ..).trans (s.flash_up _)
  split
  · rw [flash_enterSafe, hu]
  · exact hu

theorem State.flash_gangApply (s : State) : s.gangApply.flash = s.flash := by
  unfold State.gangApply
  simp only [↓apply_ite State.flash, ↓flash_up, ↓flash_each _ _ (fun s o => flash_formOutput s o _), ite_self]

theorem State.flash_imageVerify (s : State) (d : Nat) (copyGood : Bool) : (s.imageVerify d copyGood).flash = s.flash := by
  unfold State.imageVerify
  extract_lets c
  split
  · exact flash_ite (s.flash_up _) (s.flash_up _)
  · split
    · exact flash_ite (s.flash_up _) (s.flash_up _)
    · exact s.flash_up _
  · rfl

theorem State.flash_fwRestart (s : State) : s.fwRestart.flash = s.flash := by
  unfold State.fwRestart
  split
  · rfl
  · split
    · extract_lets c rom words read u env
      have hu : u.flash = s.flash := s.flash_up _
      clear_value env
      refine flash_ite rfl ?_
      split
      · rw [flash_finish, hu]
      · extract_lets v
        have hv : v.flash = s.flash := (flash_each _ _ fun t _ => t.flash_setBytes _ _).trans hu
        split
        · rw [flash_finish, hv]
        · rw [flash_up, hv]
    · rfl

theorem State.flash_deriveIdentity (s : State) (entropyOk : Bool) : (s.deriveIdentity entropyOk).flash = s.flash := by
  unfold State.deriveIdentity
  simp only [↓apply_ite State.flash, ↓flash_latch, ↓flash_up, ite_self]

theorem State.flash_calApply (s : State) (p : Profile) : (s.calApply p).flash = s.flash := by
  unfold State.calApply
  split <;> rw [flash_up]

theorem State.flash_profileApply (s : State) (p : Profile) : (s.profileApply p).flash = s.flash := by
  unfold State.profileApply
  simp only [↓apply_ite State.flash, ↓flash_calApply, ↓flash_gangApply, ↓flash_up, ite_self]

theorem State.flash_aonUp (s : State) (d : Nat) (temp : Option Int) : (s.aonUp d temp).flash = s.flash := by
  unfold State.aonUp
  dsimp only
  split
  · rw [flash_up]
  · simp only [↓apply_ite State.flash, ↓flash_fatal, ↓flash_up, ite_self]

theorem State.flash_formAll (s : State) (old : Nat) : (s.formAll old).flash = s.flash := by
  unfold State.formAll
  exact (flash_each _ _ fun t _ => t.flash_log ..).trans (flash_each _ _ fun t _ => t.flash_changeMode ..)

theorem State.flash_pllLock (s : State) : s.pllLock.flash = s.flash := by
  unfold State.pllLock
  exact flash_ite rfl ((flash_formAll ..).trans (s.flash_up _))

theorem State.flash_wakeDie (s : State) (d : Nat) : (s.wakeDie d).flash = s.flash := by
  unfold State.wakeDie
  split
  · exact flash_ite (s.flash_up _) (s.flash_up _)
  · exact s.flash_up _

theorem State.flash_wake (s : State) (r : Req) : (s.wake r).flash = s.flash := by
  unfold State.wake
  simp only [↓flash_up, ↓flash_each _ _ flash_wakeDie, ↓flash_formAll]

theorem State.flash_safeLeave (s : State) (r : Req) (o flags first : Nat) : (s.safeLeave r o flags first).flash = s.flash := by
  unfold State.safeLeave
  rw [flash_finish, flash_up, flash_enterMode]

theorem State.flash_safeExit (s : State) (r : Req) (o flags : Nat) : (s.safeExit r o flags).flash = s.flash := by
  unfold State.safeExit
  simp only [↓apply_ite State.flash, ↓flash_done, ↓flash_safeLeave, ↓flash_up, ite_self]

theorem State.flash_safeExitBoundary (s : State) (o f : Nat) : (s.safeExitBoundary o f).flash = s.flash := by
  unfold State.safeExitBoundary
  split
  · refine flash_ite (s.flash_up _) ?_
    split
    · exact flash_ite (flash_safeLeave ..) rfl
    · rfl
  · rfl

/-! ### Scan-out and the timing generator (R273 to R299, R341) -/

theorem State.flash_encoded (s : State) (d tx ty : Nat) (checkFails : Bool) : (s.encoded d tx ty checkFails).flash = s.flash := by
  unfold State.encoded
  extract_lets y
  split
  · rfl
  · extract_lets u up v
    have hv : v.flash = s.flash := by
      unfold v u
      split
      · rw [flash_storeTile, flash_up]
      · rw [flash_putHamper, flash_up]
    split <;> rw [flash_up, hv]

theorem State.flash_closeDie (s : State) (o line d : Nat) : (s.closeDie o line d).flash = s.flash := by
  unfold State.closeDie
  simp only [↓flash_up]

theorem State.flash_closeLine (s : State) (o : Nat) : (s.closeLine o).flash = s.flash := by
  unfold State.closeLine
  split
  · rfl
  · rw [flash_up, flash_each _ _ fun s d => flash_closeDie s o _ d]

theorem State.flash_lineStart (s : State) (o : Nat) : (s.lineStart o).flash = s.flash := by
  unfold State.lineStart
  refine flash_ite rfl ?_
  split
  · rfl
  · extract_lets u v
    have hu : u.flash = s.flash := (flash_closeLine ..).trans (s.flash_up _)
    rw [flash_up]
    unfold v
    split
    · exact flash_ite hu ((flash_enterSafe ..).trans hu)
    · exact hu

theorem State.flash_heldTile (s : State) (d tx ty : Nat) : (s.heldTile d tx ty).flash = s.flash := by
  unfold State.heldTile
  extract_lets
  split
  · rfl
  · split
    · rfl
    · refine flash_ite ?_ rfl
      extract_lets
      split
      · rw [flash_up]
      · rw [flash_up, flash_readFailed]

theorem State.flash_pairEvent (s : State) (d stage : Nat) : (s.pairEvent d stage).flash = s.flash := by
  unfold State.pairEvent
  exact flash_ite rfl ((flash_pairMismatch ..).trans (s.flash_up _))

theorem State.flash_splashDone (s : State) (o : Nat) : (s.splashDone o).flash = s.flash := by
  unfold State.splashDone
  refine flash_ite rfl ?_
  extract_lets
  split
  · rw [flash_up]
  · rw [flash_up]
    exact flash_each _ _ fun s b => flash_each _ _ fun s h => flash_each _ _ fun s p => flash_putHamper ..

theorem State.flash_classify (s : State) (o : Nat) : (s.classify o).flash = s.flash := by
  unfold State.classify
  simp only [↓apply_ite State.flash, ↓flash_log, ↓flash_up, ite_self]

theorem State.flash_losePlanes (s : State) (o : Nat) (old : ModeEntry) : (s.losePlanes o old).flash = s.flash := by
  unfold State.losePlanes
  exact (flash_up ..).trans (flash_each _ _ fun s d => flash_mapMem ⟨rfl, rfl⟩)

theorem State.flash_changeover (s : State) (o f : Nat) : (s.changeover o f).flash = s.flash := by
  unfold State.changeover
  simp only [↓apply_ite State.flash, ↓flash_when, ↓flash_losePlanes, ↓flash_up, ite_self]

theorem State.flash_panelDue (s : State) (o : Nat) : (s.panelDue o).flash = s.flash :=
  flash_each _ _ fun s _ => flash_ite (s.flash_panelStep ..) rfl

theorem State.flash_endFrame (s : State) (o f : Nat) : (s.endFrame o f).flash = s.flash := by
  unfold State.endFrame
  simp only [↓flash_classify, ↓flash_closeLine, ↓flash_up]

theorem State.flash_frameBoundary (s : State) (o : Nat) : (s.frameBoundary o).flash = s.flash := by
  unfold State.frameBoundary
  simp only [↓apply_ite State.flash, ↓flash_when, ↓flash_changeover, ↓flash_panelDue, ↓flash_safeExitBoundary, ↓flash_boundaryModes,
    ↓flash_endFrame, ↓flash_up, ite_self]

theorem State.flash_timingStart (s : State) (o : Nat) : (s.timingStart o).flash = s.flash := by
  unfold State.timingStart
  exact flash_ite rfl ((flash_up ..).trans (flash_panelDue ..))

/-! ### Registers and baskets over the ports (R132 to R152) -/

theorem State.flash_readWord (s : State) (port : Port) (d x : Nat) : (s.readWord port d x).1.flash = s.flash := by
  unfold State.readWord
  split
  case h_5 => rfl
  all_goals exact s.flash_up _

theorem State.flash_readWords (s : State) (port : Port) (d : Nat) (l : List Nat) : (s.readWords port d l).1.flash = s.flash := by
  induction l generalizing s with
  | nil => rfl
  | cons x l ih => exact (ih _).trans (s.flash_readWord port d x)

theorem State.flash_stepPoint (s : State) (d p : Nat) : (s.stepPoint d p).flash = s.flash := by
  unfold State.stepPoint
  refine flash_ite rfl ?_
  split
  · rfl
  · split
    · exact s.flash_gangApply
    · exact s.flash_pwrStepPoint d
    case h_8 | h_9 | h_10 => exact flash_ite (s.flash_panelStep ..) rfl
    all_goals exact s.flash_up _

theorem State.flash_actWrite (s : State) (d pg : Nat) (k : PageKind) (o : Nat) (w : Word) : (s.actWrite d pg k o w).flash = s.flash := by
  unfold State.actWrite
  extract_lets store
  have hstore : store.flash = s.flash := s.flash_up _
  split <;> simp only [↓apply_ite State.flash, ↓flash_latchedClear, ↓flash_codeClear, ↓flash_up, ↓hstore, ite_self]

theorem State.flash_writeReg (s : State) (d pg o : Nat) (w : Word) : (s.writeReg d pg o w).flash = s.flash := by
  unfold State.writeReg
  split
  · rfl
  · simp only [↓apply_ite State.flash, ↓flash_actWrite, ↓flash_up, ite_self]

theorem State.flash_portWrite (s : State) (port : Port) (d pg o : Nat) (w : Word) : (s.portWrite port d pg o w).flash = s.flash := by
  unfold State.portWrite
  simp only [↓flash_when, ↓flash_writeReg, ↓flash_up, ite_self]

theorem State.flash_writeWord (s : State) (port : Port) (master d x : Nat) (w : Word) : (s.writeWord port master d x w).1.flash = s.flash := by
  unfold State.writeWord
  extract_lets want
  have hwant : ∀ a, (want a).flash = s.flash := fun a => s.flash_up _
  split
  · exact s.flash_portWrite ..
  · exact (flash_setWord ..).trans (hwant _)
  · exact (flash_aliasWrite ..).trans (hwant _)
  · exact (flash_aliasWrite ..).trans (hwant _)
  · rfl

theorem State.flash_writeList (s : State) (port : Port) (d : Nat) (l : List (Nat × Word)) : (s.writeList port d l).1.flash = s.flash :=
  flash_foldl s true l fun q a => q.1.flash_writeWord port 5 d a.1 a.2

theorem State.flash_writeWords (s : State) (port : Port) (d x : Nat) (ws : List Word) : (s.writeWords port d x ws).1.flash = s.flash := by
  unfold State.writeWords
  rw [flash_writeList]

theorem State.flash_writeAtOnce (s : State) (port : Port) (d x : Nat) (ws : List Word) : (s.writeAtOnce port d x ws).1.flash = s.flash := by
  unfold State.writeAtOnce
  dsimp only
  rw [flash_writeList]

theorem State.flash_regRead (s : State) (r : Req) (d x n : Nat) : (s.regRead r d x n).flash = s.flash := by
  unfold State.regRead
  extract_lets q
  have hq : q.1.flash = s.flash := flash_readWords ..
  split
  · rw [flash_finish, hq]
  · rw [flash_done, hq]

theorem State.flash_regWrite (s : State) (r : Req) (d x : Nat) (ws : List Word) : (s.regWrite r d x ws).flash = s.flash := by
  unfold State.regWrite
  simp only [↓apply_ite State.flash, ↓flash_done, ↓flash_up, ↓flash_writeWords, ite_self]

theorem State.flash_bcastRead (s : State) (r : Req) (x n : Nat) : (s.bcastRead r x n).flash = s.flash := by
  unfold State.bcastRead
  extract_lets as rc dies read u words diff first v
  have hu : u.flash = s.flash := flash_foldl s [] dies fun q d => q.1.flash_readWords r.port d as
  have hv : v.flash = s.flash := flash_ite hu ((u.flash_up _).trans hu)
  exact flash_ite (flash_done ..) (flash_ite ((flash_done ..).trans hu) ((flash_finish ..).trans hv))

theorem State.flash_bcastWrite (s : State) (r : Req) (x : Nat) (ws : List Word) : (s.bcastWrite r x ws).flash = s.flash := by
  unfold State.bcastWrite
  exact flash_ite ((flash_done ..).trans (s.flash_up _)) (s.flash_up _)

theorem State.flash_directLoad (s : State) (d : Nat) (a : Word) (x : DirectLoad) : (s.directLoad d a x).flash = s.flash := by
  unfold State.directLoad State.dataLost
  refine flash_ite rfl (flash_ite (s.flash_up _) ?_)
  split
  case h_1 => exact s.flash_up _
  case h_5 => rfl
  all_goals exact flash_ite (s.flash_up _) ((flash_latch ..).trans (s.flash_up _))

theorem State.flash_directStore (s : State) (d : Nat) (a : Word) (store : DirectStore) : (s.directStore d a store).flash = s.flash := by
  unfold State.directStore State.dataLost
  simp only [↓apply_ite State.flash, ↓flash_up, ↓flash_latch, ↓flash_writeWord, ite_self]

theorem State.flash_engineRead (s : State) (d a n : Nat) : (s.engineRead d a n).1.flash = s.flash := by
  refine flash_foldl s [] (wordAddrs a n) fun q b => ?_
  dsimp only
  split
  · exact q.1.flash_up _
  · exact (flash_up ..).trans ((flash_latch ..).trans (q.1.flash_up _))

theorem State.flash_logRead (s : State) (r : Req) (index n : Nat) : (s.logRead r index n).flash = s.flash := by
  unfold State.logRead
  exact flash_ite ((flash_finish ..).trans (flash_foldl s [] _ fun q k => flash_engineRead ..)) (flash_finish ..)

/-! ### Commands and the transports (R105 to R131) -/

/-- A command changes nothing of the boot flash when it starts; FLASH_WRITE does so when the flash has finished (R124). -/
theorem State.flash_run (s : State) (r : Req) : (s.run r).flash = s.flash := by
  unfold State.run
  split
  case h_1 => exact flash_ite (flash_bcastRead ..) (flash_regRead ..)
  case h_2 => exact flash_ite (flash_bcastWrite ..) (flash_regWrite ..)
  case h_4 => exact flash_wake ..
  case h_7 => exact flash_safeExit ..
  case h_10 => exact flash_layerCommit ..
  case h_15 => exact flash_dramConfig ..
  case h_16 => exact flash_dramFreq ..
  case h_17 => exact flash_rankSpare ..
  case h_21 => exact flash_finish ..
  case h_22 => rfl
  case h_25 => exact flash_logRead ..
  all_goals exact s.flash_up _

theorem State.flash_launch (s : State) (r : Req) : (s.launch r).flash = s.flash := by
  unfold State.launch
  simp only [↓apply_ite State.flash, ↓flash_run, ↓flash_done, ↓flash_up, ite_self]

theorem State.flash_offer (s : State) (r : Req) : (s.offer r).flash = s.flash := by
  unfold State.offer
  exact flash_ite (s.flash_up _) (s.flash_launch r)

theorem State.flash_release (s : State) : s.release.flash = s.flash := by
  unfold State.release
  exact (flash_each _ _ State.flash_offer).trans (s.flash_up _)

theorem State.flash_accept (s : State) (a : Arrival) : (s.accept a).flash = s.flash := by
  unfold State.accept
  extract_lets c x u refuse st
  have hu : u.flash = s.flash := s.flash_up _
  have hrefuse : ∀ st, (refuse st).flash = s.flash := fun st => (u.flash_up _).trans hu
  refine flash_ite rfl (flash_ite (s.flash_up _) (flash_ite (s.flash_up _) ?_))
  split
  · exact hrefuse st
  · refine flash_ite (hrefuse st) (flash_ite ((flash_offer ..).trans hu) ?_)
    extract_lets src r v
    have hv : v.flash = s.flash := (u.flash_up _).trans hu
    exact flash_ite ((flash_run ..).trans hv) ((flash_done ..).trans hv)

theorem State.flash_bcastApply (s : State) (late : List Nat) : (s.bcastApply late).flash = s.flash := by
  unfold State.bcastApply
  extract_lets c
  split
  · rfl
  · refine flash_ite rfl ?_
    extract_lets q u v
    have hq : q.1.flash = s.flash := by
      refine flash_foldl s true _ fun q d => ?_
      dsimp only
      rw [flash_up, flash_writeAtOnce]
    have hu : u.flash = s.flash := (flash_up ..).trans hq
    have hv : v.flash = s.flash := by
      unfold v
      split
      · rw [flash_done, hu]
      · exact hu
    rw [flash_release, hv]

theorem State.flash_msgWrite (s : State) (bs : List Byte) : (s.msgWrite bs).flash = s.flash := by
  unfold State.msgWrite
  simp only [↓apply_ite State.flash, ↓flash_accept, ↓flash_up, ite_self]

theorem State.flash_msgIoUpdate (s : State) (bs : List Byte) : (s.msgIoUpdate bs).flash = s.flash := by
  unfold State.msgIoUpdate
  exact flash_ite (flash_accept ..) rfl

theorem State.flash_mailboxTake (s : State) (d : Nat) : (s.mailboxTake d).flash = s.flash := by
  unfold State.mailboxTake
  simp only [↓apply_ite State.flash, ↓flash_accept, ↓flash_setWord, ↓flash_engineRead, ite_self]

theorem State.flash_mailboxOut (s : State) (d : Nat) : (s.mailboxOut d).flash = s.flash := by
  unfold State.mailboxOut
  refine flash_ite rfl ?_
  split
  · rfl
  · simp only [↓apply_ite State.flash, ↓flash_up, ↓flash_setWord, ↓flash_setBytes, ↓flash_engineRead, ite_self]

theorem State.flash_linkRx (s : State) (d f : Nat) (lanes : List LaneRx) (noRoom : List Nat) : (s.linkRx d f lanes noRoom).flash = s.flash := by
  unfold State.linkRx
  extract_lets c r u
  have hu : u.flash = s.flash := s.flash_up _
  refine flash_ite rfl (flash_ite hu ?_)
  split
  · refine flash_ite ((u.flash_up _).trans hu) (flash_ite ((u.flash_up _).trans hu) (flash_ite ?_ ((u.flash_up _).trans hu)))
    extract_lets q v
    have hv : v.flash = s.flash := (u.flash_up _).trans hu
    split
    · rw [flash_accept, hv]
    · exact hv
  · exact hu

/-! ### The rows of the table -/

open State

/-- An outcome whose next state, if it is one, has the boot flash of the state before. -/
structure KeepsFlash (s : State) (x : Host.Outcome State Fault Refusal) : Prop where
  flash_eq : ∀ t, x = .next t → t.flash = s.flash

theorem KeepsFlash.next {s t : State} (h : t.flash = s.flash) : KeepsFlash s (.next t) := ⟨fun _ hu => Host.Outcome.next.inj hu ▸ h⟩

theorem KeepsFlash.fault (s : State) (r : Fault) : KeepsFlash s (.fault r) := ⟨fun _ hu => by cases hu⟩

theorem KeepsFlash.ite {s : State} {p : Prop} [Decidable p] {x y : Host.Outcome State Fault Refusal} (hx : KeepsFlash s x)
    (hy : KeepsFlash s y) : KeepsFlash s (if p then x else y) := by
  split
  · exact hx
  · exact hy

section
variable {s : State} {f : State → State} {d k p : Nat} (hf : ∀ s, (f s).flash = s.flash)
include hf

theorem KeepsFlash.onDie : KeepsFlash s (onDie s d f) := .ite (.next (hf s)) (.fault ..)
theorem KeepsFlash.onLane : KeepsFlash s (onLane s d k f) := .ite (.next (hf s)) (.fault ..)
theorem KeepsFlash.onChannel : KeepsFlash s (onChannel s d k f) := .ite (.next (hf s)) (.fault ..)
theorem KeepsFlash.onDriver : KeepsFlash s (onDriver s d k p f) := .ite (.next (hf s)) (.fault ..)
theorem KeepsFlash.onLayer : KeepsFlash s (onLayer s d k f) := .ite (.next (hf s)) (.fault ..)
theorem KeepsFlash.onOutput : KeepsFlash s (onOutput s d f) := .ite (.next (flash_ite (hf s) rfl)) (.fault ..)

end

theorem KeepsFlash.onGroup {s : State} {d g : Nat} {f : State → Nat → State} (hf : ∀ s n, (f s n).flash = s.flash) :
    KeepsFlash s (onGroup s d g f) := by
  unfold Machine.onGroup
  split
  · split
    · exact .next (hf s _)
    · exact .fault ..
  · exact .fault ..

/-- A command message changes nothing of the boot flash. -/
theorem KeepsFlash.command (s : State) (h : Hdr) (cmd : Cmd) : KeepsFlash s (s.command h cmd) := .ite (.next (s.flash_accept _)) (.fault ..)

/-- A write of PAGE_EVENT is a command message, and what it meets changes the chip only. -/
theorem KeepsFlash.pageEventClear (s : State) (h : Hdr) (p : Nat) (bits : Word) (sets : List Nat) :
    KeepsFlash s (execPageEventClear h p bits sets s) := by
  have hwrite : KeepsFlash s (s.writeOne h p PAGE_EVENT bits) := .command ..
  unfold execPageEventClear
  split
  · rename_i t ht
    have hs : t.flash = s.flash := hwrite.flash_eq t ht
    exact .next (flash_ite ((t.flash_up _).trans hs) hs)
  · exact hwrite

theorem KeepsFlash.schedulerIssue (s : State) (d ch : Nat) (x : SchedCycle) : KeepsFlash s (execSchedulerIssue d ch x s) := by
  refine .onChannel fun s => flash_ite ?_ (s.flash_up _)
  extract_lets
  split
  · exact s.flash_commandError ..
  · rfl

theorem KeepsFlash.wcrcAlert (s : State) (d ch slot : Nat) : KeepsFlash s (execWcrcAlert d ch slot s) := by
  refine .onChannel fun s => ?_
  simp only [↓apply_ite State.flash, ↓flash_uncorrectable, ↓flash_up, ite_self]

theorem KeepsFlash.vddqLoss (s : State) (d ch : Nat) : KeepsFlash s (execVddqLoss d ch s) := by
  refine .onChannel fun s => ?_
  simp only [↓apply_ite State.flash, ↓flash_channelLost, ↓flash_up, ite_self]

theorem KeepsFlash.wdogRestartTimeout (s : State) (d : Nat) : KeepsFlash s (execWdogRestartTimeout d s) := by
  refine .onDie fun s => ?_
  split
  · exact flash_ite (s.flash_escalate d) rfl
  · rfl

theorem KeepsFlash.vfloor (s : State) (d : Nat) : KeepsFlash s (execVfloor d s) := by
  refine .onDie fun s => ?_
  simp only [↓apply_ite State.flash, ↓flash_fatal, ↓flash_up, ite_self]

theorem KeepsFlash.thermalSample (s : State) (d : Nat) (temps : List Int) : KeepsFlash s (execThermalSample d temps s) := by
  refine .onDie fun s => ?_
  simp only [↓apply_ite State.flash, ↓flash_judgeTemp, ↓flash_pwrStepPoint, ↓flash_up, ite_self]

theorem KeepsFlash.tsDeselect (s : State) (d k : Nat) : KeepsFlash s (execTsDeselect d k s) := by
  refine .onDie fun s => ?_
  simp only [↓apply_ite State.flash, ↓flash_judgeTemp, ↓flash_up, ite_self]

theorem KeepsFlash.directoryRead (s : State) : KeepsFlash s (execDirectoryRead s) := by
  refine .next ?_
  refine flash_ite ?_ rfl
  split <;> exact s.flash_up _

theorem KeepsFlash.pllRelock (s : State) (d : Nat) (pll : Pll) : KeepsFlash s (execPllRelock d pll s) := by
  cases pll with
  | core => exact .onDie fun s => s.flash_up _
  | mem ch => exact .onChannel fun s => s.flash_up _
  | lane k => exact .ite (.next (s.flash_up _)) (.fault ..)

/-- Every row but those that `touchesFlash` names keeps the boot flash: a command message (R109), or one of the rows below. -/
theorem exec_keepsFlash (i : Instr) (s : State) (h : touchesFlash i = false) : KeepsFlash s (exec i s) := by
  cases hi : i.asCommand with
  | some m => exact exec_of_asCommand s hi ▸ KeepsFlash.command s m.1 m.2
  | none =>
  cases i <;> dsimp only [exec]
  case pageEventClear g p w sets => exact .pageEventClear s g p w sets
  case rateChange | phaseLimit | attemptDown | laneRetry | losDeclared | losCleared | lolDeclared | fomMeasured | adaptIdleHold |
      adaptHoldEnd | loopLock | loopErr | skpOrderedSetSend => exact .onLane fun s => s.flash_up _
  case refreshDue | mr4Poll | rowIdleClose | powerDownEntry | selfRefreshEntry | lowPowerExit | migrateUnitCopy | vddqInRange |
      retentionHoldEnd => exact .onChannel fun s => s.flash_up _
  case msgRead | statusRead | msgIoCapture | extest | idcode | samplePreload | extestPulse | extestTrain | highz | clamp | bypass |
      msgIo | porRelease | refclkRetry | sfdpRead | quoteSigned | internalResetEnd => exact .next (s.flash_up _)
  case completionDelivered | timingTokenRx | timingTokenMiss | flitRetry | linkDown | drvCmdTimeout | haloRx | liveSegmentDeadline |
      tolUpdate | freqWindowOpen | correctionWriteBack | ramblerAbort | slackReport | avsRetry | wdogKick | stewardReady |
      otpProgramDone | calRunDone => exact .onDie fun s => s.flash_up _
  case layoutArmed | teEdge | liveStreamLoss | releaseDrainDone | signatureReady | ageScanDone => exact .onOutput fun s => s.flash_up _
  case statusFrameRx | tempFrameRx | helloFrameRx | ackFrameRx | readDataFrameRx | retSilent | returnFrameDiscard =>
    exact .onDriver fun s => s.flash_up _
  case layerOffNotice | compUnderrun | resendTimeout => exact .onLayer fun s => s.flash_up _
  case scpReplayTimeout | skpOrderedSetRx => exact .onGroup fun s _ => s.flash_up _
  case bcastApply => exact .next (s.flash_bcastApply _)
  case fwActivateRestart => exact .next s.flash_fwRestart
  case msgWrite => exact .next (s.flash_msgWrite _)
  case msgIoUpdate => exact .next (s.flash_msgIoUpdate _)
  case aonReady => exact .next (flash_ite (flash_each _ _ fun s d => s.flash_aonUp d _) rfl)
  case pllLock => exact .next s.flash_pllLock
  case directoryRead => exact .directoryRead s
  case profileApply => exact .next (s.flash_profileApply _)
  case gangMapApply => exact .next s.flash_gangApply
  case identityDerive => exact .next (s.flash_deriveIdentity _)
  case freezeDigest => exact .ite (.next (s.flash_freezeDigest _)) (.fault ..)
  case stewardDirectLoad => exact .onDie fun s => s.flash_directLoad ..
  case stewardDirectStore => exact .onDie fun s => s.flash_directStore ..
  case commitStepPoint => exact .onDie fun s => s.flash_stepPoint ..
  case mailboxCmdTake => exact .onDie fun s => s.flash_mailboxTake _
  case mailboxOutWrite => exact .onDie fun s => s.flash_mailboxOut _
  case imageVerify => exact .onDie fun s => s.flash_imageVerify ..
  case prevFrameTileDone => exact .onDie fun s => s.flash_prevTile ..
  case demuraRowDone => exact .onDie fun s => s.flash_demuraRow ..
  case heldTileDone => exact .onDie fun s => s.flash_heldTile ..
  case hamperEncodeDone => exact .onDie fun s => s.flash_encoded ..
  case pairMismatch => exact .onDie fun s => s.flash_pairEvent ..
  case freqDone => exact .onDie fun s => s.flash_freqDone _
  case ramblerRegionTest => exact .onDie fun s => flash_ite (s.flash_testRegion ..) rfl
  case avsPeriod => exact .onDie fun s => flash_ite (s.flash_avsPeriod ..) rfl
  case vfloor => exact .vfloor ..
  case thermalSample => exact .thermalSample ..
  case tsDeselect => exact .tsDeselect ..
  case fatalCauseLatch => exact .onDie fun s => flash_ite (s.flash_fatalLatch ..) rfl
  case wdogExpire => exact .onDie fun s => s.flash_wdogExpire _
  case wdogRestartTimeout => exact .wdogRestartTimeout ..
  case tableLoadDone => exact .onDie fun s => s.flash_tableLoadDone ..
  case tsOrderedSetRx => exact .onLane fun s => flash_ite (s.flash_up _) rfl
  case rankScanDone => exact .onChannel fun s => s.flash_rankScanDone ..
  case zqCalibration => exact .onChannel fun _ => rfl
  case schedulerIssue => exact .schedulerIssue ..
  case wcrcAlert => exact .wcrcAlert ..
  case cmdErrAlert => exact .onChannel fun s => s.flash_commandError ..
  case slotErrorReport => exact .onChannel fun s => s.flash_slotError ..
  case migrateDone => exact .onChannel fun s => s.flash_migrateDone ..
  case vddqLoss => exact .vddqLoss ..
  case dramConfigDone => exact .onChannel fun s => s.flash_dramConfigDone ..
  case pllRelock => exact .pllRelock ..
  case frameBoundary => exact .onOutput fun s => s.flash_frameBoundary _
  case timingStart => exact .onOutput fun s => s.flash_timingStart _
  case lineStart => exact .onOutput fun s => s.flash_lineStart _
  case splashLoadDone => exact .onOutput fun s => s.flash_splashDone _
  case tileFetchDone => exact .onLayer fun s => s.flash_tileFetched ..
  case pixelPacketRx | sourceFrmRx | scpMessageRx | scpAckRx | scpNakRx => exact .onGroup fun s _ => s.flash_linkRx ..
  case flashWriteDone | commandTimeLimit | porAssert | brownOut | pllLoss | standbyPowerDown => simp [touchesFlash] at h
  all_goals exact absurd hi (Option.some_ne_none _)

/-- Settles O7: of all rows only those that `touchesFlash` names reach the operations that change the boot flash. -/
theorem onlyFlashWriteChangesFlash : Obligations.OnlyFlashWriteChangesFlash := by
  intro i s t h hexec
  exact Prod.mk.inj ((exec_keepsFlash i s h).flash_eq t hexec)

end Sys2Proof.Machine
end

section
/-! PROOFS. What is read of a register after the shared operations: fields, page status, events, fault codes, the log (R13, R103, R128,
R147, R154, R456). -/

namespace Sys2Proof.Machine

/-! ### Fields of a word (R13) -/

theorem bits_setBits (w : Word) {hi lo : Nat} (v : Nat) (hlo : lo ≤ hi) (hhi : hi < 32) :
    bits (setBits w hi lo v) hi lo = v % 2 ^ (hi + 1 - lo) := by
  refine Nat.eq_of_testBit_eq fun i => ?_
  rw [testBit_bits, Nat.testBit_mod_two_pow]
  by_cases h : i < hi + 1 - lo
  · rw [bit_setBits w v hlo (by omega), if_pos (by omega), Nat.add_sub_cancel_left]
  · simp [h]

theorem bits_setBits_beside (w : Word) {hi lo hi' lo' : Nat} (v : Nat) (hlo : lo ≤ hi) (hhi : hi' < 32) (h : hi' < lo ∨ hi < lo') :
    bits (setBits w hi lo v) hi' lo' = bits w hi' lo' := by
  refine Nat.eq_of_testBit_eq fun i => ?_
  rw [testBit_bits, testBit_bits]
  by_cases hi : i < hi' + 1 - lo'
  · rw [bit_setBits w v hlo (by omega), if_neg (by omega)]
  · simp [hi]

/-! ### Fields of registers -/

theorem Chip.reg_of_ra_eq (c : Chip) {d p o e q r : Nat} (h : ra e q r = ra d p o) : c.reg e q r = c.reg d p o := by
  unfold Chip.reg; rw [h]

theorem Chip.reg_setReg_same (c : Chip) (d p o : Nat) (w : Word) : (c.setReg d p o w).reg d p o = w := by
  rw [Chip.reg_setReg, if_pos rfl]

theorem Chip.get_put (c : Chip) (d p o : Nat) {hi lo : Nat} (v : Nat) (hlo : lo ≤ hi) (hhi : hi < 32) :
    (c.put d p o hi lo v).get d p o hi lo = v % 2 ^ (hi + 1 - lo) := by
  rw [Chip.get, Chip.put_eq, Chip.reg_setReg_same, bits_setBits _ _ hlo hhi]

/-- A field reads as before after the write of another field, of the same register or of any other. -/
theorem Chip.get_put_beside (c : Chip) (d p o : Nat) {hi lo hi' lo' : Nat} (v e q r : Nat) (hlo : lo ≤ hi) (hhi : hi' < 32)
    (h : hi' < lo ∨ hi < lo') : (c.put d p o hi lo v).get e q r hi' lo' = c.get e q r hi' lo' := by
  unfold Chip.get
  rw [Chip.put_eq, Chip.reg_setReg]
  split
  · next hra => rw [bits_setBits_beside _ _ hlo hhi h, c.reg_of_ra_eq hra]
  · rfl

theorem Chip.flag_put_beside (c : Chip) (d p o : Nat) {hi lo j : Nat} (v e q r : Nat) (hlo : lo ≤ hi) (hj : j < 32)
    (h : j < lo ∨ hi < j) : (c.put d p o hi lo v).flag e q r j = c.flag e q r j := by
  unfold Chip.flag
  rw [Chip.put_eq, Chip.reg_setReg]
  split
  · next hra => rw [bit_setBits _ _ hlo hj, if_neg (by omega), c.reg_of_ra_eq hra]
  · rfl

/-- Two registers at different pages or offsets. -/
def apart (q r p o : Nat) : Bool :=
  decide (q < 0x1000) && decide (r < 0x1000) && decide (p < 0x1000) && decide (o < 0x1000) && (decide (q ≠ p) || decide (r ≠ o))

theorem apart_of_ne {q r p o : Nat} (hq : q < 0x1000) (hr : r < 0x1000) (hp : p < 0x1000) (ho : o < 0x1000) (h : q ≠ p ∨ r ≠ o) :
    apart q r p o = true := by
  simp [apart, hq, hr, hp, ho, h]

theorem ra_ne_of_apart {q r p o : Nat} (h : apart q r p o = true) (e d : Nat) : ra e q r ≠ ra d p o := by
  simp only [apart, Bool.and_eq_true, Bool.or_eq_true, decide_eq_true_eq] at h
  obtain ⟨⟨⟨⟨hq, hr⟩, hp⟩, ho⟩, hne⟩ := h
  intro hra
  obtain ⟨-, rfl, rfl⟩ := (ra_inj hq hr hp ho).1 hra
  exact hne.elim (absurd rfl) (absurd rfl)

section
variable (c : Chip) (d e : Nat) {q r p o : Nat} (h : apart q r p o = true)
include h

theorem Chip.reg_setReg_apart (w : Word) : (c.setReg d p o w).reg e q r = c.reg e q r := by
  rw [Chip.reg_setReg, if_neg (ra_ne_of_apart h e d)]
theorem Chip.reg_put_apart (hi lo v : Nat) : (c.put d p o hi lo v).reg e q r = c.reg e q r := c.reg_setReg_apart d e h _
theorem Chip.reg_setNum_apart (v : Nat) : (c.setNum d p o v).reg e q r = c.reg e q r := c.reg_setReg_apart d e h _

end

/-! ### Registers that no event changes (R128 to R130) -/

/-- A register that no event and no record changes: of no port's page, and none of the two that an event of its page changes. -/
def quiet (q r : Nat) : Bool :=
  decide (q < 0x1000) && decide (r < 0x1000) && decide (q ≠ PORT_SVC) && decide (q ≠ PORT_INB) && decide (r ≠ PAGE_EVENT) &&
    decide (r ≠ PAGE_EVENT_LOST)

theorem not_eventReg_of_quiet {q r : Nat} (h : quiet q r = true) (e d p : Nat) : ¬eventReg d p (ra e q r) := by
  simp only [quiet, Bool.and_eq_true, decide_eq_true_eq] at h
  obtain ⟨⟨⟨⟨⟨hq, hr⟩, hsvc⟩, hinb⟩, hev⟩, hlost⟩ := h
  have hoffset : ∀ o < 0x1000, ra e q r = ra d p o → r = o := fun o ho hra => by
    rw [← offsetOf_ra e q r hr, ← offsetOf_ra d p o ho, hra]
  rintro (h | h | ⟨h, -⟩ | ⟨h, -⟩)
  · exact hev (hoffset _ (by decide) h)
  · exact hlost (hoffset _ (by decide) h)
  · exact hsvc ((pageOf_ra e q r hq hr).symm.trans h)
  · exact hinb ((pageOf_ra e q r hq hr).symm.trans h)

section
variable (c : Chip) (d e : Nat) {q r : Nat} (h : quiet q r = true)
include h

theorem Chip.reg_events_quiet (p : Nat) (sets : List Nat) : (c.events d p sets).reg e q r = c.reg e q r :=
  touches_reg (c.touches_events d p sets) e q r (not_eventReg_of_quiet h e d p)
theorem Chip.reg_event_quiet (p b : Nat) : (c.event d p b).reg e q r = c.reg e q r := c.reg_events_quiet d e h p [b]
theorem Chip.reg_eventIf_quiet (x : Bool) (p b : Nat) : (c.eventIf x d p b).reg e q r = c.reg e q r :=
  touches_reg (c.touches_eventIf x d p b) e q r (not_eventReg_of_quiet h e d p)
theorem Chip.reg_record_quiet (code : Nat) (u : Bool) (bs : List Byte) : (c.record d code u bs).reg e q r = c.reg e q r :=
  touches_reg (c.touches_record d code u bs) e q r fun hp => not_eventReg_of_quiet h e d 0 (.inr (.inr hp))
theorem Chip.reg_noteReady_quiet (old : Chip) : (Chip.noteReady old c d).reg e q r = c.reg e q r := c.reg_events_quiet d e h SYS _
theorem Chip.reg_setReady_quiet (p : Nat) (b : Bool) : (c.setReady d p b).reg e q r = (c.put d p PAGE_STATUS 0 0 b.toNat).reg e q r :=
  Chip.reg_noteReady_quiet _ d e h c
theorem Chip.reg_setStage_quiet (v : Nat) : (c.setStage d v).reg e q r = (c.put d SYS SYS.BOOT_STATUS 3 0 v).reg e q r :=
  Chip.reg_eventIf_quiet _ d e h _ SYS 8
theorem Chip.reg_setError_quiet (v : Nat) : (c.setError d v).reg e q r = (c.put d SYS SYS.BOOT_STATUS 23 16 v).reg e q r :=
  Chip.reg_eventIf_quiet _ d e h _ SYS 12

end

/-! ### BOOT_STATUS (R99, R103) -/

theorem Chip.get_congr {c c' : Chip} {e q r : Nat} (h : c'.reg e q r = c.reg e q r) (hi lo : Nat) : c'.get e q r hi lo = c.get e q r hi lo := by
  unfold Chip.get; rw [h]

section
variable (c : Chip) (d v : Nat)

theorem Chip.stage_setStage : (c.setStage d v).get d SYS SYS.BOOT_STATUS 3 0 = v % 16 :=
  (get_congr (c.reg_setStage_quiet d d (by decide) v) 3 0).trans (c.get_put d SYS _ v (by decide) (by decide))
theorem Chip.error_setError : (c.setError d v).get d SYS SYS.BOOT_STATUS 23 16 = v % 256 :=
  (get_congr (c.reg_setError_quiet d d (by decide) v) 23 16).trans (c.get_put d SYS _ v (by decide) (by decide))

/-- The stage is a field of its own. -/
theorem Chip.get_setStage_beside (e : Nat) {hi lo : Nat} (hhi : hi < 32) (h : 3 < lo) :
    (c.setStage d v).get e SYS SYS.BOOT_STATUS hi lo = c.get e SYS SYS.BOOT_STATUS hi lo :=
  (get_congr (c.reg_setStage_quiet d e (by decide) v) hi lo).trans (c.get_put_beside d SYS _ v e SYS _ (by decide) hhi (.inr h))
/-- The error is a field of its own. -/
theorem Chip.get_setError_beside (e : Nat) {hi lo : Nat} (hhi : hi < 32) (h : hi < 16 ∨ 23 < lo) :
    (c.setError d v).get e SYS SYS.BOOT_STATUS hi lo = c.get e SYS SYS.BOOT_STATUS hi lo :=
  (get_congr (c.reg_setError_quiet d e (by decide) v) hi lo).trans (c.get_put_beside d SYS _ v e SYS _ (by decide) hhi h)

end

/-! ### Commands that complete -/

theorem Chip.reg_reply (c : Chip) (x : Req) (st dt : Nat) (bs : List Byte) (e q r : Nat) : (c.reply x st dt bs).reg e q r = c.reg e q r := by
  unfold Chip.reply
  dsimp only
  split
  · rfl
  · exact (touches_reg (q := fun _ => False) (touches_answer ..) e q r id).trans rfl

theorem Chip.reg_finish (c : Chip) (x : Req) (st dt : Nat) (bs : List Byte) (e q r : Nat) : (c.finish x st dt bs).reg e q r = c.reg e q r := by
  unfold Chip.finish
  split
  · exact c.reg_reply ..
  · rfl

theorem Chip.reg_finishAll (c : Chip) (f : Req → Bool) (st dt e q r : Nat) : (c.finishAll f st dt).reg e q r = c.reg e q r :=
  each_keeps (fun c => c.reg e q r) c (c.reqs f) (f := fun c x => c.finish x st dt []) fun c _ _ => c.reg_finish ..

/-! ### The log and fault codes (R154, R456) -/

theorem State.reg_setBytes (s : State) (a : Nat) (bs : List Byte) (e q r : Nat) : (s.setBytes a bs).chip.reg e q r = s.chip.reg e q r :=
  Chip.each_keeps (fun c => c.reg e q r) s.chip _ (f := fun c i => c.wordWritten (a + 4 * i)) fun _ _ _ => rfl

/-- A register that no event, no log entry and no fault code changes. -/
def unlogged (q r : Nat) : Bool := quiet q r && apart q r FAULT FAULT.LOG_HEAD && decide (r ≠ PAGE_FAULT_CODE)

theorem quiet_of_unlogged {q r : Nat} (h : unlogged q r = true) : quiet q r = true := by
  simp only [unlogged, Bool.and_eq_true] at h
  exact h.1.1

theorem bounds_of_quiet {q r : Nat} (h : quiet q r = true) : q < 0x1000 ∧ r < 0x1000 := by
  simp only [quiet, Bool.and_eq_true, decide_eq_true_eq] at h
  exact h.1.1.1.1

theorem Chip.reg_setCodes (c : Chip) (d p : Nat) (l : List Nat) (e : Nat) {q r : Nat} (hr : r < 0x1000) (h : r ≠ PAGE_FAULT_CODE) :
    (c.setCodes d p l).reg e q r = c.reg e q r := by
  unfold Chip.setCodes
  rw [Chip.setNum_eq, Chip.reg_setReg, if_neg]
  · rfl
  · exact fun hra => h (by rw [← offsetOf_ra e q r hr, ← offsetOf_ra d p PAGE_FAULT_CODE (by decide), hra])

section
variable (s : State) (d e : Nat) {q r : Nat} (h : unlogged q r = true)
include h

theorem State.reg_log (type page code arg : Nat) : (s.log d type page code arg).chip.reg e q r = s.chip.reg e q r := by
  have hq := quiet_of_unlogged h
  simp only [unlogged, Bool.and_eq_true] at h
  obtain ⟨⟨-, hhead⟩, -⟩ := h
  unfold State.log
  dsimp only
  rw [State.up_chip, Chip.reg_eventIf_quiet _ d e hq, Chip.reg_setNum_apart _ d e hhead, State.reg_setBytes]

theorem State.reg_latch (p code : Nat) : (s.latch d p code).chip.reg e q r = s.chip.reg e q r := by
  have hr := (bounds_of_quiet (quiet_of_unlogged h)).2
  have hcode : r ≠ PAGE_FAULT_CODE := by
    simp only [unlogged, Bool.and_eq_true, decide_eq_true_eq] at h
    exact h.2
  unfold State.latch
  split
  · rfl
  · rw [State.reg_log _ _ _ h, State.up_chip, Chip.latchCode, Chip.reg_setCodes _ _ _ _ _ hr hcode]

theorem State.reg_fatal (code : Nat) : (s.fatal d code).chip.reg e q r = s.chip.reg e q r := by
  refine Eq.trans ?_ (s.reg_latch d e h (fatalSource code).1 (fatalSource code).2)
  unfold State.fatal
  dsimp only
  rw [State.up_chip]
  split <;> rfl

end

/-! ### PAGE_STATUS (R103, R147) -/

theorem Chip.ready_congr {c c' : Chip} {e q : Nat} (h : c'.reg e q PAGE_STATUS = c.reg e q PAGE_STATUS) : c'.ready e q = c.ready e q := by
  unfold Chip.ready Chip.flag; rw [h]
theorem Chip.state_congr {c c' : Chip} {e q : Nat} (h : c'.reg e q PAGE_STATUS = c.reg e q PAGE_STATUS) : c'.state e q = c.state e q := by
  unfold Chip.state Chip.get; rw [h]

theorem Chip.ready_setState (c : Chip) (d p v e q : Nat) : (c.setState d p v).ready e q = c.ready e q :=
  c.flag_put_beside d p PAGE_STATUS v e q PAGE_STATUS (by decide) (by decide) (.inl (by decide))
theorem Chip.ready_setDegraded (c : Chip) (d p : Nat) (b : Bool) (e q : Nat) : (c.setDegraded d p b).ready e q = c.ready e q :=
  c.flag_put_beside d p PAGE_STATUS _ e q PAGE_STATUS (by decide) (by decide) (.inl (by decide))
theorem Chip.state_setDegraded (c : Chip) (d p : Nat) (b : Bool) (e q : Nat) : (c.setDegraded d p b).state e q = c.state e q :=
  c.get_put_beside d p PAGE_STATUS _ e q PAGE_STATUS (by decide) (by decide) (.inr (by decide))

theorem Chip.state_setState (c : Chip) (d : Nat) {p : Nat} (v e : Nat) {q : Nat} (hp : p < 0x1000) (hq : q < 0x1000) :
    (c.setState d p v).state e q = if e = d ∧ q = p then v % 256 else c.state e q := by
  split
  · next h => obtain ⟨rfl, rfl⟩ := h; exact c.get_put e q PAGE_STATUS v (by decide) (by decide)
  · next h =>
    refine Chip.state_congr ?_
    rw [Chip.setState, Chip.put_eq, Chip.reg_setReg, if_neg]
    exact fun hra => h (by rw [ra_inj hq (by decide) hp (by decide)] at hra; exact ⟨hra.1, hra.2.1⟩)

theorem Chip.ready_setReady (c : Chip) (d : Nat) {p : Nat} (b : Bool) (e : Nat) {q : Nat} (hp : p < 0x1000) (hq : quiet q PAGE_STATUS = true) :
    (c.setReady d p b).ready e q = if e = d ∧ q = p then b else c.ready e q := by
  have hq' := (bounds_of_quiet hq).1
  rw [Chip.ready_congr (c.reg_setReady_quiet d e hq p b)]
  split
  · next h =>
    obtain ⟨rfl, rfl⟩ := h
    exact (c.flag_put e q PAGE_STATUS 0 _ (by decide)).trans (testBit_toNat b)
  · next h =>
    refine Chip.ready_congr ?_
    rw [Chip.put_eq, Chip.reg_setReg, if_neg]
    exact fun hra => h (by rw [ra_inj hq' (by decide) hp (by decide)] at hra; exact ⟨hra.1, hra.2.1⟩)

theorem Chip.state_setReady (c : Chip) (d p : Nat) (b : Bool) (e : Nat) {q : Nat} (hq : quiet q PAGE_STATUS = true) :
    (c.setReady d p b).state e q = c.state e q :=
  (Chip.state_congr (c.reg_setReady_quiet d e hq p b)).trans
    (c.get_put_beside d p PAGE_STATUS _ e q PAGE_STATUS (by decide) (by decide) (.inr (by decide)))

end Sys2Proof.Machine
end

section
/-! PROOFS. Loss and return of VDDQ_MEM (O33; R82, R375, R472). -/

namespace Sys2Proof.Machine

theorem apart_of_page {q r p o : Nat} (hq : quiet q r = true) (hp : p < 0x1000) (ho : o < 0x1000) (h : q ≠ p) : apart q r p o = true :=
  apart_of_ne (bounds_of_quiet hq).1 (bounds_of_quiet hq).2 hp ho (.inl h)

theorem memc_pages {ch : Nat} (hch : ch < 2) : memcPage ch < 0x1000 ∧ memphyPage ch < 0x1000 ∧ unlogged (memcPage ch) PAGE_STATUS = true ∧
    unlogged (memcPage ch) MEMC.MIGRATE = true ∧ unlogged (memphyPage ch) MEMPHY.PHY_STATUS = true ∧ memcPage ch ≠ COMP ∧ memcPage ch ≠ AGE ∧
    memphyPage ch ≠ memcPage ch ∧ memphyPage ch ≠ COMP ∧ memphyPage ch ≠ AGE ∧ memcPage ch ≠ BRIDGE := by
  revert ch; decide

/-! ### Margin scans, frequency changes, and the pages that follow a channel -/

section
variable (c : Chip) (d e : Nat) {q r : Nat}

theorem Chip.reg_setOut (o : Nat) (x : OutSt) : (c.setOut o x).reg e q r = c.reg e q r := rfl
theorem Chip.reg_setChan (ch : Nat) (x : ChanSt) : (c.setChan d ch x).reg e q r = c.reg e q r := rfl
theorem Chip.reg_spillLost (ch : Nat) : (c.spillLost d ch).reg e q r = c.reg e q r := rfl

theorem Chip.reg_marginNote (o : Nat) (h : apart q r AGE PAGE_STATUS = true) : (c.marginNote o).reg e q r = c.reg e q r := by
  have hidle : ∀ (c : Chip) l, (c.each l fun c d => c.setState d AGE 1).reg e q r = c.reg e q r := fun c l =>
    each_keeps (fun c => c.reg e q r) c l fun c d _ => c.reg_put_apart d e h 15 8 1
  unfold Chip.marginNote
  split
  · split
    · rfl
    · extract_lets p x c' named good
      have hreg : c'.reg e q r = c.reg e q r := by
        unfold c'
        rw [hidle, Chip.reg_setOut]
      clear_value p c' good
      split <;> rw [Chip.reg_finish, hreg]
  · rfl

theorem Chip.reg_setScan (f : MarginRun → MarginRun) (h : apart q r AGE PAGE_STATUS = true) : (c.setScan d f).reg e q r = c.reg e q r :=
  (Chip.reg_marginNote _ e _ h).trans rfl

theorem Chip.reg_stopScan (ch : Nat) (hq : quiet q r = true) (h : q ≠ AGE) : (c.stopScan d ch).reg e q r = c.reg e q r := by
  have hstatus : apart q r AGE PAGE_STATUS = true := apart_of_page hq (by decide) (by decide) h
  unfold Chip.stopScan
  split
  · unfold Chip.retentionResult
    dsimp only
    rw [Chip.reg_setScan _ _ _ _ hstatus, Chip.reg_put_apart _ d e (apart_of_page hq (by decide) (by decide) h)]
    rfl
  · split
    · exact Chip.reg_setScan _ _ _ _ hstatus
    · rfl

theorem Chip.reg_freqCut (ch st : Nat) : (c.freqCut d ch st).reg e q r = c.reg e q r := by
  unfold Chip.freqCut Chip.when
  dsimp only
  split
  · exact Chip.reg_finishAll ..
  · rfl

theorem Chip.reg_noteChannels (hq : quiet q r = true) (h : q ≠ COMP) : (c.noteChannels d).reg e q r = c.reg e q r := by
  have hready : (c.setReady d COMP (c.serving d 0 && c.serving d 1)).reg e q r = c.reg e q r := by
    rw [Chip.reg_setReady_quiet _ d e hq, Chip.reg_put_apart _ d e (apart_of_page hq (by decide) (by decide) h)]
  unfold Chip.noteChannels
  dsimp only
  split
  · rw [Chip.reg_setNum_apart _ d e (apart_of_page hq (by decide) (by decide) h), hready]
  · exact hready

end

/-! ### The channel goes out of service (R375) -/

/-- What a channel that goes out of service loses of its work. -/
def Chip.cutWork (c : Chip) (d ch : Nat) : Chip :=
  let c := (c.freqCut d ch FAIL).spillLost d ch
  c.setChan d ch { c.chan d ch with queue := [], inorder := [], retry := none, lostAt := some c.now }

/-- What its page shows. -/
def Chip.showLost (c : Chip) (d ch : Nat) : Chip :=
  let c := ((c.setState d (memcPage ch) mcLOST).mput d ch MEMC.MIGRATE 31 31 0).mput d ch MEMC.STATUS 27 26 0
  (((c.finishAll (isRankSpare d ch) FAIL 2).mevent d ch 9).setReady d (memcPage ch) false).setDegraded d (memcPage ch) false

/-- The output of a die is to report the loss at its next frame boundary. -/
def Chip.lossIsDue (c : Chip) (d ch : Nat) : Chip :=
  let x := c.out (c.leadOf d)
  c.setOut (c.leadOf d) { x with lossDue := true, planes := x.planes.set! ch { x.planes.getD ch {} with complete := false } }

/-- The chip without the channel. -/
def Chip.withoutChannel (c : Chip) (d ch : Nat) : Chip :=
  ((((c.cutWork d ch).showLost d ch).noteChannels d).stopScan d ch).lossIsDue d ch

theorem State.channelLost_eq (s : State) (d ch : Nat) :
    s.channelLost d ch = (s.up fun c => c.withoutChannel d ch).latch d (memcPage ch) 4 := rfl

section
variable (c : Chip) (d : Nat) {ch : Nat} (hch : ch < 2)

theorem Chip.reg_cutWork (ch e q r : Nat) : (c.cutWork d ch).reg e q r = c.reg e q r := by
  unfold Chip.cutWork
  dsimp only
  rw [Chip.reg_setChan, Chip.reg_spillLost, Chip.reg_freqCut]

theorem Chip.reg_lossIsDue (ch e q r : Nat) : (c.lossIsDue d ch).reg e q r = c.reg e q r := rfl

theorem Chip.reg_beyondPage (e : Nat) {q r : Nat} (hq : quiet q r = true) (hcomp : q ≠ COMP) (hage : q ≠ AGE) :
    (c.withoutChannel d ch).reg e q r = ((c.cutWork d ch).showLost d ch).reg e q r := by
  unfold Chip.withoutChannel
  rw [Chip.reg_lossIsDue, Chip.reg_stopScan _ d e ch hq hage, Chip.reg_noteChannels _ d e hq hcomp]

include hch

/-- Registers of other pages do not show the loss of a channel, but for those of COMP and AGE. -/
theorem Chip.reg_withoutChannel (e : Nat) {q r : Nat} (hq : quiet q r = true) (hmemc : q ≠ memcPage ch) (hcomp : q ≠ COMP) (hage : q ≠ AGE) :
    (c.withoutChannel d ch).reg e q r = c.reg e q r := by
  have happ : ∀ {o}, o < 0x1000 → apart q r (memcPage ch) o = true := fun ho => apart_of_page hq (memc_pages hch).1 ho hmemc
  rw [c.reg_beyondPage d e hq hcomp hage, ← c.reg_cutWork d ch e q r]
  unfold Chip.showLost Chip.setDegraded Chip.mevent Chip.mput Chip.setState
  dsimp only
  rw [Chip.reg_put_apart _ d e (happ (by decide)), Chip.reg_setReady_quiet _ d e hq, Chip.reg_put_apart _ d e (happ (by decide)),
    Chip.reg_event_quiet _ d e hq, Chip.reg_finishAll, Chip.reg_put_apart _ d e (happ (by decide)),
    Chip.reg_put_apart _ d e (happ (by decide)), Chip.reg_put_apart _ d e (happ (by decide))]

theorem Chip.state_withoutChannel : (c.withoutChannel d ch).state d (memcPage ch) = mcLOST := by
  obtain ⟨hpage, -, hun, -, -, hcomp, hage, -⟩ := memc_pages hch
  have hq := quiet_of_unlogged hun
  have hstate : ((c.cutWork d ch).setState d (memcPage ch) mcLOST).state d (memcPage ch) = mcLOST := by
    rw [Chip.state_setState _ _ _ _ hpage hpage, if_pos ⟨rfl, rfl⟩]
    rfl
  rw [Chip.state_congr (c.reg_beyondPage d d hq hcomp hage), ← hstate]
  unfold Chip.showLost Chip.mevent Chip.mput
  dsimp only
  rw [Chip.state_setDegraded, Chip.state_setReady _ _ _ _ _ hq, Chip.state_congr (Chip.reg_event_quiet _ d d hq _ 9),
    Chip.state_congr (Chip.reg_finishAll ..)]
  exact (Chip.get_put_beside _ d _ _ 0 d _ PAGE_STATUS (by decide) (by decide) (.inl (by decide))).trans
    (Chip.get_put_beside _ d _ _ 0 d _ PAGE_STATUS (by decide) (by decide) (.inl (by decide)))

theorem Chip.serving_withoutChannel : (c.withoutChannel d ch).serving d ch = false := by
  obtain ⟨hpage, -, hun, -, -, hcomp, hage, -⟩ := memc_pages hch
  have hq := quiet_of_unlogged hun
  rw [Chip.serving, Chip.ready_congr (c.reg_beyondPage d d hq hcomp hage)]
  unfold Chip.showLost
  dsimp only
  rw [Chip.ready_setDegraded, Chip.ready_setReady _ _ _ _ hpage hq, if_pos ⟨rfl, rfl⟩]

theorem Chip.migrate_withoutChannel : (c.withoutChannel d ch).mget d ch MEMC.MIGRATE 31 31 = 0 := by
  obtain ⟨hpage, -, -, hun, -, hcomp, hage, -⟩ := memc_pages hch
  have hq := quiet_of_unlogged hun
  have hshown : ∀ c : Chip, (c.mput d ch MEMC.STATUS 27 26 0).mget d ch MEMC.MIGRATE 31 31 = c.mget d ch MEMC.MIGRATE 31 31 := fun c =>
    c.get_put_beside d _ _ 0 d _ MEMC.MIGRATE (by decide) (by decide) (.inr (by decide))
  have hready : ∀ c : Chip, (c.setReady d (memcPage ch) false).mget d ch MEMC.MIGRATE 31 31 = c.mget d ch MEMC.MIGRATE 31 31 := fun c =>
    (get_congr (c.reg_setReady_quiet d d hq _ false) 31 31).trans
      (c.get_put_beside d _ _ _ d _ MEMC.MIGRATE (by decide) (by decide) (.inr (by decide)))
  have hdegraded : ∀ c : Chip, (c.setDegraded d (memcPage ch) false).mget d ch MEMC.MIGRATE 31 31 = c.mget d ch MEMC.MIGRATE 31 31 := fun c =>
    c.get_put_beside d _ _ _ d _ MEMC.MIGRATE (by decide) (by decide) (.inr (by decide))
  have hevent : ∀ c : Chip, (c.mevent d ch 9).mget d ch MEMC.MIGRATE 31 31 = c.mget d ch MEMC.MIGRATE 31 31 := fun c =>
    get_congr (c.reg_event_quiet d d hq _ 9) 31 31
  have hfinish : ∀ c : Chip, (c.finishAll (isRankSpare d ch) FAIL 2).mget d ch MEMC.MIGRATE 31 31 = c.mget d ch MEMC.MIGRATE 31 31 := fun c =>
    get_congr (c.reg_finishAll ..) 31 31
  rw [Chip.mget, get_congr (c.reg_beyondPage d d hq hcomp hage), ← Chip.mget]
  unfold Chip.showLost
  dsimp only
  rw [hdegraded, hready, hevent, hfinish, hshown]
  exact Chip.get_put _ d _ _ 0 (by decide) (by decide)

omit hch in
/-- The output that a die belongs to is named by the gang map. -/
theorem Chip.leadOf_congr {c c' : Chip} (h : c'.reg 0 BRIDGE BRIDGE.GANG_MAP = c.reg 0 BRIDGE BRIDGE.GANG_MAP) (d : Nat) :
    c'.leadOf d = c.leadOf d := by
  unfold Chip.leadOf Chip.gangCode Chip.get; rw [h]

omit hch in
theorem Chip.lossDue_lossIsDue (c : Chip) (d ch : Nat) : ((c.lossIsDue d ch).out ((c.lossIsDue d ch).leadOf d)).lossDue = true := by
  have hlead : (c.lossIsDue d ch).leadOf d = c.leadOf d := leadOf_congr rfl d
  rw [hlead, Chip.lossIsDue, Chip.out_setOut, if_pos rfl]

end

theorem State.settled_latch (s : State) (d p code : Nat) (hp : offClkBridge p = true) : s.settled (s.latch d p code) := by
  unfold State.latch
  split
  · exact ⟨rfl, rfl⟩
  · exact settled_trans (settled_up (Chip.settled_setReg _ d (o := PAGE_FAULT_CODE) _ hp (by decide))) (settled_log ..)

theorem State.dram_of_settled {s s' : State} (h : s.settled s') : s'.mem.dram = s.mem.dram := congrArg MemClkBridge.dram h.1

theorem State.dram_latch (s : State) (d code : Nat) {p : Nat} (hp : offClkBridge p = true) : (s.latch d p code).mem.dram = s.mem.dram :=
  dram_of_settled (s.settled_latch d p code hp)

theorem State.outs_latch (s : State) (d code : Nat) {p : Nat} (hp : offClkBridge p = true) : (s.latch d p code).chip.outs = s.chip.outs :=
  (s.settled_latch d p code hp).2

theorem offClkBridge_memcPage {ch : Nat} (h : ch < 2) : offClkBridge (memcPage ch) = true := by
  revert ch; decide

/-- A channel goes out of service (R375). -/
theorem State.channelLost_spec (s : State) (d : Nat) {ch : Nat} (hch : ch < 2) :
    (s.channelLost d ch).chip.get d (memphyPage ch) MEMPHY.PHY_STATUS 2 2 = s.chip.get d (memphyPage ch) MEMPHY.PHY_STATUS 2 2 ∧
      (s.channelLost d ch).mem.dram = s.mem.dram ∧ (s.channelLost d ch).chip.state d (memcPage ch) = mcLOST ∧
      (s.channelLost d ch).chip.serving d ch = false ∧ (s.channelLost d ch).chip.migrating d ch = false ∧
      ((s.channelLost d ch).chip.out ((s.channelLost d ch).chip.leadOf d)).lossDue = true := by
  obtain ⟨-, -, hstatus, hmigrate, hphy, -, -, hne, hcomp, hage, -⟩ := memc_pages hch
  rw [State.channelLost_eq]
  have hchip : (s.up fun c => c.withoutChannel d ch).chip = s.chip.withoutChannel d ch := s.up_chip _
  have hmem : (s.up fun c => c.withoutChannel d ch).mem = s.mem := s.up_mem _
  generalize (s.up fun c => c.withoutChannel d ch) = u at hchip hmem ⊢
  refine ⟨?_, ?_, ?_, ?_, ?_, ?_⟩
  · rw [Chip.get_congr (State.reg_latch _ d d hphy _ _), hchip,
      Chip.get_congr (s.chip.reg_withoutChannel d hch d (quiet_of_unlogged hphy) hne hcomp hage)]
  · rw [State.dram_latch _ _ _ (offClkBridge_memcPage hch), hmem]
  · rw [Chip.state_congr (State.reg_latch _ d d hstatus _ _), hchip, s.chip.state_withoutChannel d hch]
  · rw [Chip.serving, Chip.ready_congr (State.reg_latch _ d d hstatus _ _), hchip, ← Chip.serving, s.chip.serving_withoutChannel d hch]
  · rw [Chip.migrating, Chip.mget, Chip.get_congr (State.reg_latch _ d d hmigrate _ _), hchip, ← Chip.mget, s.chip.migrate_withoutChannel d hch]
    rfl
  · rw [Chip.leadOf_congr (State.reg_latch _ d 0 (by decide) _ _), Chip.out_congr (State.outs_latch _ _ _ (offClkBridge_memcPage hch)),
      hchip, Chip.withoutChannel, Chip.lossDue_lossIsDue]

/-! ### VDDQ_OK (R82, R472) -/

/-- VDDQ_OK takes a value, and READY of the MEMPHY page follows. -/
def Chip.vddq (c : Chip) (d ch v : Nat) : Chip := (c.put d (memphyPage ch) MEMPHY.PHY_STATUS 2 2 v).notePhy d ch

theorem Chip.regsBut_vddq (c : Chip) (d ch v : Nat) :
    c.regsBut (c.vddq d ch v) fun a => a / 0x1000 = d * 0x1000 + memphyPage ch := by
  intro a ha
  have hne : ∀ o < 0x1000, a ≠ ra d (memphyPage ch) o := fun o ho h => ha (by rw [h]; exact ra_div _ _ _ ho)
  unfold Chip.vddq Chip.notePhy
  dsimp only
  rw [Chip.put_eq, Chip.get?_setReg_of_ne _ _ _ _ _ _ (hne _ (by decide)), Chip.put_eq, Chip.get?_setReg_of_ne _ _ _ _ _ _ (hne _ (by decide)),
    Chip.put_eq, Chip.get?_setReg_of_ne _ _ _ _ _ _ (hne _ (by decide))]

theorem Chip.vddqOk_vddq (c : Chip) (d ch v : Nat) : (c.vddq d ch v).get d (memphyPage ch) MEMPHY.PHY_STATUS 2 2 = v % 2 := by
  unfold Chip.vddq Chip.notePhy
  dsimp only
  rw [Chip.get_put_beside _ _ _ _ _ _ _ _ (by decide) (by decide) (.inr (by decide)),
    Chip.get_put_beside _ _ _ _ _ _ _ _ (by decide) (by decide) (.inr (by decide)), Chip.get_put _ _ _ _ _ (by decide) (by decide)]
  rfl

theorem Chip.chanRuns_vddq (c : Chip) (d : Nat) {ch : Nat} (hch : ch < 2) (v : Nat) : (c.vddq d ch v).chanRuns d ch = c.chanRuns d ch := by
  obtain ⟨hpage, -, -, -, -, -, -, hne, -⟩ := memc_pages hch
  have hreg : (c.vddq d ch v).reg d (memcPage ch) PAGE_STATUS = c.reg d (memcPage ch) PAGE_STATUS := by
    have hother : ¬ra d (memcPage ch) PAGE_STATUS / 0x1000 = d * 0x1000 + memphyPage ch := by
      rw [ra_div _ _ _ (by decide)]
      unfold pageKey
      omega
    exact Chip.reg_congr (c := c) (c' := c.vddq d ch v) rfl _ _ _ (c.regsBut_vddq d ch v _ hother)
  unfold Chip.chanRuns
  rw [Chip.state_congr hreg]

theorem execVddqLoss_runs {s : State} {d ch : Nat} (h : isChannel s d ch) (hruns : s.chip.chanRuns d ch = true) :
    execVddqLoss d ch s = .next ((s.up fun c => c.vddq d ch 0).channelLost d ch) := by
  have hstill : (s.up fun c => c.vddq d ch 0).chip.chanRuns d ch = true := (s.chip.chanRuns_vddq d h.2 0).trans hruns
  rw [execVddqLoss, onChannel, if_pos h]
  exact congrArg Host.Outcome.next (if_pos hstill)

theorem execVddqLoss_idle {s : State} {d ch : Nat} (h : isChannel s d ch) (hruns : s.chip.chanRuns d ch = false) :
    execVddqLoss d ch s = .next (s.up fun c => c.vddq d ch 0) := by
  have hstill : (s.up fun c => c.vddq d ch 0).chip.chanRuns d ch = false := (s.chip.chanRuns_vddq d h.2 0).trans hruns
  rw [execVddqLoss, onChannel, if_pos h]
  exact congrArg Host.Outcome.next (if_neg (hstill ▸ Bool.false_ne_true))

theorem execVddqInRange_next {s : State} {d ch : Nat} (h : isChannel s d ch) :
    execVddqInRange d ch s = .next (s.up fun c => c.vddq d ch 1) := if_pos h

/-- Settles O33: the loss clears VDDQ_OK and takes a running channel out of service; the return sets VDDQ_OK. -/
theorem vddqLossTakesTheChannelOut : Obligations.VddqLossTakesTheChannelOut := by
  intro s d ch h
  have hch : ch < 2 := h.2
  have hchip : ∀ v, (s.up fun c => c.vddq d ch v).chip = s.chip.vddq d ch v := fun v => s.up_chip _
  have hok : ∀ v, (s.up fun c => c.vddq d ch v).chip.get d (memphyPage ch) MEMPHY.PHY_STATUS 2 2 = v % 2 := fun v => by
    rw [hchip, Chip.vddqOk_vddq]
  have hregs : ∀ v, s.chip.regsBut (s.up fun c => c.vddq d ch v).chip fun a => a / 0x1000 = d * 0x1000 + memphyPage ch := fun v => by
    rw [hchip]
    exact s.chip.regsBut_vddq d ch v
  refine ⟨?_, _, execVddqInRange_next h, s.up_mem _, hok 1, hregs 1⟩
  cases hruns : s.chip.chanRuns d ch with
  | true =>
    obtain ⟨hphy, hdram, hlost⟩ := (s.up fun c => c.vddq d ch 0).channelLost_spec d hch
    exact ⟨_, execVddqLoss_runs h hruns, hphy.trans (hok 0), hdram.trans (congrArg Mem.dram (s.up_mem _)), fun _ => hlost,
      fun hno => absurd hno (by decide)⟩
  | false =>
    exact ⟨_, execVddqLoss_idle h hruns, hok 0, congrArg Mem.dram (s.up_mem _), fun hyes => absurd hyes (by decide),
      fun _ => ⟨s.up_mem _, hregs 0⟩⟩

end Sys2Proof.Machine
end

section
/-! PROOFS. The first boot steps (O50; R83, R84, R99, R104). -/

namespace Sys2Proof.Machine

/-! ### Rounds over a list -/

/-- What every round keeps is kept by all of them. -/
theorem Chip.each_preserves {α : Type} {P : Chip → Prop} {c : Chip} {l : List α} {f : Chip → α → Chip}
    (hkeep : ∀ c x, x ∈ l → P c → P (f c x)) (h : P c) : P (c.each l f) := by
  unfold Chip.each
  induction l generalizing c with
  | nil => exact h
  | cons x l ih => exact ih (fun c y hy => hkeep c y (List.mem_cons_of_mem _ hy)) (hkeep c x (List.mem_cons_self ..) h)

/-- What one round brings about and every round keeps holds after all of them. -/
theorem Chip.each_reaches {α : Type} {P : Chip → Prop} (c : Chip) {l : List α} {f : Chip → α → Chip} {x : α} (hx : x ∈ l)
    (hset : ∀ c, P (f c x)) (hkeep : ∀ c y, y ∈ l → P c → P (f c y)) : P (c.each l f) := by
  obtain ⟨l₁, l₂, rfl⟩ := List.append_of_mem hx
  unfold Chip.each
  rw [List.foldl_append, List.foldl_cons]
  exact each_preserves (fun c y hy => hkeep c y (List.mem_append_right _ (List.mem_cons_of_mem _ hy))) (hset _)

theorem State.each_preserves {α : Type} {P : State → Prop} {s : State} {l : List α} {f : State → α → State}
    (hkeep : ∀ s x, x ∈ l → P s → P (f s x)) (h : P s) : P (s.each l f) := by
  unfold State.each
  induction l generalizing s with
  | nil => exact h
  | cons x l ih => exact ih (fun s y hy => hkeep s y (List.mem_cons_of_mem _ hy)) (hkeep s x (List.mem_cons_self ..) h)

theorem State.each_reaches {α : Type} {P : State → Prop} (s : State) {l : List α} {f : State → α → State} {x : α} (hx : x ∈ l)
    (hset : ∀ s, P (f s x)) (hkeep : ∀ s y, y ∈ l → P s → P (f s y)) : P (s.each l f) := by
  obtain ⟨l₁, l₂, rfl⟩ := List.append_of_mem hx
  unfold State.each
  rw [List.foldl_append, List.foldl_cons]
  exact each_preserves (fun s y hy => hkeep s y (List.mem_append_right _ (List.mem_cons_of_mem _ hy))) (hset _)

/-! ### Where the package stands -/

/-- The member, its supplies and times, how far boot has come, and the profile in effect. -/
structure Course where
  member  : Member
  power   : Power
  now     : Nat
  cycleAt : Nat
  boot    : BootStep
  profile : Option Profile

def Chip.course (c : Chip) : Course := ⟨c.member, c.power, c.now, c.cycleAt, c.boot, c.profile⟩

theorem Chip.course_of_touches {c c' : Chip} {q : Nat → Prop} (h : c.touches c' q) : c'.course = c.course :=
  (congrArg Chip.course h.1).trans rfl

theorem Chip.dies'_of_course {c c' : Chip} (h : c'.course = c.course) : c'.dies' = c.dies' := by
  have hmember : c'.member = c.member := congrArg Course.member h
  unfold Chip.dies'
  rw [hmember]

section
variable (c : Chip) (d p : Nat)

theorem Chip.course_setReg (o : Nat) (w : Word) : (c.setReg d p o w).course = c.course := rfl
theorem Chip.course_put (o hi lo v : Nat) : (c.put d p o hi lo v).course = c.course := rfl
theorem Chip.course_setNum (o v : Nat) : (c.setNum d p o v).course = c.course := rfl
theorem Chip.course_setState (v : Nat) : (c.setState d p v).course = c.course := rfl
theorem Chip.course_setReady (b : Bool) : (c.setReady d p b).course = c.course := course_of_touches (c.touches_setReady d p b)
theorem Chip.course_event (b : Nat) : (c.event d p b).course = c.course := course_of_touches (c.touches_event d p b)
theorem Chip.course_record (code : Nat) (u : Bool) (bs : List Byte) : (c.record d code u bs).course = c.course :=
  course_of_touches (c.touches_record d code u bs)
theorem Chip.course_setStage (v : Nat) : (c.setStage d v).course = c.course := by
  rw [Chip.setStage, course_of_touches (touches_eventIf ..), course_put]
theorem Chip.course_setError (v : Nat) : (c.setError d v).course = c.course := by
  unfold Chip.setError
  dsimp only
  rw [course_of_touches (touches_eventIf ..), course_put]

theorem Chip.course_each {α : Type} (l : List α) {f : Chip → α → Chip} (h : ∀ c x, (f c x).course = c.course) :
    (c.each l f).course = c.course := each_keeps Chip.course c l fun c x _ => h c x

end

theorem State.course_setBytes (s : State) (a : Nat) (bs : List Byte) : (s.setBytes a bs).chip.course = s.chip.course :=
  Chip.each_keeps Chip.course s.chip _ (f := fun c i => c.wordWritten (a + 4 * i)) fun _ _ _ => rfl

theorem State.course_log (s : State) (d type page code arg : Nat) : (s.log d type page code arg).chip.course = s.chip.course := by
  unfold State.log
  dsimp only
  rw [State.up_chip, Chip.course_of_touches (Chip.touches_eventIf ..), Chip.course_setNum, State.course_setBytes]

theorem State.course_latch (s : State) (d p code : Nat) : (s.latch d p code).chip.course = s.chip.course := by
  unfold State.latch
  split
  · rfl
  · exact (State.course_log ..).trans rfl

theorem State.course_fatal (s : State) (d code : Nat) : (s.fatal d code).chip.course = s.chip.course := by
  refine Eq.trans ?_ (s.course_latch d (fatalSource code).1 (fatalSource code).2)
  unfold State.fatal
  dsimp only
  rw [State.up_chip]
  split <;> rfl

theorem State.course_changeMode (s : State) (o old new cause first : Nat) : (s.changeMode o old new cause first).chip.course = s.chip.course := by
  unfold State.changeMode
  dsimp only
  rw [State.course_log, State.up_chip, Chip.course_record, Chip.course_event]
  exact Chip.course_each _ _ fun c e => by rw [Chip.course_setState, Chip.course_put]

/-! ### Step 1 (R83, R104) -/

theorem unlogged_status {q : Nat} (h : quiet q PAGE_STATUS = true) : unlogged q PAGE_STATUS = true := by
  obtain ⟨hq, -⟩ := bounds_of_quiet h
  simp [unlogged, h, apart, hq]

theorem apart_of_offset {q r p o : Nat} (hq : quiet q r = true) (hp : p < 0x1000) (ho : o < 0x1000) (h : r ≠ o) : apart q r p o = true :=
  apart_of_ne (bounds_of_quiet hq).1 (bounds_of_quiet hq).2 hp ho (.inr h)

/-- What every die of step 1 shows. -/
def Chip.stepOne (c : Chip) (d : Nat) : Chip :=
  let c := (((c.setNum d AON AON.STATUS 1).setState d AON 1).setState d FAULT 1).setState d PWR 1
  (((c.setReady d AON true).setReady d FAULT true).setReady d PWR true).setStage d 1

/-- What a first temperature adds. -/
def State.firstTemp (s : State) (d : Nat) (t : Int) : State :=
  let s := s.up fun c => (c.put d PWR PWR.THERM_STATUS 7 0 (unsigned 8 t)).aonTemp d t
  if 115 ≤ t then (s.fatal d 5).up fun c => c.event d PWR 8 else s

theorem State.aonUp_eq (s : State) (d : Nat) (temp : Option Int) :
    s.aonUp d temp = match temp with
      | none => s.up fun c => c.stepOne d
      | some t => (s.up fun c => c.stepOne d).firstTemp d t := by
  cases temp <;> rfl

theorem Chip.course_stepOne (c : Chip) (d : Nat) : (c.stepOne d).course = c.course := by
  unfold Chip.stepOne
  dsimp only
  rw [course_setStage, course_setReady, course_setReady, course_setReady, course_setState, course_setState, course_setState, course_setNum]

theorem Chip.course_aonTemp (c : Chip) (d : Nat) (t : Int) : (c.aonTemp d t).course = c.course := by
  unfold Chip.aonTemp
  dsimp only
  split
  · rw [course_put, course_put]
  · rw [course_put]

theorem State.course_firstTemp (s : State) (d : Nat) (t : Int) : (s.firstTemp d t).chip.course = s.chip.course := by
  have hshown : (s.up fun c => (c.put d PWR PWR.THERM_STATUS 7 0 (unsigned 8 t)).aonTemp d t).chip.course = s.chip.course := by
    rw [State.up_chip, Chip.course_aonTemp, Chip.course_put]
  unfold State.firstTemp
  extract_lets u
  split
  · rw [State.up_chip, Chip.course_event, State.course_fatal, hshown]
  · exact hshown

theorem State.course_aonUp (s : State) (d : Nat) (temp : Option Int) : (s.aonUp d temp).chip.course = s.chip.course := by
  rw [State.aonUp_eq]
  cases temp with
  | none => rw [State.up_chip, Chip.course_stepOne]
  | some t => dsimp only; rw [State.course_firstTemp, State.up_chip, Chip.course_stepOne]

theorem Chip.ready_stepOne (c : Chip) (d e : Nat) {q : Nat} (hq : q = AON ∨ q = FAULT ∨ q = PWR) :
    (c.stepOne d).ready e q = if e = d then true else c.ready e q := by
  have hquiet : quiet q PAGE_STATUS = true := by rcases hq with rfl | rfl | rfl <;> rfl
  have hstage : apart q PAGE_STATUS SYS SYS.BOOT_STATUS = true := apart_of_offset hquiet (by decide) (by decide) (by decide)
  have hnum : apart q PAGE_STATUS AON AON.STATUS = true := apart_of_offset hquiet (by decide) (by decide) (by decide)
  unfold Chip.stepOne
  dsimp only
  rw [Chip.ready_congr ((Chip.reg_setStage_quiet _ d e hquiet 1).trans (Chip.reg_put_apart _ d e hstage 3 0 1)),
    Chip.ready_setReady _ _ _ _ (by decide) hquiet, Chip.ready_setReady _ _ _ _ (by decide) hquiet,
    Chip.ready_setReady _ _ _ _ (by decide) hquiet, Chip.ready_setState, Chip.ready_setState, Chip.ready_setState,
    Chip.ready_congr (Chip.reg_setNum_apart _ d e hnum 1)]
  rcases hq with rfl | rfl | rfl <;> by_cases h : e = d <;> simp [h]

theorem Chip.reg_aonTemp (c : Chip) (d : Nat) (t : Int) (e : Nat) {q r : Nat} (hnow : apart q r AON AON.THERM_NOW = true)
    (hpeak : apart q r AON AON.THERM_PEAK = true) : (c.aonTemp d t).reg e q r = c.reg e q r := by
  unfold Chip.aonTemp
  dsimp only
  split
  · rw [Chip.reg_put_apart _ d e hpeak, Chip.reg_put_apart _ d e hnow]
  · rw [Chip.reg_put_apart _ d e hnow]

theorem State.ready_firstTemp (s : State) (d : Nat) (t : Int) (e : Nat) {q : Nat} (hq : quiet q PAGE_STATUS = true) :
    (s.firstTemp d t).chip.ready e q = s.chip.ready e q := by
  have hapart : ∀ {p o}, p < 0x1000 → o < 0x1000 → PAGE_STATUS ≠ o → apart q PAGE_STATUS p o = true := fun hp ho h =>
    apart_of_offset hq hp ho h
  have hshown : (s.up fun c => (c.put d PWR PWR.THERM_STATUS 7 0 (unsigned 8 t)).aonTemp d t).chip.reg e q PAGE_STATUS =
      s.chip.reg e q PAGE_STATUS := by
    rw [State.up_chip, Chip.reg_aonTemp _ d t e (hapart (by decide) (by decide) (by decide)) (hapart (by decide) (by decide) (by decide)),
      Chip.reg_put_apart _ d e (hapart (by decide) (by decide) (by decide))]
  refine Chip.ready_congr ?_
  unfold State.firstTemp
  extract_lets u
  split
  · rw [State.up_chip, Chip.reg_event_quiet _ d e hq, State.reg_fatal _ d e (unlogged_status hq), hshown]
  · exact hshown

/-- Step 1 makes AON, FAULT and PWR of its die READY, and of no other. -/
theorem State.ready_aonUp (s : State) (d : Nat) (temp : Option Int) (e : Nat) {q : Nat} (hq : q = AON ∨ q = FAULT ∨ q = PWR) :
    (s.aonUp d temp).chip.ready e q = if e = d then true else s.chip.ready e q := by
  have hquiet : quiet q PAGE_STATUS = true := by rcases hq with rfl | rfl | rfl <;> rfl
  rw [State.aonUp_eq]
  cases temp with
  | none => rw [State.up_chip, Chip.ready_stepOne _ d e hq]
  | some t => dsimp only; rw [State.ready_firstTemp _ d t e hquiet, State.up_chip, Chip.ready_stepOne _ d e hq]

theorem aonComesUp (s : State) (temps : List Int) (hpower : s.chip.power = .starting) (haon : s.chip.ready 0 AON = false) :
    ∃ t, exec (.aonReady temps) s = .next t ∧ t.mem.flash = s.mem.flash ∧ t.chip.power = .starting ∧
      ∀ d < dieCount s.chip.member, t.chip.ready d AON = true ∧ t.chip.ready d FAULT = true ∧ t.chip.ready d PWR = true := by
  have hexec : execAonReady temps s = .next (s.each s.chip.dies' fun s d => s.aonUp d temps[d]?) :=
    congrArg Host.Outcome.next (if_pos ⟨hpower, by rw [haon]; rfl⟩)
  have hflash := State.flash_each s s.chip.dies' fun s d => s.flash_aonUp d temps[d]?
  have hcourse := State.each_keeps (fun s => s.chip.course) s s.chip.dies' (f := fun s d => s.aonUp d temps[d]?)
    fun s d _ => s.course_aonUp d _
  refine ⟨_, hexec, (Prod.mk.inj hflash).1, (congrArg Course.power hcourse).trans hpower, fun d hd => ?_⟩
  have hready : ∀ q, q = AON ∨ q = FAULT ∨ q = PWR → (s.each s.chip.dies' fun s d => s.aonUp d temps[d]?).chip.ready d q = true :=
    fun q hq => State.each_reaches (P := fun s => s.chip.ready d q = true) s (List.mem_range.2 hd)
      (fun s => by rw [State.ready_aonUp s d _ d hq, if_pos rfl])
      (fun s e _ h => by rw [State.ready_aonUp s e _ d hq, h, ite_self])
  exact ⟨hready _ (.inl rfl), hready _ (.inr (.inl rfl)), hready _ (.inr (.inr rfl))⟩

end Sys2Proof.Machine
end

section
/-! PROOFS. Steps 2 and 3 of boot (O50; R83, R84, R99, R437): the PLLs lock, every block that needs nothing else runs, every output is in
BRINGUP, and the boot ROM reads SFDP. -/

namespace Sys2Proof.Machine

/-! ### A page that serves -/

/-- READY, with STATE 1. -/
def Chip.serves (c : Chip) (e q : Nat) : Prop := c.ready e q = true ∧ c.state e q = 1

theorem Chip.serves_of_reg {c c' : Chip} {e q : Nat} (h : c'.reg e q PAGE_STATUS = c.reg e q PAGE_STATUS) (hs : c.serves e q) :
    c'.serves e q := ⟨(ready_congr h).trans hs.1, (state_congr h).trans hs.2⟩

theorem Chip.serves_setReady (c : Chip) (d : Nat) {p e q : Nat} (hp : p < 0x1000) (hq : quiet q PAGE_STATUS = true) (hs : c.serves e q) :
    (c.setReady d p true).serves e q := by
  refine ⟨?_, (c.state_setReady d p true e hq).trans hs.2⟩
  rw [Chip.ready_setReady _ _ _ _ hp hq, hs.1, ite_self]

theorem Chip.serves_setState (c : Chip) (d : Nat) {p v e q : Nat} (hp : p < 0x1000) (hq : q < 0x1000) (hv : q = p → v = 1)
    (hs : c.serves e q) : (c.setState d p v).serves e q := by
  refine ⟨(c.ready_setState d p v e q).trans hs.1, ?_⟩
  rw [Chip.state_setState _ _ _ _ hp hq]
  split
  · next h => rw [hv h.2]
  · exact hs.2

/-- The pages that serve once the clocks run. -/
def clockedPages : List Nat := [CLK, SLINK, SCAN, CODEC, BASKET, RAMBLER, CAL, AGE]

theorem clockedPages_spec : ∀ q ∈ clockedPages, quiet q PAGE_STATUS = true ∧ (q, 1) ∈ stepTwo ∧ (∀ x ∈ stepTwo, q = x.1 → x.2 = 1) ∧
    q ∉ stepTwoState := by decide

theorem stepTwo_pages : (∀ x ∈ stepTwo, x.1 < 0x1000) ∧ ∀ p ∈ stepTwoState, p < 0x1000 := by decide

/-! ### Step 2 on a die (R84) -/

/-- Its clocks, and the pages that serve from now on. -/
def Chip.blocksUp (c : Chip) (d : Nat) : Chip :=
  let c := (c.put d AON AON.STATUS 1 1 1).setNum d CLK CLK.PLL_STATUS 7
  let c := c.each stepTwo fun c x => (c.setReady d x.1 true).setState d x.1 x.2
  c.each stepTwoState fun c p => c.setState d p 1

/-- What follows the clocks: the ports, MEMPHY and the links; the step is shown. -/
def Chip.restUp (c : Chip) (d : Nat) : Chip :=
  let c := if d = 0 then c.setReady 0 PORT_SVC true else c.setReady d SEC true
  let c := ((c.notePhy d 0).notePhy d 1).noteLinks d
  (c.setError d 0).setStage d 2

theorem Chip.clocksUp_eq (c : Chip) :
    c.clocksUp = ({ c with power := .running } : Chip).each ({ c with power := .running } : Chip).dies' fun c d => (c.blocksUp d).restUp d := rfl

section
variable (c : Chip) (d e : Nat)

theorem Chip.course_notePhy (ch : Nat) : (c.notePhy d ch).course = c.course := by
  unfold Chip.notePhy
  dsimp only
  rw [course_put, course_put]

theorem Chip.course_noteLinks : (c.noteLinks d).course = c.course := by
  unfold Chip.noteLinks
  dsimp only
  rw [course_put, course_put]

theorem Chip.course_blocksUp : (c.blocksUp d).course = c.course := by
  unfold Chip.blocksUp
  dsimp only
  rw [course_each _ _ fun c p => c.course_setState d p 1,
    course_each _ _ fun c x => by rw [course_setState, course_setReady], course_setNum, course_put]

theorem Chip.course_restUp : (c.restUp d).course = c.course := by
  unfold Chip.restUp
  dsimp only
  rw [course_setStage, course_setError, course_noteLinks, course_notePhy, course_notePhy]
  split <;> rw [course_setReady]

/-- A register of none of the pages that step 2 changes beside PAGE_STATUS. -/
def offStepTwo (q r : Nat) : Bool :=
  quiet q r && apart q r (memphyPage 0) MEMPHY.PHY_STATUS && apart q r (memphyPage 1) MEMPHY.PHY_STATUS &&
    apart q r (memphyPage 0) PAGE_STATUS && apart q r (memphyPage 1) PAGE_STATUS && apart q r BRIDGE BRIDGE.LINK_STATUS &&
    apart q r SYS SYS.BOOT_STATUS

omit c d e in
theorem clockedPages_offStepTwo : ∀ q ∈ clockedPages, offStepTwo q PAGE_STATUS = true := by decide

theorem Chip.reg_notePhy (ch : Nat) {q r : Nat} (hphy : apart q r (memphyPage ch) MEMPHY.PHY_STATUS = true)
    (hstatus : apart q r (memphyPage ch) PAGE_STATUS = true) : (c.notePhy d ch).reg e q r = c.reg e q r := by
  unfold Chip.notePhy
  dsimp only
  rw [Chip.reg_put_apart _ d e hstatus, Chip.reg_put_apart _ d e hphy]

theorem Chip.reg_noteLinks {q r : Nat} (h : apart q r BRIDGE BRIDGE.LINK_STATUS = true) : (c.noteLinks d).reg e q r = c.reg e q r := by
  unfold Chip.noteLinks
  dsimp only
  rw [Chip.reg_put_apart _ d e h, Chip.reg_put_apart _ d e h]

theorem Chip.reg_restUp {q r : Nat} (h : offStepTwo q r = true) :
    (c.restUp d).reg e q r = (if d = 0 then c.setReady 0 PORT_SVC true else c.setReady d SEC true).reg e q r := by
  simp only [offStepTwo, Bool.and_eq_true] at h
  obtain ⟨⟨⟨⟨⟨⟨hq, hphy0⟩, hphy1⟩, hstatus0⟩, hstatus1⟩, hlink⟩, hboot⟩ := h
  unfold Chip.restUp
  dsimp only
  rw [Chip.reg_setStage_quiet _ d e hq, Chip.reg_put_apart _ d e hboot, Chip.reg_setError_quiet _ d e hq, Chip.reg_put_apart _ d e hboot,
    Chip.reg_noteLinks _ d e hlink, Chip.reg_notePhy _ d e 1 hphy1 hstatus1, Chip.reg_notePhy _ d e 0 hphy0 hstatus0]

/-- A register other than PAGE_STATUS goes through the rest of step 2 as it was. -/
theorem Chip.reg_restUp_beside {q r : Nat} (h : offStepTwo q r = true) (hr : r ≠ PAGE_STATUS) : (c.restUp d).reg e q r = c.reg e q r := by
  have hq : quiet q r = true := by
    simp only [offStepTwo, Bool.and_eq_true] at h
    exact h.1.1.1.1.1.1
  have hready : ∀ d p, p < 0x1000 → (c.setReady d p true).reg e q r = c.reg e q r := fun d p hp => by
    rw [Chip.reg_setReady_quiet _ d e hq, Chip.reg_put_apart _ d e (apart_of_offset hq hp (by decide) hr)]
  rw [Chip.reg_restUp _ _ _ h]
  split
  · exact hready 0 _ (by decide)
  · exact hready d _ (by decide)

theorem Chip.reg_blocksUp_beside {q r : Nat} (hq : quiet q r = true) (hr : r ≠ PAGE_STATUS) (haon : apart q r AON AON.STATUS = true) :
    (c.blocksUp d).reg e q r = (c.setNum d CLK CLK.PLL_STATUS 7).reg e q r := by
  have hstatus : ∀ p < 0x1000, apart q r p PAGE_STATUS = true := fun p hp => apart_of_offset hq hp (by decide) hr
  obtain ⟨htwo, hstate⟩ := stepTwo_pages
  unfold Chip.blocksUp
  dsimp only
  rw [each_keeps (fun c => c.reg e q r) _ stepTwoState (f := fun c p => c.setState d p 1) fun c p hp =>
      c.reg_put_apart d e (hstatus p (hstate p hp)) 15 8 1,
    each_keeps (fun c => c.reg e q r) _ stepTwo (f := fun c x => (c.setReady d x.1 true).setState d x.1 x.2) fun c x hx =>
      (Chip.reg_put_apart _ d e (hstatus x.1 (htwo x hx)) 15 8 x.2).trans ((c.reg_setReady_quiet d e hq x.1 true).trans (c.reg_put_apart d e (hstatus x.1 (htwo x hx)) 0 0 _)),
    Chip.setNum_eq, Chip.setNum_eq, Chip.reg_setReg, Chip.reg_setReg, Chip.reg_put_apart _ d e haon]

theorem Chip.pll_dieUp : ((c.blocksUp d).restUp d).num e CLK CLK.PLL_STATUS = if e = d then 7 else c.num e CLK CLK.PLL_STATUS := by
  rw [Chip.num, Chip.reg_restUp_beside _ d e (by decide) (by decide), Chip.reg_blocksUp_beside _ d e (by decide) (by decide) (by decide),
    Chip.setNum_eq, Chip.reg_setReg]
  split
  · next h => rw [if_pos ((ra_inj (by decide) (by decide) (by decide) (by decide)).1 h).1]; rfl
  · next h => rw [if_neg fun he => h (by rw [he])]; rfl

theorem Chip.gangMap_dieUp : ((c.blocksUp d).restUp d).reg e BRIDGE BRIDGE.GANG_MAP = c.reg e BRIDGE BRIDGE.GANG_MAP := by
  rw [Chip.reg_restUp_beside _ d e (by decide) (by decide), Chip.reg_blocksUp_beside _ d e (by decide) (by decide) (by decide),
    Chip.reg_setNum_apart _ d e (by decide)]

variable {q : Nat} (hq : q ∈ clockedPages)
include hq

theorem Chip.serves_restUp (hs : c.serves e q) : (c.restUp d).serves e q := by
  obtain ⟨hquiet, -⟩ := clockedPages_spec q hq
  have hoff := clockedPages_offStepTwo q hq
  refine Chip.serves_of_reg (c.reg_restUp d e hoff) ?_
  split
  · exact c.serves_setReady 0 (by decide) hquiet hs
  · exact c.serves_setReady d (by decide) hquiet hs

theorem Chip.serves_blocksUp (hs : e = d ∨ c.serves e q) : (c.blocksUp d).serves e q := by
  obtain ⟨hquiet, hmem, hone, hstate⟩ := clockedPages_spec q hq
  obtain ⟨htwo, htwoState⟩ := stepTwo_pages
  have hqlt := (bounds_of_quiet hquiet).1
  have hround : ∀ (c : Chip) x, x ∈ stepTwo → c.serves e q → ((c.setReady d x.1 true).setState d x.1 x.2).serves e q :=
    fun c x hx hs => Chip.serves_setState _ d (htwo x hx) hqlt (hone x hx) (c.serves_setReady d (htwo x hx) hquiet hs)
  have hset : ∀ c : Chip, ((c.setReady d q true).setState d q 1).serves d q := fun c => by
    refine ⟨?_, ?_⟩
    · rw [Chip.ready_setState, Chip.ready_setReady _ _ _ _ hqlt hquiet, if_pos ⟨rfl, rfl⟩]
    · rw [Chip.state_setState _ _ _ _ hqlt hqlt, if_pos ⟨rfl, rfl⟩]
  unfold Chip.blocksUp
  dsimp only
  refine each_preserves (fun c p hp hs => c.serves_setState d (htwoState p hp) hqlt (fun h => absurd (h ▸ hp) hstate) hs) ?_
  rcases hs with rfl | hs
  · exact each_reaches _ hmem hset hround
  · refine each_preserves hround (Chip.serves_of_reg ?_ hs)
    rw [Chip.reg_setNum_apart _ d e (apart_of_offset hquiet (by decide) (by decide) (by decide)),
      Chip.reg_put_apart _ d e (apart_of_offset hquiet (by decide) (by decide) (by decide))]

end

/-! ### Step 2 on every die -/

theorem Chip.course_clocksUp (c : Chip) : c.clocksUp.course = { c.course with power := .running } := by
  rw [clocksUp_eq, course_each _ _ fun c d => by rw [course_restUp, course_blocksUp]]
  rfl

theorem Chip.dies'_withPower (c : Chip) (p : Power) : ({ c with power := p } : Chip).dies' = c.dies' := rfl

theorem Chip.serves_clocksUp (c : Chip) {d q : Nat} (hd : d ∈ c.dies') (hq : q ∈ clockedPages) : c.clocksUp.serves d q := by
  rw [clocksUp_eq, dies'_withPower]
  exact each_reaches _ hd (fun c => (c.blocksUp d).serves_restUp d d hq (c.serves_blocksUp d d hq (.inl rfl)))
    fun c e _ hs => (c.blocksUp e).serves_restUp e d hq (c.serves_blocksUp e d hq (.inr hs))

theorem Chip.pll_clocksUp (c : Chip) {d : Nat} (hd : d ∈ c.dies') : c.clocksUp.num d CLK CLK.PLL_STATUS = 7 := by
  rw [clocksUp_eq, dies'_withPower]
  exact each_reaches (P := fun c => c.num d CLK CLK.PLL_STATUS = 7) _ hd (fun c => by rw [pll_dieUp, if_pos rfl])
    fun c e _ h => by rw [pll_dieUp, h, ite_self]

theorem Chip.gangMap_clocksUp (c : Chip) : c.clocksUp.reg 0 BRIDGE BRIDGE.GANG_MAP = c.reg 0 BRIDGE BRIDGE.GANG_MAP := by
  rw [clocksUp_eq, each_keeps (fun c => c.reg 0 BRIDGE BRIDGE.GANG_MAP) _ _ fun c d _ => c.gangMap_dieUp d 0]
  rfl

end Sys2Proof.Machine
end

section
/-! PROOFS. The PLLs lock (O50; R57, R78, R84, R437): measurements, the report of the outputs, and the first rows of boot. -/

namespace Sys2Proof.Machine

/-! ### Bytes in words of a page (R437) -/

theorem length_wordsOf (bs : List Byte) : (wordsOf bs).length = bs.length / 4 := by
  fun_induction wordsOf bs with
  | case1 a b c d rest ih => simp only [List.length_cons, ih]; omega
  | case2 bs h =>
    match bs with
    | [] => rfl
    | [_] => simp
    | [_, _] => simp
    | [_, _, _] => simp
    | a :: b :: c :: d :: rest => exact absurd rfl (h a b c d rest)

@[simp] theorem length_leBytes (n v : Nat) : (leBytes n v).length = n := by simp [leBytes]

theorem length_romDigest : romDigest.length = 32 := by simp [romDigest]

theorem length_shake256_le (n : Nat) (bs : List Byte) : (shake256 n bs).length ≤ n := List.length_take_le ..

theorem Chip.course_putBytes (c : Chip) (d p o : Nat) (bs : List Byte) : (c.putBytes d p o bs).course = c.course :=
  course_each _ _ fun c x => c.course_setReg d p (o + 4 * x.2) x.1

/-- Bytes put into words of a page leave every register outside them as it was. -/
theorem Chip.reg_putBytes_beside (c : Chip) (d : Nat) {p o : Nat} (bs : List Byte) (e : Nat) {q r : Nat} (hq : q < 0x1000) (hr : r < 0x1000)
    (hp : p < 0x1000) (ho : o + bs.length ≤ 0x1000) (hne : q ≠ p ∨ r < o ∨ o + bs.length ≤ r) :
    (c.putBytes d p o bs).reg e q r = c.reg e q r := by
  unfold Chip.putBytes
  refine each_keeps (fun c => c.reg e q r) c (wordsOf bs).zipIdx (f := fun c x => c.setReg d p (o + 4 * x.2) x.1) fun c x hx => ?_
  have hk : x.2 < bs.length / 4 := length_wordsOf bs ▸ List.snd_lt_of_mem_zipIdx hx
  refine (c.reg_setReg d p (o + 4 * x.2) x.1 e q r).trans (if_neg fun h => ?_)
  obtain ⟨-, rfl, rfl⟩ := (ra_inj hq hr hp (by omega)).1 h
  omega

theorem Chip.logCount_lt (c : Chip) (d : Nat) : c.logCount d < 64 := Nat.mod_lt _ (by decide)

/-- An entry of the log (R437). -/
def logEntry (d i type n : Nat) (digest : List Byte) : List Byte :=
  leBytes 1 d ++ leBytes 1 i ++ leBytes 1 type ++ leBytes 1 n ++ leBytes 4 0 ++ digest

theorem length_logEntry (d i type n : Nat) (digest : List Byte) : (logEntry d i type n digest).length = 8 + digest.length := by
  simp only [logEntry, List.length_append, length_leBytes]

theorem Chip.extend_eq (c : Chip) (d i type : Nat) (digest : List Byte) : c.extend d i type digest =
    ((c.putBytes d SEC (SEC.MR + 0x20 * i) (shake256 32 (c.mr d i ++ digest))).putBytes d SEC (SEC.LOG + 0x28 * c.logCount d)
      (logEntry d i type (c.logCount d) digest)).put d SEC SEC.LOG_COUNT 5 0 (c.logCount d + 1) := rfl

theorem Chip.course_extend (c : Chip) (d i type : Nat) (digest : List Byte) : (c.extend d i type digest).course = c.course := by
  rw [extend_eq, course_put, course_putBytes, course_putBytes]

/-- A measurement changes registers of SEC only. -/
theorem Chip.reg_extend_beside (c : Chip) (d type : Nat) {i : Nat} {digest : List Byte} (e : Nat) {q r : Nat} (hi : i < 4)
    (hdigest : digest.length ≤ 32) (hq : q < 0x1000) (hr : r < 0x1000) (hne : q ≠ SEC) :
    (c.extend d i type digest).reg e q r = c.reg e q r := by
  have hcount := c.logCount_lt d
  have hmr := length_shake256_le 32 (c.mr d i ++ digest)
  have hentry := length_logEntry d i type (c.logCount d) digest
  have hbases : SEC.MR = 0x100 ∧ SEC.LOG = 0x200 := ⟨rfl, rfl⟩
  rw [extend_eq, Chip.reg_put_apart _ d e (apart_of_ne hq hr (by decide) (by decide) (.inl hne)),
    reg_putBytes_beside _ d _ e hq hr (by decide) (by omega) (.inl hne), reg_putBytes_beside _ d _ e hq hr (by decide) (by omega) (.inl hne)]

/-! ### The chip once its PLLs have locked -/

/-- Step 2 of boot, but for the report of the outputs. -/
def Chip.locked (c : Chip) : Chip :=
  let c := ({ c with cycleAt := c.now, boot := .sfdp } : Chip).clocksUp
  c.each c.dies' fun c d => c.extend d 0 1 romDigest

/-- Dies whose fuses differ are noted. -/
def Chip.noteSkew (c : Chip) : Chip := if c.otpDiffers then { c with otpSkew := true }.event 0 SEC 2 else c

theorem State.pllLock_eq (s : State) (h : (!s.chip.awaitsClocks || s.chip.clockHeld) = false) :
    s.pllLock = (s.up fun c => c.locked.noteSkew).formAll 0 := by
  unfold State.pllLock
  rw [h]
  rfl

theorem Chip.course_noteSkew (c : Chip) : c.noteSkew.course = c.course := by
  unfold Chip.noteSkew
  split
  · exact (course_event _ 0 SEC 2).trans rfl
  · rfl

theorem Chip.reg_noteSkew (c : Chip) (e : Nat) {q r : Nat} (h : quiet q r = true) : c.noteSkew.reg e q r = c.reg e q r := by
  unfold Chip.noteSkew
  split
  · exact (reg_event_quiet _ 0 e h SEC 2).trans rfl
  · rfl

theorem Chip.course_locked (c : Chip) : c.locked.course = ⟨c.member, .running, c.now, c.now, .sfdp, c.profile⟩ := by
  unfold Chip.locked
  dsimp only
  rw [course_each _ _ fun c d => c.course_extend d 0 1 romDigest, course_clocksUp]
  rfl

theorem Chip.reg_locked_beside (c : Chip) (e : Nat) {q r : Nat} (hq : q < 0x1000) (hr : r < 0x1000) (hne : q ≠ SEC) :
    c.locked.reg e q r = ({ c with cycleAt := c.now, boot := .sfdp } : Chip).clocksUp.reg e q r := by
  unfold Chip.locked
  dsimp only
  rw [each_keeps (fun c => c.reg e q r) _ _ (f := fun c d => c.extend d 0 1 romDigest) fun c d _ =>
    c.reg_extend_beside d 1 e (by decide) length_romDigest.le hq hr hne]

theorem Chip.dies'_begun (c : Chip) : ({ c with cycleAt := c.now, boot := .sfdp } : Chip).dies' = c.dies' := rfl

theorem Chip.serves_locked (c : Chip) {d q : Nat} (hd : d ∈ c.dies') (hq : q ∈ clockedPages) : c.locked.noteSkew.serves d q := by
  have hquiet := (clockedPages_spec q hq).1
  have hsec : q ≠ SEC := by revert q; decide
  refine serves_of_reg ((reg_noteSkew _ d hquiet).trans (c.reg_locked_beside d (bounds_of_quiet hquiet).1 (by decide) hsec)) ?_
  exact serves_clocksUp _ (c.dies'_begun ▸ hd) hq

theorem Chip.pll_locked (c : Chip) {d : Nat} (hd : d ∈ c.dies') : c.locked.noteSkew.num d CLK CLK.PLL_STATUS = 7 := by
  rw [Chip.num, reg_noteSkew _ d (by decide), c.reg_locked_beside d (by decide) (by decide) (by decide)]
  exact pll_clocksUp _ (c.dies'_begun ▸ hd)

theorem Chip.outputs_congr {c c' : Chip} (hcourse : c'.dies' = c.dies')
    (h : c'.reg 0 BRIDGE BRIDGE.GANG_MAP = c.reg 0 BRIDGE BRIDGE.GANG_MAP) : c'.outputs = c.outputs := by
  unfold Chip.outputs
  rw [hcourse]
  exact List.filter_congr fun d _ => by rw [leadOf_congr h]

theorem Chip.outputs_locked (c : Chip) : c.locked.noteSkew.outputs = c.outputs := by
  refine outputs_congr ?_ ?_
  · have hmember : c.locked.noteSkew.member = c.member := congrArg Course.member ((course_noteSkew _).trans c.course_locked)
    unfold Chip.dies'
    rw [hmember]
  · rw [reg_noteSkew _ 0 (by decide), c.reg_locked_beside 0 (by decide) (by decide) (by decide), gangMap_clocksUp]
    rfl

/-! ### Every output in BRINGUP (R57, R78, R457) -/

/-- What a mode change shows on a die of the gang. -/
def Chip.showMode (c : Chip) (e new : Nat) : Chip := (c.put e TGEN TGEN.OUT_STATE 2 0 new).setState e SCAN (scanState new)

theorem Chip.mode_showMode (c : Chip) (e o : Nat) {new : Nat} (hnew : new < 8) (h : e = o ∨ c.mode o = new) :
    (c.showMode e new).mode o = new := by
  have hscan : (c.showMode e new).mode o = (c.put e TGEN TGEN.OUT_STATE 2 0 new).mode o := by
    unfold Chip.mode Chip.get Chip.showMode Chip.setState
    rw [reg_put_apart _ e o (by decide)]
  rw [hscan]
  by_cases he : e = o
  · subst he
    exact (c.get_put e TGEN TGEN.OUT_STATE new (by decide) (by decide)).trans (Nat.mod_eq_of_lt hnew)
  · refine Eq.trans ?_ (h.resolve_left he)
    unfold Chip.mode Chip.get
    rw [put_eq, reg_setReg, if_neg fun hra => he ((ra_inj (by decide) (by decide) (by decide) (by decide)).1 hra).1.symm]

theorem State.reg_changeMode (s : State) (o old new cause first e : Nat) {q r : Nat} (h : unlogged q r = true) :
    (s.changeMode o old new cause first).chip.reg e q r =
      (s.chip.each (s.chip.gang o) fun c e => c.showMode e new).reg e q r := by
  have hq := quiet_of_unlogged h
  unfold State.changeMode
  dsimp only
  rw [State.reg_log _ _ _ h, State.up_chip, Chip.reg_record_quiet _ o e hq, Chip.reg_event_quiet _ o e hq]
  rfl

theorem Chip.self_mem_gang (c : Chip) (o : Nat) : o ∈ c.gang o := List.mem_map.2 ⟨0, List.mem_range.2 (by positivity), rfl⟩

theorem State.mode_changeMode (s : State) (o old : Nat) {new : Nat} (cause first o' : Nat) (hnew : new < 8)
    (h : o = o' ∨ s.chip.mode o' = new) : (s.changeMode o old new cause first).chip.mode o' = new := by
  have hshown : (s.chip.each (s.chip.gang o) fun c e => c.showMode e new).mode o' = new := by
    rcases h with rfl | h
    · exact Chip.each_reaches (P := fun c => c.mode o = new) _ (s.chip.self_mem_gang o) (fun c => c.mode_showMode o o hnew (.inl rfl))
        fun c e _ h => c.mode_showMode e o hnew (.inr h)
    · exact Chip.each_preserves (P := fun c => c.mode o' = new) (fun c e _ h => c.mode_showMode e o' hnew (.inr h)) h
  rw [Chip.mode, Chip.get_congr (s.reg_changeMode o old new cause first o' (by decide)), ← Chip.mode, hshown]

theorem State.serves_changeMode (s : State) (o old cause first e : Nat) {q : Nat} (hq : q ∈ clockedPages) (hs : s.chip.serves e q) :
    (s.changeMode o old BRINGUP cause first).chip.serves e q := by
  have hquiet := (clockedPages_spec q hq).1
  refine Chip.serves_of_reg (s.reg_changeMode o old BRINGUP cause first e (unlogged_status hquiet)) ?_
  refine Chip.each_preserves (P := fun c => c.serves e q) (fun c d _ hs => ?_) hs
  refine Chip.serves_setState _ d (by decide) (bounds_of_quiet hquiet).1 (fun _ => by decide) (Chip.serves_of_reg ?_ hs)
  exact c.reg_put_apart d e (apart_of_offset hquiet (by decide) (by decide) (by decide)) 2 0 _

theorem State.pll_changeMode (s : State) (o old new cause first e : Nat) :
    (s.changeMode o old new cause first).chip.num e CLK CLK.PLL_STATUS = s.chip.num e CLK CLK.PLL_STATUS := by
  have hround : ∀ c : Chip, ∀ d, (c.showMode d new).reg e CLK CLK.PLL_STATUS = c.reg e CLK CLK.PLL_STATUS := fun c d => by
    unfold Chip.showMode Chip.setState
    rw [Chip.reg_put_apart _ d e (by decide), Chip.reg_put_apart _ d e (by decide)]
  rw [Chip.num, s.reg_changeMode o old new cause first e (by decide),
    Chip.each_keeps (fun c => c.reg e CLK CLK.PLL_STATUS) _ _ fun c d _ => hround c d, Chip.num]

/-- What the report of the outputs leaves as it was, and what it shows. -/
def State.reported (s t : State) : Prop :=
  t.mem.dram = s.mem.dram ∧ t.chip.course = s.chip.course ∧
    (∀ d, t.chip.num d CLK CLK.PLL_STATUS = s.chip.num d CLK CLK.PLL_STATUS) ∧
    (∀ d, ∀ q ∈ clockedPages, s.chip.serves d q → t.chip.serves d q) ∧ ∀ o, s.chip.mode o = BRINGUP → t.chip.mode o = BRINGUP

theorem State.reported_refl (s : State) : s.reported s := ⟨rfl, rfl, fun _ => rfl, fun _ _ _ h => h, fun _ h => h⟩

theorem State.reported_trans {s t u : State} (h : s.reported t) (h' : t.reported u) : s.reported u := by
  obtain ⟨hdram, hcourse, hpll, hserves, hmode⟩ := h
  obtain ⟨hdram', hcourse', hpll', hserves', hmode'⟩ := h'
  exact ⟨hdram'.trans hdram, hcourse'.trans hcourse, fun d => (hpll' d).trans (hpll d),
    fun d q hq hs => hserves' d q hq (hserves d q hq hs), fun o ho => hmode' o (hmode o ho)⟩

theorem State.reported_changeMode (s : State) (o old cause first : Nat) : s.reported (s.changeMode o old BRINGUP cause first) :=
  ⟨dram_of_settled (s.settled_changeMode ..), s.course_changeMode .., s.pll_changeMode o old BRINGUP cause first,
    fun d _ hq hs => s.serves_changeMode o old cause first d hq hs,
    fun o' h => s.mode_changeMode o old cause first o' (by decide) (.inr h)⟩

theorem State.reported_log (s : State) (d type page code arg : Nat) : s.reported (s.log d type page code arg) := by
  refine ⟨dram_of_settled (s.settled_log ..), s.course_log .., fun e => ?_, fun e q hq hs => ?_, fun o h => ?_⟩
  · rw [Chip.num, State.reg_log _ _ _ (by decide), Chip.num]
  · exact Chip.serves_of_reg (s.reg_log d e (unlogged_status (clockedPages_spec q hq).1) ..) hs
  · rwa [Chip.mode, Chip.get, State.reg_log _ _ _ (by decide)]

theorem State.reported_each {α : Type} (s : State) (l : List α) {f : State → α → State} (h : ∀ (s : State) x, s.reported (f s x)) :
    s.reported (s.each l f) :=
  State.each_preserves (fun t x _ ht => reported_trans ht (h t x)) s.reported_refl

theorem State.reported_formAll (s : State) (old : Nat) :
    s.reported (s.formAll old) ∧ ∀ o ∈ s.chip.outputs, (s.formAll old).chip.mode o = BRINGUP := by
  have hlogs : ∀ s : State, s.reported (s.each s.chip.dies' fun s d =>
      s.log d 0x07 SYS (s.chip.get d SYS SYS.BOOT_STATUS 7 4) (s.chip.get d SYS SYS.BOOT_STATUS 3 0)) := fun s =>
    s.reported_each _ fun s d => s.reported_log ..
  have hmodes : s.reported (s.each s.chip.outputs fun s o => s.changeMode o old BRINGUP 10 0) :=
    s.reported_each _ fun s o => s.reported_changeMode o old 10 0
  unfold State.formAll
  extract_lets u
  obtain ⟨-, -, -, -, hmode⟩ := hlogs u
  refine ⟨reported_trans hmodes (hlogs u), fun o ho => hmode o ?_⟩
  exact State.each_reaches (P := fun s => s.chip.mode o = BRINGUP) s ho (fun s => s.mode_changeMode o old 10 0 o (by decide) (.inl rfl))
    fun s o' _ h => s.mode_changeMode o' old 10 0 o (by decide) (.inr h)

/-! ### The rows (R83, R84, R99) -/

theorem pllsLock (s : State) (hpower : s.chip.power = .starting) (haon : s.chip.ready 0 AON = true) (hheld : s.chip.clockHeld = false) :
    ∃ t, exec .pllLock s = .next t ∧ t.mem.flash = s.mem.flash ∧ t.mem.dram = s.mem.dram ∧ t.chip.power = .running ∧
      t.chip.boot = .sfdp ∧ t.chip.cycleAt = s.chip.now ∧ (∀ o ∈ s.chip.outputs, t.chip.mode o = BRINGUP) ∧
      ∀ d < dieCount s.chip.member, t.chip.num d CLK CLK.PLL_STATUS = 7 ∧
        ∀ p ∈ [CLK, SLINK, SCAN, CODEC, BASKET, RAMBLER, CAL, AGE], t.chip.ready d p = true ∧ t.chip.state d p = 1 := by
  have hgo : (!s.chip.awaitsClocks || s.chip.clockHeld) = false := by rw [hheld, Chip.awaitsClocks, haon, hpower]; rfl
  have hflash := s.flash_pllLock
  have hlock := s.pllLock_eq hgo
  have hchip : (s.up fun c => c.locked.noteSkew).chip = s.chip.locked.noteSkew := s.up_chip _
  have hmem : (s.up fun c => c.locked.noteSkew).mem = s.mem := s.up_mem _
  generalize (s.up fun c => c.locked.noteSkew) = u at hlock hchip hmem
  obtain ⟨hreport, hmodes⟩ := u.reported_formAll 0
  rw [← hlock] at hreport hmodes
  obtain ⟨hdram, hsame, hpll, hserves, -⟩ := hreport
  have hcourse := hsame.trans ((congrArg Chip.course hchip).trans ((Chip.course_noteSkew _).trans s.chip.course_locked))
  rw [hchip, Chip.outputs_locked] at hmodes
  refine ⟨_, rfl, (Prod.mk.inj hflash).1, hdram.trans (congrArg Mem.dram hmem), congrArg Course.power hcourse,
    congrArg Course.boot hcourse, congrArg Course.cycleAt hcourse, hmodes, fun d hd => ⟨?_, fun p hp => ?_⟩⟩
  · rw [hpll, hchip, Chip.pll_locked _ (List.mem_range.2 hd)]
  · exact hserves d p hp (hchip ▸ s.chip.serves_locked (List.mem_range.2 hd) hp)

/-- REFCLK, and the clock stage that waits (R83, R99). -/
theorem clocksWait (s : State) (hpower : s.chip.power = .starting) (haon : s.chip.ready 0 AON = true) :
    (s.chip.clockHeld = true → exec .pllLock s = .next s) ∧
    (exec (.refclkRetry true) s = .next (s.up fun c => c.each c.dies' fun c d => c.put d AON AON.STATUS 1 1 1)) ∧
    exec (.refclkRetry false) s = .next (s.up fun c => c.each c.dies' fun c d => (c.put d AON AON.STATUS 1 1 0).setError d 1) := by
  have hwaits : s.chip.awaitsClocks = true := by rw [Chip.awaitsClocks, haon, hpower]; rfl
  refine ⟨fun hheld => ?_, ?_, ?_⟩
  · have hstays : s.pllLock = s := by rw [State.pllLock, hheld, Bool.or_true, if_pos rfl]
    exact congrArg Host.Outcome.next hstays
  · refine State.next_up_eq ?_
    rw [Chip.refclkRetry, hwaits]
    rfl
  · refine State.next_up_eq ?_
    rw [Chip.refclkRetry, hwaits]
    rfl

theorem sfdpIsRead (s : State) (hboot : s.chip.boot = .sfdp) :
    exec (.sfdpRead true true true) s = .next (s.up fun c => { c.setStage 0 3 with boot := .directory }) ∧
    (∀ a b, exec (.sfdpRead false a b) s = .next (s.up fun c => (c.setStage 0 3).enterRecovery 2)) ∧
    ∀ a b, (a && b) = false → exec (.sfdpRead true a b) s = .next (s.up fun c => (c.setStage 0 3).enterRecovery 3) := by
  have hread : ∀ x a b, s.chip.sfdpRead x a b = if !x then (s.chip.setStage 0 3).enterRecovery 2
      else if !a || !b then (s.chip.setStage 0 3).enterRecovery 3 else { s.chip.setStage 0 3 with boot := .directory } := fun x a b =>
    if_neg fun h => h hboot
  refine ⟨State.next_up_eq (hread true true true), fun a b => State.next_up_eq (hread false a b), fun a b hab => State.next_up_eq ?_⟩
  rw [hread]
  rw [← Bool.not_and, hab]
  rfl

theorem bootSteps : Claim.BootSteps := ⟨aonComesUp, pllsLock, clocksWait, sfdpIsRead⟩

end Sys2Proof.Machine
end

section
/-! PROOFS. Measurements read back (O50; R427, R437): the length of a digest, and bytes put into words of a page. -/

namespace Sys2Proof.Machine

/-! ### The length of a digest (R427) -/

theorem length_walk (g : Planes) (n t x y : Nat) (out : Planes) : (walk g n t x y out).length = out.length := by
  fun_induction walk g n t x y out with
  | case1 => rfl
  | case2 n t x y out turned y' ih => rw [ih, List.length_set]

theorem length_theta (g : Planes) : (theta g).length = g.length := List.length_map ..

theorem length_rounds (n : Nat) (r : Byte) (g : Planes) : (rounds n r g).length = g.length := by
  have hround : ∀ g : Planes, ((walk (theta g) 24 0 1 0 (theta g)).map Plane.chi).length = g.length := fun g => by
    rw [List.length_map, length_walk, length_theta]
  induction n generalizing r g with
  | zero => rfl
  | succ n ih =>
    have hlength := hround g
    unfold rounds
    dsimp only
    split
    · next h => rw [← hlength, h]
    · next h => rw [ih, ← hlength, h]; rfl

theorem length_absorb (n : Nat) (bs : List Byte) (g : Planes) (hg : g.length = 5) : (absorb n bs g).length = 5 := by
  induction n generalizing bs g with
  | zero => exact hg
  | succ n ih =>
    refine ih _ _ ?_
    rw [length_rounds, List.length_zipWith, hg, List.length_map, List.length_range]
    rfl

theorem length_shake256 {n : Nat} (hn : n ≤ 200) (bs : List Byte) : (shake256 n bs).length = n := by
  have hplane : ∀ p : Plane, ([p.l0, p.l1, p.l2, p.l3, p.l4].flatMap fun l => leBytes 8 l.toNat).length = 40 := fun p => by
    simp only [List.flatMap_cons, List.flatMap_nil, List.length_append, length_leBytes, List.length_nil]
  have hall : ∀ g : Planes, (g.flatMap fun p => [p.l0, p.l1, p.l2, p.l3, p.l4].flatMap fun l => leBytes 8 l.toNat).length = 40 * g.length :=
    fun g => by
      induction g with
      | nil => rfl
      | cons p g ih => rw [List.flatMap_cons, List.length_append, hplane, ih, List.length_cons]; omega
  unfold shake256
  dsimp only
  rw [List.length_take, hall, length_absorb _ _ _ (List.length_replicate ..)]
  omega

theorem length_envDigest (e : List Byte) : (envDigest e).length = 32 := length_shake256 (by decide) _

/-! ### Bytes put into words of a page, and read back -/

theorem leBytes_word (a b c d : Byte) : leBytes 4 (BitVec.ofNat 32 (leNat [a, b, c, d])).toNat = [a, b, c, d] := by
  have ha := a.isLt; have hb := b.isLt; have hc := c.isLt; have hd := d.isLt
  have hn : leNat [a, b, c, d] = a.toNat + 256 * (b.toNat + 256 * (c.toNat + 256 * d.toNat)) := rfl
  have hlt : leNat [a, b, c, d] < 2 ^ 32 := by omega
  rw [BitVec.toNat_ofNat, Nat.mod_eq_of_lt hlt, hn]
  have hbyte : ∀ (i : Nat) (x : Byte), (a.toNat + 256 * (b.toNat + 256 * (c.toNat + 256 * d.toNat))) / 2 ^ (8 * i) % 256 = x.toNat →
      BitVec.ofNat 8 ((a.toNat + 256 * (b.toNat + 256 * (c.toNat + 256 * d.toNat))) >>> (8 * i)) = x := fun i x h => by
    refine BitVec.eq_of_toNat_eq ?_
    rw [BitVec.toNat_ofNat, Nat.shiftRight_eq_div_pow]
    exact h
  show [_, _, _, _] = _
  beta_reduce
  rw [hbyte 0 a (by omega), hbyte 1 b (by omega), hbyte 2 c (by omega), hbyte 3 d (by omega)]

theorem bytes_of_wordsOf (bs : List Byte) (h : bs.length % 4 = 0) : ((wordsOf bs).flatMap fun w => leBytes 4 w.toNat) = bs := by
  fun_induction wordsOf bs with
  | case1 a b c d rest ih =>
    have hrest : rest.length % 4 = 0 := by
      simp only [List.length_cons] at h
      omega
    rw [List.flatMap_cons, leBytes_word, ih hrest]
    rfl
  | case2 bs hshort =>
    match bs with
    | [] => rfl
    | [_] | [_, _] | [_, _, _] => simp at h
    | a :: b :: c :: d :: rest => exact absurd rfl (hshort a b c d rest)

/-- A word of a page after words have been put into it from an offset on. -/
theorem Chip.reg_putWords (d : Nat) {p o : Nat} (ws : List Word) (c : Chip) (j i : Nat) (hp : p < 0x1000)
    (ho : o + 4 * (j + ws.length) ≤ 0x1000) (hi : o + 4 * i < 0x1000) :
    (c.each (ws.zipIdx j) fun c x => c.setReg d p (o + 4 * x.2) x.1).reg d p (o + 4 * i) =
      if h : j ≤ i ∧ i - j < ws.length then ws[i - j]'h.2 else c.reg d p (o + 4 * i) := by
  induction ws generalizing c j with
  | nil =>
    rw [dif_neg fun h => absurd h.2 (Nat.not_lt_zero _)]
    rfl
  | cons w ws ih =>
    have hlen : (w :: ws).length = ws.length + 1 := rfl
    rw [hlen] at ho
    have hstep : (c.each ((w :: ws).zipIdx j) fun c x => c.setReg d p (o + 4 * x.2) x.1) =
        (c.setReg d p (o + 4 * j) w).each (ws.zipIdx (j + 1)) fun c x => c.setReg d p (o + 4 * x.2) x.1 := rfl
    rw [hstep, ih _ _ (by omega)]
    by_cases hij : i = j
    · subst hij
      rw [dif_neg (by omega), dif_pos ⟨le_rfl, by rw [hlen]; omega⟩, Chip.reg_setReg_same]
      simp
    · have hkept : (c.setReg d p (o + 4 * j) w).reg d p (o + 4 * i) = c.reg d p (o + 4 * i) :=
        c.reg_setReg_apart d d (apart_of_ne hp hi hp (by omega) (.inr (by omega))) w
      rw [hkept]
      by_cases hlt : j ≤ i ∧ i - j < (w :: ws).length
      · have hge : j + 1 ≤ i := by omega
        rw [hlen] at hlt
        rw [dif_pos ⟨hge, by omega⟩, dif_pos (by rw [hlen]; exact hlt)]
        simp only [show i - j = i - (j + 1) + 1 by omega, List.getElem_cons_succ]
      · rw [hlen] at hlt
        rw [dif_neg (by omega), dif_neg (by rw [hlen]; exact hlt)]

theorem Chip.pageBytes_putBytes (c : Chip) (d : Nat) {p o n : Nat} (bs : List Byte) (hp : p < 0x1000) (ho : o + 4 * n ≤ 0x1000)
    (hn : bs.length = 4 * n) : (c.putBytes d p o bs).pageBytes d p o n = bs := by
  have hlen : (wordsOf bs).length = n := by rw [length_wordsOf]; omega
  have hwords : (List.range n).map (fun k => (c.putBytes d p o bs).reg d p (o + 4 * k)) = wordsOf bs := by
    refine List.ext_getElem (by rw [List.length_map, List.length_range, hlen]) fun k hk hk' => ?_
    rw [List.getElem_map, List.getElem_range]
    unfold Chip.putBytes
    rw [Chip.reg_putWords d (wordsOf bs) c 0 k hp (by omega) (by omega), dif_pos ⟨Nat.zero_le _, by omega⟩]
    rfl
  calc (c.putBytes d p o bs).pageBytes d p o n
      = ((List.range n).map fun k => (c.putBytes d p o bs).reg d p (o + 4 * k)).flatMap fun w => leBytes 4 w.toNat := by
        rw [List.flatMap_map]; rfl
    _ = bs := by rw [hwords, bytes_of_wordsOf bs (by omega)]

theorem Chip.pageBytes_congr {c c' : Chip} {d p o n : Nat} (h : ∀ k < n, c'.reg d p (o + 4 * k) = c.reg d p (o + 4 * k)) :
    c'.pageBytes d p o n = c.pageBytes d p o n := by
  unfold Chip.pageBytes
  refine List.flatMap_congr fun k hk => ?_
  rw [Chip.num, h k (List.mem_range.1 hk), Chip.num]

/-! ### A measurement is extended (R437) -/

/-- The registers of a die's measurements: what MR, the log and LOG_COUNT show. -/
def Chip.measuredLike (c c' : Chip) (d : Nat) : Prop := ∀ r, 0x0E8 ≤ r → r < 0x1000 → c'.reg d SEC r = c.reg d SEC r

theorem Chip.mr_of_measuredLike {c c' : Chip} {d : Nat} (h : c.measuredLike c' d) : c'.mr d 1 = c.mr d 1 := by
  have hbase : SEC.MR = 0x100 := rfl
  exact pageBytes_congr fun k hk => h _ (by omega) (by omega)

theorem Chip.logCount_of_measuredLike {c c' : Chip} {d : Nat} (h : c.measuredLike c' d) : c'.logCount d = c.logCount d := by
  unfold Chip.logCount Chip.get
  rw [h _ (by decide) (by decide)]

theorem Chip.mr_extend (c : Chip) (d type : Nat) {digest : List Byte} (h : digest.length ≤ 32) :
    (c.extend d 1 type digest).mr d 1 = shake256 32 (c.mr d 1 ++ digest) := by
  have hbases : SEC.MR = 0x100 ∧ SEC.LOG = 0x200 ∧ SEC.LOG_COUNT = 0x0E8 := ⟨rfl, rfl, rfl⟩
  have hcount := c.logCount_lt d
  have hentry := length_logEntry d 1 type (c.logCount d) digest
  have hmr := c.pageBytes_putBytes d (p := SEC) (o := SEC.MR + 0x20 * 1) (n := 8) (shake256 32 (c.mr d 1 ++ digest)) (by decide) (by omega)
    (length_shake256 (by decide) _)
  refine Eq.trans (pageBytes_congr fun k hk => ?_) hmr
  rw [extend_eq, reg_put_apart _ d d (apart_of_ne (by decide) (by omega) (by decide) (by decide) (.inr (by omega))),
    reg_putBytes_beside _ d _ d (by decide) (by omega) (by decide) (by omega) (.inr (.inl (by omega)))]

theorem Chip.logCount_extend (c : Chip) (d i type : Nat) (digest : List Byte) (h : c.logCount d < 32) :
    (c.extend d i type digest).logCount d = c.logCount d + 1 := by
  rw [extend_eq, Chip.logCount, Chip.get_put _ _ _ _ _ (by decide) (by decide)]
  exact Nat.mod_eq_of_lt (by omega)

end Sys2Proof.Machine
end

section
/-! PROOFS. The boot images (O50; R85, R87, R88, R99, R433, R437): recovery, an image that starts, and the rows that check one. -/

namespace Sys2Proof.Machine

/-! ### The state of a die -/

theorem Chip.die_congr {c c' : Chip} (h : c'.dies = c.dies) (d : Nat) : c'.die d = c.die d := by unfold Chip.die; rw [h]

section
variable (c : Chip) (d v : Nat)

theorem Chip.dies_put (p o hi lo v : Nat) : (c.put d p o hi lo v).dies = c.dies := rfl

theorem Chip.dies_setStage : (c.setStage d v).dies = c.dies := by
  rw [Chip.setStage, touches_dies (touches_eventIf ..), dies_put]

theorem Chip.dies_setError : (c.setError d v).dies = c.dies := by
  unfold Chip.setError
  dsimp only
  rw [touches_dies (touches_eventIf ..), dies_put]

theorem Chip.dies_imageResult (k : Nat) : (c.imageResult d k v).dies = c.dies := by
  unfold Chip.imageResult
  split <;> rw [dies_put]

theorem Chip.course_imageResult (k : Nat) : (c.imageResult d k v).course = c.course := by
  unfold Chip.imageResult
  split <;> exact c.course_put d SYS _ _ _ v

theorem Chip.reg_imageResult (k e : Nat) {q r : Nat} (h : apart q r SYS SYS.BOOT_STATUS = true) :
    (c.imageResult d k v).reg e q r = c.reg e q r := by
  unfold Chip.imageResult
  split <;> exact c.reg_put_apart d e h _ _ v

end

theorem Chip.die_setSteward (c : Chip) (d : Nat) (x : Steward) (e : Nat) :
    (c.setSteward d x).die e = if e = d then { c.die d with steward := x } else c.die e := Chip.die_setDie ..

theorem Chip.die_setCopy (c : Chip) (d : Nat) (x : Option ImageCopy) (e : Nat) :
    (c.setCopy d x).die e = if e = d then { c.die d with copy := x } else c.die e := Chip.die_setDie ..

theorem Chip.reg_setSteward (c : Chip) (d : Nat) (x : Steward) (e q r : Nat) : (c.setSteward d x).reg e q r = c.reg e q r := rfl
theorem Chip.reg_setCopy (c : Chip) (d : Nat) (x : Option ImageCopy) (e q r : Nat) : (c.setCopy d x).reg e q r = c.reg e q r := rfl
theorem Chip.course_setSteward (c : Chip) (d : Nat) (x : Steward) : (c.setSteward d x).course = c.course := rfl

/-! ### Recovery (R99, R100) -/

/-- What recovery shows in BOOT_STATUS of die 0. -/
def Chip.recoveryShown (c : Chip) (error : Nat) : Chip := ((c.setSteward 0 .off).setStage 0 7).setError 0 error

theorem Chip.bootStatus_recoveryShown (c : Chip) (error : Nat) : (c.recoveryShown error).get 0 SYS SYS.BOOT_STATUS 3 0 = 7 ∧
    (c.recoveryShown error).get 0 SYS SYS.BOOT_STATUS 23 16 = error % 256 := by
  unfold Chip.recoveryShown
  exact ⟨by rw [get_setError_beside _ _ _ _ (by decide) (.inl (by decide)), stage_setStage], error_setError ..⟩

theorem Chip.course_recoveryShown (c : Chip) (error : Nat) : (c.recoveryShown error).course = c.course := by
  unfold Chip.recoveryShown
  rw [course_setError, course_setStage, course_setSteward]

/-- The dies that have not booted wait for an image. -/
def Chip.othersWait (c : Chip) : Chip :=
  let waits := fun d => decide (d ≠ 0) && decide ((c.die d).steward = .off ∨ (c.die d).steward = .booting 0 ∨ (c.die d).steward = .booting 1)
  c.each (c.dies'.filter waits) fun c d => (c.setSteward d .off).setStage d 8

/-- The boot ROM hands its baskets to the port. -/
def Chip.lendBaskets (c : Chip) : Chip :=
  (c.setNum 0 BASKET BASKET.OWNER 0x55555566).each [1, 2, 3] fun c k => c.setNum 0 BASKET (BASKET.OWNER + 4 * k) 0x55555555

theorem Chip.enterRecovery_eq (c : Chip) (error : Nat) :
    c.enterRecovery error = ((({ c with boot := .idle } : Chip).othersWait).recoveryShown error).lendBaskets := rfl

theorem Chip.course_othersWait (c : Chip) : c.othersWait.course = c.course :=
  course_each _ _ fun c d => by rw [course_setStage, course_setSteward]

theorem Chip.course_lendBaskets (c : Chip) : c.lendBaskets.course = c.course :=
  (course_each _ _ fun c k => c.course_setNum 0 BASKET _ _).trans (c.course_setNum 0 BASKET _ _)

theorem owner_apart : ∀ k ∈ [1, 2, 3], apart SYS SYS.BOOT_STATUS BASKET (BASKET.OWNER + 4 * k) = true := by decide

theorem Chip.bootStatus_lendBaskets (c : Chip) : c.lendBaskets.reg 0 SYS SYS.BOOT_STATUS = c.reg 0 SYS SYS.BOOT_STATUS := by
  unfold Chip.lendBaskets
  rw [each_keeps (fun c => c.reg 0 SYS SYS.BOOT_STATUS) _ [1, 2, 3] (f := fun c k => c.setNum 0 BASKET (BASKET.OWNER + 4 * k) 0x55555555)
    fun c _ hk => c.reg_setNum_apart 0 0 (owner_apart _ hk) _, reg_setNum_apart _ 0 0 (by decide)]

theorem Chip.enterRecovery_spec (c : Chip) (error : Nat) : (c.enterRecovery error).recovery = true ∧ (c.enterRecovery error).boot = .idle ∧
    (c.enterRecovery error).get 0 SYS SYS.BOOT_STATUS 23 16 = error % 256 := by
  rw [enterRecovery_eq]
  have hcourse : ({ c with boot := .idle } : Chip).othersWait.course = ({ c with boot := .idle } : Chip).course := course_othersWait _
  generalize ({ c with boot := .idle } : Chip).othersWait = u at hcourse ⊢
  obtain ⟨hstage, herror⟩ := u.bootStatus_recoveryShown error
  refine ⟨?_, ?_, ?_⟩
  · rw [Chip.recovery, get_congr (bootStatus_lendBaskets _), hstage]
    rfl
  · exact congrArg Course.boot ((course_lendBaskets _).trans ((u.course_recoveryShown error).trans hcourse))
  · rw [get_congr (bootStatus_lendBaskets _), herror]

/-! ### Images are tried (R88) -/

/-- With no image fit to be tried, die 0 enters recovery. -/
theorem Chip.tryImages_none (fit : Nat → Bool) (l : List Nat) (h : ∀ k ∈ l, fit k = false) (c : Chip) (attempt : Nat) :
    (c.tryImages fit attempt l).recovery = true ∧ (c.tryImages fit attempt l).boot = .idle := by
  induction l generalizing c attempt with
  | nil =>
    obtain ⟨hrecovery, hboot, -⟩ := c.enterRecovery_spec 5
    exact ⟨hrecovery, hboot⟩
  | cons k l ih =>
    rw [Chip.tryImages, if_neg (by rw [h k (List.mem_cons_self ..)]; exact Bool.false_ne_true)]
    exact ih (fun x hx => h x (List.mem_cons_of_mem _ hx)) _ _

theorem directoryIsRead (s : State) (hboot : s.chip.boot = .directory) :
    (s.directory = none → exec .directoryRead s = .next (s.up fun c => c.enterRecovery 4)) ∧
    ∀ l, s.directory = some l →
      (((imageOrder l).all fun k => (s.imageBytes k).isNone) = true →
        ∃ t, exec .directoryRead s = .next t ∧ t.mem = s.mem ∧ t.chip.recovery = true ∧ t.chip.boot = .idle) ∧
      ∀ k rest, imageOrder l = k :: rest → (s.imageBytes k).isSome = true →
        exec .directoryRead s = .next (s.up fun c => { c.setStage 0 4 with boot := .image 0 k }) := by
  have hnone : s.directory = none → execDirectoryRead s = .next (s.up fun c => c.enterRecovery 4) := fun h => by
    rw [execDirectoryRead, if_pos hboot, h]
  have hsome : ∀ l, s.directory = some l → execDirectoryRead s =
      .next (s.up fun c => (c.setStage 0 4).tryImages (fun k => (s.imageBytes k).isSome) 0 (imageOrder l)) := fun l h => by
    rw [execDirectoryRead, if_pos hboot, h]
  refine ⟨hnone, fun l hl => ⟨fun hunfit => ?_, fun k rest hk hfit => ?_⟩⟩
  · refine ⟨_, hsome l hl, s.up_mem _, ?_⟩
    rw [State.up_chip]
    refine Chip.tryImages_none _ _ (fun k hk => ?_) _ _
    rw [← Option.not_isNone, List.all_eq_true.1 hunfit k hk]
    rfl
  · refine (hsome l hl).trans (congrArg Host.Outcome.next (State.up_congr ?_))
    rw [hk, Chip.tryImages, if_pos hfit]

/-! ### An image starts (R433, R437) -/

theorem Chip.dies_stewardUp (c : Chip) (d : Nat) : ((c.stewardUp d).die d).steward = .running := by
  unfold Chip.stewardUp
  dsimp only
  rw [die_congr (touches_dies (touches_setReady ..)), die_setDie, if_pos rfl]

theorem Chip.ready_stewardUp (c : Chip) (d : Nat) : (c.stewardUp d).ready d STEWARD = true := by
  unfold Chip.stewardUp
  dsimp only
  rw [ready_setReady _ _ _ _ (by decide) (by decide), if_pos ⟨rfl, rfl⟩]

theorem Chip.reg_stewardUp (c : Chip) (d e : Nat) {q r : Nat} (hq : quiet q r = true) (h : q ≠ STEWARD) :
    (c.stewardUp d).reg e q r = c.reg e q r := by
  unfold Chip.stewardUp
  dsimp only
  rw [reg_setReady_quiet _ d e hq, reg_put_apart _ d e (apart_of_page hq (by decide) (by decide) h)]
  rfl

/-- The image is measured and shown. -/
def Chip.imageShown (c : Chip) (d image : Nat) (e : List Byte) : Chip :=
  (((c.extendImage d false (envDigest e)).setNum d SEC SEC.RUNNING (envKey e * 256 + envSvn e)).put d SYS SYS.BOOT_STATUS 7 4 image).setError
    d 0

/-- The steward is up, and its stage is shown. -/
def Chip.stewardShown (c : Chip) (d : Nat) : Chip :=
  (c.stewardUp d).setStage d (if d = 0 ∧ c.flag 0 SYS SYS.BOOT_STATUS 24 then 6 else 5)

theorem Chip.startImage_eq (c : Chip) (d image : Nat) (e : List Byte) : c.startImage d image e =
    if d = 0 ∧ !((c.imageShown d image e).stewardShown d).flag 0 SYS SYS.BOOT_STATUS 24 then
      { (c.imageShown d image e).stewardShown d with boot := .profile } else (c.imageShown d image e).stewardShown d := rfl

theorem Chip.steward_stewardShown (c : Chip) (d : Nat) : ((c.stewardShown d).die d).steward = .running ∧ (c.stewardShown d).ready d STEWARD = true := by
  unfold Chip.stewardShown
  constructor
  · rw [die_congr (dies_setStage ..), dies_stewardUp]
  · rw [ready_congr ((reg_setStage_quiet _ d d (by decide) _).trans (reg_put_apart _ d d (by decide) _ _ _)), ready_stewardUp]

theorem quiet_measured {r : Nat} (hr : 0x0E8 ≤ r) (hr' : r < 0x1000) : quiet SEC r = true := by
  have hoffsets : PAGE_EVENT = 0x008 ∧ PAGE_EVENT_LOST = 0x014 := ⟨rfl, rfl⟩
  simp only [quiet, Bool.and_eq_true, decide_eq_true_eq]
  exact ⟨⟨⟨⟨⟨by decide, hr'⟩, by decide⟩, by decide⟩, by omega⟩, by omega⟩

theorem Chip.measured_stewardShown (c : Chip) (d : Nat) : c.measuredLike (c.stewardShown d) d := by
  intro r hr hr'
  have hq := quiet_measured hr hr'
  have hboot : apart SEC r SYS SYS.BOOT_STATUS = true := apart_of_page hq (by decide) (by decide) (by decide)
  unfold Chip.stewardShown
  rw [reg_setStage_quiet _ d d hq, reg_put_apart _ d d hboot, reg_stewardUp _ d d hq (by decide)]

theorem Chip.measured_imageShown (c : Chip) (d image : Nat) (e : List Byte) (h : c.logCount d < 32) :
    (c.extend d 1 2 (envDigest e)).measuredLike (c.imageShown d image e) d := by
  intro r hr hr'
  have hq := quiet_measured hr hr'
  have hrunning : SEC.RUNNING = 0x044 := rfl
  unfold Chip.imageShown Chip.extendImage
  have hboot : apart SEC r SYS SYS.BOOT_STATUS = true := apart_of_page hq (by decide) (by decide) (by decide)
  rw [if_pos h, reg_setError_quiet _ d d hq, reg_put_apart _ d d hboot, reg_put_apart _ d d hboot,
    reg_setNum_apart _ d d (apart_of_offset hq (by decide) (by decide) (by omega))]
  rfl

/-- An image that starts: its steward runs and is READY, and its digest extends MR1. -/
theorem Chip.startImage_spec (c : Chip) (d image : Nat) (e : List Byte) (h : c.logCount d < 32) :
    ((c.startImage d image e).die d).steward = .running ∧ (c.startImage d image e).ready d STEWARD = true ∧
      (c.startImage d image e).mr d 1 = shake256 32 (c.mr d 1 ++ envDigest e) ∧
      (c.startImage d image e).logCount d = c.logCount d + 1 := by
  have hshown := c.measured_imageShown d image e h
  have hmr := c.mr_extend d 2 (length_envDigest e).le
  have hcount := c.logCount_extend d 1 2 (envDigest e) h
  rw [startImage_eq]
  generalize c.imageShown d image e = u at hshown ⊢
  have hmeasured := u.measured_stewardShown d
  obtain ⟨hsteward, hready⟩ := u.steward_stewardShown d
  have hspec : ((u.stewardShown d).die d).steward = .running ∧ (u.stewardShown d).ready d STEWARD = true ∧
      (u.stewardShown d).mr d 1 = shake256 32 (c.mr d 1 ++ envDigest e) ∧ (u.stewardShown d).logCount d = c.logCount d + 1 :=
    ⟨hsteward, hready, by rw [mr_of_measuredLike hmeasured, mr_of_measuredLike hshown, hmr],
      by rw [logCount_of_measuredLike hmeasured, logCount_of_measuredLike hshown, hcount]⟩
  split <;> exact hspec

/-! ### The images are checked (R85, R88, R433) -/

theorem exec_imageVerify {s : State} {d : Nat} (good : Bool) (hd : d < dieCount s.chip.member) :
    exec (.imageVerify ⟨d, good⟩) s = .next (s.imageVerify d good) := if_pos hd

/-- The images that die 0 has not tried yet when one fails. -/
def State.otherImages (s : State) (attempt : Nat) : List Nat :=
  if attempt = 0 then (match s.directory with | some l => (imageOrder l).drop 1 | none => []) else []

theorem State.imageVerify_image {s : State} {attempt k : Nat} {e : List Byte} (hboot : s.chip.boot = .image attempt k)
    (he : s.imageBytes k = some e) (good : Bool) : s.imageVerify 0 good =
      if envCheck s.chip.member (s.chip.otpOf 0) 1 e = 0 then
        s.up fun c => (({ c.imageResult 0 k 1 with boot := .idle } : Chip).startImage 0 k e).each
          (({ c.imageResult 0 k 1 with boot := .idle } : Chip).dies'.filter fun x => decide (x ≠ 0) &&
            decide ((({ c.imageResult 0 k 1 with boot := .idle } : Chip).die x).steward = .off))
          fun c x => (c.setSteward x (.booting 0)).setCopy x (some ⟨k, e⟩)
      else s.up fun c => (c.imageResult 0 k (envCheck s.chip.member (s.chip.otpOf 0) 1 e)).tryImages (fun x => (s.imageBytes x).isSome) 1
        (s.otherImages attempt) := by
  unfold State.imageVerify
  dsimp only
  rw [if_pos rfl, hboot]
  dsimp only
  rw [he]
  rfl

end Sys2Proof.Machine
end

section
/-! PROOFS. The rows that check a boot image (O50; R85, R88, R99, R433). -/

namespace Sys2Proof.Machine

theorem Chip.measured_imageResult (c : Chip) (d k v e : Nat) : c.measuredLike (c.imageResult d k v) e := fun r hr hr' =>
  c.reg_imageResult d v k e (apart_of_page (quiet_measured hr hr') (by decide) (by decide) (by decide))

/-- The other dies wait for the image that die 0 has checked. -/
def Chip.sendImage (c : Chip) (x : ImageCopy) (l : List Nat) : Chip := c.each l fun c d => (c.setSteward d (.booting 0)).setCopy d (some x)

theorem Chip.reg_sendImage (c : Chip) (x : ImageCopy) (l : List Nat) (e q r : Nat) : (c.sendImage x l).reg e q r = c.reg e q r :=
  each_keeps (fun c => c.reg e q r) c l fun c d _ => by rw [reg_setCopy, reg_setSteward]

theorem Chip.die_sendImage (c : Chip) (x : ImageCopy) {l : List Nat} (hl : ∀ d ∈ l, d ≠ 0) : (c.sendImage x l).die 0 = c.die 0 :=
  each_keeps (fun c => c.die 0) c l fun c d hd => by
    rw [die_setCopy, if_neg (hl d hd).symm, die_setSteward, if_neg (hl d hd).symm]

/-- Die 0 checks an image of its flash. -/
theorem imageOfFlash (s : State) (attempt k : Nat) (e : List Byte) (hboot : s.chip.boot = .image attempt k)
    (he : s.imageBytes k = some e) (hlog : s.chip.logCount 0 < 32) (copyGood : Bool) :
    ∃ t, exec (.imageVerify ⟨0, copyGood⟩) s = .next t ∧ t.mem = s.mem ∧
      (envCheck s.chip.member (s.chip.otpOf 0) 1 e = 0 →
        (t.chip.die 0).steward = .running ∧ t.chip.ready 0 STEWARD = true ∧
          t.chip.mr 0 1 = shake256 32 (s.chip.mr 0 1 ++ envDigest e) ∧ t.chip.logCount 0 = s.chip.logCount 0 + 1) ∧
      (envCheck s.chip.member (s.chip.otpOf 0) 1 e ≠ 0 → attempt ≠ 0 →
        t.chip.recovery = true ∧ t.chip.boot = .idle ∧ t.chip.get 0 SYS SYS.BOOT_STATUS 23 16 = 5) := by
  have hdie : 0 < dieCount s.chip.member := by cases s.chip.member <;> decide
  refine ⟨_, (exec_imageVerify copyGood hdie).trans (congrArg _ (State.imageVerify_image hboot he copyGood)), ?_⟩
  by_cases hcheck : envCheck s.chip.member (s.chip.otpOf 0) 1 e = 0
  · rw [if_pos hcheck]
    refine ⟨s.up_mem _, fun _ => ?_, fun hno => absurd hcheck hno⟩
    rw [State.up_chip]
    have hlike : s.chip.measuredLike ({ s.chip.imageResult 0 k 1 with boot := .idle } : Chip) 0 := s.chip.measured_imageResult 0 k 1 0
    generalize ({ s.chip.imageResult 0 k 1 with boot := .idle } : Chip) = c at hlike ⊢
    obtain ⟨hsteward, hready, hmr, hcount⟩ := c.startImage_spec 0 k e (Chip.logCount_of_measuredLike hlike ▸ hlog)
    rw [Chip.mr_of_measuredLike hlike] at hmr
    rw [Chip.logCount_of_measuredLike hlike] at hcount
    have hothers : ∀ d ∈ c.dies'.filter fun x => decide (x ≠ 0) && decide ((c.die x).steward = .off), d ≠ 0 := fun d hd => by
      have hd := (List.mem_filter.1 hd).2
      rw [Bool.and_eq_true, decide_eq_true_eq] at hd
      exact hd.1
    generalize (c.dies'.filter fun x => decide (x ≠ 0) && decide ((c.die x).steward = .off)) = l at hothers ⊢
    generalize c.startImage 0 k e = u at hsteward hready hmr hcount ⊢
    have hlike : u.measuredLike (u.sendImage ⟨k, e⟩ l) 0 := fun r _ _ => u.reg_sendImage ..
    show ((u.sendImage ⟨k, e⟩ l).die 0).steward = .running ∧ (u.sendImage ⟨k, e⟩ l).ready 0 STEWARD = true ∧
      (u.sendImage ⟨k, e⟩ l).mr 0 1 = _ ∧ (u.sendImage ⟨k, e⟩ l).logCount 0 = _
    rw [u.die_sendImage _ hothers, Chip.ready_congr (u.reg_sendImage ..), Chip.mr_of_measuredLike hlike,
      Chip.logCount_of_measuredLike hlike]
    exact ⟨hsteward, hready, hmr, hcount⟩
  · rw [if_neg hcheck]
    refine ⟨s.up_mem _, fun hyes => absurd hyes hcheck, fun _ hattempt => ?_⟩
    rw [State.up_chip, State.otherImages, if_neg hattempt]
    exact Chip.enterRecovery_spec _ 5

/-! ### A die other than die 0 (R85) -/

theorem State.imageVerify_copy {s : State} {d n : Nat} {x : ImageCopy} (hd : d ≠ 0) (hsteward : (s.chip.die d).steward = .booting n)
    (hcopy : (s.chip.die d).copy = some x) (good : Bool) : s.imageVerify d good =
      if s.copyResult d good x = 0 then s.up fun c => ((c.imageResult d x.kind 1).startImage d x.kind x.bytes).setCopy d none
      else s.up fun c =>
        if n = 0 then (((c.imageResult d x.kind (s.copyResult d good x)).setSteward d (.booting 1)).setStage d 8).setCopy d (some x)
        else (((c.imageResult d x.kind (s.copyResult d good x)).setSteward d .unbooted).setError d 8).setCopy d none := by
  unfold State.imageVerify
  dsimp only
  rw [if_neg hd, hsteward, hcopy]

theorem goodCopy (s : State) (d n : Nat) (x : ImageCopy) (hd : 0 < d) (hcount : d < dieCount s.chip.member)
    (hsteward : (s.chip.die d).steward = .booting n) (hcopy : (s.chip.die d).copy = some x) (hlog : s.chip.logCount d < 32)
    (hcheck : envCheck s.chip.member (s.chip.otpOf d) 1 x.bytes = 0) :
    ∃ t, exec (.imageVerify ⟨d, true⟩) s = .next t ∧ t.mem = s.mem ∧ (t.chip.die d).steward = .running ∧ t.chip.ready d STEWARD = true ∧
      t.chip.mr d 1 = shake256 32 (s.chip.mr d 1 ++ envDigest x.bytes) ∧ t.chip.logCount d = s.chip.logCount d + 1 := by
  have hresult : s.copyResult d true x = 0 := (if_pos (.inl rfl)).trans hcheck
  have hverify := State.imageVerify_copy hd.ne' hsteward hcopy true
  rw [if_pos hresult] at hverify
  refine ⟨_, (exec_imageVerify true hcount).trans (congrArg _ hverify), s.up_mem _, ?_⟩
  rw [State.up_chip]
  have hlike := s.chip.measured_imageResult d x.kind 1 d
  generalize s.chip.imageResult d x.kind 1 = c at hlike ⊢
  obtain ⟨hrunning, hready, hmr, hnext⟩ := c.startImage_spec d x.kind x.bytes (Chip.logCount_of_measuredLike hlike ▸ hlog)
  rw [Chip.mr_of_measuredLike hlike] at hmr
  rw [Chip.logCount_of_measuredLike hlike] at hnext
  generalize c.startImage d x.kind x.bytes = u at hrunning hready hmr hnext ⊢
  have hsame : u.measuredLike (u.setCopy d none) d := fun r _ _ => u.reg_setCopy ..
  refine ⟨?_, (Chip.ready_congr (u.reg_setCopy ..)).trans hready, (Chip.mr_of_measuredLike hsame).trans hmr,
    (Chip.logCount_of_measuredLike hsame).trans hnext⟩
  rw [Chip.die_setCopy, if_pos rfl]
  exact hrunning

/-- A first damaged copy is asked for again. -/
def Chip.askAgain (c : Chip) (d : Nat) (x : ImageCopy) : Chip := ((c.setSteward d (.booting 1)).setStage d 8).setCopy d (some x)

/-- A second one leaves the die without an image. -/
def Chip.giveUp (c : Chip) (d : Nat) : Chip := ((c.setSteward d .unbooted).setError d 8).setCopy d none

theorem Chip.askAgain_spec (c : Chip) (d : Nat) (x : ImageCopy) : c.measuredLike (c.askAgain d x) d ∧
    ((c.askAgain d x).die d).steward = .booting 1 ∧ ((c.askAgain d x).die d).copy = some x := by
  unfold Chip.askAgain
  refine ⟨fun r hr hr' => ?_, ?_, ?_⟩
  · have hq := quiet_measured hr hr'
    rw [reg_setCopy, reg_setStage_quiet _ d d hq, reg_put_apart _ d d (apart_of_page hq (by decide) (by decide) (by decide)), reg_setSteward]
  · rw [die_setCopy, if_pos rfl, die_congr (dies_setStage ..), die_setSteward, if_pos rfl]
  · rw [die_setCopy, if_pos rfl]

theorem Chip.giveUp_spec (c : Chip) (d : Nat) : c.measuredLike (c.giveUp d) d ∧ ((c.giveUp d).die d).steward = .unbooted ∧
    (c.giveUp d).get d SYS SYS.BOOT_STATUS 23 16 = 8 := by
  unfold Chip.giveUp
  refine ⟨fun r hr hr' => ?_, ?_, ?_⟩
  · have hq := quiet_measured hr hr'
    rw [reg_setCopy, reg_setError_quiet _ d d hq, reg_put_apart _ d d (apart_of_page hq (by decide) (by decide) (by decide)), reg_setSteward]
  · rw [die_setCopy, if_pos rfl, die_congr (dies_setError ..), die_setSteward, if_pos rfl]
  · rw [get_congr (reg_setCopy ..), error_setError]

theorem Chip.measuredLike_trans {c c' c'' : Chip} {d : Nat} (h : c.measuredLike c' d) (h' : c'.measuredLike c'' d) : c.measuredLike c'' d :=
  fun r hr hr' => (h' r hr hr').trans (h r hr hr')

theorem damagedCopy (s : State) (d n : Nat) (x : ImageCopy) (hd : 0 < d) (hcount : d < dieCount s.chip.member)
    (hsteward : (s.chip.die d).steward = .booting n) (hcopy : (s.chip.die d).copy = some x) :
    ∃ t, exec (.imageVerify ⟨d, false⟩) s = .next t ∧ t.mem = s.mem ∧ t.chip.mr d 1 = s.chip.mr d 1 ∧
      (n = 0 → (t.chip.die d).steward = .booting 1 ∧ (t.chip.die d).copy = some x) ∧
      (n ≠ 0 → (t.chip.die d).steward = .unbooted ∧ t.chip.get d SYS SYS.BOOT_STATUS 23 16 = 8) := by
  have hresult : s.copyResult d false x = 4 := if_neg (by simp [hd.ne'])
  have hverify := State.imageVerify_copy hd.ne' hsteward hcopy false
  rw [hresult, if_neg (by decide)] at hverify
  refine ⟨_, (exec_imageVerify false hcount).trans (congrArg _ hverify), s.up_mem _, ?_⟩
  rw [State.up_chip]
  have hlike := s.chip.measured_imageResult d x.kind 4 d
  generalize s.chip.imageResult d x.kind 4 = c at hlike ⊢
  by_cases hn : n = 0
  · rw [if_pos hn]
    obtain ⟨hsame, hagain⟩ := c.askAgain_spec d x
    exact ⟨Chip.mr_of_measuredLike (Chip.measuredLike_trans hlike hsame), fun _ => hagain, fun hno => absurd hn hno⟩
  · rw [if_neg hn]
    obtain ⟨hsame, hunbooted⟩ := c.giveUp_spec d
    exact ⟨Chip.mr_of_measuredLike (Chip.measuredLike_trans hlike hsame), fun hyes => absurd hyes hn, fun _ => hunbooted⟩

theorem bootImages : Claim.BootImages :=
  ⟨directoryIsRead, imageOfFlash, fun s d n x hd hcount hsteward hcopy hlog =>
    ⟨goodCopy s d n x hd hcount hsteward hcopy hlog, damagedCopy s d n x hd hcount hsteward hcopy⟩⟩

end Sys2Proof.Machine
end

section
/-! PROOFS. The board profile (O50; R90, R99, R401, R404): what applying it shows, and that the calibration record applied with it leaves
this. -/

namespace Sys2Proof.Machine

/-! ### How far boot has come, and what BOOT_STATUS of die 0 shows -/

/-- Where the package stands, with BOOT_STATUS of die 0. -/
def Chip.bootView (c : Chip) : Course × Word := (c.course, c.reg 0 SYS SYS.BOOT_STATUS)

section
variable (c : Chip) (d o : Nat) {p : Nat} (hp : p ≠ 0)
include hp

/-- BOOT_STATUS of die 0 lies below every page but SYS. -/
theorem Chip.bootView_setReg (w : Word) : (c.setReg d p o w).bootView = c.bootView := by
  have hne : ra 0 SYS SYS.BOOT_STATUS ≠ ra d p o := by
    have haddress : ra 0 SYS SYS.BOOT_STATUS = 0x060 := rfl
    rw [haddress]
    unfold ra
    omega
  unfold Chip.bootView
  rw [course_setReg, reg_setReg, if_neg hne]

theorem Chip.bootView_put (hi lo v : Nat) : (c.put d p o hi lo v).bootView = c.bootView := c.bootView_setReg d o hp _
theorem Chip.bootView_setNum (v : Nat) : (c.setNum d p o v).bootView = c.bootView := c.bootView_setReg d o hp _

end

theorem Chip.bootView_each {α : Type} (c : Chip) (l : List α) {f : Chip → α → Chip} (h : ∀ (c : Chip) x, (f c x).bootView = c.bootView) :
    (c.each l f).bootView = c.bootView := each_keeps Chip.bootView c l fun c x _ => h c x

/-! ### The calibration record (R401, R403, R404) -/

theorem memcPage_ne (ch : Nat) : memcPage ch ≠ 0 := by unfold memcPage; omega
theorem memphyPage_ne (ch : Nat) : memphyPage ch ≠ 0 := by unfold memphyPage; omega
theorem lanePage_ne (l : Nat) : lanePage l ≠ 0 := by unfold lanePage; split <;> omega

theorem Chip.bootView_mput (c : Chip) (d ch o hi lo v : Nat) : (c.mput d ch o hi lo v).bootView = c.bootView :=
  c.bootView_put d o (memcPage_ne ch) hi lo v

theorem Chip.bootView_ceiling (c : Chip) (d l v : Nat) : ((c.lput d l LANE.CEILING 10 8 v).noteCeiling d l).bootView = c.bootView := by
  unfold Chip.noteCeiling Chip.setDegraded Chip.lput
  rw [bootView_put _ _ _ (lanePage_ne l), bootView_put _ _ _ (lanePage_ne l)]

theorem Chip.bootView_applySection (c : Chip) (d : Nat) (x : List Byte) : (c.applySection d x).bootView = c.bootView := by
  have hcal : CAL ≠ 0 := by decide
  have hpwr : PWR ≠ 0 := by decide
  unfold Chip.applySection
  dsimp only
  rw [bootView_each _ _ fun c ch => bootView_each _ _ fun c o => c.bootView_setNum d _ (memphyPage_ne ch) _,
    bootView_each _ _ fun c l => c.bootView_ceiling d l _,
    bootView_each _ _ fun c l => (bootView_put _ d _ hcal 11 8 _).trans (c.bootView_put d _ hcal 4 0 _),
    bootView_each _ _ fun c ch => c.bootView_mput d ch MEMC.REFRESH 9 8 _, bootView_put _ _ _ hpwr, bootView_put _ _ _ hcal,
    bootView_each _ _ fun c k => c.bootView_put d _ hcal _ _ _]

/-- The factory trims of a die. -/
def Chip.factoryDie (c : Chip) (d : Nat) : Chip :=
  let c := c.each [0, 1] fun c j => c.setReg d CAL (CAL.TS_TRIM + 4 * j) (c.reg d CAL (CAL.TS_FACT + 4 * j))
  let c := (c.put d CAL CAL.VREF 1 0 (c.get d CAL CAL.VREF 5 4)).put d PWR PWR.AVS_OFFSET 5 0 0
  let c := c.each [0, 1] fun c ch => c.mput d ch MEMC.REFRESH 9 8 0
  let c := c.each (List.range 8) fun c l =>
    let w := c.reg d CAL (CAL.LANE_RX + 4 * l)
    (c.put d CAL (CAL.LANE_RX + 4 * l) 4 0 (bits w 20 16)).put d CAL (CAL.LANE_RX + 4 * l) 11 8 (bits w 27 24)
  c.each (List.range 24) fun c l => (c.lput d l LANE.CEILING 10 8 4).noteCeiling d l

theorem Chip.applyFactory_eq (c : Chip) (p : Profile) : c.applyFactory p = (c.each c.dies' Chip.factoryDie).each p.channels fun c x =>
    c.each x.delays fun c w => c.setReg x.die (memphyPage (fieldAt x.config 0 1)) w.1 w.2 := rfl

theorem Chip.bootView_factoryDie (c : Chip) (d : Nat) : (c.factoryDie d).bootView = c.bootView := by
  have hcal : CAL ≠ 0 := by decide
  unfold Chip.factoryDie
  dsimp only
  rw [bootView_each _ _ fun c l => c.bootView_ceiling d l 4,
    bootView_each _ _ fun c l => (bootView_put _ d _ hcal 11 8 _).trans (c.bootView_put d _ hcal 4 0 _),
    bootView_each _ _ fun c ch => c.bootView_mput d ch MEMC.REFRESH 9 8 0, bootView_put _ _ _ (by decide), bootView_put _ _ _ hcal,
    bootView_each _ _ fun c j => c.bootView_setReg d _ hcal _]

theorem Chip.bootView_applyFactory (c : Chip) (p : Profile) : (c.applyFactory p).bootView = c.bootView := by
  have hdelays : ∀ (c : Chip) (x : ProfileChannel),
      (c.each x.delays fun c w => c.setReg x.die (memphyPage (fieldAt x.config 0 1)) w.1 w.2).bootView = c.bootView := fun c x =>
    c.bootView_each x.delays fun c w => c.bootView_setReg x.die w.1 (memphyPage_ne (fieldAt x.config 0 1)) w.2
  rw [applyFactory_eq, bootView_each _ _ hdelays, bootView_each _ _ bootView_factoryDie]

/-- The calibration record shows itself in a bit of BOOT_STATUS that nothing else uses (R404). -/
theorem State.calApply_bootView (s : State) (p : Profile) : ∃ v, (s.calApply p).chip.course = s.chip.course ∧
    (s.calApply p).chip.reg 0 SYS SYS.BOOT_STATUS = setBits (s.chip.reg 0 SYS SYS.BOOT_STATUS) 27 27 v := by
  have hput : ∀ (c c' : Chip) v, c'.bootView = c.bootView → (c'.put 0 SYS SYS.BOOT_STATUS 27 27 v).course = c.course ∧
      (c'.put 0 SYS SYS.BOOT_STATUS 27 27 v).reg 0 SYS SYS.BOOT_STATUS = setBits (c.reg 0 SYS SYS.BOOT_STATUS) 27 27 v := by
    intro c c' v h
    obtain ⟨hcourse, hreg⟩ := Prod.mk.inj h
    rw [Chip.course_put, Chip.put_eq, Chip.reg_setReg_same, hreg]
    exact ⟨hcourse, rfl⟩
  unfold State.calApply
  split
  · exact ⟨1, hput _ _ 1 (Chip.bootView_each _ _ fun c d => c.bootView_applySection d _)⟩
  · exact ⟨0, hput _ _ 0 (s.chip.bootView_applyFactory p)⟩

/-! ### The profile (R90, R99) -/

/-- What boot shows once the profile has been applied: `old`, before BOOT_STATUS changes; `tables`, the panel tables are there. -/
def Chip.profileDone (old c : Chip) (tables : Bool) : Chip :=
  let c := if c.get 0 SYS SYS.BOOT_STATUS 23 16 = 6 then c.setError 0 0 else c
  let c := c.put 0 SYS SYS.BOOT_STATUS 24 24 1
  let c := (Chip.noteReady old c 0).setStage 0 6
  if tables then c else c.setError 0 7

theorem Chip.course_profileDone (old c : Chip) (tables : Bool) : (Chip.profileDone old c tables).course = c.course := by
  have herror : (if c.get 0 SYS SYS.BOOT_STATUS 23 16 = 6 then c.setError 0 0 else c).course = c.course := by
    split
    · exact c.course_setError 0 0
    · rfl
  unfold Chip.profileDone
  extract_lets c₁ c₂ c₃
  have hstage : c₃.course = c.course := by
    unfold c₃
    rw [course_setStage, course_of_touches (touches_noteReady ..)]
    exact (course_put ..).trans herror
  clear_value c₃
  split
  · exact hstage
  · rw [course_setError, hstage]

theorem Chip.applied_profileDone (old c : Chip) (tables : Bool) : (Chip.profileDone old c tables).get 0 SYS SYS.BOOT_STATUS 24 24 = 1 := by
  unfold Chip.profileDone
  extract_lets c₁ c₂ c₃
  have hstage : c₃.get 0 SYS SYS.BOOT_STATUS 24 24 = 1 := by
    unfold c₃
    rw [get_setStage_beside _ _ _ _ (by decide) (by decide), get_congr (reg_noteReady_quiet _ 0 0 (by decide) old)]
    exact get_put _ _ _ _ _ (by decide) (by decide)
  clear_value c₃
  split
  · exact hstage
  · rw [get_setError_beside _ _ _ _ (by decide) (.inr (by decide)), hstage]

theorem State.profileApply_valid {s : State} {p : Profile} (hboot : s.chip.boot = .profile) (hsteward : (s.chip.die 0).steward = .running)
    (hvalid : (s.profileSigned && profileOk s.chip.member (s.regionOf 5).isSome p) = true) :
    ∃ (u : State) (tables : Bool), s.profileApply p = (u.up fun c => Chip.profileDone (c.profileWrites p)
      ({ c.profileWrites p with boot := .idle, profile := some p } : Chip) tables).calApply p := by
  have hgo : ¬(s.chip.boot ≠ .profile ∨ (s.chip.die 0).steward ≠ .running) := fun h => h.elim (absurd hboot) (absurd hsteward)
  have hok : ¬(!s.profileSigned || !profileOk s.chip.member (s.regionOf 5).isSome p) = true := by
    rw [← Bool.not_and, hvalid]
    decide
  unfold State.profileApply
  dsimp only
  rw [if_neg hgo, if_neg hok]
  exact ⟨_, _, rfl⟩

theorem State.profileApply_refused {s : State} {p : Profile} (hboot : s.chip.boot = .profile) (hsteward : (s.chip.die 0).steward = .running)
    (hinvalid : (s.profileSigned && profileOk s.chip.member (s.regionOf 5).isSome p) = false) :
    s.profileApply p = s.up fun c => { c.setError 0 6 with boot := .idle } := by
  have hgo : ¬(s.chip.boot ≠ .profile ∨ (s.chip.die 0).steward ≠ .running) := fun h => h.elim (absurd hboot) (absurd hsteward)
  unfold State.profileApply
  dsimp only
  rw [if_neg hgo, if_pos (by rw [← Bool.not_and, hinvalid]; rfl)]

theorem exec_profileApply (s : State) (p : Profile) : exec (.profileApply p.toBoard p.outputs) s = .next (s.profileApply p) := rfl

theorem profileApplies : Claim.ProfileApplies := by
  constructor
  · intro s p hboot
    rw [exec_profileApply, State.profileApply, if_pos (.inl hboot)]
  · intro s p hboot hsteward valid
    have hflash := (Prod.mk.inj (s.flash_profileApply p)).1
    refine ⟨_, exec_profileApply s p, hflash, ?_⟩
    cases hv : valid with
    | true =>
      obtain ⟨u, tables, happly⟩ := State.profileApply_valid hboot hsteward hv
      obtain ⟨v, hcourse, hreg⟩ := (u.up fun c => Chip.profileDone (c.profileWrites p)
        ({ c.profileWrites p with boot := .idle, profile := some p } : Chip) tables).calApply_bootView p
      rw [State.up_chip, Chip.course_profileDone] at hcourse
      rw [State.up_chip] at hreg
      rw [happly]
      refine ⟨congrArg Course.boot hcourse, fun _ => ⟨congrArg Course.profile hcourse, ?_⟩, fun hno => absurd hno (by decide)⟩
      rw [Chip.get, hreg, bits_setBits_beside _ _ (by decide) (by decide) (.inl (by decide)), ← Chip.get, Chip.applied_profileDone]
    | false =>
      have hrefused := State.profileApply_refused hboot hsteward hv
      rw [hrefused]
      exact ⟨rfl, fun hno => absurd hno (by decide), fun _ => rfl⟩

/-- Settles O50: its first steps, its images, and the board profile. -/
theorem bootSequence : Obligations.BootSequence := ⟨bootSteps, bootImages, profileApplies⟩

end Sys2Proof.Machine
end

section
/-! PROOFS. Completions and their parts (O11; R113, R121). -/

namespace Sys2Proof.Machine

/-- One part of a completion: a part before the last is full, has MORE = 1 and carries no status (R113). -/
def completionPart (op : Nat) (tag : Byte) (die : Nat) (more : Bool) (status detail : Nat) (bs : List Byte) : Msg :=
  { event := false, opcode := op, tag := tag, urgent := false, more := more, die := die, status := status, aux := detail, payload := bs }

section
variable (op : Nat) (tag : Byte) (die status detail : Nat)

/-- What fits into one part is sent in one. -/
theorem completionParts_of_fits (fuel : Nat) {bs : List Byte} (h : bs.length ≤ 56) :
    completionParts fuel op tag die status detail bs = [completionPart op tag die false status detail bs] := by
  cases fuel with
  | zero => rfl
  | succ n => exact if_pos h

/-- What does not fit begins with a full part. -/
theorem completionParts_of_exceeds (fuel : Nat) {bs : List Byte} (h : 56 < bs.length) :
    completionParts (fuel + 1) op tag die status detail bs =
      completionPart op tag die true 0 0 (bs.take 56) :: completionParts fuel op tag die status detail (bs.drop 56) :=
  if_neg (Nat.not_le.2 h)

/-- The parts of a payload that the fuel suffices for. -/
theorem completionParts_spec (fuel : Nat) (bs : List Byte) (hfuel : bs.length ≤ fuel + 56) :
    let l := completionParts fuel op tag die status detail bs
    (l.flatMap fun m => m.payload) = bs ∧ (∀ m ∈ l, m.tag = tag ∧ m.event = false ∧ m.payload.length ≤ 56) ∧
      (∀ m ∈ l.dropLast, m.more = true ∧ m.status = 0 ∧ m.payload.length = 56) ∧
      ∃ m, l.getLast? = some m ∧ m.more = false ∧ m.status = status ∧ m.aux = detail := by
  induction fuel generalizing bs with
  | zero =>
    have hfits : bs.length ≤ 56 := by omega
    rw [completionParts_of_fits op tag die status detail 0 hfits]
    simp [completionPart, hfits]
  | succ n ih =>
    by_cases hfits : bs.length ≤ 56
    · rw [completionParts_of_fits op tag die status detail _ hfits]
      simp [completionPart, hfits]
    · have hlong := Nat.not_le.1 hfits
      rw [completionParts_of_exceeds op tag die status detail n hlong]
      obtain ⟨hpayload, hevery, hfull, last, hlast, hend⟩ := ih (bs.drop 56) (by rw [List.length_drop]; omega)
      have hne : completionParts n op tag die status detail (bs.drop 56) ≠ [] := fun h => by simp [h] at hlast
      have htake : (bs.take 56).length = 56 := List.length_take_of_le hlong.le
      dsimp only
      refine ⟨?_, ?_, ?_, last, ?_, hend⟩
      · rw [List.flatMap_cons, hpayload]; exact List.take_append_drop 56 bs
      · exact List.forall_mem_cons.2 ⟨⟨rfl, rfl, htake.le⟩, hevery⟩
      · rw [List.dropLast_cons_of_ne_nil hne]
        exact List.forall_mem_cons.2 ⟨⟨rfl, rfl, htake⟩, hfull⟩
      · rw [List.getLast?_cons, hlast]; rfl

end

theorem completionPartsCarry : Claim.CompletionParts := fun op tag die status detail payload =>
  completionParts_spec op tag die status detail payload.length payload (Nat.le_add_right _ _)

/-! ### What a completion changes (R113, R121) -/

/-- Messages put into a port's queue change that queue and nothing else. -/
theorem Chip.foldl_send_eq (p : Port) (l : List Msg) (c : Chip) :
    l.foldl (fun c m => c.send p m) c = { c with ports := (l.foldl (fun c m => c.send p m) c).ports } := by
  induction l generalizing c with
  | nil => rfl
  | cons m l ih => exact (ih (c.send p m)).trans rfl

theorem Chip.port_send (c : Chip) (p : Port) (m : Msg) : (c.send p m).port p = { c.port p with out := (c.port p).out ++ [m] } := by
  unfold Chip.send
  dsimp only
  rw [Chip.port_setPort, if_pos rfl]

theorem Chip.port_foldl_send (p : Port) (l : List Msg) (c : Chip) :
    (l.foldl (fun c m => c.send p m) c).port p = { c.port p with out := (c.port p).out ++ l } := by
  induction l generalizing c with
  | nil => rw [List.append_nil]; rfl
  | cons m l ih => rw [List.foldl_cons, ih, Chip.port_send, List.append_assoc]; rfl

section
variable (c : Chip) (r : Req) (st dt : Nat) (bs : List Byte)

/-- A command that is answered leaves the lists of commands, and its port's queue may grow. -/
theorem Chip.reply_eq : c.reply r st dt bs = { c with
    inflight := c.inflight.filter (fun x => x.id ≠ r.id), waiting := c.waiting.filter (fun x => x.id ≠ r.id),
    ports := (c.reply r st dt bs).ports } := by
  unfold Chip.reply
  dsimp only
  split
  · rfl
  · exact Chip.foldl_send_eq ..

theorem Chip.inflight_reply : (c.reply r st dt bs).inflight = c.inflight.filter (fun x => x.id ≠ r.id) :=
  congrArg Chip.inflight (c.reply_eq r st dt bs)
theorem Chip.waiting_reply : (c.reply r st dt bs).waiting = c.waiting.filter (fun x => x.id ≠ r.id) :=
  congrArg Chip.waiting (c.reply_eq r st dt bs)

theorem Chip.out_reply : ((c.reply r st dt bs).port r.port).out = (c.port r.port).out ++
    if r.orphan then [] else completionParts bs.length r.opcode r.tag r.die st dt bs := by
  unfold Chip.reply
  dsimp only
  split
  · exact (List.append_nil _).symm
  · exact congrArg PortSt.out (Chip.port_foldl_send ..)

theorem Chip.finish_of_answers (h : c.answers (portDie r.port) r.die = true) : c.finish r st dt bs = c.reply r st dt bs := if_pos h

theorem Chip.finish_eq : c.finish r st dt bs = { c with
    inflight := (c.finish r st dt bs).inflight, waiting := (c.finish r st dt bs).waiting, ports := (c.finish r st dt bs).ports } := by
  unfold Chip.finish
  split
  · rw [Chip.inflight_reply, Chip.waiting_reply]; exact c.reply_eq r st dt bs
  · rfl

end

theorem completionFrame : Claim.CompletionFrame := by
  intro s r status detail payload t
  refine ⟨rfl, rfl, s.chip.finish_eq r status detail payload, fun hans => ?_⟩
  have ht : t.chip = s.chip.reply r status detail payload := s.chip.finish_of_answers r status detail payload hans
  rw [ht]
  refine ⟨fun q hq => ?_, s.chip.out_reply r status detail payload⟩
  rw [Chip.inflight_reply] at hq
  exact of_decide_eq_true (List.mem_filter.1 hq).2

/-- Settles O11: the parts by induction on the payload's length, and what answering a command changes. -/
theorem completions : Obligations.Completions := ⟨completionPartsCarry, completionFrame⟩

end Sys2Proof.Machine
end

section
/-! PROOFS. Event bits, their records, and the ports' record queues (O12, O13; R117, R128 to R130, R152). -/

namespace Sys2Proof.Machine

/-! ### Setting bits (R152) -/

theorem Chip.num_setNum (c : Chip) (d p o : Nat) {v : Nat} (hv : v < 2 ^ 32) : (c.setNum d p o v).num d p o = v := by
  rw [Chip.num, Chip.setNum_eq, Chip.reg_setReg_same, BitVec.toNat_ofNat, Nat.mod_eq_of_lt hv]

theorem Chip.num_lt (c : Chip) (d p o : Nat) : c.num d p o < 2 ^ 32 := (c.reg d p o).isLt

/-- The enabled part of one bit that goes to 1. -/
theorem one_bit_enabled (en a : Nat) : 2 ^ a &&& en = if en.testBit a then 2 ^ a else 0 := by
  rw [Nat.two_pow_and]; cases en.testBit a <;> simp

/-- The enabled part of two bits that are both enabled. -/
theorem two_bits_enabled {en a b : Nat} (ha : en.testBit a = true) (hb : en.testBit b = true) :
    (2 ^ a ||| 2 ^ b) &&& en = 2 ^ a ||| 2 ^ b := by
  rw [Nat.and_or_distrib_right, one_bit_enabled, one_bit_enabled, if_pos ha, if_pos hb]

section
variable (c : Chip) (d p : Nat) {a b : Nat}

/-- A set of a bit at 1 counts as lost. -/
theorem Chip.setEvents_again (h : (c.num d p PAGE_EVENT).testBit a = true) : c.setEvents d p [a] = (c.count d p PAGE_EVENT_LOST, 0) := by
  simp [Chip.setEvents, h]

/-- A set of a bit at 0 makes it 1, and tells whether the bit is enabled. -/
theorem Chip.setEvents_new (h : (c.num d p PAGE_EVENT).testBit a = false) :
    c.setEvents d p [a] = (c.setNum d p PAGE_EVENT (c.num d p PAGE_EVENT ||| 2 ^ a), 2 ^ a &&& c.num d p PAGE_EVENT_EN) := by
  simp [Chip.setEvents, h]

/-- Sets of two bits at 0 make them 1, one after the other. -/
theorem Chip.setEvents_two (ha : a < 32) (hab : a ≠ b) (h : (c.num d p PAGE_EVENT).testBit a = false)
    (h' : (c.num d p PAGE_EVENT).testBit b = false) :
    c.setEvents d p [a, b] =
      ((c.setNum d p PAGE_EVENT (c.num d p PAGE_EVENT ||| 2 ^ a)).setNum d p PAGE_EVENT (c.num d p PAGE_EVENT ||| 2 ^ a ||| 2 ^ b),
        (2 ^ a ||| 2 ^ b) &&& c.num d p PAGE_EVENT_EN) := by
  have hword : (c.setNum d p PAGE_EVENT (c.num d p PAGE_EVENT ||| 2 ^ a)).num d p PAGE_EVENT = c.num d p PAGE_EVENT ||| 2 ^ a :=
    c.num_setNum d p _ (Nat.or_lt_two_pow (c.num_lt ..) (Nat.pow_lt_pow_right (by decide) ha))
  have hclear : (c.num d p PAGE_EVENT ||| 2 ^ a).testBit b = false := by
    rw [Nat.testBit_or, h', Nat.testBit_two_pow_of_ne hab]; rfl
  simp [Chip.setEvents, h, hword, hclear]

/-! ### Raising the record (R128) -/

variable {sets : List Nat} {c' : Chip} {en : Nat}

theorem Chip.events_silent (h : c.setEvents d p sets = (c', 0)) : c.events d p sets = c' := by simp [Chip.events, h]

theorem Chip.events_join (h : c.setEvents d p sets = (c', en)) (hen : en ≠ 0) (hnow : c'.raisedNow d p = true) :
    c.events d p sets = c'.joinRecord d p en := by
  simp [Chip.events, h, hen, hnow]

theorem Chip.events_raise (h : c.setEvents d p sets = (c', en)) (hen : en ≠ 0) (hnow : c'.raisedNow d p = false) :
    c.events d p sets = (c'.noteRaised d p).record d 0x02 false (leBytes 4 p ++ leBytes 4 en) := by
  simp [Chip.events, h, hen, hnow]

end

/-- Settles O12: what setting one bit, or two, does to PAGE_EVENT, and which record tells of it. -/
theorem eventBits : Obligations.EventBits := by
  intro c d p a b ha _ hab _ w en
  have hbit : 2 ^ a ≠ 0 := (Nat.two_pow_pos a).ne'
  have hboth : 2 ^ a ||| 2 ^ b ≠ 0 := fun h => hbit (Nat.or_eq_zero_iff.1 h).1
  have henabled : w.testBit a = false → en.testBit a = true →
      c.setEvents d p [a] = (c.setNum d p PAGE_EVENT (w ||| 2 ^ a), 2 ^ a) := fun hw hen =>
    (c.setEvents_new d p hw).trans (by rw [one_bit_enabled, if_pos hen])
  refine ⟨fun hw => ?again, fun hw hen => ?disabled, fun hw hen hnow => ?first, fun hw hen hnow => ?shared,
    fun hw hw' hen hen' hnow => ?together⟩
  case again => exact c.events_silent d p (c.setEvents_again d p hw)
  case disabled =>
    exact c.events_silent d p ((c.setEvents_new d p hw).trans (by rw [one_bit_enabled, if_neg (ne_true_of_eq_false hen)]))
  case first => exact c.events_raise d p (henabled hw hen) hbit hnow
  case shared => exact c.events_join d p (henabled hw hen) hbit hnow
  case together =>
    exact c.events_raise d p ((c.setEvents_two d p ha hab hw hw').trans (by rw [two_bits_enabled hen hen'])) hboth hnow

/-! ### The ports' record queues (R117, R130) -/

theorem recordQueue : Claim.RecordQueue := by
  intro c p d code urgent payload x n
  refine ⟨fun hfull => if_pos hfull, fun hroom => ?_⟩
  have hqueued : c.queueRecord p d code urgent payload =
      (c.setPort p { x with
        out := x.out ++ [{ event := true, opcode := code, tag := BitVec.ofNat 8 x.evSeq, urgent := urgent, more := false, die := d,
                           status := 0, aux := min 0xFFFF x.lost, payload := payload, at_ := c.now }],
        lost := 0, evSeq := (x.evSeq + 1) % 256 }, false) := if_neg (Nat.not_le.2 hroom)
  rw [hqueued, Chip.port_setPort, if_pos rfl]
  exact ⟨rfl, rfl, rfl⟩

/-- Settles O13: what an event bit with its record touches, and a record that meets a full queue. -/
theorem eventRecords : Obligations.EventRecords := ⟨fun c d p sets => c.touches_events d p sets, recordQueue⟩

end Sys2Proof.Machine
end

section
/-! PROOFS. LOG_READ, SIGNATURE_READ, ABORT and time limits (O59; R116, R123, R126, R297, R442, R456, R458). -/

namespace Sys2Proof.Machine

/-! ### Words that the engine reads (R381) -/

section
variable {s : State} (hbad : s.chip.badWords = []) (hfix : s.chip.fixups = [])
include hbad hfix

theorem Chip.checkWord_clean (d a : Nat) : s.chip.checkWord d a .none = (s.chip, true) := by
  simp [Chip.checkWord, hbad, hfix]

/-- While every word's check bits are right, reading words changes nothing. -/
theorem State.engineRead_clean (d a n : Nat) : s.engineRead d a n = (s, (wordAddrs a n).map s.mem.word) := by
  have hround : ∀ (l : List Nat) (ws : List Word), l.foldl (fun (x : State × List Word) b =>
      let r := x.1.chip.checkWord d b .none
      let s := x.1.up fun _ => r.1
      if r.2 then (s, x.2 ++ [s.mem.word b])
      else ((s.latch d BASKET 2).up Chip.tick, x.2 ++ [Config.freeWord s.chip.fresh])) (s, ws) = (s, ws ++ l.map s.mem.word) := by
    intro l
    induction l with
    | nil => intro ws; rw [List.map_nil, List.append_nil]; rfl
    | cons b l ih =>
      intro ws
      rw [List.foldl_cons, List.map_cons, ← List.singleton_append, ← List.append_assoc, ← ih]
      simp only [Chip.checkWord_clean hbad hfix]
      rfl
  exact hround (wordAddrs a n) []

/-- So does reading several runs of words. -/
theorem State.foldl_engineRead_clean (d m : Nat) (at_ : Nat → Nat) (l : List Nat) (ws : List Word) :
    l.foldl (fun (x : State × List Word) k => let y := x.1.engineRead d (at_ k) m; (y.1, x.2 ++ y.2)) (s, ws) =
      (s, ws ++ l.flatMap fun k => (wordAddrs (at_ k) m).map s.mem.word) := by
  induction l generalizing ws with
  | nil => rw [List.flatMap_nil, List.append_nil]; rfl
  | cons k l ih =>
    rw [List.foldl_cons, List.flatMap_cons, ← List.append_assoc, ← ih]
    simp only [State.engineRead_clean hbad hfix]

end

/-- The bytes of words that are read in ascending order. -/
theorem wordBytes_map_wordAddrs (m : Mem) (a n : Nat) :
    wordBytes ((wordAddrs a n).map m.word) = (List.range n).flatMap fun j => leBytes 4 (m.word (a + 4 * j)).toNat := by
  simp [wordBytes, wordAddrs, List.flatMap_map]

theorem wordBytes_flatMap {α : Type} (l : List α) (f : α → List Word) : wordBytes (l.flatMap f) = l.flatMap fun x => wordBytes (f x) :=
  List.flatMap_assoc

/-! ### LOG_READ (R456, R458) -/

/-- Every entry asked for is held. -/
theorem Chip.all_logHeld_iff (c : Chip) (d i n : Nat) : (List.range n).all (fun k => c.logHeld d (i + k)) = true ↔
    ∀ k < n, i + k < c.num d FAULT FAULT.LOG_HEAD ∧ c.num d FAULT FAULT.LOG_HEAD ≤ i + k + 12288 := by
  simp [Chip.logHeld]

theorem State.logRead_missing {s : State} (r : Req) {i n : Nat} (h : ¬(List.range n).all (fun k => s.chip.logHeld r.die (i + k)) = true) :
    s.logRead r i n = s.finish r FAIL 1 [] := if_neg h

theorem State.logRead_held {s : State} (r : Req) {i n : Nat} (h : (List.range n).all (fun k => s.chip.logHeld r.die (i + k)) = true)
    (hbad : s.chip.badWords = []) (hfix : s.chip.fixups = []) :
    s.logRead r i n = s.finish r OK 0 ((List.range n).flatMap fun k => (List.range 4).flatMap fun j =>
      leBytes 4 (s.mem.word (basketAddr r.die 1 (0x10000 + 16 * ((i + k) % 12288)) + 4 * j)).toNat) := by
  unfold State.logRead
  rw [if_pos h, State.foldl_engineRead_clean hbad hfix r.die 4 (fun k => basketAddr r.die 1 (0x10000 + 16 * ((i + k) % 12288)))]
  simp only [List.nil_append, wordBytes_flatMap, wordBytes_map_wordAddrs]

theorem State.run_logRead (s : State) {r : Req} {i : Word} {n : Nat} (hr : r.cmd = .logRead i n) : s.run r = s.logRead r i.toNat n := by
  unfold State.run; rw [hr]

theorem logReadReturns : Claim.LogRead := by
  intro s h i n ha held
  have hnum : (s.starts h (.logRead i n)).chip.num h.die FAULT FAULT.LOG_HEAD = s.chip.num h.die FAULT FAULT.LOG_HEAD := rfl
  have hheld := (s.starts h (.logRead i n)).chip.all_logHeld_iff h.die i.toNat n
  rw [hnum] at hheld
  rw [exec_admitted rfl ha, State.run_logRead _ rfl]
  refine ⟨fun hno => ?missing, fun hyes hbad hfix => ?held⟩
  case missing => exact congrArg _ (State.logRead_missing _ fun hall => hno (hheld.1 hall))
  case held => exact congrArg _ (State.logRead_held _ (hheld.2 hyes) hbad hfix)

/-! ### SIGNATURE_READ (R297, R442) -/

theorem State.run_signatureRead (s : State) {r : Req} {o what : Nat} (hr : r.cmd = .signatureRead o what) :
    s.run r = s.up fun c => c.signatureRead r o what := by
  unfold State.run; rw [hr]

section
variable (t : State) (r : Req) (o : Nat) {what : Nat}

/-- The latest signature, with the frame that it is of. -/
theorem State.signatureRead_scan (h : what ≠ 1) : (t.up fun c => c.signatureRead r o what) =
    t.finish r OK 0 (leBytes 4 (t.chip.num o SCAN SCAN.SIG_FRAME) ++ leBytes 4 (t.chip.num o SCAN SCAN.SIGNATURE)) :=
  State.up_congr (if_neg h)

/-- The digest of the identity, which has to be READY. -/
theorem State.signatureRead_identity (h : what = 1) : (t.up fun c => c.signatureRead r o what) =
    if t.chip.ready 0 SEC = true then t.finish r OK 0 t.chip.idDigest else t.done r BUSY := by
  split
  · next hready => exact State.up_congr ((if_pos h).trans (if_pos hready))
  · next hbusy => exact State.up_congr (g := fun c => c.done r BUSY) ((if_pos h).trans (if_neg hbusy))

end

theorem signatureReadReturns : Claim.SignatureRead := by
  intro s h o what ha
  have hready : (s.starts h (.signatureRead o what)).chip.ready 0 SEC = s.chip.ready 0 SEC := rfl
  rw [exec_admitted rfl ha, State.run_signatureRead _ rfl]
  refine ⟨fun hw => ?scan, fun hw hsec => ?digest, fun hw hsec => ?busy⟩
  case scan => exact congrArg _ (State.signatureRead_scan _ _ _ hw)
  case digest => exact congrArg _ ((State.signatureRead_identity _ _ _ hw).trans (if_pos (hready.trans hsec)))
  case busy => exact congrArg _ ((State.signatureRead_identity _ _ _ hw).trans (if_neg (ne_true_of_eq_false (hready.trans hsec))))

/-! ### ABORT (R126) -/

theorem State.run_abort (s : State) {r : Req} {scope tag : Nat} (hr : r.cmd = .abort scope tag) :
    s.run r = s.up fun c => c.abort r scope tag := by
  unfold State.run; rw [hr]

theorem abortCommand : Claim.AbortCommand := by
  refine ⟨fun s h scope tag ha => ?_, fun c r hr => ?_⟩
  · rw [exec_admitted rfl ha, State.run_abort _ rfl]
    exact congrArg _ (State.up_congr rfl)
  · obtain ⟨a, n, h⟩ | ⟨a, ws, h⟩ | ⟨x, y, h⟩ := hr <;> simp [Chip.abortable, h]

/-! ### Time limits (R116, R123) -/

/-- A region whose content becomes unspecified. -/
theorem Mem.mem_spoilFlash (m : Mem) (a n b : Nat) : b ∈ (m.spoilFlash a n).flashOpen ↔ b ∈ m.flashOpen ∨ (a ≤ b ∧ b < a + n) := by
  have hrange : b ∈ (List.range n).map (fun i => a + i) ↔ a ≤ b ∧ b < a + n := by
    rw [List.mem_map]
    exact ⟨fun ⟨i, hi, hb⟩ => by have := List.mem_range.1 hi; omega, fun ⟨hle, hlt⟩ => ⟨b - a, List.mem_range.2 (by omega), by omega⟩⟩
  rw [Mem.spoilFlash, List.mem_append, hrange, List.mem_filter, Bool.not_eq_true', decide_eq_false_iff_not]
  tauto

/-- No command of the tag is late. -/
theorem State.timeLimit_in_time {s : State} {p : Port} {tag : Byte}
    (h : ∀ r ∈ s.chip.inflight ++ s.chip.waiting, r.port = p → r.tag = tag → s.chip.overdue r = false) : s.timeLimit p tag = s := by
  unfold State.timeLimit
  dsimp only
  rw [List.find?_eq_none.2 fun r hr hlate => ?_]
  simp only [Bool.and_eq_true, decide_eq_true_eq] at hlate
  obtain ⟨⟨⟨hport, htag⟩, hover⟩, -⟩ := hlate
  rw [h r hr hport htag] at hover
  exact absurd hover (by decide)

/-- The one command of the tag is late. -/
theorem State.timeLimit_late {s : State} {p : Port} {tag : Byte} {r : Req}
    (hone : (s.chip.inflight ++ s.chip.waiting).filter (fun q => decide (q.port = p) && decide (q.tag = tag)) = [r])
    (hover : s.chip.overdue r = true) (hlasts : lasts r = false) (hbcast : s.chip.bcast = none) :
    s.timeLimit p tag = (s.up fun c => c.reply r TIMEOUT 0 []).timedOut r := by
  have hfind : (s.chip.inflight ++ s.chip.waiting).find?
      (fun q => decide (q.port = p) && decide (q.tag = tag) && s.chip.overdue q && !lasts q) = some r := by
    have hlate : (fun q => decide (q.port = p) && decide (q.tag = tag) && s.chip.overdue q && !lasts q) =
        fun q => (s.chip.overdue q && !lasts q) && (decide (q.port = p) && decide (q.tag = tag)) :=
      funext fun q => by rw [Bool.and_assoc, Bool.and_comm]
    rw [hlate, ← List.head?_filter, ← List.filter_filter, hone]
    simp [hover, hlasts]
  unfold State.timeLimit
  dsimp only
  rw [hfind]
  simp [hbcast]

theorem timeLimits : Claim.TimeLimits := by
  refine ⟨fun s p tag hp hin => ?inTime, fun s p tag r hp hone hover hbcast => ⟨fun hst => ?idle, fun hst a ds hcmd => ?flash⟩⟩
  case inTime => exact (if_pos hp).trans (congrArg _ (State.timeLimit_in_time hin))
  case idle =>
    have hlasts : lasts r = false := by unfold lasts; split <;> simp [hst]
    refine (if_pos hp).trans (congrArg _ ((State.timeLimit_late hone hover hlasts hbcast).trans ?_))
    exact if_pos (by simp [hst])
  case flash =>
    have hlasts : lasts r = false := by unfold lasts; rw [hcmd]
    have hspoil : ∀ t : State, t.timedOut r = t.mapMem fun m => m.spoilFlash
        (if ds = [] then a.toNat else a.toNat / 256 * 256) (if ds = [] then 4096 else 256) := by
      intro t
      unfold State.timedOut
      rw [if_neg (by simp [hst]), hcmd]
      dsimp only
      unfold State.spoilWrite
      rw [hcmd]
      exact if_pos hst
    refine ⟨_, (if_pos hp).trans (congrArg _ ((State.timeLimit_late hone hover hlasts hbcast).trans (hspoil _))), rfl, rfl, rfl,
      fun b => (Mem.mem_spoilFlash ..).trans (or_congr_right ?_)⟩
    by_cases hds : ds = [] <;> simp only [hds, if_true, if_false]

/-- Settles O59: what the log and the signatures answer, which commands an ABORT ends, and what a late command leaves. -/
theorem readsAndAborts : Obligations.ReadsAndAborts := ⟨logReadReturns, signatureReadReturns, abortCommand, timeLimits⟩

end Sys2Proof.Machine
end

section
/-! PROOFS. The transports of the ports (O60; R111, R113, R118 to R120, R122, R387, R388, R482). -/

namespace Sys2Proof.Machine

/-! ### Delivery (R111, R113) -/

/-- What a port holds once its oldest message has been delivered. -/
def PortSt.afterDelivery (x : PortSt) (m : Msg) (rest : List Msg) : PortSt :=
  { x with out := rest, tags := if m.event || m.more then x.tags else x.tags.filter fun t => t ≠ m.tag }

section
variable (c : Chip) {p : Port}

theorem Chip.delivered_nil (h : (c.port p).out = []) : c.delivered p = c := by
  unfold Chip.delivered; dsimp only; rw [h]

theorem Chip.delivered_cons {m : Msg} {rest : List Msg} (h : (c.port p).out = m :: rest) :
    c.delivered p = c.setPort p ((c.port p).afterDelivery m rest) := by
  unfold Chip.delivered; dsimp only; rw [h]; rfl

theorem Chip.port_delivered {m : Msg} {rest : List Msg} (h : (c.port p).out = m :: rest) :
    (c.delivered p).port p = (c.port p).afterDelivery m rest := by
  rw [c.delivered_cons h, Chip.port_setPort, if_pos rfl]

theorem Chip.regs_delivered : (c.delivered p).regs = c.regs := by
  unfold Chip.delivered
  dsimp only
  split <;> rfl

end

theorem completionDelivery : Claim.CompletionDelivery := by
  intro s p tag hp hpow x
  have hexec : exec (.completionDelivered p tag) s = .next (s.up fun c => c.completionDelivered p tag) := if_pos hp
  rw [hexec]
  refine ⟨fun hout => ?empty, fun m rest hout => ⟨fun hother => ?stays, fun hev hmore htag hready => ?leaves⟩⟩
  case empty =>
    refine congrArg _ (State.up_congr (g := id) ?_)
    unfold Chip.completionDelivered
    dsimp only
    rw [hout]; rfl
  case stays =>
    refine congrArg _ (State.up_congr (g := id) ?_)
    unfold Chip.completionDelivered
    dsimp only
    rw [hout]
    exact if_pos hother
  case leaves =>
    have hlast : ¬(m.event = true ∨ m.more = true ∨ m.tag ≠ tag) := by simp [hev, hmore, htag]
    have hport := s.chip.port_delivered hout
    have htags : ((s.chip.port p).afterDelivery m rest).tags = x.tags.filter fun y => y ≠ tag := by
      simp [PortSt.afterDelivery, hev, hmore, htag, x]
    refine ⟨_, rfl, rfl, ?_⟩
    rw [State.up_chip]
    unfold Chip.completionDelivered
    dsimp only
    rw [hout]
    dsimp only
    rw [if_neg hlast]
    cases p with
    | inband d f =>
      dsimp only
      rw [if_pos (hready d f rfl), Chip.port_setPort, if_pos rfl, hport]
      exact ⟨s.chip.regs_delivered, rfl, htags⟩
    | service | test | steward =>
      dsimp only
      rw [if_neg (by simp [hpow]), hport]
      exact ⟨s.chip.regs_delivered, rfl, htags⟩

/-! ### The service port (R118, R119) -/

/-- What the device sends: the bytes of a message, and zeros after its end. -/
theorem range_map_getD (bs : List Byte) (n : Nat) :
    (List.range n).map (fun i => bs.getD i 0) = (bs ++ List.replicate (n - bs.length) 0).take n := by
  refine List.ext_getElem ?_ fun i hi _ => ?_
  · simp; omega
  · have hi : i < n := by simpa using hi
    rw [List.getElem_map, List.getElem_range, List.getElem_take, List.getD_eq_getElem?_getD]
    by_cases hlt : i < bs.length
    · rw [List.getElem_append_left hlt, List.getElem?_eq_getElem hlt]; rfl
    · rw [List.getElem_append_right (Nat.not_lt.1 hlt), List.getElem_replicate, List.getElem?_eq_none (Nat.not_lt.1 hlt)]; rfl

section
variable {c : Chip} (hpow : c.power = .running)
include hpow

theorem Chip.hears_service_of_running : c.hears .service = true := by simp [Chip.hears, hpow]

/-- A read with no message queued: zeros. -/
theorem Chip.msgRead_empty (n : Nat) (h : (c.port .service).out = []) :
    c.msgRead n = { c with svcOut := (([] : List Byte) ++ List.replicate (n - 0) 0).take n } := by
  unfold Chip.msgRead
  rw [Chip.hears_service_of_running hpow, h, if_neg (by decide)]
  dsimp only [List.head?_nil, Option.map_none, Option.getD_none]
  rw [range_map_getD]
  exact (if_pos (Nat.zero_le n)).trans (Chip.delivered_nil _ h)

/-- A read that ends before the oldest message does leaves it in the queue; one that does not delivers it. -/
theorem Chip.msgRead_message (n : Nat) {m : Msg} {rest : List Msg} (h : (c.port .service).out = m :: rest) :
    let sent : Chip := { c with svcOut := (m.bytes ++ List.replicate (n - m.bytes.length) 0).take n }
    c.msgRead n = if m.bytes.length ≤ n then sent.setPort .service ((c.port .service).afterDelivery m rest) else sent := by
  intro sent
  unfold Chip.msgRead
  rw [Chip.hears_service_of_running hpow, h, if_neg (by decide)]
  dsimp only [List.head?_cons, Option.map_some, Option.getD_some]
  rw [range_map_getD, Chip.delivered_cons (c := sent) h]
  rfl

end

theorem servicePort : Claim.ServicePort := by
  refine ⟨fun s bs hpow => ?write, ?read, fun s hpow => ?status⟩
  case write =>
    have hhears : ¬(!s.chip.hears .service) = true := by simp [Chip.hears_service_of_running hpow]
    refine ⟨fun hlen heq => congrArg _ ((if_neg hhears).trans (if_pos ⟨hlen, heq⟩)), fun hbad => congrArg Host.Outcome.next ?_⟩
    refine ((if_neg hhears).trans (if_neg fun hgood => ?_)).trans (s.up_discarded_awake .service 2 (by simp [hpow]))
    exact hbad.elim (fun hshort => absurd hgood.1 (Nat.not_le.2 hshort)) (absurd hgood.2)
  case read =>
    intro s n hpow x sent
    refine ⟨fun hout => ?_, fun m rest hout => ⟨fun hshort => ?_, fun hlong => ?_⟩⟩
    · exact congrArg _ (State.up_congr (Chip.msgRead_empty hpow n hout))
    · exact congrArg _ (State.up_congr ((Chip.msgRead_message hpow n hout).trans (if_neg (Nat.not_le.2 hshort))))
    · exact congrArg _ (State.up_congr ((Chip.msgRead_message hpow n hout).trans (if_pos hlong)))
  case status => exact congrArg Host.Outcome.next (State.up_congr (if_pos (Chip.hears_service_of_running hpow)))

/-! ### The test port (R120, R482) -/

theorem Chip.jtagActs_msgIo {c : Chip} (h : c.jtagIr = 0x20) : c.jtagActs = 0x20 := by simp [Chip.jtagActs, h]

/-- No other code acts as MSG_IO. -/
theorem Chip.jtagActs_ne_msgIo {c : Chip} (h : c.jtagIr ≠ 0x20) : c.jtagActs ≠ 0x20 := by
  unfold Chip.jtagActs
  dsimp only
  split_ifs
  · decide
  · exact h
  · exact h
  · decide

/-- The data register and CREDIT as Capture-DR finds them. -/
def Chip.captured (c : Chip) (dr : List Byte × Bool) : Chip :=
  { c with jtagDr := dr, jtagCredit := c.hears .test && decide ((c.port .test).tags = []) }

section
variable {c : Chip} (hir : c.jtagIr = 0x20)
include hir

theorem Chip.msgIoCapture_empty (h : (c.port .test).out = []) : c.msgIoCapture = c.captured ([], false) := by
  unfold Chip.msgIoCapture
  dsimp only
  rw [if_neg (not_not_intro (Chip.jtagActs_msgIo hir)), h]
  exact Chip.delivered_nil (c.captured ([], false)) h

/-- The oldest message is captured, and counts as delivered. -/
theorem Chip.msgIoCapture_message {m : Msg} {rest : List Msg} (h : (c.port .test).out = m :: rest) :
    c.msgIoCapture = (c.captured (m.bytes, true)).setPort .test ((c.port .test).afterDelivery m rest) := by
  unfold Chip.msgIoCapture
  dsimp only
  rw [if_neg (not_not_intro (Chip.jtagActs_msgIo hir)), h]
  exact Chip.delivered_cons (c.captured (m.bytes, true)) h

end

theorem testPort : Claim.TestPort := by
  refine ⟨fun s x hx => ?codes, fun s => ?idcode, fun s code => rfl, ?capture, fun s bs hir => ?update,
    fun s bs hir => ?beside⟩
  case codes =>
    simp only [List.mem_cons, List.not_mem_nil, or_false] at hx
    obtain rfl | rfl | rfl | rfl | rfl | rfl | rfl | rfl := hx <;> rfl
  case idcode =>
    have hacts : (s.chip.setIr 0x01).jtagActs = 0x01 := by simp [Chip.jtagActs, Chip.setIr]
    refine ⟨_, rfl, (if_pos hacts).trans ?_⟩
    rw [State.up_chip, Chip.setIr_member]
    cases s.chip.member <;> rfl
  case capture =>
    intro s hir x
    refine ⟨fun hout => congrArg _ (State.up_congr (Chip.msgIoCapture_empty hir hout)), fun m rest hout => ⟨_, rfl, rfl, ?_⟩⟩
    rw [State.up_chip, Chip.msgIoCapture_message hir hout, Chip.port_setPort, if_pos rfl]
    exact ⟨rfl, rfl, rfl⟩
  case update =>
    have hacts := Chip.jtagActs_msgIo hir
    refine ⟨fun hcredit hkind => congrArg _ (if_pos ⟨hacts, hcredit, hkind⟩), fun hbad => congrArg _ (if_neg fun hgood => ?_)⟩
    obtain ⟨-, hcredit, hkind⟩ := hgood
    exact hbad.elim (fun hno => absurd hcredit (ne_true_of_eq_false hno)) (absurd hkind)
  case beside =>
    have hacts := Chip.jtagActs_ne_msgIo hir
    exact ⟨congrArg Host.Outcome.next (State.up_congr (g := id) (if_pos hacts)), congrArg _ (if_neg fun hgood => hacts hgood.1)⟩

/-! ### The steward's mailbox (R122, R387, R388) -/

/-- Writing bytes into the baskets leaves the ports and the registers as they were. -/
theorem State.setBytes_frame (s : State) (a : Nat) (bs : List Byte) :
    (s.setBytes a bs).chip.ports = s.chip.ports ∧ (s.setBytes a bs).chip.regs = s.chip.regs :=
  Prod.mk.inj (Chip.each_keeps (fun c => (c.ports, c.regs)) s.chip _ (f := fun c i => c.wordWritten (a + 4 * i)) fun _ _ _ => rfl)

/-- A message goes into the slot of a ring, and the ring's head moves on (R388). -/
def State.pushMessage (s : State) (d : Nat) (head : Word) (m : Msg) : State :=
  ((s.setBytes (basketAddr d 1 (0x1000 + 64 * (head.toNat % 128))) m.bytes).setWord (basketAddr d 1 0) (head + 1#32))

theorem State.pushMessage_spec (s : State) (d : Nat) (head : Word) (m : Msg) :
    (s.pushMessage d head m).mem.flash = s.mem.flash ∧ (s.pushMessage d head m).mem.dram = s.mem.dram ∧
      (s.pushMessage d head m).mem.word (basketAddr d 1 0) = head + 1#32 ∧
      (s.pushMessage d head m).chip.ports = s.chip.ports ∧ (s.pushMessage d head m).chip.regs = s.chip.regs := by
  have hmem := Mem.setBasketBytes_others s.mem (basketAddr d 1 (0x1000 + 64 * (head.toNat % 128))) m.bytes
  obtain ⟨hports, hregs⟩ := s.setBytes_frame (basketAddr d 1 (0x1000 + 64 * (head.toNat % 128))) m.bytes
  exact ⟨hmem.1, hmem.2, (Mem.word_setWord ..).trans (if_pos rfl), hports, hregs⟩

section
variable {s : State} {d : Nat} (hbad : s.chip.badWords = []) (hfix : s.chip.fixups = [])
include hbad hfix

/-- The engine finds B0's ring empty, or takes the message at TAIL and moves TAIL on. -/
theorem State.mailboxTake_clean (hruns : s.chip.stewardRuns d = true) : s.mailboxTake d =
    let tail := s.mem.word (basketAddr d 0 4)
    if s.mem.word (basketAddr d 0 0) = tail then s
    else (s.setWord (basketAddr d 0 4) (tail + 1#32)).accept (readMessage (.steward d)
      (wordBytes ((wordAddrs (basketAddr d 0 (0x1000 + 64 * (tail.toNat % 64))) 16).map s.mem.word))) := by
  unfold State.mailboxTake
  rw [if_neg (by simp [hruns])]
  simp only [State.engineRead_clean hbad hfix]
  rfl

/-- The engine writes its oldest message into B1's ring, unless the ring is full. -/
theorem State.mailboxOut_clean (hruns : s.chip.dieRuns d = true) {m : Msg} {rest : List Msg}
    (h : (s.chip.port (.steward d)).out = m :: rest) : s.mailboxOut d =
    let head := s.mem.word (basketAddr d 1 0)
    if (head - s.mem.word (basketAddr d 1 4)).toNat = 128 then s
    else (s.pushMessage d head m).up fun c => c.delivered (.steward d) := by
  unfold State.mailboxOut
  rw [if_neg (by simp [hruns]), h]
  simp only [State.engineRead_clean hbad hfix]
  rfl

end

theorem State.mailboxOut_empty {s : State} {d : Nat} (h : (s.chip.port (.steward d)).out = []) : s.mailboxOut d = s := by
  unfold State.mailboxOut
  split
  · rfl
  · rw [h]

theorem stewardMailbox : Claim.StewardMailbox := by
  refine ⟨?take, ?out⟩
  case take =>
    intro s d hd hruns hbad hfix head tail slot
    have hexec : exec (.mailboxCmdTake d) s = .next (s.mailboxTake d) := if_pos hd
    rw [hexec, State.mailboxTake_clean hbad hfix hruns]
    refine ⟨fun hempty => congrArg _ (if_pos hempty), fun hany => congrArg _ ((if_neg hany).trans ?_)⟩
    rw [wordBytes_map_wordAddrs]
  case out =>
    intro s d hd hruns hbad hfix head x
    have hexec : exec (.mailboxOutWrite d) s = .next (s.mailboxOut d) := if_pos hd
    rw [hexec]
    refine ⟨fun hout => congrArg _ (State.mailboxOut_empty hout), fun hfull => congrArg _ ?_, fun m rest hout hroom => ?_⟩
    · cases hout : x.out with
      | nil => exact State.mailboxOut_empty hout
      | cons m rest => exact (State.mailboxOut_clean hbad hfix hruns hout).trans (if_pos hfull)
    · obtain ⟨hflash, hdram, hhead, hports, hregs⟩ := s.pushMessage_spec d head m
      have hqueue : ((s.pushMessage d head m).chip.port (.steward d)).out = m :: rest := by
        unfold Chip.port; rw [hports]; exact hout
      refine ⟨_, congrArg _ ((State.mailboxOut_clean hbad hfix hruns hout).trans (if_neg hroom)), hflash, hdram, hhead, ?_, ?_⟩
      · exact congrArg PortSt.out (Chip.port_delivered _ hqueue)
      · exact (Chip.regs_delivered _).trans hregs

/-- Settles O60: each transport takes and gives the messages that its rule says, and the oldest one first. -/
theorem transports : Obligations.Transports := ⟨servicePort, testPort, completionDelivery, stewardMailbox⟩

end Sys2Proof.Machine
end

section
/-! PROOFS. What the operations on a lane change of it, of other lanes and of the commands in flight (R171, R190, R191, R195, R197). -/

namespace Sys2Proof.Machine

/-! ### Pages of lanes (R155) -/

theorem lanePage_inj {l m : Nat} : lanePage l = lanePage m ↔ l = m := by unfold lanePage; split_ifs <;> omega

theorem lanePage_ne_blocks {l : Nat} (hl : l < 24) : lanePage l ≠ SLINK ∧ lanePage l ≠ DLINK ∧ lanePage l ≠ CLK := by
  unfold lanePage SLINK DLINK CLK; split_ifs <;> omega

/-- A register of a lane's page is no event register, but for the two of the page itself. -/
theorem quiet_lanePage {l r : Nat} (hl : l < 24) (hr : r < 0x1000) (hev : r ≠ PAGE_EVENT) (hlost : r ≠ PAGE_EVENT_LOST) :
    quiet (lanePage l) r = true := by
  have hports : lanePage l ≠ PORT_SVC ∧ lanePage l ≠ PORT_INB := by unfold lanePage PORT_SVC PORT_INB; split_ifs <;> omega
  simp [quiet, lanePage_lt hl, hr, hports, hev, hlost]

/-! ### Registers that the state of a lane stands in (R190) -/

/-- Registers of a lane's page that a change of its state or rate writes. -/
def laneStateRegs : List Nat := [PAGE_STATUS, LANE.STATUS, LANE.CTRL, LANE.FOM]

/-- A register that no such change writes, nor an event, nor the end of a DRV_CMD. -/
def offLaneState (l q r : Nat) : Bool :=
  quiet q r && decide (q ≠ DLINK) && laneStateRegs.all fun o => apart q r (lanePage l) o

section
variable (c : Chip) (d l e : Nat) {q r : Nat}

theorem Chip.reg_setLane (x : LaneSt) : (c.setLane d l x).reg e q r = c.reg e q r := rfl

theorem Chip.reg_endDrv (hq : quiet q r = true) (hpage : q ≠ DLINK) (st : Nat) : (c.endDrv d st).reg e q r = c.reg e q r := by
  unfold Chip.endDrv
  dsimp only
  rw [Chip.reg_event_quiet _ d e hq, Chip.reg_put_apart _ d e (apart_of_page hq (by decide) (by decide) hpage)]
  rfl

theorem Chip.reg_drvLost (hq : quiet q r = true) (hpage : q ≠ DLINK) : (c.drvLost d l).reg e q r = c.reg e q r := by
  unfold Chip.drvLost
  split
  · exact c.reg_endDrv d e hq hpage 5
  · rfl

section
variable (h : offLaneState l q r = true)
include h

theorem quiet_of_offLaneState : quiet q r = true ∧ q ≠ DLINK ∧ ∀ o ∈ laneStateRegs, apart q r (lanePage l) o = true := by
  simp only [offLaneState, Bool.and_eq_true, decide_eq_true_eq, List.all_eq_true] at h
  exact ⟨h.1.1, h.1.2, h.2⟩

theorem Chip.reg_setRate (v : Nat) : (c.setRate d l v).reg e q r = c.reg e q r := by
  obtain ⟨-, -, hapart⟩ := quiet_of_offLaneState l h
  have hstatus := hapart LANE.STATUS (by simp [laneStateRegs])
  have hfom := hapart LANE.FOM (by simp [laneStateRegs])
  unfold Chip.setRate Chip.showFails Chip.lput
  dsimp only
  split
  · rw [Chip.reg_put_apart _ d e hfom, Chip.reg_put_apart _ d e hstatus, Chip.reg_put_apart _ d e hstatus]
  · rw [Chip.reg_put_apart _ d e hstatus, Chip.reg_put_apart _ d e hstatus]

theorem Chip.reg_setLaneState (v : Nat) : (c.setLaneState d l v).reg e q r = c.reg e q r := by
  obtain ⟨hq, hpage, hapart⟩ := quiet_of_offLaneState l h
  have hpageStatus := hapart PAGE_STATUS (by simp [laneStateRegs])
  have hstatus := hapart LANE.STATUS (by simp [laneStateRegs])
  have hctrl := hapart LANE.CTRL (by simp [laneStateRegs])
  have hready : ∀ (x : Chip) b, (x.setReady d (lanePage l) b).reg e q r = x.reg e q r := fun x b =>
    (x.reg_setReady_quiet d e hq _ b).trans (x.reg_put_apart d e hpageStatus 0 0 _)
  unfold Chip.setLaneState Chip.lput Chip.setState
  dsimp only
  split_ifs <;> simp only [hready, Chip.reg_setRate _ d l e h, Chip.reg_put_apart _ d e hctrl, Chip.reg_put_apart _ d e hpageStatus,
    Chip.reg_put_apart _ d e hstatus, Chip.reg_drvLost _ d l e hq hpage]

theorem Chip.reg_startAttempt : (c.startAttempt d l).reg e q r = c.reg e q r := by
  unfold Chip.startAttempt
  dsimp only
  rw [Chip.reg_setLaneState _ d l e h, Chip.reg_setRate _ d l e h, Chip.reg_setLane]

end
end

/-- A lane's rate is a field beside its state. -/
theorem Chip.lstate_setRate (c : Chip) (d : Nat) {l : Nat} (v : Nat) (hl : l < 24) : (c.setRate d l v).lstate d l = c.lstate d l := by
  have hfields : ((c.lput d l LANE.STATUS 18 16 v).showFails d l).lstate d l = c.lstate d l :=
    (Chip.get_put_beside _ d _ _ _ d _ _ (by decide) (by decide) (.inl (by decide))).trans
      (Chip.get_put_beside _ d _ _ _ d _ _ (by decide) (by decide) (.inl (by decide)))
  have hfom : apart (lanePage l) LANE.STATUS (lanePage l) LANE.FOM = true :=
    apart_of_ne (lanePage_lt hl) (by decide) (lanePage_lt hl) (by decide) (.inr (by decide))
  unfold Chip.setRate
  dsimp only
  split
  · exact (Chip.get_congr (Chip.reg_put_apart _ d d hfom ..) 7 0).trans hfields
  · exact hfields

/-- The state that a lane is put into (R190). -/
theorem Chip.lstate_setLaneState (c : Chip) (d : Nat) {l v : Nat} (hl : l < 24) (hv : v < 256) : (c.setLaneState d l v).lstate d l = v := by
  have hpage := lanePage_lt hl
  have hq : quiet (lanePage l) LANE.STATUS = true := quiet_lanePage hl (by decide) (by decide) (by decide)
  have hpageStatus : apart (lanePage l) LANE.STATUS (lanePage l) PAGE_STATUS = true :=
    apart_of_ne hpage (by decide) hpage (by decide) (.inr (by decide))
  have hctrl : apart (lanePage l) LANE.STATUS (lanePage l) LANE.CTRL = true :=
    apart_of_ne hpage (by decide) hpage (by decide) (.inr (by decide))
  have hready : ∀ (x : Chip) b, (x.setReady d (lanePage l) b).lstate d l = x.lstate d l := fun x b =>
    Chip.get_congr ((x.reg_setReady_quiet d d hq _ b).trans (x.reg_put_apart d d hpageStatus 0 0 _)) 7 0
  have hput : ∀ x : Chip, (((x.lput d l LANE.STATUS 7 0 v).setState d (lanePage l) v).lput d l LANE.CTRL 0 0
      (decide (v ≠ laneOFF)).toNat).lstate d l = v := fun x =>
    (Chip.get_congr ((Chip.reg_put_apart _ d d hctrl ..).trans (Chip.reg_put_apart _ d d hpageStatus ..)) 7 0).trans
      ((x.get_put d (lanePage l) LANE.STATUS v (by decide) (by decide)).trans (Nat.mod_eq_of_lt hv))
  unfold Chip.setLaneState
  dsimp only
  split_ifs <;> simp only [hready, Chip.lstate_setRate _ d _ hl, hput]

theorem Chip.lstate_startAttempt (c : Chip) (d : Nat) {l : Nat} (hl : l < 24) : (c.startAttempt d l).lstate d l = laneLOCK :=
  Chip.lstate_setLaneState _ d hl (by decide)

/-! ### Groups and other lanes (R171, R172, R195, R197) -/

/-- SLINK as it shows that a group is not READY (R172). -/
def Chip.groupShown (c : Chip) (d f : Nat) : Chip :=
  let g := c.groupNumber d f
  let c := (c.put d SLINK SLINK.GROUP_READY g g 0).put d SLINK SLINK.GROUP_READY (8 + g) (8 + g) 0
  let c := c.setNum d SLINK (SLINK.GROUP_LMAP + 4 * g) 0
  c.setDegraded d SLINK (decide (c.get d SLINK SLINK.GROUP_READY 15 8 ≠ 0))

/-- What a group that leaves READY held is gone: the streams that it carried, its port's messages, its lane map (R121, R172). -/
def Chip.groupGone (c : Chip) (d f : Nat) : Chip :=
  ((({ c with carried := (c.carried.map (fun kv => (kv.1, kv.2.filter (fun x => x ≠ d * 8 + f)))).filter (fun kv => kv.2 ≠ []) } :
    Chip).losePort d f).setRxMap d f 0).sendOn d f []

theorem Chip.groupDown_eq (c : Chip) (d f : Nat) : c.groupDown d f =
    if c.groupReady d (c.groupNumber d f) then
      (((c.groupShown d f).groupGone d f).noteInband d).event d PORT_INB (4 * c.groupNumber d f + 2)
    else c := rfl

theorem Chip.reg_groupGone (c : Chip) (d f e q r : Nat) : (c.groupGone d f).reg e q r = c.reg e q r := rfl

section
variable (c : Chip) (d e : Nat) {q r : Nat} (hq : quiet q r = true) (hslink : q ≠ SLINK)

theorem Chip.reg_loseStreams (f : Nat) : (c.loseStreams d f).reg e q r = c.reg e q r := by
  refine Chip.each_keeps (fun c => c.reg e q r) c c.outputs fun c o _ => ?_
  dsimp only
  split
  · split <;> rfl
  · rfl

include hq hslink

omit hq in
theorem Chip.reg_put_slink (hq : quiet q r = true) {o : Nat} (ho : o < 0x1000) (hi lo v : Nat) :
    (c.put d SLINK o hi lo v).reg e q r = c.reg e q r := c.reg_put_apart d e (apart_of_page hq (by decide) ho hslink) hi lo v

theorem Chip.reg_groupShown (f : Nat) : (c.groupShown d f).reg e q r = c.reg e q r := by
  unfold Chip.groupShown Chip.setDegraded
  dsimp only
  rw [Chip.reg_put_slink _ d e hslink hq (by decide), Chip.reg_setNum_apart _ d e (apart_of_page hq (by decide) (groupLmap_in_page c d f) hslink),
    Chip.reg_put_slink _ d e hslink hq (by decide), Chip.reg_put_slink _ d e hslink hq (by decide)]

/-- A group that leaves READY changes registers of SLINK and PORT_INB, and event registers. -/
theorem Chip.reg_groupDown (f : Nat) : (c.groupDown d f).reg e q r = c.reg e q r := by
  have hinb : q ≠ PORT_INB := by
    simp only [quiet, Bool.and_eq_true, decide_eq_true_eq] at hq
    exact hq.1.1.2
  rw [Chip.groupDown_eq]
  split
  · rw [Chip.reg_event_quiet _ d e hq, Chip.noteInband, Chip.reg_setReady_quiet _ d e hq,
      Chip.reg_put_apart _ d e (apart_of_page hq (by decide) (by decide) hinb), Chip.reg_groupGone, c.reg_groupShown d e hq hslink]
  · rfl

theorem Chip.reg_spareLost (f : Nat) : (c.spareLost d f).reg e q r = c.reg e q r := by
  unfold Chip.spareLost
  dsimp only
  split
  · rw [Chip.reg_event_quiet _ d e hq, Chip.setDegraded, Chip.reg_put_slink _ d e hslink hq (by decide),
      Chip.reg_put_slink _ d e hslink hq (by decide)]
  · rfl

theorem Chip.reg_laneLost (l : Nat) : (c.laneLost d l).reg e q r = c.reg e q r := by
  unfold Chip.laneLost
  dsimp only
  split_ifs
  · rfl
  · exact (Chip.reg_groupDown _ d e hq hslink _).trans (c.reg_loseStreams d e _)
  · rfl
  · exact c.reg_spareLost d e hq hslink _
  · rfl

/-- A lane that departs without a failure changes no other page of a lane. -/
theorem Chip.reg_depart {m : Nat} (hm : m < 24) (hdlink : q ≠ DLINK) (hpage : q ≠ lanePage m) :
    (c.depart d m false).reg e q r = c.reg e q r := by
  have hapart : ∀ o < 0x1000, apart q r (lanePage m) o = true := fun o ho => apart_of_page hq (lanePage_lt hm) ho hpage
  have hoff : offLaneState m q r = true := by
    simp only [offLaneState, Bool.and_eq_true, decide_eq_true_eq, List.all_eq_true]
    exact ⟨⟨hq, hdlink⟩, fun o ho => hapart o (by revert o; decide)⟩
  unfold Chip.depart
  dsimp only
  rw [if_neg (by decide), Chip.reg_laneLost _ d e hq hslink, Chip.reg_startAttempt _ d m e hoff, Chip.count_eq,
    Chip.reg_setReg_apart _ d e (hapart _ (by decide)), Chip.levent, Chip.reg_event_quiet _ d e hq]

end

/-- The page of a lane, but for its event registers. -/
def Chip.laneRegs (c : Chip) (d l : Nat) : {r // quiet (lanePage l) r = true} → Word := fun r => c.reg d (lanePage l) r

section
variable {c c' : Chip} {d l : Nat}

theorem Chip.laneRegs_of_reg (h : ∀ r, quiet (lanePage l) r = true → c'.reg d (lanePage l) r = c.reg d (lanePage l) r) :
    c'.laneRegs d l = c.laneRegs d l := funext fun r => h r r.2

variable (h : c'.laneRegs d l = c.laneRegs d l)
include h

theorem Chip.lget_of_laneRegs {o : Nat} (ho : quiet (lanePage l) o = true) (hi lo : Nat) : c'.lget d l o hi lo = c.lget d l o hi lo :=
  Chip.get_congr (congrFun h ⟨o, ho⟩) hi lo

theorem Chip.lstate_of_laneRegs (hl : l < 24) : c'.lstate d l = c.lstate d l :=
  Chip.get_congr (congrFun h ⟨LANE.STATUS, quiet_lanePage hl (by decide) (by decide) (by decide)⟩) 7 0

end

section
variable (c : Chip) (d : Nat) {l : Nat} (hl : l < 24)
include hl

theorem Chip.laneRegs_laneLost (m : Nat) : (c.laneLost d m).laneRegs d l = c.laneRegs d l :=
  Chip.laneRegs_of_reg fun _ hr => c.reg_laneLost d d hr (lanePage_ne_blocks hl).1 m

theorem Chip.laneRegs_notePll (m : Nat) : (c.notePll d m).laneRegs d l = c.laneRegs d l := by
  refine Chip.laneRegs_of_reg fun r hr => ?_
  unfold Chip.notePll
  dsimp only
  split
  · rfl
  · exact c.reg_put_apart d d (apart_of_page hr (by decide) (by decide) (lanePage_ne_blocks hl).2.2) _ _ _

/-- A lane that is not READY keeps its page when the cap that a lane set is lifted: only capped lanes that are READY depart. -/
theorem Chip.laneRegs_liftCap (k : Nat) (h : c.lstate d l ≠ laneREADY) : (c.liftCap d k).laneRegs d l = c.laneRegs d l := by
  unfold Chip.liftCap
  refine Chip.each_preserves (P := fun x => x.laneRegs d l = c.laneRegs d l) (fun x m hm hx => ?_) rfl
  have hm : m < 24 := lt_trans (List.mem_range.1 hm) (by decide)
  have hstate : x.isReady d l = false := by simp [Chip.isReady, Chip.lstate_of_laneRegs hx hl, h]
  dsimp only
  split_ifs with _ hready
  · have hne : l ≠ m := fun hlm => by subst hlm; exact absurd hready (ne_true_of_eq_false hstate)
    exact (Chip.laneRegs_of_reg fun r hr => Chip.reg_depart _ d d hr (lanePage_ne_blocks hl).1 hm (lanePage_ne_blocks hl).2.1
      fun hp => hne (lanePage_inj.1 hp)).trans hx
  · exact hx
  · exact hx

omit hl in
theorem Chip.laneRegs_finishAll (p : Req → Bool) (st dt : Nat) : (c.finishAll p st dt).laneRegs d l = c.laneRegs d l :=
  Chip.laneRegs_of_reg fun r _ => c.reg_finishAll p st dt d (lanePage l) r

end

/-! ### Commands in flight -/

/-- A command of a number is in flight. -/
def Chip.pends (c : Chip) (id : Nat) (cmd : Cmd) : Prop := ∃ q ∈ c.inflight, q.id = id ∧ q.cmd = cmd

theorem Chip.pends_of_inflight {c c' : Chip} (h : c'.inflight = c.inflight) {id : Nat} {cmd : Cmd} (hp : c.pends id cmd) : c'.pends id cmd := by
  unfold Chip.pends; rwa [h]

/-- The end of another command leaves it in flight. -/
theorem Chip.pends_finish {c : Chip} {x : Req} (st dt : Nat) (bs : List Byte) {id : Nat} {cmd : Cmd} (hne : x.id ≠ id) (hp : c.pends id cmd) :
    (c.finish x st dt bs).pends id cmd := by
  obtain ⟨q, hq, hid, hcmd⟩ := hp
  have hqx : q.id ≠ x.id := fun h => hne (h.symm.trans hid)
  unfold Chip.finish
  split
  · exact ⟨q, by rw [Chip.inflight_reply]; exact List.mem_filter.2 ⟨hq, decide_eq_true hqx⟩, hid, hcmd⟩
  · exact ⟨q, List.mem_map.2 ⟨q, hq, if_neg hqx⟩, hid, hcmd⟩

theorem Chip.pends_finishAll {c : Chip} {p : Req → Bool} (st dt : Nat) {id : Nat} {cmd : Cmd} (hne : ∀ x, p x = true → x.id ≠ id)
    (hp : c.pends id cmd) : (c.finishAll p st dt).pends id cmd :=
  Chip.each_preserves (P := fun c => c.pends id cmd) (l := c.reqs p) (f := fun c x => c.finish x st dt [])
    (fun _ x hx => Chip.pends_finish st dt [] (hne x (List.mem_filter.1 hx).2)) hp

/-- A lost port orphans its commands, and ends none (R121). -/
theorem Chip.pends_groupGone {c : Chip} (d f : Nat) {id : Nat} {cmd : Cmd} (hp : c.pends id cmd) : (c.groupGone d f).pends id cmd := by
  obtain ⟨q, hq, hid, hcmd⟩ := hp
  refine ⟨_, List.mem_map_of_mem hq, ?_⟩
  split <;> exact ⟨hid, hcmd⟩

section
variable (c : Chip) (d l : Nat)

theorem Chip.inflight_event (p b : Nat) : (c.event d p b).inflight = c.inflight := Chip.touches_inflight (c.touches_event d p b)
theorem Chip.inflight_setReady (p : Nat) (b : Bool) : (c.setReady d p b).inflight = c.inflight :=
  Chip.touches_inflight (c.touches_setReady d p b)
theorem Chip.inflight_put (p o hi lo v : Nat) : (c.put d p o hi lo v).inflight = c.inflight := rfl

theorem Chip.inflight_drvLost : (c.drvLost d l).inflight = c.inflight := by
  unfold Chip.drvLost Chip.endDrv
  split
  · rw [Chip.inflight_event, Chip.inflight_put, Chip.setDie_inflight]
  · rfl

theorem Chip.inflight_lput (o hi lo v : Nat) : (c.lput d l o hi lo v).inflight = c.inflight := rfl

theorem Chip.inflight_setRate (v : Nat) : (c.setRate d l v).inflight = c.inflight := by
  unfold Chip.setRate Chip.showFails
  dsimp only
  split <;> simp only [Chip.inflight_lput]

theorem Chip.inflight_setLaneState (v : Nat) : (c.setLaneState d l v).inflight = c.inflight := by
  unfold Chip.setLaneState Chip.setState
  dsimp only
  split_ifs <;> simp only [Chip.inflight_setReady, Chip.inflight_setRate, Chip.inflight_lput, Chip.inflight_put, Chip.inflight_drvLost]

theorem Chip.inflight_startAttempt : (c.startAttempt d l).inflight = c.inflight :=
  (Chip.inflight_setLaneState ..).trans (Chip.inflight_setRate ..)

theorem Chip.inflight_groupShown (f : Nat) : (c.groupShown d f).inflight = c.inflight := by
  unfold Chip.groupShown Chip.setDegraded
  dsimp only
  rw [Chip.inflight_put, Chip.setNum_eq, Chip.setReg_inflight, Chip.inflight_put, Chip.inflight_put]

theorem Chip.inflight_loseStreams (f : Nat) : (c.loseStreams d f).inflight = c.inflight := by
  refine Chip.each_keeps Chip.inflight c c.outputs fun c o _ => ?_
  dsimp only
  split
  · split <;> rfl
  · rfl

variable {c} {id : Nat} {cmd : Cmd} (hp : c.pends id cmd)
include hp

theorem Chip.pends_groupDown (f : Nat) : (c.groupDown d f).pends id cmd := by
  have hgone : ((c.groupShown d f).groupGone d f).pends id cmd :=
    Chip.pends_groupGone d f (Chip.pends_of_inflight (c.inflight_groupShown d f) hp)
  rw [Chip.groupDown_eq]
  split
  · refine Chip.pends_of_inflight ?_ hgone
    rw [Chip.inflight_event, Chip.noteInband, Chip.inflight_setReady]
  · exact hp

theorem Chip.pends_laneLost : (c.laneLost d l).pends id cmd := by
  unfold Chip.laneLost
  dsimp only
  split_ifs
  · exact hp
  · exact Chip.pends_groupDown d (Chip.pends_of_inflight (c.inflight_loseStreams d _) hp) _
  · exact hp
  · unfold Chip.spareLost
    dsimp only
    split
    · exact Chip.pends_of_inflight (Chip.inflight_event ..) hp
    · exact hp
  · exact hp

end

end Sys2Proof.Machine
end

section
/-! PROOFS. The lane commands (O23; R124, R212, R213). -/

namespace Sys2Proof.Machine

/-- An admitted command has an allowed form (R110). -/
theorem formOk_of_admits {c : Chip} {h : Hdr} {cmd : Cmd} (ha : c.admits h cmd) : formOk cmd = true := by
  obtain ⟨⟨-, -, -, -, -, -, hst, -⟩, -⟩ := ha
  have hform := (lowest_eq_ok _).1 hst _ (List.mem_cons_self ..)
  by_contra hno
  rw [if_neg (fun hx => hno hx.2)] at hform
  exact absurd hform (by decide)

/-- Two registers of a lane's page. -/
theorem apart_in_lanePage {l r o : Nat} (hl : l < 24) (hr : r < 0x1000) (ho : o < 0x1000) (h : r ≠ o) :
    apart (lanePage l) r (lanePage l) o = true := apart_of_ne (lanePage_lt hl) hr (lanePage_lt hl) ho (.inr h)

/-- CEILING and LOOP keep what they hold when the state or the rate of a lane changes. -/
theorem offLaneState_lane {l r : Nat} (hl : l < 24) (hr : r ∈ [LANE.CEILING, LANE.LOOP]) : offLaneState l (lanePage l) r = true := by
  have hoffset : r < 0x1000 ∧ r ≠ PAGE_EVENT ∧ r ≠ PAGE_EVENT_LOST ∧ ∀ o ∈ laneStateRegs, o < 0x1000 ∧ r ≠ o := by revert r; decide
  obtain ⟨hlt, hev, hlost, hregs⟩ := hoffset
  simp only [offLaneState, Bool.and_eq_true, decide_eq_true_eq, List.all_eq_true]
  exact ⟨⟨quiet_lanePage hl hlt hev hlost, (lanePage_ne_blocks hl).2.1⟩, fun o ho => apart_in_lanePage hl hlt (hregs o ho).1 (hregs o ho).2⟩

theorem lget_eq_get (c : Chip) (d l o hi lo : Nat) : c.lget d l o hi lo = c.get d (lanePage l) o hi lo := rfl

/-! ### LANE_TRAIN (R124, R212) -/

section
variable (c : Chip) (d l : Nat)

/-- The lane with its new ceiling, out of any loop. -/
def Chip.trainReady (ceiling : Nat) : Chip :=
  let x := c.lane d l
  let c := c.setLane d l { x with far := 0 }
  let c := (c.lput d l LANE.LOOP 1 0 0).lput d l LANE.LOOP 5 5 0
  (c.lput d l LANE.CEILING 2 0 ceiling).setWork d l 4

/-- Pending commands of the lane complete, but for the LANE_TRAIN itself. -/
def Chip.trainAlone (id : Nat) : Chip :=
  (c.finishAll (fun q => isTrain (d * 24 + l) q && decide (q.id ≠ id)) ABORTED 0).finishAll
    (fun q => isLoop (d * 24 + l) q && decide (q.id ≠ id)) ABORTED 0

theorem Chip.laneTrain_eq (r : Req) (ceiling : Nat) : c.laneTrain r d l ceiling =
    if c.lstate d l = laneOFF then c.finish r FAIL 2 []
    else
      let u := c.trainAlone d l r.id
      let t := (u.trainReady d l ceiling).startAttempt d l
      if u.isReady d l then t.laneLost d l else t := rfl

theorem Chip.ceiling_trainReady {l : Nat} (hl : l < 24) {ceiling : Nat} (h : ceiling ≤ 4) :
    (c.trainReady d l ceiling).lget d l LANE.CEILING 2 0 = ceiling := by
  have hstatus := apart_in_lanePage hl (r := LANE.CEILING) (o := PAGE_STATUS) (by decide) (by decide) (by decide)
  unfold Chip.trainReady Chip.setWork Chip.noteCeiling Chip.setDegraded Chip.lput
  dsimp only
  rw [lget_eq_get, Chip.get_congr (Chip.reg_put_apart _ d d hstatus ..),
    Chip.get_put_beside _ d _ _ _ d _ _ (by decide) (by decide) (.inl (by decide)), Chip.get_put _ d _ _ _ (by decide) (by decide)]
  exact Nat.mod_eq_of_lt (by omega)

theorem Chip.inflight_trainReady (ceiling : Nat) : (c.trainReady d l ceiling).inflight = c.inflight := by
  unfold Chip.trainReady Chip.setWork Chip.noteCeiling Chip.setDegraded
  dsimp only
  rw [Chip.inflight_put, Chip.inflight_lput, Chip.inflight_lput, Chip.inflight_lput, Chip.inflight_lput, Chip.setLane_inflight]

theorem Chip.pends_trainAlone {c : Chip} {id : Nat} {cmd : Cmd} (hp : c.pends id cmd) : (c.trainAlone d l id).pends id cmd := by
  refine Chip.pends_finishAll _ _ (fun x hx => ?_) (Chip.pends_finishAll _ _ (fun x hx => ?_) hp) <;>
    simp only [Bool.and_eq_true, decide_eq_true_eq] at hx <;> exact hx.2

theorem Chip.lstate_trainAlone {l : Nat} (hl : l < 24) (id : Nat) : (c.trainAlone d l id).lstate d l = c.lstate d l :=
  Chip.lstate_of_laneRegs ((Chip.laneRegs_finishAll ..).trans (Chip.laneRegs_finishAll ..)) hl

/-- A lane that is not OFF begins an attempt with its ceiling, and the command stays in flight. -/
theorem Chip.laneTrain_spec {c : Chip} {l : Nat} (hl : l < 24) (r : Req) {ceiling : Nat} {cmd : Cmd} (hceil : ceiling ≤ 4)
    (hon : c.lstate d l ≠ laneOFF) (hp : c.pends r.id cmd) :
    (c.laneTrain r d l ceiling).lstate d l = laneLOCK ∧ (c.laneTrain r d l ceiling).lget d l LANE.CEILING 2 0 = ceiling ∧
      (c.laneTrain r d l ceiling).pends r.id cmd := by
  rw [Chip.laneTrain_eq, if_neg hon]
  dsimp only
  generalize hu : c.trainAlone d l r.id = u
  generalize ht : (u.trainReady d l ceiling).startAttempt d l = t
  have hstate : t.lstate d l = laneLOCK := ht ▸ Chip.lstate_startAttempt _ d hl
  have hceiling : t.lget d l LANE.CEILING 2 0 = ceiling := by
    rw [← ht, lget_eq_get, Chip.get_congr (Chip.reg_startAttempt _ d l d (offLaneState_lane hl (by simp)))]
    exact u.ceiling_trainReady d hl hceil
  have hflight : t.pends r.id cmd := by
    rw [← ht]
    refine Chip.pends_of_inflight ((Chip.inflight_startAttempt ..).trans (u.inflight_trainReady d l ceiling)) ?_
    exact hu ▸ Chip.pends_trainAlone d l hp
  split
  · have hregs := t.laneRegs_laneLost d hl l
    exact ⟨(Chip.lstate_of_laneRegs hregs hl).trans hstate,
      (Chip.lget_of_laneRegs hregs (quiet_lanePage hl (by decide) (by decide) (by decide)) 2 0).trans hceiling,
      Chip.pends_laneLost d l hflight⟩
  · exact ⟨hstate, hceiling, hflight⟩

end

theorem State.run_laneTrain (s : State) {r : Req} {l ceiling : Nat} (hr : r.cmd = .laneTrain l ceiling) : s.run r = s.up fun c =>
    (c.setReq { r with aux := c.lget r.die (l % 24) LANE.CEILING 2 0 }).laneTrain r r.die (l % 24) ceiling := by
  unfold State.run; rw [hr]

/-- A command that has just started is in flight, and so it is when it has noted something for later. -/
theorem State.pends_starts (s : State) (h : Hdr) (cmd : Cmd) (n : Nat) :
    ((s.starts h cmd).chip.setReq { s.req h cmd with aux := n }).pends (s.req h cmd).id cmd :=
  ⟨{ s.req h cmd with aux := n },
    List.mem_map.2 ⟨s.req h cmd, List.mem_append_right _ (List.mem_singleton.2 rfl), if_pos rfl⟩, rfl, rfl⟩

theorem laneTrainStarts (s : State) (h : Hdr) (l ceiling : Nat) (ha : s.chip.admits h (.laneTrain l ceiling))
    (hon : s.chip.lstate h.die (l % 24) ≠ laneOFF) :
    ∃ t, exec (.laneTrain h l ceiling) s = .next t ∧ t.mem = s.mem ∧ t.chip.lstate h.die (l % 24) = laneLOCK ∧
      t.chip.lget h.die (l % 24) LANE.CEILING 2 0 = ceiling ∧
      ∃ r ∈ t.chip.inflight, r.id = s.chip.nextReq ∧ r.cmd = .laneTrain l ceiling := by
  have hceil : ceiling ≤ 4 := of_decide_eq_true (formOk_of_admits ha)
  rw [exec_admitted rfl ha, State.run_laneTrain _ rfl]
  exact ⟨_, rfl, rfl, Chip.laneTrain_spec h.die (Nat.mod_lt _ (by decide)) _ hceil hon (s.pends_starts h _ _)⟩

/-! ### LANE_POWER (R124, R212) -/

/-- The lane with nothing pending and no cap, out of any loop and silent. -/
def Chip.laneBare (c : Chip) (d l : Nat) : Chip :=
  let c := c.finishAll (laneCmd (d * 24 + l)) ABORTED 0
  let x := c.lane d l
  let ended := (c.snapOf d l).elim [] (fun s => s.trained)
  let c := c.setLane d l { x with far := 0, cap := 4, capBy := 24, rxCount := 0, retrainTx := 0, fails := 0, trial := none, check := {},
                                  snap := none }
  let c := (ended.foldl (fun c r => c.retract r.1 r.2) c).sendOn d l []
  ((c.lput d l LANE.LOOP 1 0 0).lput d l LANE.LOOP 5 5 0).lput d l LANE.STATUS 12 8 0

theorem Chip.laneOff_eq (c : Chip) (d l : Nat) : c.laneOff d l =
    ((((c.laneBare d l).setLaneState d l laneOFF).liftCap d l).laneLost d l).notePll d l := rfl

theorem Chip.lstate_laneOff (c : Chip) (d : Nat) {l : Nat} (hl : l < 24) : (c.laneOff d l).lstate d l = laneOFF := by
  rw [Chip.laneOff_eq]
  generalize ht : (c.laneBare d l).setLaneState d l laneOFF = t
  have hoff : t.lstate d l = laneOFF := ht ▸ Chip.lstate_setLaneState _ d hl (by decide)
  have hregs := ((Chip.laneRegs_notePll _ d hl l).trans (Chip.laneRegs_laneLost _ d hl l)).trans
    (t.laneRegs_liftCap d hl l (by rw [hoff]; decide))
  exact (Chip.lstate_of_laneRegs hregs hl).trans hoff

theorem State.run_lanePower (s : State) {r : Req} {l on : Nat} (hr : r.cmd = .lanePower l on) :
    s.run r = s.up fun c => c.lanePower r r.die (l % 24) on := by
  unfold State.run; rw [hr]

theorem lanePowerOff (s : State) (h : Hdr) (l : Nat) (ha : s.chip.admits h (.lanePower l 0)) :
    ∃ u : State, exec (.lanePower h l 0) s = .next (u.done (s.req h (.lanePower l 0)) OK) ∧ u.mem = s.mem ∧
      u.chip.lstate h.die (l % 24) = laneOFF := by
  rw [exec_admitted rfl ha, State.run_lanePower _ rfl]
  exact ⟨(s.starts h (.lanePower l 0)).up fun c => c.laneOff h.die (l % 24), rfl, rfl, Chip.lstate_laneOff _ _ (Nat.mod_lt _ (by decide))⟩

theorem lanePowerStaysOn (s : State) (h : Hdr) (l : Nat) (ha : s.chip.admits h (.lanePower l 1))
    (hon : s.chip.lstate h.die (l % 24) ≠ laneOFF) : exec (.lanePower h l 1) s = .next (s.ran h (.lanePower l 1) id []) := by
  rw [exec_admitted rfl ha, State.run_lanePower _ rfl]
  exact congrArg _ (State.up_congr (g := fun c => c.done (s.req h (.lanePower l 1)) OK) ((if_neg (by decide)).trans (if_neg hon)))

/-! ### LANE_LOOP (R212, R213) -/

section
variable (c : Chip) (d : Nat) {l : Nat}

/-- A lane that enters a loop is in LOOP and shows which (R213). -/
theorem Chip.enterLoop_spec (mode : Nat) (hmode : mode < 4) (hl : l < 24) : (c.enterLoop d l mode).lstate d l = laneLOOP ∧
    (c.enterLoop d l mode).lget d l LANE.LOOP 1 0 = mode := by
  unfold Chip.enterLoop
  dsimp only
  generalize ht : ((c.lput d l LANE.LOOP 1 0 mode).lput d l LANE.LOOP 5 5 0).setLaneState d l laneLOOP = t
  have hstate : t.lstate d l = laneLOOP := ht ▸ Chip.lstate_setLaneState _ d hl (by decide)
  have hloop : t.lget d l LANE.LOOP 1 0 = mode := by
    rw [← ht, lget_eq_get, Chip.get_congr (Chip.reg_setLaneState _ d l d (offLaneState_lane hl (by simp)) _)]
    refine (Chip.get_put_beside _ d _ _ _ d _ _ (by decide) (by decide) (.inl (by decide))).trans ?_
    exact (Chip.get_put _ d _ _ _ (by decide) (by decide)).trans (Nat.mod_eq_of_lt hmode)
  split
  · have hregs := Chip.laneRegs_liftCap (t.setLane d l { t.lane d l with check := {} }) d hl l (ne_of_eq_of_ne hstate (by decide))
    exact ⟨(Chip.lstate_of_laneRegs hregs hl).trans hstate,
      (Chip.lget_of_laneRegs hregs (quiet_lanePage hl (by decide) (by decide) (by decide)) 1 0).trans hloop⟩
  · exact ⟨hstate, hloop⟩

/-- The lane in a near-end loop, before its group takes notice. -/
def Chip.nearLoop (c : Chip) (r : Req) (d l loop : Nat) : Chip :=
  let c := c.finishAll (isTrain (d * 24 + l)) ABORTED 0
  let c := c.finishAll (fun q => isLoop (d * 24 + l) q && decide (q.id ≠ r.id)) ABORTED 0
  let x := c.lane d l
  let c := c.setLane d l { x with far := 0 }
  (c.enterLoop d l loop).setRate d l (c.lget d l LANE.LOOP 18 16)

theorem Chip.nearLoop_spec (r : Req) {loop : Nat} (h : loop < 4) (hl : l < 24) :
    (c.nearLoop r d l loop).lstate d l = laneLOOP ∧ (c.nearLoop r d l loop).lget d l LANE.LOOP 1 0 = loop := by
  unfold Chip.nearLoop
  dsimp only
  rw [Chip.lstate_setRate _ d _ hl, lget_eq_get, Chip.get_congr (Chip.reg_setRate _ d l d (offLaneState_lane hl (by simp)) _)]
  exact Chip.enterLoop_spec _ d loop h hl

theorem Chip.laneLoop_near (r : Req) {loop : Nat} (h : 1 ≤ loop) (h' : loop ≤ 2) (hon : c.lstate d l ≠ laneOFF) :
    c.laneLoop r d l loop = (if c.lstate d l = laneREADY then (c.nearLoop r d l loop).laneLost d l else c.nearLoop r d l loop).done r OK :=
  (if_neg (by omega)).trans ((if_neg hon).trans (if_neg (by omega)))

end

theorem State.run_laneLoop (s : State) {r : Req} {l loop : Nat} (hr : r.cmd = .laneLoop l loop) :
    s.run r = s.up fun c => c.laneLoop r r.die (l % 24) loop := by
  unfold State.run; rw [hr]

theorem laneLoopStarts (s : State) (h : Hdr) (l loop : Nat) (ha : s.chip.admits h (.laneLoop l loop)) (hlow : 1 ≤ loop) (hhigh : loop ≤ 2)
    (hon : s.chip.lstate h.die (l % 24) ≠ laneOFF) :
    ∃ u : State, exec (.laneLoop h l loop) s = .next (u.done (s.req h (.laneLoop l loop)) OK) ∧ u.mem = s.mem ∧
      u.chip.lstate h.die (l % 24) = laneLOOP ∧ u.chip.lget h.die (l % 24) LANE.LOOP 1 0 = loop := by
  have hl : l % 24 < 24 := Nat.mod_lt _ (by decide)
  rw [exec_admitted rfl ha, State.run_laneLoop _ rfl]
  generalize hc : (s.starts h (.laneLoop l loop)).chip = c
  have hon : c.lstate h.die (l % 24) ≠ laneOFF := hc ▸ hon
  obtain ⟨hstate, hmode⟩ := c.nearLoop_spec h.die (s.req h (.laneLoop l loop)) (loop := loop) (by omega) hl
  refine ⟨(s.starts h (.laneLoop l loop)).up fun c => if c.lstate h.die (l % 24) = laneREADY then
    (c.nearLoop (s.req h (.laneLoop l loop)) h.die (l % 24) loop).laneLost h.die (l % 24)
    else c.nearLoop (s.req h (.laneLoop l loop)) h.die (l % 24) loop, ?_, rfl, ?_⟩
  · refine congrArg Host.Outcome.next ((State.up_congr (g := fun c => (if c.lstate h.die (l % 24) = laneREADY then
      (c.nearLoop (s.req h (.laneLoop l loop)) h.die (l % 24) loop).laneLost h.die (l % 24)
      else c.nearLoop (s.req h (.laneLoop l loop)) h.die (l % 24) loop).done (s.req h (.laneLoop l loop)) OK) ?_).trans rfl)
    rw [hc]
    exact c.laneLoop_near h.die _ hlow hhigh hon
  · rw [State.up_chip, hc]
    split
    · have hregs := Chip.laneRegs_laneLost (c.nearLoop (s.req h (.laneLoop l loop)) h.die (l % 24) loop) h.die hl (l % 24)
      exact ⟨(Chip.lstate_of_laneRegs hregs hl).trans hstate,
        (Chip.lget_of_laneRegs hregs (quiet_lanePage hl (by decide) (by decide) (by decide)) 1 0).trans hmode⟩
    · exact ⟨hstate, hmode⟩

theorem laneCommands : Claim.LaneCommands := ⟨laneTrainStarts, lanePowerOff, lanePowerStaysOn, laneLoopStarts⟩

end Sys2Proof.Machine
end

section
/-! PROOFS. The hold of the adaptation and the checker of a loop (O23; R208, R214). -/

namespace Sys2Proof.Machine

/-! ### The hold of the adaptation (R208) -/

section
variable (c : Chip) (d l : Nat)

/-- What is kept of a lane when the first thing of a core cycle happens to it. -/
def Chip.snapshot : LaneSnap where
  at_ := c.now
  state := c.lstate d l
  rate := c.lrate d l
  fomBad := (c.lane d l).fomBad
  limits := c.reg d (lanePage l) LANE.FOM_LIMITS
  eq := c.reg d (lanePage l) LANE.EQ_NOW
  taps := (c.lane d l).taps
  back := false
  trained := []

/-- The coefficients of a lane as a snapshot has them, and nothing tried. -/
def Chip.eqBack (kept : LaneSnap) : Chip :=
  let c := c.setReg d (lanePage l) LANE.EQ_NOW kept.eq
  c.setLane d l { c.lane d l with taps := kept.taps, trial := none }

variable {c d l}

theorem Chip.lane_lput (o hi lo v : Nat) : (c.lput d l o hi lo v).lane d l = c.lane d l := rfl
theorem Chip.snapOf_lput (o hi lo v : Nat) : (c.lput d l o hi lo v).snapOf d l = c.snapOf d l := rfl

theorem Chip.snapLane_of_none (h : c.snapOf d l = none) :
    c.snapLane d l = c.setLane d l { c.lane d l with snap := some (c.snapshot d l) } := by
  have hstale : ¬(c.lane d l).snap.any (fun x => decide (x.at_ = c.now)) = true := by
    unfold Chip.snapOf at h
    cases hsnap : (c.lane d l).snap with
    | none => simp
    | some x => simpa [hsnap, Option.filter] using h
  exact if_neg hstale

theorem Chip.snapOf_snapLane (h : c.snapOf d l = none) : (c.snapLane d l).snapOf d l = some (c.snapshot d l) := by
  have hlane := c.lane_setLane d l { c.lane d l with snap := some (c.snapshot d l) } d l
  rw [if_pos rfl] at hlane
  rw [Chip.snapLane_of_none h, Chip.snapOf, hlane]
  exact Option.filter_some_pos (decide_eq_true rfl)

theorem Chip.idleHold_eq (hl : l < 8) (hrate : 3 ≤ c.lrate d l) (h : c.snapOf d l = none) :
    c.idleHold d l =
      let u := (c.snapLane d l).lput d l LANE.STATUS 13 13 1
      if u.lget d l LANE.STATUS 14 14 = 0 then u.eqBack d l (c.snapshot d l) else u := by
  have hrate' : 3 ≤ (c.snapLane d l).lrate d l := by rwa [Chip.snapLane_of_none h]
  have hkept : ((c.snapLane d l).lput d l LANE.STATUS 13 13 1).snapOf d l = some (c.snapshot d l) := by
    rw [Chip.snapOf_lput, Chip.snapOf_snapLane h]
  unfold Chip.idleHold
  dsimp only
  rw [if_pos ⟨hl, hrate'⟩, hkept]
  rfl

/-- A hold shows in STATUS, and leaves the coefficients as they are. -/
theorem Chip.idleHold_spec (hl : l < 8) (hrate : 3 ≤ c.lrate d l) (h : c.snapOf d l = none) :
    (c.idleHold d l).lget d l LANE.STATUS 13 13 = 1 ∧
      (c.idleHold d l).reg d (lanePage l) LANE.EQ_NOW = c.reg d (lanePage l) LANE.EQ_NOW ∧
      ((c.idleHold d l).lane d l).taps = (c.lane d l).taps := by
  have hapart : ∀ {r o : Nat}, r < 0x1000 → o < 0x1000 → r ≠ o → apart (lanePage l) r (lanePage l) o = true :=
    apart_in_lanePage (by omega)
  rw [Chip.idleHold_eq hl hrate h]
  dsimp only
  generalize hu : (c.snapLane d l).lput d l LANE.STATUS 13 13 1 = u
  have hheld : u.lget d l LANE.STATUS 13 13 = 1 := hu ▸ Chip.get_put _ d _ _ 1 (by decide) (by decide)
  have heq : u.reg d (lanePage l) LANE.EQ_NOW = c.reg d (lanePage l) LANE.EQ_NOW := by
    rw [← hu, Chip.lput, Chip.reg_put_apart _ d d (hapart (by decide) (by decide) (by decide)), Chip.snapLane_of_none h, Chip.reg_setLane]
  have htaps : (u.lane d l).taps = (c.lane d l).taps := by
    rw [← hu, Chip.lane_lput, Chip.snapLane_of_none h, Chip.lane_setLane, if_pos rfl]
  split
  · refine ⟨?_, ?_, ?_⟩
    · refine (Chip.get_congr (c := u) ?_ 13 13).trans hheld
      exact Chip.reg_setReg_apart _ d d (hapart (by decide) (by decide) (by decide)) _
    · exact Chip.reg_setReg_same u d _ _ _
    · unfold Chip.eqBack
      dsimp only
      rw [Chip.lane_setLane, if_pos rfl]
      rfl
  · exact ⟨hheld, heq, htaps⟩

end

/-! ### The checker of a loop (R214) -/

section
variable {c : Chip} {d l : Nat}

/-- The 64th right bit in a row locks a checker that is not locked. -/
theorem Chip.checkBit_locks (hopen : c.lget d l LANE.LOOP 5 5 = 0) (hgood : (c.lane d l).check.good = 63) :
    ∃ x, c.checkBit d l false = ((c.setLane d l x).lput d l LANE.LOOP 5 5 1).levent d l 11 := by
  unfold Chip.checkBit
  dsimp only
  rw [if_pos hopen, hgood, if_pos (by decide)]
  exact ⟨_, rfl⟩

/-- A wrong bit counts once the checker is locked, and ends the lock when it is one of 8 among the latest 64. -/
theorem Chip.checkBit_counts (hlocked : c.lget d l LANE.LOOP 5 5 = 1) :
    ∃ x, c.checkBit d l true =
      if 8 ≤ (((true :: (c.lane d l).check.errs).take 64).filter (fun e => e)).length then
        (((c.count d (lanePage l) LANE.LOOP_ERR_COUNT).setLane d l x).lput d l LANE.LOOP 5 5 0).levent d l 12
      else (c.count d (lanePage l) LANE.LOOP_ERR_COUNT).setLane d l x := by
  unfold Chip.checkBit
  dsimp only
  rw [if_neg (by omega), if_pos rfl]
  split <;> exact ⟨_, rfl⟩

/-- A lane of which the checker has seen one more bit. -/
def Chip.sawBit (c : Chip) (d l : Nat) (b : Bool) : Chip :=
  let x := c.lane d l
  c.setLane d l { x with check := { x.check with seen := b :: x.check.seen.take 30 } }

theorem Chip.check_sawBit (c : Chip) (d l : Nat) (b : Bool) : ((c.sawBit d l b).lane d l).check =
    { (c.lane d l).check with seen := b :: (c.lane d l).check.seen.take 30 } := by
  unfold Chip.sawBit
  dsimp only
  rw [Chip.lane_setLane, if_pos rfl]

/-- A bit that arrives in a loop with a PRBS pattern is judged by what the checker expects, once it has seen enough of them. -/
theorem Chip.loopBits_one (b : Bool) (hloop : c.lstate d l = laneLOOP) (hfar : (c.lane d l).far ≠ 3)
    (hcode : c.lget d l LANE.LOOP 11 8 ≠ 3)
    (hfull : (prbsTaps (c.lget d l LANE.LOOP 11 8)).1 ≤ (c.lane d l).check.seen.length) :
    ∃ b', c.loopBits d l [b] =
      (c.sawBit d l b').checkBit d l (b != prbsNext (c.lget d l LANE.LOOP 11 8) (c.lane d l).check.seen) := by
  have hbits : c.loopBits d l [b] = c.prbsBit d l (c.lget d l LANE.LOOP 11 8) b :=
    (if_neg (not_or.2 ⟨not_not.2 hloop, hfar⟩)).trans (if_pos hcode)
  exact ⟨_, hbits.trans (if_pos (decide_eq_true hfull))⟩

section
variable (hl : l < 24)
include hl

/-- A checker that locks changes LOOP, where it shows, and event registers. -/
theorem Chip.lockShown (x : LaneSt) :
    (((c.setLane d l x).lput d l LANE.LOOP 5 5 1).levent d l 11).lget d l LANE.LOOP 5 5 = 1 ∧
      c.regsBut (((c.setLane d l x).lput d l LANE.LOOP 5 5 1).levent d l 11)
        fun a => a = ra d (lanePage l) LANE.LOOP ∨ eventReg d (lanePage l) a := by
  have hquiet : quiet (lanePage l) LANE.LOOP = true := quiet_lanePage hl (by decide) (by decide) (by decide)
  constructor
  · rw [lget_eq_get, Chip.levent, Chip.get_congr (Chip.reg_event_quiet _ d d hquiet _ _)]
    exact Chip.get_put _ d _ _ 1 (by decide) (by decide)
  · intro a ha
    obtain ⟨hloop, hevent⟩ := not_or.1 ha
    exact ((Chip.touches_event _ d (lanePage l) 11).2 a hevent).trans ((Chip.touches_put (c.setLane d l x) d _ _ 5 5 1).2 a hloop)

/-- A wrong bit adds 1 to the error counter of a locked checker, which stays locked but for the 8th among the latest 64. -/
theorem Chip.wrongBit_counted (hlocked : c.lget d l LANE.LOOP 5 5 = 1) :
    (c.checkBit d l true).num d (lanePage l) LANE.LOOP_ERR_COUNT = min 0xFFFFFFFF (c.num d (lanePage l) LANE.LOOP_ERR_COUNT + 1) ∧
      (c.checkBit d l true).lget d l LANE.LOOP 5 5 =
        if 8 ≤ (((true :: (c.lane d l).check.errs).take 64).filter (fun e => e)).length then 0 else 1 := by
  obtain ⟨x, hx⟩ := Chip.checkBit_counts hlocked
  have hquiet : ∀ {r}, r < 0x1000 → r ≠ PAGE_EVENT → r ≠ PAGE_EVENT_LOST → quiet (lanePage l) r = true := quiet_lanePage hl
  generalize hu : (c.count d (lanePage l) LANE.LOOP_ERR_COUNT).setLane d l x = u at hx
  have hcount : u.num d (lanePage l) LANE.LOOP_ERR_COUNT = min 0xFFFFFFFF (c.num d (lanePage l) LANE.LOOP_ERR_COUNT + 1) := by
    rw [← hu, Chip.num, Chip.reg_setLane, Chip.count_eq, Chip.reg_setReg_same, BitVec.toNat_ofNat]
    exact Nat.mod_eq_of_lt (by omega)
  have hstill : u.lget d l LANE.LOOP 5 5 = 1 := by
    refine (Chip.get_congr (c := c) ?_ 5 5).trans hlocked
    rw [← hu, Chip.reg_setLane, Chip.count_eq,
      Chip.reg_setReg_apart _ d d (apart_in_lanePage hl (by decide) (by decide) (by decide))]
  rw [hx]
  split
  · constructor
    · have hreg : ((u.lput d l LANE.LOOP 5 5 0).levent d l 12).reg d (lanePage l) LANE.LOOP_ERR_COUNT =
          u.reg d (lanePage l) LANE.LOOP_ERR_COUNT := by
        rw [Chip.levent, Chip.reg_event_quiet _ d d (hquiet (by decide) (by decide) (by decide)), Chip.lput,
          Chip.reg_put_apart _ d d (apart_in_lanePage hl (by decide) (by decide) (by decide))]
      exact (congrArg BitVec.toNat hreg).trans hcount
    · rw [lget_eq_get, Chip.levent, Chip.get_congr (Chip.reg_event_quiet _ d d (hquiet (by decide) (by decide) (by decide)) _ _)]
      exact Chip.get_put _ d _ _ 0 (by decide) (by decide)
  · exact ⟨hcount, hstill⟩

end
end

theorem laneHoldsAndLoops : Claim.LaneHoldsAndLoops := by
  intro s d l hlane
  refine ⟨fun hl hrate hsnap => ?_, fun hl => ?_, ?_⟩
  · exact ⟨s.up fun c => c.idleHold d l, if_pos hlane, rfl, Chip.idleHold_spec hl hrate hsnap⟩
  · exact (if_pos hlane).trans (congrArg Host.Outcome.next (State.up_congr (if_pos hl)))
  · intro code k want hloop hfar hcode hfull
    refine ⟨fun hopen hgood => ⟨s.up fun c => c.loopBits d l [want], if_pos hlane, rfl, ?_⟩,
      fun hlocked => ⟨s.up fun c => c.loopBits d l [!want], if_pos hlane, rfl, ?_⟩⟩
    · obtain ⟨b, hbits⟩ := Chip.loopBits_one want hloop hfar hcode hfull
      obtain ⟨x, hlocks⟩ := Chip.checkBit_locks (c := s.chip.sawBit d l b) (d := d) (l := l) hopen
        ((congrArg CheckSt.good (s.chip.check_sawBit d l b)).trans hgood)
      have hright : (want != prbsNext (s.chip.lget d l LANE.LOOP 11 8) (s.chip.lane d l).check.seen) = false := bne_self_eq_false want
      rw [State.up_chip, hbits, hright, hlocks]
      exact Chip.lockShown hlane.2 x
    · obtain ⟨b, hbits⟩ := Chip.loopBits_one (!want) hloop hfar hcode hfull
      have hwrong : ((!want) != prbsNext (s.chip.lget d l LANE.LOOP 11 8) (s.chip.lane d l).check.seen) = true := Bool.not_bne_self want
      have hcounted := Chip.wrongBit_counted (c := s.chip.sawBit d l b) hlane.2 hlocked
      rw [Chip.check_sawBit] at hcounted
      rw [State.up_chip, hbits, hwrong]
      exact hcounted

/-- Settles O23: a lane command puts its lane where it says; a hold takes the coefficients of the cycle's beginning back; and the
checker of a loop judges one bit at a time. -/
theorem laneCommandsAndLoops : Obligations.LaneCommandsAndLoops := ⟨laneCommands, laneHoldsAndLoops⟩

end Sys2Proof.Machine
end

section
/-! PROOFS. The fault codes of a page, and the one that it shows (O44; R154, R448). -/

namespace Sys2Proof.Machine

/-- The highest of a list of codes bounds each of them. -/
theorem le_foldl_max {l : List Nat} {x : Nat} (hx : x ∈ l) : x ≤ l.foldl max 0 := by
  rw [List.foldl_max]; exact le_max_of_le_right (List.le_max?_getD_of_mem hx)

/-- The highest of a list of codes is one of them, or 0 when there is none. -/
theorem foldl_max_mem (l : List Nat) : l.foldl max 0 ∈ l ∨ l.foldl max 0 = 0 := by
  rw [List.foldl_max, Nat.zero_max]
  cases h : l.max? with
  | none => exact .inr rfl
  | some a => exact .inl (List.max?_eq_some_iff.1 h).1

section
variable (c : Chip) (d p : Nat)

@[simp] theorem Chip.codesOf_setCodes (l : List Nat) : (c.setCodes d p l).codesOf d p = l := by
  simp [Chip.setCodes, Chip.codesOf, Chip.setNum_eq]

/-- A page shows the highest of its codes (R154). -/
theorem Chip.faultCode_setCodes {l : List Nat} (h : ∀ x ∈ l, x < 2 ^ 32) : (c.setCodes d p l).faultCode d p = l.foldl max 0 := by
  have hmax : l.foldl max 0 < 2 ^ 32 := by
    rcases foldl_max_mem l with hl | hl
    · exact h _ hl
    · omega
  exact Chip.num_setNum _ d p PAGE_FAULT_CODE hmax

/-- The codes of a page after one is latched, and after one is taken back. -/
theorem Chip.codesOf_latchCode (v : Nat) : (c.latchCode d p v).codesOf d p = (c.codesOf d p).filter (fun x => x ≠ v) ++ [v] :=
  c.codesOf_setCodes d p _

theorem Chip.codesOf_unlatchCode (v : Nat) : (c.unlatchCode d p v).codesOf d p = (c.codesOf d p).filter (fun x => x ≠ v) :=
  c.codesOf_setCodes d p _

theorem Chip.mem_codesOf_latchCode {v x : Nat} : x ∈ (c.latchCode d p v).codesOf d p ↔ x ∈ v :: c.codesOf d p := by
  rw [Chip.codesOf_latchCode]
  by_cases hx : x = v <;> simp [hx]

theorem Chip.mem_codesOf_unlatchCode {v x : Nat} : x ∈ (c.unlatchCode d p v).codesOf d p ↔ x ∈ c.codesOf d p ∧ x ≠ v := by
  simp [Chip.codesOf_unlatchCode]

/-- Both show the highest of the codes that they leave. -/
theorem Chip.faultCode_latchCode {v : Nat} (h : ∀ x ∈ v :: c.codesOf d p, x < 2 ^ 32) :
    (c.latchCode d p v).faultCode d p = ((c.latchCode d p v).codesOf d p).foldl max 0 := by
  rw [Chip.codesOf_latchCode]
  refine c.faultCode_setCodes d p fun x hx => h x ?_
  rwa [← c.codesOf_latchCode, Chip.mem_codesOf_latchCode] at hx

theorem Chip.faultCode_unlatchCode {v : Nat} (h : ∀ x ∈ v :: c.codesOf d p, x < 2 ^ 32) :
    (c.unlatchCode d p v).faultCode d p = ((c.unlatchCode d p v).codesOf d p).foldl max 0 := by
  rw [Chip.codesOf_unlatchCode]
  exact c.faultCode_setCodes d p fun x hx => h x (List.mem_cons_of_mem _ (List.mem_filter.1 hx).1)

end

/-- Settles O44: the page shows the highest of its codes, and those are the others with the latched one, or without the cleared one. -/
theorem faultCodes : Obligations.FaultCodes := by
  intro c d p v h
  have hlatched : ∀ x ∈ v :: c.codesOf d p, x ≤ (c.latchCode d p v).faultCode d p := fun x hx => by
    rw [c.faultCode_latchCode d p h]; exact le_foldl_max ((c.mem_codesOf_latchCode d p).2 hx)
  refine ⟨c.codesOf_latchCode d p v, hlatched v (List.mem_cons_self ..), fun x hx => hlatched x (List.mem_cons_of_mem _ hx), ?shown,
    fun hv => ((c.mem_codesOf_unlatchCode d p).1 hv).2 rfl, fun x hx hne => ?others⟩
  case shown =>
    rcases foldl_max_mem ((c.latchCode d p v).codesOf d p) with hmem | hzero
    · rw [c.faultCode_latchCode d p h]; exact (c.mem_codesOf_latchCode d p).1 hmem
    · rw [← c.faultCode_latchCode d p h] at hzero
      have hv := hlatched v (List.mem_cons_self ..)
      rw [show (c.latchCode d p v).faultCode d p = v by omega]
      exact List.mem_cons_self ..
  case others =>
    rw [c.faultCode_unlatchCode d p h]; exact le_foldl_max ((c.mem_codesOf_unlatchCode d p).2 ⟨hx, hne⟩)

end Sys2Proof.Machine
end

section
/-! PROOFS. Forcing and clearing PAGE_EVENT bits over a port (O17; R148, R152). -/

namespace Sys2Proof.Machine

/-- What a write of PAGE_EVENT does to a page with the common header (R152). -/
theorem State.writeReg_pageEvent (s : State) {d p : Nat} {k : PageKind} (w : Word) (hk : hasHeader d p k) :
    s.writeReg d p PAGE_EVENT w = s.up fun c => c.clearEvents d p w := by
  obtain ⟨hkind, hlayer, hsvc⟩ := hk
  unfold State.writeReg
  rw [hkind]
  dsimp only
  rw [if_neg (fun h => h.2 (hsvc h.1)), if_neg hlayer, if_pos rfl]

/-- What a write of PAGE_EVENT_FORCE does to such a page (R148). -/
theorem State.writeReg_pageEventForce (s : State) {d p : Nat} {k : PageKind} (w : Word) (hk : hasHeader d p k) :
    s.writeReg d p PAGE_EVENT_FORCE w = s.up fun c => c.events d p (bitList (w.toNat &&& eventMask k)) := by
  obtain ⟨hkind, hlayer, hsvc⟩ := hk
  unfold State.writeReg
  rw [hkind]
  dsimp only
  rw [if_neg (fun h => h.2 (hsvc h.1)), if_neg hlayer, if_neg (by decide), if_pos rfl]

/-- No set of a bit changes nothing. -/
theorem Chip.events_nil (c : Chip) (d p : Nat) : c.events d p [] = c :=
  c.events_silent d p (c' := c) (by simp [Chip.setEvents])

/-- Of the numbers below a bound, a test for one of them finds that one. -/
theorem filter_range_eq_singleton {n b : Nat} (hb : b < n) : (List.range n).filter (fun x => x = b) = [b] := by
  rw [List.filter_eq, List.count_eq_one_of_mem List.nodup_range (List.mem_range.2 hb)]; rfl

/-- A set that meets the clear of its bit makes the bit 1 again, and counts as neither lost nor new (R152). -/
theorem Chip.setsMeetClear_one (c : Chip) (d p : Nat) {old : Word} {b : Nat} (hb : b < 32) (hold : bit old b = true)
    (hnow : bit (c.reg d p PAGE_EVENT) b = false) :
    c.setsMeetClear d p old [b] = c.setReg d p PAGE_EVENT (c.reg d p PAGE_EVENT ||| BitVec.ofNat 32 (2 ^ b)) := by
  have hkept : (List.range 32).filter (fun x => bit old x && !bit (c.reg d p PAGE_EVENT) x && [b].contains x) = [b] := by
    rw [← filter_range_eq_singleton hb]
    refine List.filter_congr fun x _ => ?_
    by_cases hx : x = b
    · subst hx; simp [hold, hnow, hb]
    · simp [hx]
  unfold Chip.setsMeetClear
  simp only [hkept, List.foldl_cons, List.foldl_nil, Nat.zero_add, List.erase_cons_head, Chip.events_nil]

/-- A bit to which a 1 is written is 0 after the clear. -/
theorem bit_clear {w v : Word} {b : Nat} (hb : bit v b = true) : bit (w &&& ~~~v) b = false := by
  have hv : v.getLsbD b = true := hb
  show (w &&& ~~~v).getLsbD b = false
  simp [hv]

/-- A write of PAGE_EVENT that meets a set of the block in the same cycle: the write, and then the set (R152). -/
theorem exec_pageEventClear_meets {s t : State} {h : Hdr} {p b : Nat} {w : Word} (hd : h.die < dieCount s.chip.member)
    (hruns : s.chip.dieRuns h.die = true) (ht : exec (.pageEventClear h p w []) s = .next t) :
    exec (.pageEventClear h p w [b]) s = .next (t.up fun c => c.setsMeetClear h.die p (s.chip.reg h.die p PAGE_EVENT) [b]) := by
  have hwrite : s.writeOne h p PAGE_EVENT w = .next t := (exec_of_asCommand (i := .pageEventClear h p w []) s rfl).symm.trans ht
  show execPageEventClear h p w [b] s = _
  unfold execPageEventClear
  rw [hwrite]
  exact congrArg Host.Outcome.next (if_pos ⟨hd, by simp, hruns⟩)

/-- PAGE_EVENT as a REG_WRITE of it leaves it, completed. -/
theorem State.reg_wrote_pageEvent (s : State) (h : Hdr) (p : Nat) (w : Word) :
    (s.wrote h p PAGE_EVENT w fun c => c.clearEvents h.die p w).chip.reg h.die p PAGE_EVENT = s.chip.reg h.die p PAGE_EVENT &&& ~~~w :=
  (Chip.reg_finish ..).trans (Chip.reg_setReg_same ..)

/-- Settles O17: each write runs as the REG_WRITE of its register, and a set that meets a clear keeps its bit. -/
theorem pageEventWrites : Obligations.PageEventWrites := by
  intro s h p k w hk
  have hkind := hk.1
  refine ⟨fun hw => exec_mayWrite rfl hkind (by decide) hw (State.writeReg_pageEventForce _ w hk), fun hw => ?_⟩
  have hclear := exec_mayWrite (i := .pageEventClear h p w []) rfl hkind (by decide) hw (State.writeReg_pageEvent _ w hk)
  refine ⟨hclear, fun hruns b hb hold hbit => ?_⟩
  rw [exec_pageEventClear_meets (die_lt_of_admits hw.1.1) hruns hclear]
  refine congrArg Host.Outcome.next (State.up_congr (Chip.setsMeetClear_one _ _ _ hb hold ?_))
  rw [s.reg_wrote_pageEvent]
  exact bit_clear hbit

end Sys2Proof.Machine
end

section
/-! PROOFS. Writes to the bit aliases of the baskets, and direct accesses of a steward (O19; R135, R140, R141). -/

namespace Sys2Proof.Machine

/-! ### Places in a die's window (R133, R135) -/

theorem place_of_setAlias (d : Nat) {x : Nat} (hlo : 0x400000 ≤ x) (hhi : x < 0x600000) :
    place d x = .setAlias (d * 0x1000000 + x + 0x400000) := by
  unfold place
  rw [if_neg (by omega), if_neg (by omega), if_pos hhi]

theorem place_of_clearAlias (d : Nat) {x : Nat} (hlo : 0x600000 ≤ x) (hhi : x < 0x800000) :
    place d x = .clearAlias (d * 0x1000000 + x + 0x200000) := by
  unfold place
  rw [if_neg (by omega), if_neg (by omega), if_neg (by omega), if_pos hhi]

theorem place_of_word (d : Nat) {x : Nat} (hx : 0x800000 ≤ x) : place d x = .word (d * 0x1000000 + x) := by
  unfold place
  rw [if_neg (by omega), if_neg (by omega), if_neg (by omega), if_neg (by omega)]

/-! ### Words with their check bits (R381, R386) -/

theorem Chip.wantBasket_badWords (c : Chip) (m d b : Nat) : (c.wantBasket m d b).badWords = c.badWords := by
  obtain ⟨c', w, h, e⟩ := c.wantBasket_touches m d b
  rw [e, h.1]

theorem Chip.wantBasket_fixups (c : Chip) (m d b : Nat) : (c.wantBasket m d b).fixups = c.fixups := by
  obtain ⟨c', w, h, e⟩ := c.wantBasket_touches m d b
  rw [e, h.1]

/-- A word whose check bits are right is read without a trace. -/
theorem Chip.checkWord_right (c : Chip) (d : Nat) {a : Nat} (hbad : a ∉ c.badWords) (hfix : a ∉ c.fixups) :
    c.checkWord d a .none = (c, true) := by
  simp [Chip.checkWord, hbad, hfix]

theorem Chip.checkWord_bad (c : Chip) (d : Nat) {a : Nat} (hbad : a ∈ c.badWords) : (c.checkWord d a .none).2 = false := by
  simp [Chip.checkWord, hbad]

/-- A bit-set or bit-clear write of a word whose check bits are right. -/
theorem State.aliasWrite_right (s : State) (d : Nat) {a : Nat} (set : Bool) (w : Word) (hbad : a ∉ s.chip.badWords)
    (hfix : a ∉ s.chip.fixups) : s.aliasWrite d a set w = (s.setWord a (if set then s.mem.word a ||| w else s.mem.word a &&& ~~~w), true) := by
  simp only [State.aliasWrite, s.chip.checkWord_right d hbad hfix, if_true]
  rfl

/-- One of an uncorrectable word leaves it as it was. -/
theorem State.aliasWrite_bad (s : State) (d : Nat) {a : Nat} (set : Bool) (w : Word) (hbad : a ∈ s.chip.badWords) :
    s.aliasWrite d a set w = (s.up fun c => (c.checkWord d a .none).1, false) := by
  simp only [State.aliasWrite, s.chip.checkWord_bad d hbad, Bool.false_eq_true, if_false]
  rfl

/-! ### Writes to the aliases (R135) -/

/-- A command that starts has changed no memory yet. -/
@[simp] theorem State.starts_mem (s : State) (h : Hdr) (cmd : Cmd) : (s.starts h cmd).mem = s.mem := State.up_mem ..

/-- A REG_WRITE of one word writes that word (R124). -/
theorem State.writeWords_singleton (s : State) (port : Port) (d x : Nat) (w : Word) :
    s.writeWords port d x [w] = s.writeWord port 5 d x w := by
  simp [State.writeWords, State.writeList, wordAddrs]

/-- A REG_WRITE to the window of a die names that die (R9, R132). -/
theorem die_of_admits_regWrite {c : Chip} {h : Hdr} {a : Word} {ws : List Word} (ha : c.admits h (.regWrite a ws))
    (hwin : a.toNat / 0x1000000 < 8) : h.die = a.toNat / 0x1000000 := by
  have hn := namesOk_of_admits ha
  simp only [namesOk, cmdOutput, cmdLane, Bool.and_eq_true, decide_eq_true_eq] at hn
  obtain ⟨-, -, hdie⟩ := hn
  rwa [if_neg (by omega)] at hdie

/-- A REG_WRITE of one word to the window of its die, whose value is judged OK, writes it and completes (R124). -/
theorem State.run_regWrite_word (s : State) {r : Req} {a w : Word} (hr : r.cmd = .regWrite a [w]) (hwin : a.toNat / 0x1000000 < 8)
    (hst : s.chip.writesStatus r.port r.die (a.toNat % 0x1000000) [w] = OK) :
    s.run r = (s.writeWord r.port 5 r.die (a.toNat % 0x1000000) w).1.done r
      (if (s.writeWord r.port 5 r.die (a.toNat % 0x1000000) w).2 then OK else FAIL) := by
  rw [State.run_regWrite s r a [w] hr hwin, State.regWrite_taken s r _ _ [w] hst, State.writeWords_singleton]

/-- Such a write, to the bit-set or bit-clear place of the word `b`, sets or clears its bits, or fails where the word is uncorrectable (R135). -/
theorem exec_aliasWrite {i : Instr} {h : Hdr} {s : State} {a w : Word} {b : Nat} (set : Bool)
    (hi : i.asCommand = some (h, .regWrite a [w])) (ha : s.chip.admits h (.regWrite a [w])) (hwin : a.toNat / 0x1000000 < 8)
    (hst : (s.starts h (.regWrite a [w])).chip.writesStatus h.port h.die (a.toNat % 0x1000000) [w] = OK)
    (hplace : place h.die (a.toNat % 0x1000000) = if set then .setAlias b else .clearAlias b) :
    let r := s.req h (.regWrite a [w])
    let want := (s.starts h (.regWrite a [w])).up fun c => c.wantBasket 5 h.die (basketOf b)
    (b ∉ s.chip.badWords → b ∉ s.chip.fixups →
      exec i s = .next ((want.setWord b (if set then s.mem.word b ||| w else s.mem.word b &&& ~~~w)).done r OK)) ∧
    (b ∈ s.chip.badWords → exec i s = .next ((want.up fun c => (c.checkWord h.die b .none).1).done r FAIL)) := by
  intro r want
  have hwrite : (s.starts h (.regWrite a [w])).writeWord h.port 5 h.die (a.toNat % 0x1000000) w = want.aliasWrite h.die b set w := by
    unfold State.writeWord
    rw [hplace]
    cases set <;> rfl
  have hbadWords : want.chip.badWords = s.chip.badWords := Chip.wantBasket_badWords ..
  have hfixups : want.chip.fixups = s.chip.fixups := Chip.wantBasket_fixups ..
  have hmem : want.mem = s.mem := (State.up_mem ..).trans (s.starts_mem ..)
  have hrun : exec i s = .next ((want.aliasWrite h.die b set w).1.done r (if (want.aliasWrite h.die b set w).2 then OK else FAIL)) := by
    rw [exec_admitted hi ha, ← hwrite]
    exact congrArg Host.Outcome.next (State.run_regWrite_word _ (r := r) rfl hwin hst)
  rw [hrun]
  refine ⟨fun hbad hfix => ?_, fun hbad => ?_⟩
  · rw [want.aliasWrite_right h.die set w (hbadWords ▸ hbad) (hfixups ▸ hfix), hmem, if_pos rfl]
  · rw [want.aliasWrite_bad h.die set w (hbadWords ▸ hbad), if_neg Bool.false_ne_true]

theorem aliasWrites : Claim.AliasWrites := by
  intro s h a w ha hwin u r x want hst
  have hdie := die_of_admits_regWrite ha hwin
  refine ⟨fun hlo hhi => ?set, fun hlo hhi => ?clear⟩
  case set =>
    intro b
    have hb : h.die * 0x1000000 + x + 0x400000 = b := by omega
    obtain ⟨hright, hbad⟩ := exec_aliasWrite (i := .bitSetAliasWrite h a w) true rfl ha hwin hst
      ((place_of_setAlias h.die hlo hhi).trans (congrArg Place.setAlias hb))
    exact ⟨hright, fun hx => ⟨_, hbad hx, (State.up_mem ..).trans ((State.up_mem ..).trans (s.starts_mem ..)), rfl⟩⟩
  case clear =>
    intro b
    have hb : h.die * 0x1000000 + x + 0x200000 = b := by omega
    obtain ⟨hright, hbad⟩ := exec_aliasWrite (i := .bitClearAliasWrite h a w) false rfl ha hwin hst
      ((place_of_clearAlias h.die hlo hhi).trans (congrArg Place.clearAlias hb))
    exact ⟨hright, fun hx => ⟨_, hbad hx, (State.up_mem ..).trans ((State.up_mem ..).trans (s.starts_mem ..)), rfl⟩⟩

/-! ### Direct accesses (R140, R141) -/

/-- Reading a register without RC bits, whose value is not free, clears nothing (R15). -/
theorem Chip.clearRead_plain (c : Chip) (d : Nat) {p o : Nat} (hrc : rcMask p o = 0) (hfree : freeReg p o = false) : c.clearRead d p o = c := by
  simp [Chip.clearRead, hrc, hfree]

theorem inWindow_iff {d : Nat} {a : Word} {size : Nat} : inWindow d a size = true ↔
    size = 4 ∧ a.toNat / 0x1000000 = d ∧ a.toNat % 4 = 0 ∧ place d (a.toNat % 0x1000000) ≠ .unmapped := by
  simp [inWindow, and_assoc]

section
variable {s : State} {d : Nat} {a : Word} (hruns : s.chip.stewardRuns d = true)
include hruns

/-- An access that is no whole word of the die's own window is refused (R141). -/
theorem State.directLoad_outside {x : DirectLoad} (h : ¬inWindow d a x.size = true) :
    s.directLoad d a x = s.up fun c => c.refuseDirect d a ARG := by
  unfold State.directLoad
  rw [if_neg (by simp [hruns]), if_pos (by simpa using h)]

theorem State.directStore_outside {x : DirectStore} (h : ¬inWindow d a x.size = true) :
    s.directStore d a x = s.up fun c => c.refuseDirect d a ARG := by
  unfold State.directStore
  dsimp only
  rw [if_neg (by simp [hruns]), if_pos (by simpa using h)]

/-- A load of a register clears its RC bits (R140). -/
theorem State.directLoad_reg {x : DirectLoad} {p o : Nat} (h : inWindow d a x.size = true)
    (hplace : place d (a.toNat % 0x1000000) = .reg p o) : s.directLoad d a x = s.up fun c => c.clearRead d p o := by
  unfold State.directLoad
  rw [if_neg (by simp [hruns]), if_neg (by simp [h]), hplace]

/-- A store to a basket word that nothing refuses writes it (R140). -/
theorem State.directStore_word {x : DirectStore} {b : Nat} (h : inWindow d a x.size = true)
    (hst : s.chip.writeStatus (.steward d) true d (a.toNat % 0x1000000) x.value = OK)
    (hplace : place d (a.toNat % 0x1000000) = .word b) :
    s.directStore d a x = (s.up fun c => c.wantBasket 0 d (basketOf b)).setWord b x.value := by
  have hwrite : s.writeWord (.steward d) 0 d (a.toNat % 0x1000000) x.value =
      ((s.up fun c => c.wantBasket 0 d (basketOf b)).setWord b x.value, true) := by
    unfold State.writeWord
    rw [hplace]
  unfold State.directStore
  dsimp only
  rw [if_neg (by simp [hruns]), if_neg (by simp [h]), if_neg (not_not_intro hst), hwrite]
  rfl

end

theorem stewardDirectAccess : Claim.StewardDirectAccess := by
  refine ⟨fun s d p o upset hd hruns hp ho hal hk hrc hfree => ?load, fun s d a w hd hruns hdie hal hx hst => ?store,
    fun s d size a w upset hd hruns hout => ?outside⟩
  case load =>
    obtain ⟨k, hk⟩ := Option.isSome_iff_exists.1 hk
    obtain ⟨hdie, hwin⟩ := regWord_toNat (lt_of_lt_of_le hd (dieCount_le _)) (show p < 0x1000 by omega) ho
    have hplace : place d ((regWord d p o).toNat % 0x1000000) = .reg p o := by rw [hwin]; exact place_of_page d hk ho
    have hin : inWindow d (regWord d p o) 4 = true := inWindow_iff.2 ⟨rfl, hdie, by omega, by simp [hplace]⟩
    have hload : s.directLoad d (regWord d p o) ⟨4, upset⟩ = s :=
      (State.directLoad_reg hruns hin hplace).trans (State.up_congr (g := id) (Chip.clearRead_plain _ d hrc hfree))
    exact (if_pos hd).trans (congrArg Host.Outcome.next hload)
  case store =>
    have hplace : place d (a.toNat % 0x1000000) = .word a.toNat :=
      (place_of_word d hx).trans (congrArg Place.word (by omega))
    have hin : inWindow d a 4 = true := inWindow_iff.2 ⟨rfl, hdie, hal, by simp [hplace]⟩
    exact (if_pos hd).trans (congrArg Host.Outcome.next (State.directStore_word (x := ⟨4, w⟩) hruns hin hst hplace))
  case outside =>
    have hin : ¬inWindow d a size = true := fun h => by
      obtain ⟨hsize, hdie, -⟩ := inWindow_iff.1 h
      exact hout.elim (fun hne => hne hdie) (fun hne => hne hsize)
    exact ⟨(if_pos hd).trans (congrArg Host.Outcome.next (State.directLoad_outside (x := ⟨size, upset⟩) hruns hin)),
      (if_pos hd).trans (congrArg Host.Outcome.next (State.directStore_outside (x := ⟨size, w⟩) hruns hin))⟩

/-- Settles O19: the basket word takes or loses the bits or is left as it was, and what direct accesses of a steward do. -/
theorem basketAliasesAndStewardAccess : Obligations.BasketAliasesAndStewardAccess := ⟨aliasWrites, stewardDirectAccess⟩

end Sys2Proof.Machine
end

section
/-! PROOFS. Broadcast reads (O18; R144, R145). -/

namespace Sys2Proof.Machine

/-! ### The broadcast window (R134) -/

theorem bcastWord_toNat {x : Nat} (hx : x < 0x1000000) :
    (BitVec.ofNat 32 (0x08000000 + x)).toNat / 0x1000000 = 8 ∧ (BitVec.ofNat 32 (0x08000000 + x)).toNat % 0x1000000 = x := by
  rw [BitVec.toNat_ofNat]; omega

theorem dieCount_pos (m : Member) : 0 < dieCount m := by cases m <;> decide

/-- A REG_READ of the broadcast window is a broadcast read (R144). -/
theorem State.run_bcastRead (s : State) {r : Req} {a : Word} {n : Nat} (hr : r.cmd = .regRead a n) (ha : a.toNat / 0x1000000 = 8) :
    s.run r = s.bcastRead r (a.toNat % 0x1000000) n := by
  unfold State.run
  rw [hr]
  exact if_pos ha

/-- What an admitted REG_READ names is mapped (R13, R134). -/
theorem mapped_of_admits_regRead {c : Chip} {h : Hdr} {a : Word} {n : Nat} (ha : c.admits h (.regRead a n)) :
    place 0 (a.toNat % 0x1000000) ≠ .unmapped := by
  have hn := namesOk_of_admits ha
  simp only [namesOk, cmdOutput, cmdLane, addrOk, Bool.and_eq_true, decide_eq_true_eq] at hn
  obtain ⟨-, ⟨-, hmapped⟩, -⟩ := hn
  exact hmapped

/-- A mapped place among the register pages is a register of a page. -/
theorem pageKind_of_mapped {d p o : Nat} (hp : p < 0x111) (ho : o < 0x1000) (h : place d (p * 0x1000 + o) ≠ .unmapped) :
    ∃ k, pageKind p = some k := by
  have hpage : (p * 0x1000 + o) / 0x1000 = p := by omega
  unfold place at h
  rw [if_pos (by omega), hpage] at h
  by_contra hk
  exact h (if_neg fun hsome => hk (Option.isSome_iff_exists.1 hsome))

/-- The dies whose word of a register differs from die 0's, as a port reads them (R144). -/
def Chip.differing (c : Chip) (port : Port) (p o : Nat) : List Nat :=
  c.dies'.filter fun d => decide (c.readsAs port d p o ≠ c.readsAs port 0 p o)

section
variable (s : State) (r : Req) {p o : Nat} {k : PageKind} (hk : pageKind p = some k) (ho : o < 0x1000)
include hk ho

/-- A broadcast read of a register with RC bits is refused (R145). -/
theorem State.bcastRead_rc (hrc : rcMask p o ≠ 0) : s.bcastRead r (p * 0x1000 + o) 1 = s.done r ARG := by
  unfold State.bcastRead
  simp only [wordAddrs, List.range_one, List.map_cons, List.map_nil, Nat.mul_zero, Nat.add_zero, List.any_cons, List.any_nil,
    place_of_page 0 hk ho, hrc, ne_eq, not_false_eq_true, decide_true, Bool.or_false, if_true]

variable (hrc : rcMask p o = 0) (hfree : freeReg p o = false)
include hrc hfree

/-- A read of a register without RC bits, whose value is not free, changes nothing (R15). -/
theorem State.readWords_plain (port : Port) (d : Nat) :
    s.readWords port d [p * 0x1000 + o] = (s, some [s.chip.readsAs port d p o]) := by
  have hclear : (s.up fun c => c.clearRead d p o) = s := State.up_congr (g := id) (s.chip.clearRead_plain d hrc hfree)
  have hword : s.readWord port d (p * 0x1000 + o) = (s, some (s.chip.readsAs port d p o)) := by
    unfold State.readWord
    rw [place_of_page d hk ho]
    exact congrArg (·, _) hclear
  simp only [State.readWords, hword]

/-- So does a read of it on one die after the other. -/
theorem State.foldl_readWords_plain (port : Port) (l : List Nat) (ws : List (Option (List Word))) :
    l.foldl (fun (q : State × List (Option (List Word))) d =>
        let y := q.1.readWords port d [p * 0x1000 + o]; (y.1, q.2 ++ [y.2])) (s, ws) =
      (s, ws ++ l.map fun d => some [s.chip.readsAs port d p o]) := by
  induction l generalizing ws with
  | nil => simp
  | cons d l ih => simp only [List.foldl_cons, s.readWords_plain hk ho hrc hfree, ih, List.map_cons, List.append_assoc, List.singleton_append]

/-- A broadcast read of such a register returns die 0's word, and shows the dies whose word differs (R144). -/
theorem State.bcastRead_plain : s.bcastRead r (p * 0x1000 + o) 1 =
    (if s.chip.differing r.port p o = [] then s
      else s.up fun c => (c.setNum 0 SYS SYS.BCAST_MISMATCH
        (((s.chip.differing r.port p o).foldl (fun m d => m + 2 ^ d) 0) * 2 ^ 24 + (p * 0x1000 + o) % 2 ^ 24)).event 0 SYS 0).finish
      r OK 0 (leBytes 4 (s.chip.readsAs r.port 0 p o).toNat) := by
  obtain ⟨ws, hws⟩ : ∃ ws : List (Option (List Word)), ws = s.chip.dies'.map fun d => some [s.chip.readsAs r.port d p o] := ⟨_, rfl⟩
  have hall : s.chip.dies'.foldl (fun (q : State × List (Option (List Word))) d =>
      let y := q.1.readWords r.port d [p * 0x1000 + o]; (y.1, q.2 ++ [y.2])) (s, []) = (s, ws) :=
    hws ▸ s.foldl_readWords_plain hk ho hrc hfree r.port s.chip.dies' []
  have hsome : ws.any (fun y => y.isNone) = false := by simp [hws]
  have hword : ∀ d ∈ s.chip.dies', (ws.getD d none).getD [] = [s.chip.readsAs r.port d p o] := fun d hd => by
    have hlt : d < dieCount s.chip.member := List.mem_range.1 hd
    simp [hws, Chip.dies', hlt]
  have hzero := hword 0 (List.mem_range.2 (dieCount_pos _))
  have hdiff : s.chip.dies'.filter (fun d => decide ((ws.getD d none).getD [] ≠ (ws.getD 0 none).getD [])) =
      s.chip.differing r.port p o :=
    List.filter_congr fun d hd => by rw [hword d hd, hzero]; simp
  have hfirst : ∀ f : Nat → Bool, ((List.range 1).find? f).getD 0 = 0 := fun f => by
    cases hf : f 0 <;> simp [List.range_one, hf]
  have has : wordAddrs (p * 0x1000 + o) 1 = [p * 0x1000 + o] := by simp [wordAddrs]
  unfold State.bcastRead
  simp only [has, List.any_cons, List.any_nil, place_of_page 0 hk ho, hrc, ne_eq, not_true_eq_false, decide_false, Bool.or_false,
    Bool.false_eq_true, if_false, hall, hsome, hfirst, Nat.mul_zero, Nat.add_zero]
  rw [hdiff, hzero]
  simp [wordBytes]

end

theorem broadcastRead : Claim.BroadcastRead := by
  intro s h p o hp ho hfree x cmd ha u differ
  obtain ⟨hwin, hx⟩ := bcastWord_toNat (x := x) (by omega)
  obtain ⟨k, hk⟩ := pageKind_of_mapped hp ho (hx ▸ mapped_of_admits_regRead ha)
  have hrun : exec (.bcastRegRead h x 1) s = .next ((s.starts h cmd).bcastRead (s.req h cmd) x 1) := by
    rw [exec_admitted (i := .bcastRegRead h x 1) rfl ha, State.run_bcastRead _ (r := s.req h cmd) rfl hwin, hx]
  have hdiffer : (s.starts h cmd).chip.differing (s.req h cmd).port p o = differ := rfl
  refine ⟨fun hrc => ?rc, fun hrc hsame => ?same, fun hrc hdiff => ?differ⟩
  case rc => rw [hrun, State.bcastRead_rc _ _ hk ho hrc]
  case same => rw [hrun, State.bcastRead_plain _ _ hk ho hrc hfree, hdiffer, if_pos hsame]; rfl
  case differ => rw [hrun, State.bcastRead_plain _ _ hk ho hrc hfree, hdiffer, if_neg hdiff]; rfl

end Sys2Proof.Machine
end

section
/-! PROOFS. Broadcast writes, and with them the statement on broadcast accesses (O18; R142, R143). -/

namespace Sys2Proof.Machine

/-! ### Checking (R142) -/

/-- A REG_WRITE to the broadcast window is a broadcast write (R142). -/
theorem State.run_bcastWrite (s : State) {r : Req} {a : Word} {ws : List Word} (hr : r.cmd = .regWrite a ws)
    (ha : a.toNat / 0x1000000 = 8) : s.run r = s.bcastWrite r (a.toNat % 0x1000000) ws := by
  unfold State.run
  rw [hr]
  exact if_pos ha

/-- A broadcast write that no die refuses waits for its apply cycle (R142). -/
theorem State.bcastWrite_taken (s : State) (r : Req) (x : Nat) (ws : List Word)
    (h : ∀ d < dieCount s.chip.member, s.chip.writesStatus r.port d x ws = OK) :
    s.bcastWrite r x ws = s.up fun c => { c with bcast := some { req := r, offset := x, words := ws, checked := c.now } } := by
  have hst : lowest (s.chip.dies'.map fun d => s.chip.writesStatus r.port d x ws) = OK := by
    rw [lowest_eq_ok]
    intro y hy
    obtain ⟨d, hd, rfl⟩ := List.mem_map.1 hy
    exact h d (List.mem_range.1 hd)
  exact if_neg (not_not_intro hst)

/-! ### The write of one die -/

/-- Writing all bits of a word leaves nothing of the old one. -/
theorem mergeBits_all (old new : Word) : mergeBits all old new = new := by
  have h : BitVec.ofNat 32 all = BitVec.allOnes 32 := by decide
  rw [mergeBits, h, BitVec.not_allOnes, BitVec.and_zero, BitVec.zero_or, BitVec.and_allOnes]

/-- A write of a register of which every bit is RW puts the word into effect (R15). -/
theorem Chip.storeWord_rw (c : Chip) (d p : Nat) {k : PageKind} {o : Nat} (w : Word) (hrw : (regAt k o).rw = all)
    (hrws : (regAt k o).rws = 0) : c.storeWord d p k o w = c.setReg d p o w := by
  simp [Chip.storeWord, hrw, hrws, mergeBits_all]

/-- PAGE_EVENT_EN of the calibration page takes a word at once (R147). -/
theorem State.writeReg_calEvents (s : State) (d : Nat) (w : Word) :
    s.writeReg d CAL PAGE_EVENT_EN w = s.up fun c => c.setReg d CAL PAGE_EVENT_EN w := by
  have hstore : s.writeReg d CAL PAGE_EVENT_EN w = s.up fun c => c.storeWord d CAL .cal PAGE_EVENT_EN w := rfl
  exact hstore.trans (State.up_congr (Chip.storeWord_rw _ d CAL w (by decide) (by decide)))

/-- Words written all in one cycle, where there is one of them. -/
theorem State.writeAtOnce_singleton (s : State) (port : Port) (d x : Nat) (w : Word) :
    s.writeAtOnce port d x [w] = s.writeWord port 5 d x w := by
  by_cases h : x % 0x1000 = PAGE_EVENT_EN <;> simp [State.writeAtOnce, State.writeList, wordAddrs, h]

/-- PAGE_EVENT_EN of the calibration page of a die has been written by a port. -/
def Chip.enabled (c : Chip) (port : Port) (w : Word) (d : Nat) : Chip := (c.setReg d CAL PAGE_EVENT_EN w).noted c port d CAL PAGE_EVENT_EN

theorem State.writeAtOnce_calEvents (s : State) (port : Port) (d : Nat) (w : Word) (hlast : ¬s.chip.outdone port d CAL PAGE_EVENT_EN) :
    s.writeAtOnce port d (CAL * 0x1000 + PAGE_EVENT_EN) [w] = (s.up fun c => c.enabled port w d, true) := by
  rw [State.writeAtOnce_singleton, ← State.writeWords_singleton, s.writeWords_one port d w (k := .cal) rfl (by decide),
    State.portWrite_last hlast (s.writeReg_calEvents d w)]
  rfl

/-- What the ports have written in this cycle to the register of another die stands as it was (R115). -/
theorem Chip.cycleWrites_enabled (c : Chip) (port : Port) (w : Word) {d e : Nat} (hne : e ≠ d) :
    (c.enabled port w d).cycleWrites e CAL PAGE_EVENT_EN = c.cycleWrites e CAL PAGE_EVENT_EN := by
  have haddr : ra d CAL PAGE_EVENT_EN ≠ ra e CAL PAGE_EVENT_EN := fun h =>
    hne ((ra_inj (by decide) (by decide) (by decide) (by decide)).1 h).1.symm
  unfold Chip.enabled Chip.noted Chip.noteWrite Chip.cycleWrites
  by_cases hnow : c.wroteAt = c.now <;> simp [hnow, haddr]

/-! ### The writes of all dies -/

section
variable (c : Chip) (port : Port) (w : Word) (l : List Nat)

/-- The writes change registers and the notes of the cycle (R115), and nothing else. -/
theorem Chip.each_enabled_eq : c.each l (fun c d => c.enabled port w d) = { c with
    regs := (c.each l fun c d => c.enabled port w d).regs, wroteAt := (c.each l fun c d => c.enabled port w d).wroteAt,
    wrote := (c.each l fun c d => c.enabled port w d).wrote } := by
  refine Chip.each_preserves (P := fun c' => c' = { c with regs := c'.regs, wroteAt := c'.wroteAt, wrote := c'.wrote })
    (fun c' d _ h => ?_) rfl
  rw [h]; rfl

theorem Chip.reg_each_enabled {d : Nat} (hd : d ∈ l) : (c.each l fun c d => c.enabled port w d).reg d CAL PAGE_EVENT_EN = w := by
  refine Chip.each_reaches (P := fun c' => c'.reg d CAL PAGE_EVENT_EN = w) c hd (fun c' => Chip.reg_setReg_same ..) fun c' e _ h => ?_
  refine (Chip.reg_setReg c' e CAL PAGE_EVENT_EN w d CAL PAGE_EVENT_EN).trans ?_
  split
  · rfl
  · exact h

theorem Chip.regsBut_each_enabled :
    c.regsBut (c.each l fun c d => c.enabled port w d) fun a => ∃ d ∈ l, a = ra d CAL PAGE_EVENT_EN := by
  refine Chip.each_preserves (P := fun c' => c.regsBut c' _) (fun c' d hd h a ha => ?_) fun _ _ => rfl
  refine (Chip.get?_setReg_of_ne c' d CAL PAGE_EVENT_EN w a fun h => ha ⟨d, hd, h⟩).trans (h a ha)

end

/-- One die's part of the apply cycle: it writes the words, and reports when it is late (R142). -/
def Bcast.applyOn (b : Bcast) (late : List Nat) (q : State × Bool) (d : Nat) : State × Bool :=
  let y := q.1.writeAtOnce b.req.port d b.offset b.words
  (y.1.up fun c => c.eventIf (late.contains d) d SYS 1, q.2 && y.2)

section
variable {b : Bcast} {w : Word} (hoff : b.offset = CAL * 0x1000 + PAGE_EVENT_EN) (hws : b.words = [w])
include hoff hws

theorem Bcast.applyOn_calEvents (s : State) (d : Nat) (hlast : ¬s.chip.outdone b.req.port d CAL PAGE_EVENT_EN) :
    b.applyOn [] (s, true) d = (s.up fun c => c.enabled b.req.port w d, true) := by
  unfold Bcast.applyOn
  simp only [hoff, hws, s.writeAtOnce_calEvents b.req.port d w hlast]
  rfl

/-- In the apply cycle every die writes its register; none of these writes meets a later one of the cycle (R115). -/
theorem Bcast.foldl_applyOn_calEvents (s : State) {l : List Nat} (hl : l.Nodup)
    (hlast : ∀ d ∈ l, ¬s.chip.outdone b.req.port d CAL PAGE_EVENT_EN) :
    l.foldl (b.applyOn []) (s, true) = (s.up fun c => c.each l fun c d => c.enabled b.req.port w d, true) := by
  induction l generalizing s with
  | nil => rfl
  | cons d l ih =>
    obtain ⟨hd, hl⟩ := List.nodup_cons.1 hl
    rw [List.foldl_cons, Bcast.applyOn_calEvents hoff hws s d (hlast d (List.mem_cons_self ..)), ih _ hl]
    · rfl
    · intro e he
      have hne : e ≠ d := fun h => hd (h ▸ he)
      rw [State.up_chip, Chip.outdone, Chip.cycleWrites_enabled _ _ _ hne]
      exact hlast e (List.mem_cons_of_mem _ he)

end

/-! ### The end of the apply cycle (R142, R143) -/

/-- The command of a broadcast write completes. -/
def State.answerBcast (s : State) (b : Bcast) (ok : Bool) : State :=
  match (s.chip.reqs fun r => decide (r.id = b.req.id)).head? with
  | some r => s.done r (if ok then OK else FAIL)
  | none => s

/-- The apply cycle of a broadcast write that has come, on dies that all answer (R142). -/
theorem State.bcastApply_eq {s : State} {b : Bcast} (late : List Nat) (hb : s.chip.bcast = some b)
    (hans : ∀ d < dieCount s.chip.member, s.chip.answers 0 d = true) (htime : b.checked + 512 ≤ s.chip.now) :
    s.bcastApply late = (((s.chip.dies'.foldl (b.applyOn late) (s, true)).1.up fun c => { c with bcast := none }).answerBcast b
      (s.chip.dies'.foldl (b.applyOn late) (s, true)).2).release := by
  have hready : ¬(s.chip.dies'.any (fun d => !s.chip.answers 0 d) = true ∨ s.chip.now < b.checked + 512) := by
    rintro (habsent | hearly)
    · obtain ⟨d, hd, hno⟩ := List.any_eq_true.1 habsent
      simp [hans d (List.mem_range.1 hd)] at hno
    · omega
  unfold State.bcastApply
  simp only [hb]
  exact if_neg hready

/-- A completion makes no command wait. -/
theorem Chip.waiting_finish (c : Chip) (r : Req) (st dt : Nat) (bs : List Byte) (h : c.waiting = []) : (c.finish r st dt bs).waiting = [] := by
  unfold Chip.finish
  split
  · rw [Chip.waiting_reply, h]; rfl
  · exact h

/-- With no command waiting, the completion changes the commands in flight and the ports, and no command starts. -/
theorem State.release_answerBcast (s : State) (b : Bcast) (ok : Bool) (h : s.chip.waiting = []) :
    ∃ flight ports, (s.answerBcast b ok).release = s.up fun c => { c with inflight := flight, ports := ports, waiting := [] } := by
  have hidle : ∀ t : State, t.chip.waiting = [] → t.release = t.up fun c => { c with waiting := [] } := fun t ht => by
    unfold State.release
    rw [ht]; rfl
  unfold State.answerBcast
  split
  · next r _ =>
    let t := s.chip.finish r (if ok then OK else FAIL) 0 []
    exact ⟨t.inflight, t.ports, (hidle _ (s.chip.waiting_finish r _ 0 [] h)).trans
      (State.up_congr (s := s) (f := fun c => { c.finish r (if ok then OK else FAIL) 0 [] with waiting := [] })
        (congrArg (fun c : Chip => { c with waiting := [] }) (s.chip.finish_eq r _ 0 [])))⟩
  · exact ⟨_, _, hidle s h⟩

theorem broadcastWrite : Claim.BroadcastWrite := by
  refine ⟨fun s h x ws hx => ?checked, fun s b w hb hoff hws hans htime hwait hlast => ?applied⟩
  case checked =>
    intro cmd ha hst
    obtain ⟨hwin, hoff⟩ := bcastWord_toNat hx
    rw [exec_admitted (i := .bcastRegWrite h x ws) rfl ha, State.run_bcastWrite _ (r := s.req h cmd) rfl hwin, hoff]
    exact congrArg Host.Outcome.next (State.bcastWrite_taken _ (s.req h cmd) x ws hst)
  case applied =>
    have hround := Bcast.foldl_applyOn_calEvents hoff hws s (l := s.chip.dies') List.nodup_range
      fun d hd => hlast d (List.mem_range.1 hd)
    have hdone := s.bcastApply_eq [] hb hans htime
    rw [hround] at hdone
    have hidle : (s.chip.each s.chip.dies' fun c d => c.enabled b.req.port w d).waiting = [] :=
      (congrArg Chip.waiting (s.chip.each_enabled_eq b.req.port w s.chip.dies')).trans hwait
    obtain ⟨flight, ports, hend⟩ := State.release_answerBcast
      ((s.up fun c => c.each s.chip.dies' fun c d => c.enabled b.req.port w d).up fun c => { c with bcast := none }) b true hidle
    refine ⟨_, congrArg Host.Outcome.next (hdone.trans hend), rfl, rfl, fun d hd => ?_, fun a ha => ?_⟩
    · exact s.chip.reg_each_enabled b.req.port w s.chip.dies' (List.mem_range.2 hd)
    · exact s.chip.regsBut_each_enabled b.req.port w s.chip.dies' a fun ⟨d, hd, h⟩ => ha ⟨d, List.mem_range.1 hd, h⟩

/-- Settles O18: a broadcast write is checked and then applied on every die, and a broadcast read shows the dies that differ. -/
theorem broadcastAccess : Obligations.BroadcastAccess := ⟨broadcastWrite, broadcastRead⟩

end Sys2Proof.Machine
end

section
/-! PROOFS. The line code and the stripe rows lose nothing (O22; R157, R168). -/

namespace Sys2Proof.Machine

/-- A search finds the one entry that it can find. -/
theorem find?_eq_some_of_unique {α : Type} {p : α → Bool} {l : List α} {a : α} (hmem : a ∈ l) (hp : p a = true)
    (hone : ∀ b ∈ l, p b = true → b = a) : l.find? p = some a := by
  cases hfind : l.find? p with
  | none => exact absurd hp (List.find?_eq_none.1 hfind a hmem)
  | some b => rw [hone b (List.mem_of_find?_eq_some hfind) (List.find?_some hfind)]

/-! ### The sub-blocks (R157) -/

/-- A six-bit sub-block tells its five bits, and K.28 from D.28. -/
theorem sixOf_inj : ∀ plus control control' : Bool, ∀ x < 32, ∀ y < 32,
    sixOf plus control x = sixOf plus control' y → x = y ∧ (x = 28 → control = control') := by
  decide

theorem sixOf_lt : ∀ plus control : Bool, ∀ x < 32, sixOf plus control x < 64 := by
  decide

/-- Only K.28 has a six-bit sub-block of its own. -/
theorem sixOf_control {x : Nat} (plus : Bool) (hx : x ≠ 28) : sixOf plus true x = sixOf plus false x := by
  simp [sixOf, hx]

/-- A four-bit sub-block tells its three bits. -/
theorem fourOf_inj : ∀ plus control : Bool, ∀ x < 32, ∀ y < 8, ∀ z < 8,
    fourOf plus control x y = fourOf plus control x z → y = z := by
  decide

theorem fourOf_lt : ∀ plus control : Bool, ∀ x < 32, ∀ y < 8, fourOf plus control x y < 16 := by
  decide

/-- The control symbols beside K28.y differ from the data symbols with their six-bit sub-block. -/
theorem fourOf_data_ne_control : ∀ plus : Bool, ∀ x ∈ [23, 27, 29, 30], ∀ y < 8,
    fourOf (nextPlus 6 plus (sixOf plus false x)) false x y ≠ fourOf (nextPlus 6 plus (sixOf plus false x)) true x 7 := by
  decide

/-! ### Code groups (R157) -/

/-- A symbol that the code has. -/
def isCode (s : Sym) : Prop := symControl s = true → isControl (symByte s) = true

/-- The five and the three bits of a symbol's byte. -/
def lowBits (s : Sym) : Nat := (symByte s).toNat % 32
def highBits (s : Sym) : Nat := (symByte s).toNat / 32

/-- The running disparity between the two sub-blocks of a symbol. -/
def midPlus (plus : Bool) (s : Sym) : Bool := nextPlus 6 plus (sixOf plus (symControl s) (lowBits s))

theorem lowBits_lt (s : Sym) : lowBits s < 32 := Nat.mod_lt _ (by decide)

theorem highBits_lt (s : Sym) : highBits s < 8 := by
  have := (symByte s).isLt
  unfold highBits
  omega

theorem highBits_lowBits (s : Sym) : BitVec.ofNat 8 (32 * highBits s + lowBits s) = symByte s := by
  rw [highBits, lowBits, Nat.div_add_mod, BitVec.ofNat_toNat, BitVec.setWidth_eq]

theorem Sym.ext_bits {s t : Sym} (hc : symControl s = symControl t) (hx : lowBits s = lowBits t) (hy : highBits s = highBits t) :
    s = t := by
  have hb : symByte s = symByte t := by rw [← highBits_lowBits s, ← highBits_lowBits t, hx, hy]
  cases s <;> cases t <;> simp_all [symByte, symControl]

/-- The control symbols are the K28.y, K23.7, K27.7, K29.7 and K30.7 (R159). -/
theorem lowBits_control {s : Sym} (hs : isCode s) (hc : symControl s = true) (hx : lowBits s ≠ 28) :
    lowBits s ∈ [23, 27, 29, 30] ∧ highBits s = 7 := by
  have hcode := hs hc
  simp only [isControl, List.contains_cons, List.contains_nil, Bool.or_eq_true, Bool.or_false, decide_eq_true_eq, beq_iff_eq] at hcode
  simp only [lowBits, highBits, List.mem_cons, List.not_mem_nil, or_false] at *
  omega

theorem encodeSym_toNat (plus : Bool) (s : Sym) : (encodeSym plus s).toNat =
    sixOf plus (symControl s) (lowBits s) * 16 + fourOf (midPlus plus s) (symControl s) (lowBits s) (highBits s) := by
  have hsix := sixOf_lt plus (symControl s) _ (lowBits_lt s)
  have hfour := fourOf_lt (midPlus plus s) (symControl s) _ (lowBits_lt s) _ (highBits_lt s)
  have hlt : sixOf plus (symControl s) (lowBits s) * 16 + fourOf (midPlus plus s) (symControl s) (lowBits s) (highBits s) < 2 ^ 10 := by
    omega
  exact Nat.mod_eq_of_lt hlt

/-- The two sub-blocks of a code group. -/
theorem encodeSym_six (plus : Bool) (s : Sym) : (encodeSym plus s).toNat / 16 = sixOf plus (symControl s) (lowBits s) := by
  have hfour := fourOf_lt (midPlus plus s) (symControl s) _ (lowBits_lt s) _ (highBits_lt s)
  rw [encodeSym_toNat]
  omega

theorem encodeSym_four (plus : Bool) (s : Sym) :
    (encodeSym plus s).toNat % 16 = fourOf (midPlus plus s) (symControl s) (lowBits s) (highBits s) := by
  have hfour := fourOf_lt (midPlus plus s) (symControl s) _ (lowBits_lt s) _ (highBits_lt s)
  rw [encodeSym_toNat]
  omega

/-- No data symbol has the code group of a control symbol. -/
theorem encodeSym_data_ne_control {s t : Sym} (plus : Bool) (hs : symControl s = false) (ht : symControl t = true) (hcode : isCode t) :
    encodeSym plus s ≠ encodeSym plus t := by
  intro h
  have hsix : sixOf plus false (lowBits s) = sixOf plus true (lowBits t) := by
    rw [← hs, ← ht, ← encodeSym_six, ← encodeSym_six, h]
  obtain ⟨hx, h28⟩ := sixOf_inj _ _ _ _ (lowBits_lt s) _ (lowBits_lt t) hsix
  have hne : lowBits t ≠ 28 := fun h => Bool.false_ne_true (h28 (hx.trans h))
  obtain ⟨hmem, h7⟩ := lowBits_control hcode ht hne
  have hmid : midPlus plus s = midPlus plus t := by rw [midPlus, midPlus, hs, ht, hsix]
  have hfour : fourOf (midPlus plus t) false (lowBits t) (highBits s) = fourOf (midPlus plus t) true (lowBits t) 7 := by
    rw [← hmid, ← hx, ← hs, ← encodeSym_four, h, encodeSym_four, ht, h7, hmid, hx]
  rw [midPlus, ht, sixOf_control plus hne] at hfour
  exact fourOf_data_ne_control plus _ hmem _ (highBits_lt s) hfour

/-- A code group has one symbol (R157). -/
theorem encodeSym_inj {s t : Sym} (plus : Bool) (hs : isCode s) (ht : isCode t) (h : encodeSym plus s = encodeSym plus t) : s = t := by
  by_cases hc : symControl s = symControl t
  · have hsix : sixOf plus (symControl s) (lowBits s) = sixOf plus (symControl t) (lowBits t) := by
      rw [← encodeSym_six, ← encodeSym_six, h]
    have hx := (sixOf_inj _ _ _ _ (lowBits_lt s) _ (lowBits_lt t) hsix).1
    have hmid : midPlus plus s = midPlus plus t := by rw [midPlus, midPlus, hsix]
    have hfour : fourOf (midPlus plus s) (symControl s) (lowBits s) (highBits s) =
        fourOf (midPlus plus s) (symControl s) (lowBits s) (highBits t) := by
      rw [← encodeSym_four, h, encodeSym_four, hmid, hc, hx]
    exact Sym.ext_bits hc hx (fourOf_inj _ _ _ (lowBits_lt s) _ (highBits_lt s) _ (highBits_lt t) hfour)
  · cases hcs : symControl s <;> cases hct : symControl t
    · exact absurd (hcs.trans hct.symm) hc
    · exact absurd h (encodeSym_data_ne_control plus hcs hct ht)
    · exact absurd h.symm (encodeSym_data_ne_control plus hct hcs hs)
    · exact absurd (hcs.trans hct.symm) hc

/-! ### What a lane decodes -/

/-- The five bits that a six-bit sub-block can stand for, and the symbols that `decodeSym` tries for them. -/
def lowTries (plus : Bool) (six : Nat) : List Nat :=
  (List.range 32).filter (fun x => sixOf plus false x = six) ++ (if sixOf plus true 28 = six then [28] else [])

def symTries (plus : Bool) (g : CodeGroup) : List Sym :=
  let mid := nextPlus 6 plus (g.toNat / 16)
  (lowTries plus (g.toNat / 16)).flatMap fun x => (List.range 8).flatMap fun y =>
    let b := BitVec.ofNat 8 (32 * y + x)
    (if fourOf mid false x y = g.toNat % 16 then [Sym.data b] else []) ++
      (if isControl b ∧ fourOf mid true x y = g.toNat % 16 then [Sym.ctrl b] else [])

theorem decodeSym_eq (plus : Bool) (g : CodeGroup) :
    decodeSym plus g = (symTries plus g).find? (fun s => encodeSym plus s = g) := rfl

theorem lowBits_mem_lowTries (plus : Bool) (s : Sym) : lowBits s ∈ lowTries plus (sixOf plus (symControl s) (lowBits s)) := by
  by_cases h28 : symControl s = true ∧ lowBits s = 28
  · rw [h28.1, h28.2]
    exact List.mem_append_right _ (by simp)
  · have hsix : sixOf plus false (lowBits s) = sixOf plus (symControl s) (lowBits s) := by
      cases hc : symControl s
      · rfl
      · exact (sixOf_control plus fun h => h28 ⟨hc, h⟩).symm
    exact List.mem_append_left _ (List.mem_filter.2 ⟨List.mem_range.2 (lowBits_lt s), decide_eq_true hsix⟩)

theorem isCode_of_mem_symTries {plus : Bool} {g : CodeGroup} {s : Sym} (h : s ∈ symTries plus g) : isCode s := by
  obtain ⟨x, -, h⟩ := List.mem_flatMap.1 h
  obtain ⟨y, -, h⟩ := List.mem_flatMap.1 h
  rcases List.mem_append.1 h with h | h
  · rw [List.mem_ite_nil_right, List.mem_singleton] at h
    rw [h.2]
    exact fun hc => absurd hc Bool.false_ne_true
  · rw [List.mem_ite_nil_right, List.mem_singleton] at h
    rw [h.2]
    exact fun _ => h.1.1

theorem mem_symTries (plus : Bool) {s : Sym} (hs : isCode s) : s ∈ symTries plus (encodeSym plus s) := by
  unfold symTries
  dsimp only
  rw [encodeSym_six, encodeSym_four]
  refine List.mem_flatMap.2 ⟨lowBits s, lowBits_mem_lowTries plus s, List.mem_flatMap.2 ⟨highBits s, List.mem_range.2 (highBits_lt s), ?_⟩⟩
  rw [highBits_lowBits]
  cases s with
  | data b => exact List.mem_append_left _ (by simp [symControl, midPlus, symByte])
  | ctrl b => exact List.mem_append_right _ (by simpa [symControl, midPlus, symByte] using hs rfl)

/-- A symbol of the code is what its code group decodes to (R157). -/
theorem decodeSym_encodeSym (plus : Bool) {s : Sym} (hs : isCode s) : decodeSym plus (encodeSym plus s) = some s := by
  rw [decodeSym_eq]
  exact find?_eq_some_of_unique (mem_symTries plus hs) (decide_eq_true rfl) fun t ht hsame =>
    encodeSym_inj plus (isCode_of_mem_symTries ht) hs (of_decide_eq_true hsame)

/-- What a lane decodes, from the disparity at which the other end began, is what was encoded (R157). -/
theorem decodeLane_encodeLane (plus : Bool) (l : List Sym) (hl : ∀ s ∈ l, isCode s) : decodeLane plus (encodeLane plus l) = l.map some := by
  induction l generalizing plus with
  | nil => rfl
  | cons s l ih =>
    obtain ⟨hs, hl⟩ := List.forall_mem_cons.1 hl
    rw [encodeLane, decodeLane, decodeSym_encodeSym plus hs, ih _ hl, List.map_cons]

theorem lineCodeRoundTrip : Claim.LineCodeRoundTrip := fun plus l hl => decodeLane_encodeLane plus l hl

/-! ### Stripe rows (R168) -/

theorem mapLanes_nodup (lmap : Nat) : (mapLanes lmap).Nodup := List.nodup_range.filter _

/-- A lane map with a bit below 8 has a lane. -/
theorem mapLanes_length_pos {lmap : Nat} (hpos : 0 < lmap) (hlt : lmap < 256) : 0 < (mapLanes lmap).length := by
  obtain ⟨i, hi⟩ := Nat.exists_testBit_of_ne_zero hpos.ne'
  have hi8 : i < 8 := by
    by_contra h
    have := Nat.testBit_lt_two_pow (lt_of_lt_of_le hlt (Nat.pow_le_pow_right (by decide) (not_lt.1 h) : 2 ^ 8 ≤ 2 ^ i))
    exact Bool.false_ne_true (this.symm.trans hi)
  exact List.length_pos_of_mem (List.mem_filter.2 ⟨List.mem_range.2 hi8, hi⟩)

/-- The number of rows that n symbols take on k lanes. -/
def rowCount (k n : Nat) : Nat := (n + k - 1) / k

/-- Symbol k of a run of symbols, as rows carry it: PAD beyond the end. -/
def symAt (l : List Sym) (k : Nat) : Sym := l.getD k symPAD

/-- What the lane at place i of a map of n lanes carries. -/
def stripeCol (l : List Sym) (n i : Nat) : List Sym := (List.range (rowCount n l.length)).map fun r => symAt l (r * n + i)

theorem stripe_eq (lmap : Nat) (l : List Sym) :
    stripe lmap l = (mapLanes lmap).zipIdx.map fun p => (p.1, stripeCol l (mapLanes lmap).length p.2) := rfl

/-- Among pairs with different first parts, each is found by its first part. -/
theorem find?_zipIdx_map {α : Type} (f : Nat → α) (ps : List Nat) (hnodup : ps.Nodup) {i : Nat} (hi : i < ps.length) :
    (ps.zipIdx.map fun p => (p.1, f p.2)).find? (fun q => q.1 = ps[i]) = some (ps[i], f i) := by
  have hmem : (ps[i], f i) ∈ ps.zipIdx.map fun p => (p.1, f p.2) :=
    List.mem_map.2 ⟨(ps[i], i), List.mem_zipIdx_iff_getElem?.2 (List.getElem?_eq_getElem hi), rfl⟩
  refine find?_eq_some_of_unique hmem (decide_eq_true rfl) fun q hq hsame => ?_
  obtain ⟨⟨p, j⟩, hp, rfl⟩ := List.mem_map.1 hq
  have hpi : p = ps[i] := of_decide_eq_true hsame
  obtain ⟨hj, hpj⟩ := List.getElem?_eq_some_iff.1 (List.mem_zipIdx_iff_getElem?.1 hp)
  have hij : j = i := (hnodup.getElem_inj_iff).1 (hpj.trans hpi)
  rw [hpi, hij]

theorem cols_stripe (lmap : Nat) (l : List Sym) :
    (mapLanes lmap).map (fun p => ((((stripe lmap l).map fun p => (p.1, p.2.map some)).find? (fun q => q.1 = p)).map (fun q => q.2)).getD []) =
      (List.range (mapLanes lmap).length).map fun i => (stripeCol l (mapLanes lmap).length i).map some := by
  rw [stripe_eq, List.map_map]
  refine List.ext_getElem (by simp) fun i hi _ => ?_
  rw [List.length_map] at hi
  have hfind := find?_zipIdx_map (fun i => (stripeCol l (mapLanes lmap).length i).map some) _ (mapLanes_nodup lmap) hi
  rw [List.getElem_map, List.getElem_map, List.getElem_range]
  exact congrArg (fun q => (q.map (fun q => q.2)).getD []) hfind

/-- The longest of columns of one length. -/
theorem foldl_max_replicate (n k : Nat) (hn : 0 < n) : (List.replicate n k).foldl max 0 = k := by
  induction n with
  | zero => omega
  | succ n ih =>
    rcases Nat.eq_zero_or_pos n with rfl | hpos
    · simp
    · rw [List.replicate_succ', List.foldl_append, ih hpos, List.foldl_cons, List.foldl_nil, max_self]

/-- Rows of n, one after another, count on. -/
theorem flatMap_range_rows {α : Type} (f : Nat → α) (n rows : Nat) :
    (List.range rows).flatMap (fun r => (List.range n).map fun i => f (r * n + i)) = (List.range (rows * n)).map f := by
  induction rows with
  | zero => simp
  | succ rows ih =>
    rw [List.range_succ, List.flatMap_append, ih, Nat.succ_mul, List.range_add, List.map_append, List.map_map]
    simp [Function.comp_def]

/-- A run of symbols, and PAD after it. -/
theorem map_symAt_range (l : List Sym) {m : Nat} (hm : l.length ≤ m) :
    (List.range m).map (symAt l) = l ++ List.replicate (m - l.length) symPAD := by
  refine List.ext_getElem (by simp; omega) fun i hi _ => ?_
  rw [List.getElem_map, List.getElem_range, List.getElem_append]
  split
  · next h => exact List.getD_eq_getElem _ _ h
  · next h => rw [List.getElem_replicate]; exact List.getD_eq_default _ _ (not_lt.1 h)

theorem length_le_rows {n : Nat} (hn : 0 < n) (k : Nat) : k ≤ rowCount n k * n := by
  have := Nat.div_add_mod (k + n - 1) n
  have := Nat.mod_lt (k + n - 1) hn
  rw [rowCount, Nat.mul_comm]
  omega

/-- The rows of the lanes of a map hold the symbols in order, with PAD to the end of the last row (R168). -/
theorem stripeRoundTrip : Claim.StripeRoundTrip := by
  intro lmap l hpos hlt
  have hlanes := mapLanes_length_pos hpos hlt
  generalize hn : (mapLanes lmap).length = n at hlanes
  have hcols := cols_stripe lmap l
  rw [hn] at hcols
  have hlong : (((List.range n).map fun i => (stripeCol l n i).map some).map List.length).foldl max 0 = rowCount n l.length := by
    rw [List.map_map, List.map_congr_left (g := fun _ => rowCount n l.length) (fun i _ => by simp [stripeCol]), List.map_const',
      List.length_range, foldl_max_replicate _ _ hlanes]
  have hrow : ∀ r ∈ List.range (rowCount n l.length), ((List.range n).map fun i => (stripeCol l n i).map some).map (fun c => c.getD r none) =
      (List.range n).map fun i => some (symAt l (r * n + i)) := by
    intro r hr
    rw [List.map_map]
    refine List.map_congr_left fun i _ => ?_
    have hr' := List.mem_range.1 hr
    simp [stripeCol, hr']
  calc rowSyms lmap ((stripe lmap l).map fun p => (p.1, p.2.map some))
    _ = (List.range (rowCount n l.length)).flatMap fun r => (List.range n).map fun i => some (symAt l (r * n + i)) := by
      unfold rowSyms
      dsimp only
      rw [hcols, hlong]
      exact List.flatMap_congr hrow
    _ = ((List.range (rowCount n l.length * n)).map (symAt l)).map some := by
      rw [flatMap_range_rows (fun k => some (symAt l k)), List.map_map]
      rfl
    _ = _ := by rw [map_symAt_range l (length_le_rows hlanes _), Nat.mul_comm]; rfl

/-- Settles O22: a code group of the line code has one symbol, and every symbol of a run has one place in the rows. -/
theorem lineCoding : Obligations.LineCoding := ⟨lineCodeRoundTrip, stripeRoundTrip⟩

end Sys2Proof.Machine
end

section
/-! PROOFS. The checks of a pixel packet and the source formats (O24; R174, R176). -/

namespace Sys2Proof.Machine

/-! ### Data bytes of what arrives -/

/-- The data bytes of a run of symbols that data symbols begin. -/
theorem takeData_dataSyms (bs : List Byte) (l : List (Option Sym)) :
    takeData ((dataSyms bs).map some ++ l) = (bs ++ (takeData l).1, (takeData l).2) := by
  induction bs with
  | nil => rfl
  | cons b bs ih => exact congrArg (fun q => (b :: q.1, q.2)) ih

/-- A control symbol ends the data bytes. -/
theorem takeData_control (b : Byte) (l : List (Option Sym)) : takeData (some (.ctrl b) :: l) = ([], some (.ctrl b) :: l) := rfl

/-! ### The checks of a packet (R176) -/

theorem takeData_pktSyms (header payload crc : List Byte) (b : Byte) (rest : List (Option Sym)) :
    takeData (pktSyms header payload crc (.ctrl b) rest) = (header ++ payload ++ crc, some (.ctrl b) :: rest) := by
  rw [pktSyms, List.map_append, List.append_assoc, takeData_dataSyms, List.map_singleton, List.singleton_append, takeData_control,
    List.append_nil]

/-- A packet that is as long as its header says is judged by its end, then its CRC, then its header. -/
theorem pktCheck_pktSyms {header payload crc : List Byte} {b : Nat} {stop : Byte} (rest : List (Option Sym)) (hheader : header.length = 16)
    (hcrc : crc.length = 4) (hformat : formatBits (pktHead header).format = some b) (hcount : (pktHead header).count ≤ 1024)
    (hpayload : payload.length = ((pktHead header).count * b + 7) / 8) (hstop : stop = 0xFD ∨ stop = 0xFE) :
    pktCheck (pktSyms header payload crc (.ctrl stop) rest) =
      if stop = 0xFE then .error (SLINK.NULLIFIED_COUNT, [])
      else if (crc32c (header ++ payload)).toNat ≠ leNat crc then .error (SLINK.CRC_ERR_COUNT, [0])
      else if (pktHead header).bad ∨ (pktHead header).count = 0 ∨ 32768 < (pktHead header).x + (pktHead header).count then
        .error (SLINK.HDR_ERR_COUNT, [2])
      else .ok (pktHead header, payload) := by
  have hbody : (header ++ payload).length = 16 + ((pktHead header).count * b + 7) / 8 := by rw [List.length_append, hheader, hpayload]
  have htake : (header ++ payload ++ crc).take 16 = header := by
    rw [List.append_assoc, ← hheader, List.take_left]
  have hbytes : (header ++ payload ++ crc).take (16 + ((pktHead header).count * b + 7) / 8) = header ++ payload := by
    rw [← hbody, List.take_left]
  have hfield : fieldAt (header ++ payload ++ crc) (16 + ((pktHead header).count * b + 7) / 8) 4 = leNat crc := by
    rw [fieldAt, ← hbody, List.drop_left, ← hcrc, List.take_length]
  have hlength : (header ++ payload ++ crc).length = 16 + ((pktHead header).count * b + 7) / 8 + 4 := by
    rw [List.length_append, hbody, hcrc]
  have hdrop : (header ++ payload).drop 16 = payload := by rw [← hheader, List.drop_left]
  unfold pktCheck
  simp only [takeData_pktSyms, htake, hformat, hbytes, hfield, hdrop, List.head?_cons, Option.some.injEq, Sym.ctrl.injEq]
  rw [if_neg (by omega), if_neg (by omega), if_neg]
  · rintro (h | ⟨hend, hedb⟩)
    · exact h hlength
    · exact hstop.elim (fun h => hend (h ▸ rfl)) (fun h => hedb (h ▸ rfl))

theorem packetChecks : Claim.PacketChecks := by
  intro header payload crc b rest hheader hcrc hformat hcount hpayload
  have hend := pktCheck_pktSyms (stop := 0xFD) rest hheader hcrc hformat hcount hpayload (.inl rfl)
  have hedb := pktCheck_pktSyms (stop := 0xFE) rest hheader hcrc hformat hcount hpayload (.inr rfl)
  rw [if_neg (by decide)] at hend
  refine ⟨hedb.trans (if_pos rfl), fun hbad => hend.trans (if_pos hbad), fun hgood hhead => ?_, fun hgood hbad hzero hx => ?_⟩
  · exact hend.trans ((if_neg (not_not.2 hgood)).trans (if_pos hhead))
  · refine hend.trans ((if_neg (not_not.2 hgood)).trans (if_neg ?_))
    rintro (h | h | h)
    · exact Bool.false_ne_true (hbad.symm.trans h)
    · exact hzero h
    · omega

/-! ### Source formats (R174) -/

theorem canonical_eight (v : Nat) : canonical 1 v = v * 16 + v / 16 := rfl
theorem canonical_ten (v : Nat) : canonical 2 v = v * 4 + v / 256 := rfl

theorem canonicalCodes : Claim.CanonicalCodes := by
  refine ⟨fun _ _ => rfl, rfl, rfl, rfl, rfl, fun v w hvw _ => ?_, fun v w hvw _ => ?_⟩
  · rw [canonical_eight, canonical_eight]; omega
  · rw [canonical_ten, canonical_ten]; omega

end Sys2Proof.Machine
end

section
/-! PROOFS. What a READY stream lane group hears, and what hearing it leaves as it was (R157, R168 to R170). -/

namespace Sys2Proof.Machine

/-! ### What units and modes are read from -/

section
variable {c c' : Chip}

theorem Chip.mode_congr {o : Nat} (h : c'.reg o TGEN TGEN.OUT_STATE = c.reg o TGEN TGEN.OUT_STATE) : c'.mode o = c.mode o :=
  Chip.get_congr h 2 0

theorem Chip.seq_congr {o : Nat} (h : c'.reg o TGEN TGEN.FRAME_SEQ = c.reg o TGEN TGEN.FRAME_SEQ) : c'.seq o = c.seq o :=
  congrArg BitVec.toNat h

/-- The groups of a die are named by GROUP_START (R166). -/
theorem Chip.startsGroup_congr {d : Nat} (h : c'.reg d SLINK SLINK.GROUP_START = c.reg d SLINK SLINK.GROUP_START) :
    c'.startsGroup d = c.startsGroup d := by
  unfold Chip.startsGroup Chip.flag
  rw [h]

theorem Chip.groupNumber_congr {d : Nat} (h : c'.startsGroup d = c.startsGroup d) (f : Nat) : c'.groupNumber d f = c.groupNumber d f := by
  unfold Chip.groupNumber Chip.groups
  rw [h]

theorem Chip.groupLanes_congr {d : Nat} (h : c'.startsGroup d = c.startsGroup d) (f : Nat) : c'.groupLanes d f = c.groupLanes d f := by
  unfold Chip.groupLanes Chip.groupFirst
  rw [h]

theorem Chip.firstReady_congr {d : Nat} (h : c'.startsGroup d = c.startsGroup d)
    (hready : c'.reg d SLINK SLINK.GROUP_READY = c.reg d SLINK SLINK.GROUP_READY) (f : Nat) : c'.firstReady d f = c.firstReady d f := by
  unfold Chip.firstReady Chip.groupReady Chip.flag
  rw [Chip.groupNumber_congr h, hready]

end

/-! ### Code errors (R157) -/

/-- A register in which no lane counts its code errors. -/
def offCodeErrors (q r : Nat) : Bool := (List.range 8).all fun l => apart q r (lanePage l) LANE.CODE_ERR_COUNT

/-- A chip that differs in counts of code errors and in the maps by which groups receive. -/
def Chip.heardLike (c u : Chip) : Prop :=
  u = { c with regs := u.regs, rxMaps := u.rxMaps } ∧ ∀ e q r, offCodeErrors q r = true → u.reg e q r = c.reg e q r

theorem Chip.heardLike_refl (c : Chip) : c.heardLike c := ⟨rfl, fun _ _ _ _ => rfl⟩

theorem Chip.heardLike_trans {c u v : Chip} (h : c.heardLike u) (h' : u.heardLike v) : c.heardLike v := by
  refine ⟨?_, fun e q r hoff => (h'.2 e q r hoff).trans (h.2 e q r hoff)⟩
  have hv := h'.1
  rw [h.1] at hv
  exact hv

theorem Chip.heardLike_countCodeErrors (c : Chip) (d f : Nat) (lanes : List LaneRx) : c.heardLike (c.countCodeErrors d f lanes) := by
  refine Chip.each_preserves (P := fun u => c.heardLike u) (fun u l _ hu => ?_) c.heardLike_refl
  split
  · exact hu
  · next h =>
    refine Chip.heardLike_trans hu ⟨rfl, fun e q r hoff => ?_⟩
    have hl : f + l.pos ∈ List.range 8 := List.mem_range.2 (by omega)
    exact Chip.reg_setNum_apart _ d e (List.all_eq_true.1 hoff _ hl) _

/-- A group that hears no set with differing maps changes nothing but these (R169). -/
theorem Chip.heardLike_hearGroup {c : Chip} {d f : Nat} {lanes : List LaneRx} (h : (c.hearGroup d f lanes).2.torn = 0) :
    c.heardLike (c.hearGroup d f lanes).1 := by
  have hcount := (c.heardLike_countCodeErrors d f lanes)
  have hmap : (c.hearGroup d f lanes).1 =
      (c.countCodeErrors d f lanes).setRxMap d f (hear (c.rxMap d f) (lanes.map cutLane)).lmap := if_pos h
  rw [hmap]
  exact Chip.heardLike_trans hcount ⟨rfl, fun _ _ _ _ => rfl⟩

section
variable {c u : Chip} (h : c.heardLike u)
include h

theorem Chip.outs_of_heardLike : u.outs = c.outs := by rw [h.1]
theorem Chip.layers_of_heardLike : u.layers = c.layers := by rw [h.1]
theorem Chip.ports_of_heardLike : u.ports = c.ports := by rw [h.1]
theorem Chip.now_of_heardLike : u.now = c.now := by rw [h.1]
theorem Chip.member_of_heardLike : u.member = c.member := by rw [h.1]

theorem Chip.out_of_heardLike (o : Nat) : u.out o = c.out o := Chip.out_congr (Chip.outs_of_heardLike h) o
theorem Chip.layer_of_heardLike (n : Nat) : u.layer n = c.layer n := by unfold Chip.layer; rw [Chip.layers_of_heardLike h]
theorem Chip.port_of_heardLike (p : Port) : u.port p = c.port p := by unfold Chip.port; rw [Chip.ports_of_heardLike h]
theorem Chip.dieRuns_of_heardLike (d : Nat) : u.dieRuns d = c.dieRuns d := by rw [h.1]; rfl

theorem Chip.mode_of_heardLike (o : Nat) : u.mode o = c.mode o := Chip.mode_congr (h.2 _ _ _ (by decide))
theorem Chip.seq_of_heardLike (o : Nat) : u.seq o = c.seq o := Chip.seq_congr (h.2 _ _ _ (by decide))

theorem Chip.dieMode_of_heardLike (d : Nat) : u.dieMode d = c.dieMode d := by
  unfold Chip.dieMode
  rw [Chip.leadOf_congr (h.2 _ _ _ (by decide)), Chip.mode_of_heardLike h]

theorem Chip.startsGroup_of_heardLike (d : Nat) : u.startsGroup d = c.startsGroup d := Chip.startsGroup_congr (h.2 _ _ _ (by decide))

theorem Chip.firstReady_of_heardLike (d f : Nat) : u.firstReady d f = c.firstReady d f :=
  Chip.firstReady_congr (Chip.startsGroup_of_heardLike h d) (h.2 _ _ _ (by decide)) f

theorem Chip.uses_of_heardLike (st : Nat) : u.uses st = c.uses st := by
  have hdies : u.dies' = c.dies' := congrArg (fun m => List.range (dieCount m)) (Chip.member_of_heardLike h)
  unfold Chip.uses
  rw [Chip.outputs_congr hdies (h.2 _ _ _ (by decide)), Chip.layers_of_heardLike h]
  simp only [Chip.out_of_heardLike h]

theorem Chip.seqAgo_of_heardLike (o ago : Nat) : u.seqAgo o ago = c.seqAgo o ago := by
  have hentry : u.hasEntry o = c.hasEntry o := congrArg (fun w => bit w 31) (h.2 _ _ _ (by decide))
  unfold Chip.seqAgo
  rw [hentry, Chip.out_of_heardLike h, Chip.now_of_heardLike h, Chip.seq_of_heardLike h]

theorem Chip.lrate_of_heardLike (d : Nat) {l : Nat} (hl : l < 24) : u.lrate d l = c.lrate d l := by
  refine Chip.get_congr (h.2 _ _ _ ?_) 18 16
  revert l
  decide

/-- The parser of a group runs on what the group has heard (R73). -/
theorem Chip.parses_of_heardLike {d f : Nat} (hruns : c.dieRuns d = true) (hready : c.firstReady d f = true) (hmode : c.dieMode d ≠ SAFE) :
    u.parses d f = true := by
  rw [← Chip.dieRuns_of_heardLike h] at hruns
  rw [← Chip.firstReady_of_heardLike h] at hready
  rw [← Chip.dieMode_of_heardLike h] at hmode
  unfold Chip.parses Chip.dieRuns at *
  rw [hready, decide_eq_true hmode, Bool.and_true, Bool.and_true]
  exact hruns

end

/-! ### The rows of a group (R168, R170) -/

theorem exec_onGroup {s : State} {d g f : Nat} {k : State → Nat → State} (h : isGroup s d g f) : onGroup s d g k = .next (k s f) := by
  unfold onGroup
  rw [if_pos h.1, h.2]

/-- A group is named by its lowest lane. -/
theorem first_lt_of_isGroup {s : State} {d g f : Nat} (h : isGroup s d g f) : f < 8 :=
  List.mem_range.1 (List.mem_filter.1 (List.mem_of_getElem? h.2)).1

section
variable {s : State} {d g f : Nat} {lanes : List LaneRx} {after : List (Option Sym)}

theorem Chip.heardLike_of_hears {start : Sym} (h : Sys2Proof.hears s d g f lanes start after) : s.chip.heardLike (s.chip.hearGroup d f lanes).1 :=
  let ⟨_, _, _, htorn, _⟩ := h
  Chip.heardLike_hearGroup htorn

/-- What a group hears of the command channel takes effect, and a message that it delivers arrives (R183). -/
def State.scpTaken (s : State) (d f : Nat) (q : Chip × Option (List Byte)) : State :=
  match q.2 with
  | some message => (s.up fun _ => q.1).accept (readMessage (.inband d f) message)
  | none => s.up fun _ => q.1

/-- The receiver that a control symbol names takes what follows it (R159). -/
def State.receive (s : State) (d f : Nat) (start : Sym) (after : List (Option Sym)) (lanes : List LaneRx) (noRoom : List Nat) : State :=
  if start = symSTP then s.up fun c => c.pixelPacket d f after (c.rowTime d f lanes) noRoom
  else if start = symFRM then s.up fun c => c.sourceFrm d f after
  else if start = symSCP then s.scpTaken d f (s.chip.scpReceived d f after)
  else s.up fun c => c.when (symControl start && !sourceSyms.contains start && c.parses d f) fun c => c.badMarker d

theorem State.linkRx_of_hears {start : Sym} (h : Sys2Proof.hears s d g f lanes start after) (noRoom : List Nat) :
    s.linkRx d f lanes noRoom = (s.up fun _ => (s.chip.hearGroup d f lanes).1).receive d f start after lanes noRoom := by
  obtain ⟨-, hruns, hready, htorn, hsyms⟩ := h
  unfold State.linkRx
  dsimp only
  rw [hruns, hready, if_neg (by decide), if_neg (not_not.2 htorn), hsyms]
  unfold State.receive
  generalize (s.up fun _ => (s.chip.hearGroup d f lanes).1) = t
  dsimp only
  generalize t.chip.scpReceived d f after = q
  obtain ⟨c, _ | message⟩ := q <;> rfl

theorem State.linkRx_pixelPacket (h : Sys2Proof.hears s d g f lanes symSTP after) (noRoom : List Nat) :
    s.linkRx d f lanes noRoom = s.up fun _ =>
      (s.chip.hearGroup d f lanes).1.pixelPacket d f after ((s.chip.hearGroup d f lanes).1.rowTime d f lanes) noRoom := by
  rw [State.linkRx_of_hears h, State.receive, if_pos rfl, State.up_up]

theorem State.linkRx_sourceFrm (h : Sys2Proof.hears s d g f lanes symFRM after) (noRoom : List Nat) :
    s.linkRx d f lanes noRoom = s.up fun _ => (s.chip.hearGroup d f lanes).1.sourceFrm d f after := by
  rw [State.linkRx_of_hears h, State.receive, if_neg (by decide), if_pos rfl, State.up_up]

theorem State.linkRx_scp (h : Sys2Proof.hears s d g f lanes symSCP after) (noRoom : List Nat) :
    s.linkRx d f lanes noRoom = s.scpTaken d f ((s.chip.hearGroup d f lanes).1.scpReceived d f after) := by
  rw [State.linkRx_of_hears h, State.receive, if_neg (by decide), if_neg (by decide), if_pos rfl, State.up_chip]
  generalize (s.chip.hearGroup d f lanes).1.scpReceived d f after = q
  obtain ⟨c, _ | message⟩ := q <;> rfl

end

end Sys2Proof.Machine
end

section
/-! PROOFS. Pixel packets of a live stream, and with them the statement on pixel packets (O24; R174, R176, R177). -/

namespace Sys2Proof.Machine

/-! ### Pixels of the live stream (R41, R178) -/

section
variable (c : Chip) (d : Nat) (e : Nat) {q r : Nat} (hq : quiet q r = true) (hbridge : q ≠ BRIDGE)
include hq hbridge

theorem Chip.forward_keeps (dies noRoom : List Nat) :
    (c.forward d dies noRoom).outs = c.outs ∧ (c.forward d dies noRoom).reg e q r = c.reg e q r := by
  refine Prod.mk.inj (Chip.each_keeps (fun x => (x.outs, x.reg e q r)) c _ fun x _ _ => Prod.ext ?_ ?_)
  · exact (Chip.touches_outs (Chip.touches_event _ d BRIDGE 2)).trans rfl
  · exact (Chip.reg_event_quiet _ d e hq BRIDGE 2).trans
      (x.reg_setReg_apart d e (apart_of_page hq (by decide) (by decide) hbridge) _)

/-- Pixels that arrive change no output's state, and of the registers those of the bridge. -/
theorem Chip.livePixels_keeps (o f line x : Nat) (px : List Px) (noRoom : List Nat) :
    (c.livePixels d o f line x px noRoom).outs = c.outs ∧ (c.livePixels d o f line x px noRoom).reg e q r = c.reg e q r := by
  unfold Chip.livePixels
  dsimp only
  split
  · exact ⟨rfl, rfl⟩
  · obtain ⟨houts, hreg⟩ := c.forward_keeps d e hq hbridge (ascending ((parts x px 18).map fun p => c.colDie o p.1)) noRoom
    refine Prod.mk.inj ((Chip.each_keeps (fun x => (x.outs, x.reg e q r)) _ _ fun x _ _ => ?_).trans (Prod.ext houts hreg))
    split_ifs <;> rfl

end

/-! ### A packet that is taken (R176, R177) -/

/-- A packet of a stream counts, and its group has carried the stream; a long one for LIVE counts beside (R179). -/
def Chip.packetTaken (c : Chip) (st d f : Nat) (long : Bool) : Chip :=
  let c := (c.count d SLINK SLINK.PKT_COUNT).noteCarried st d f
  if long then (c.count d SLINK SLINK.LIVE_LONG_COUNT).event d SLINK 5 else c

section
variable (c : Chip) (st d f : Nat) (long : Bool)

theorem Chip.outs_packetTaken : (c.packetTaken st d f long).outs = c.outs := by
  unfold Chip.packetTaken
  dsimp only
  split
  · exact (Chip.touches_outs (Chip.touches_event _ d SLINK 5)).trans rfl
  · rfl

theorem Chip.reg_packetTaken (e : Nat) {q r : Nat} (hq : quiet q r = true) (hslink : q ≠ SLINK) :
    (c.packetTaken st d f long).reg e q r = c.reg e q r := by
  have hapart : ∀ o < 0x1000, apart q r SLINK o = true := fun o ho => apart_of_page hq (by decide) ho hslink
  have hcount : ((c.count d SLINK SLINK.PKT_COUNT).noteCarried st d f).reg e q r = c.reg e q r :=
    c.reg_setReg_apart d e (hapart _ (by decide)) _
  unfold Chip.packetTaken
  dsimp only
  split
  · rw [Chip.reg_event_quiet _ d e hq, Chip.count_eq, Chip.reg_setReg_apart _ d e (hapart _ (by decide)), hcount]
  · exact hcount

theorem Chip.pktCount_packetTaken :
    (c.packetTaken st d f long).num d SLINK SLINK.PKT_COUNT = min 0xFFFFFFFF (c.num d SLINK SLINK.PKT_COUNT + 1) := by
  have hcount : ((c.count d SLINK SLINK.PKT_COUNT).noteCarried st d f).num d SLINK SLINK.PKT_COUNT =
      min 0xFFFFFFFF (c.num d SLINK SLINK.PKT_COUNT + 1) := by
    refine (congrArg BitVec.toNat (c.reg_setReg_same d SLINK SLINK.PKT_COUNT _)).trans ?_
    rw [BitVec.toNat_ofNat]
    exact Nat.mod_eq_of_lt (by omega)
  unfold Chip.packetTaken
  dsimp only
  split
  · rw [Chip.num, Chip.reg_event_quiet _ d d (by decide), Chip.count_eq, Chip.reg_setReg_apart _ d d (by decide)]
    exact hcount
  · exact hcount

end

section
variable {c : Chip} {d f ago : Nat} {syms : List (Option Sym)} (noRoom : List Nat) (hparses : c.parses d f = true)
include hparses

theorem Chip.pixelPacket_error {v : Nat × List Nat} (h : pktCheck syms = .error v) : c.pixelPacket d f syms ago noRoom = c.pktFail d v := by
  unfold Chip.pixelPacket
  rw [hparses, if_neg (by decide), h]

theorem Chip.pixelPacket_unused {h : PktHead} {px : List Byte} (hcheck : pktCheck syms = .ok (h, px)) (huses : c.uses h.stream = []) :
    c.pixelPacket d f syms ago noRoom = c.pktFail d (SLINK.STREAM_OFF_COUNT, [4]) := by
  unfold Chip.pixelPacket
  rw [hparses, if_neg (by decide), hcheck]
  exact if_pos huses

/-- A packet of a live stream whose SEQ lies in the window is taken, and its pixels go where they belong. -/
theorem Chip.pixelPacket_live {h : PktHead} {px : List Byte} {o : Nat} (hcheck : pktCheck syms = .ok (h, px))
    (huses : c.uses h.stream = [.live o]) (hmode : c.mode o ≠ SAFE) (hwindow : (extendSeq h.seq (c.seqAgo o ago)).2 = true) :
    ∃ long n pixels, c.pixelPacket d f syms ago noRoom =
      ((c.packetTaken h.stream d f long).noteHeard o).livePixels d o n h.line h.x pixels noRoom := by
  have htaken : [Use.live o].filter (fun u => (extendSeq h.seq (c.seqAgo (c.useOutput u) ago)).2) = [Use.live o] :=
    List.filter_eq_self.2 fun u hu => by rw [List.mem_singleton.1 hu]; exact hwindow
  have hstill : ∀ long, (c.packetTaken h.stream d f long).mode o ≠ SAFE := fun long =>
    ne_of_eq_of_ne (Chip.mode_congr (c.reg_packetTaken _ _ _ _ o (by decide) (by decide))) hmode
  unfold Chip.pixelPacket
  rw [hparses, if_neg (by decide), hcheck]
  dsimp only
  rw [huses, if_neg (List.cons_ne_nil _ _), htaken, if_neg (List.cons_ne_nil _ _)]
  generalize (decide (64 < h.count) && _) = long
  exact ⟨long, _, _, if_neg (hstill long)⟩

end

theorem pixelPackets : Claim.PixelPackets := by
  intro s d g f lanes after noRoom hheard hmode u
  have hlike := Chip.heardLike_of_hears hheard
  have ⟨hgroup, hruns, hready, _, _⟩ := hheard
  have hparses : u.parses d f = true := Chip.parses_of_heardLike hlike hruns hready hmode
  have hexec : exec (.pixelPacketRx d g lanes noRoom) s = .next (s.up fun _ => u.pixelPacket d f after (u.rowTime d f lanes) noRoom) :=
    (exec_onGroup (k := fun s f => s.linkRx d f lanes noRoom) hgroup).trans (congrArg _ (State.linkRx_pixelPacket hheard noRoom))
  refine ⟨fun v hcheck => ?fails, fun h px hcheck huses => ?unused, fun h px o hcheck huses hsafe hwindow => ?live⟩
  case fails => rw [hexec, Chip.pixelPacket_error noRoom hparses hcheck]
  case unused => rw [hexec, Chip.pixelPacket_unused noRoom hparses hcheck ((Chip.uses_of_heardLike hlike _).trans huses)]
  case live =>
    have hago : u.rowTime d f lanes = s.chip.rowTime d f lanes := by
      unfold Chip.rowTime
      rw [Chip.lrate_of_heardLike hlike d (lt_trans (first_lt_of_isGroup hgroup) (by decide))]
    obtain ⟨long, n, pixels, hlive⟩ := Chip.pixelPacket_live (c := u) (ago := u.rowTime d f lanes) noRoom hparses hcheck
      ((Chip.uses_of_heardLike hlike _).trans huses) (ne_of_eq_of_ne (Chip.mode_of_heardLike hlike o) hsafe)
      (by rwa [hago, Chip.seqAgo_of_heardLike hlike])
    have hkept := Chip.livePixels_keeps ((u.packetTaken h.stream d f long).noteHeard o) d d (q := SLINK) (r := SLINK.PKT_COUNT)
      (by decide) (by decide) o n h.line h.x pixels noRoom
    refine ⟨_, hexec, rfl, ?_, ?_⟩
    · have houts : (u.packetTaken h.stream d f long).outs = s.chip.outs :=
        (u.outs_packetTaken h.stream d f long).trans (Chip.outs_of_heardLike hlike)
      rw [State.up_chip, hlive, Chip.out_congr hkept.1, Chip.noteHeard]
      rw [Chip.out_setOut, if_pos rfl]
      unfold Chip.lineNow
      rw [Chip.out_congr houts]
    · have hcount : u.num d SLINK SLINK.PKT_COUNT = s.chip.num d SLINK SLINK.PKT_COUNT :=
        congrArg BitVec.toNat (hlike.2 d SLINK SLINK.PKT_COUNT (by decide))
      rw [State.up_chip, hlive, Chip.num, hkept.2, ← hcount, ← u.pktCount_packetTaken h.stream d f long]
      rfl

/-- Settles O24: the checks of a packet by its parts, the count of one that fails or is taken, and the source formats. -/
theorem pixelStream : Obligations.PixelStream := ⟨pixelPackets, packetChecks, canonicalCodes⟩

end Sys2Proof.Machine
end

section
/-! PROOFS. FRM markers and the command channel of a group (O25; R180, R182 to R185, R233). -/

namespace Sys2Proof.Machine

/-! ### Numbers in bytes -/

theorem leBytes_succ (n v : Nat) : leBytes (n + 1) v = BitVec.ofNat 8 v :: leBytes n (v / 256) := by
  unfold leBytes
  rw [List.range_succ_eq_map, List.map_cons, List.map_map]
  refine congrArg₂ _ rfl (List.map_congr_left fun i _ => congrArg (BitVec.ofNat 8) ?_)
  rw [Nat.shiftRight_eq_div_pow, Nat.shiftRight_eq_div_pow, Nat.div_div_eq_div_mul, Nat.mul_succ, Nat.add_comm, Nat.pow_add]

/-- Bytes that a number is written in spell it again, as far as they reach. -/
theorem leNat_leBytes (n v : Nat) : leNat (leBytes n v) = v % 256 ^ n := by
  induction n generalizing v with
  | zero => exact (Nat.mod_one v).symm
  | succ n ih =>
    have hcons : leNat (leBytes (n + 1) v) = v % 256 + 256 * leNat (leBytes n (v / 256)) := by
      rw [leBytes_succ, leNat, List.foldr_cons, BitVec.toNat_ofNat]
      rfl
    rw [hcons, ih, Nat.pow_succ', Nat.mod_mul]

/-! ### Source markers (R180, R233) -/

section
variable {c : Chip} {d f : Nat} {syms : List (Option Sym)} (hparses : c.parses d f = true)
include hparses

theorem Chip.sourceFrm_bad (hcrc : crc8 ((takeData syms).1.take 3) ≠ (takeData syms).1.getD 3 0) : c.sourceFrm d f syms = c.badMarker d := by
  unfold Chip.sourceFrm
  dsimp only
  rw [hparses, if_neg (by decide), if_pos (.inr (.inl hcrc))]

/-- A good marker of a stream that feeds one layer closes the frame of that layer. -/
theorem Chip.sourceFrm_layer {n : Nat} (hlength : (takeData syms).1.length = 4)
    (hcrc : crc8 ((takeData syms).1.take 3) = (takeData syms).1.getD 3 0)
    (hstream : fieldAt (takeData syms).1 0 2 < 4096) (huses : c.uses (fieldAt (takeData syms).1 0 2) = [.layer n])
    (hmode : c.mode (c.layer n).words.output ≠ SAFE) :
    c.sourceFrm d f syms = c.closeFrame n (extendSeq (fieldAt (takeData syms).1 2 1) (c.seq (c.layer n).words.output)).1 := by
  have hgood : ¬((takeData syms).1.length ≠ 4 ∨ crc8 ((takeData syms).1.take 3) ≠ (takeData syms).1.getD 3 0 ∨
      4096 ≤ fieldAt (takeData syms).1 0 2) := by
    rintro (h | h | h)
    · exact h hlength
    · exact h hcrc
    · omega
  unfold Chip.sourceFrm
  dsimp only
  rw [hparses, if_neg (by decide), if_neg hgood, huses, if_neg (List.cons_ne_nil _ _)]
  exact if_neg hmode

end

/-- A whole source frame of a layer closes without a notice. -/
theorem Chip.closeFrame_whole {c : Chip} {n frame : Nat}
    (h : (KMap.getD (c.layer n).tiles ((c.layer n).received frame * 2 ^ 32 + frame) []).length = (c.layer n).words.slots) :
    (c.closeFrame n frame).regs = c.regs ∧ (c.closeFrame n frame).layer n = { c.layer n with
      tiles := (c.layer n).tiles.filter fun kv => decide (kv.1 % 2 ^ 32 ≠ frame)
      closed := some (BitVec.ofNat 32 frame, true, (c.layer n).received frame) } := by
  unfold Chip.closeFrame
  dsimp only
  rw [decide_eq_true h, if_pos rfl]
  refine ⟨Chip.each_keeps Chip.regs c _ fun _ _ _ => rfl, ?_⟩
  rw [Chip.layer_setLayer, if_pos rfl]

theorem sourceFrameCloses : Claim.SourceFrameCloses := by
  intro s d g f lanes after hheard hmode hlength u bs
  have hlike := Chip.heardLike_of_hears hheard
  have ⟨hgroup, hruns, hready, _, _⟩ := hheard
  have hparses : u.parses d f = true := Chip.parses_of_heardLike hlike hruns hready hmode
  have hexec : exec (.sourceFrmRx d g lanes) s = .next (s.up fun _ => u.sourceFrm d f after) :=
    (exec_onGroup (k := fun s f => s.linkRx d f lanes []) hgroup).trans (congrArg _ (State.linkRx_sourceFrm hheard []))
  refine ⟨fun hcrc => ?fails, ?closes⟩
  case fails =>
    rw [hexec, Chip.sourceFrm_bad hparses hcrc]
    rfl
  case closes =>
    intro hcrc hstream n huses y frame hsafe hwhole
    have hlayer : u.layer n = y := Chip.layer_of_heardLike hlike n
    have hclose : u.sourceFrm d f after = u.closeFrame n frame := by
      rw [Chip.sourceFrm_layer hparses hlength hcrc hstream ((Chip.uses_of_heardLike hlike _).trans huses) (n := n)
        (by rw [hlayer, Chip.mode_of_heardLike hlike]; exact hsafe), hlayer, Chip.seq_of_heardLike hlike]
    obtain ⟨hregs, hclosed⟩ := Chip.closeFrame_whole (c := u) (n := n) (frame := frame) (by rw [hlayer]; exact hwhole)
    rw [hlayer] at hclosed
    refine ⟨_, hexec, rfl, ?_, ?_, ?_⟩ <;> rw [State.up_chip, hclose]
    · exact hregs
    · rw [hclosed]
    · rw [hclosed]
      exact fun kv hkv => of_decide_eq_true (List.mem_filter.1 hkv).2

/-! ### Packets of the command channel (R182, R185) -/

/-- The bytes of a command-channel packet before its CRC. -/
def scpBody (kind cseq : Nat) (message : List Byte) : List Byte := leBytes 1 kind ++ leBytes 1 cseq ++ message

/-- What follows the SCP of a packet is its body, its CRC, and its end. -/
theorem takeData_scpSyms (kind cseq : Nat) (message : List Byte) (stop : Byte) (rest : List (Option Sym)) :
    takeData (((scpSyms kind cseq message (.ctrl stop)).drop 1).map some ++ rest) =
      (scpBody kind cseq message ++ leBytes 4 (crc32c (scpBody kind cseq message)).toNat, some (.ctrl stop) :: rest) := by
  have hsyms : (scpSyms kind cseq message (.ctrl stop)).drop 1 =
      dataSyms (scpBody kind cseq message ++ leBytes 4 (crc32c (scpBody kind cseq message)).toNat) ++ [.ctrl stop] := rfl
  rw [hsyms, List.map_append, List.append_assoc, takeData_dataSyms, List.map_singleton, List.singleton_append, takeData_control,
    List.append_nil]

section
variable (kind cseq : Nat) (message crc : List Byte)

theorem length_scpBody : (scpBody kind cseq message).length = message.length + 2 := rfl

theorem scpBody_drop : (scpBody kind cseq message).drop 2 = message := rfl

theorem fieldAt_scpBody_kind : fieldAt (scpBody kind cseq message ++ crc) 0 1 = kind % 256 := leNat_leBytes 1 kind

theorem fieldAt_scpBody_cseq : fieldAt (scpBody kind cseq message ++ crc) 1 1 = cseq % 256 := leNat_leBytes 1 cseq

end

section
variable (c : Chip) (d f : Nat) (rest : List (Option Sym))

/-- A packet that ends with EDB counts and does nothing else (R185). -/
theorem Chip.scpReceived_edb (kind cseq : Nat) (message : List Byte) :
    c.scpReceived d f (((scpSyms kind cseq message symEDB).drop 1).map some ++ rest) = (c.count d SLINK SLINK.NULLIFIED_COUNT, none) := by
  unfold Chip.scpReceived
  rw [takeData_scpSyms]
  exact if_pos rfl

/-- A packet whose CRC matches is taken by its kind (R183). -/
theorem Chip.scpReceived_end {kind cseq : Nat} (message : List Byte) (hkind : kind < 256) (hcseq : cseq < 256) :
    c.scpReceived d f (((scpSyms kind cseq message symEND).drop 1).map some ++ rest) =
      if kind = 0 then ((c.scpMessage d f cseq).1, if (c.scpMessage d f cseq).2 then some message else none)
      else if kind = 1 then (c.scpAck d f cseq, none)
      else if kind = 2 then (c.scpNak d f cseq, none)
      else (c, none) := by
  have hlength : (scpBody kind cseq message ++ leBytes 4 (crc32c (scpBody kind cseq message)).toNat).length = message.length + 2 + 4 := by
    rw [List.length_append, length_scpBody, length_leBytes]
  have hcrc : ∀ w : Word, fieldAt (scpBody kind cseq message ++ leBytes 4 w.toNat) (message.length + 2) 4 = w.toNat := fun w => by
    rw [fieldAt, ← length_scpBody kind cseq message, List.drop_left, List.take_of_length_le (by rw [length_leBytes]), leNat_leBytes]
    exact Nat.mod_eq_of_lt w.isLt
  unfold Chip.scpReceived
  rw [takeData_scpSyms]
  dsimp only
  rw [hlength, Nat.add_sub_cancel, ← length_scpBody kind cseq message, List.take_left, length_scpBody, hcrc, fieldAt_scpBody_kind,
    fieldAt_scpBody_cseq, scpBody_drop, Nat.mod_eq_of_lt hkind, Nat.mod_eq_of_lt hcseq, if_neg, if_neg, if_neg (not_not.2 rfl)]
  · rintro (h | h)
    · exact h rfl
    · omega
  · exact fun h => absurd h (by rw [List.head?_cons]; decide)

end

/-! ### What a packet does (R183, R184) -/

/-- The expected message is acknowledged and delivered. -/
theorem Chip.scpMessage_expected {c : Chip} {d f cseq : Nat} (h : cseq = (c.port (.inband d f)).rxExpect) :
    c.scpMessage d f cseq = ((c.setPort (.inband d f) { c.port (.inband d f) with
      rxExpect := ((c.port (.inband d f)).rxExpect + 1) % 256, nakSent := false }).sendOn d f (scpSyms 1 cseq [] symEND), true) :=
  if_pos (by rw [← h, Nat.add_sub_cancel_left])

/-- An ACK of the oldest packet delivers it. -/
theorem Chip.scpAck_oldest {c : Chip} {d f cseq : Nat} (h : cseq = (c.port (.inband d f)).txBase) (hsent : 1 ≤ (c.port (.inband d f)).sent) :
    c.scpAck d f cseq = (c.delivered (.inband d f)).setPort (.inband d f) { (c.delivered (.inband d f)).port (.inband d f) with
      txBase := ((c.port (.inband d f)).txBase + 1) % 256 } := by
  have hone : (cseq + 256 - (c.port (.inband d f)).txBase) % 256 + 1 = 1 := by rw [← h, Nat.add_sub_cancel_left]
  unfold Chip.scpAck
  dsimp only
  rw [hone, if_pos hsent]
  rfl

/-- A NAK of the packet before the oldest sends everything on the link again. -/
theorem Chip.scpNak_before {c : Chip} {d f cseq : Nat} (hcseq : cseq < 256) (h : (cseq + 1) % 256 = (c.port (.inband d f)).txBase) :
    c.scpNak d f cseq = c.replay d f (c.port (.inband d f)).sent := by
  have hzero : (cseq + 256 - (c.port (.inband d f)).txBase + 1) % 256 = 0 := by omega
  unfold Chip.scpNak
  dsimp only
  rw [hzero, if_pos (Nat.zero_le _), Nat.sub_zero]

theorem Chip.length_onLink (c : Chip) (d f : Nat) : (c.onLink d f).length = (c.port (.inband d f)).sent := by
  unfold Chip.onLink
  dsimp only
  rw [List.length_map, List.length_zipIdx, List.length_take]
  exact Nat.min_eq_left (Nat.min_le_right ..)

/-- All that is on the link goes out again, oldest first. -/
theorem Chip.replay_all {c : Chip} {d f : Nat} (hsent : 1 ≤ (c.port (.inband d f)).sent) :
    c.replay d f (c.port (.inband d f)).sent =
      ((c.countBy d SLINK SLINK.REPLAY_COUNT (c.port (.inband d f)).sent).event d SLINK 10).sendOn d f (c.onLink d f).flatten := by
  unfold Chip.replay
  dsimp only
  rw [if_neg (by omega), c.length_onLink, Nat.sub_self]
  rfl

section
variable {s : State} {d g f : Nat}

theorem State.scpTaken_none (c : Chip) : s.scpTaken d f (c, none) = s.up fun _ => c := rfl

theorem State.scpTaken_some (c : Chip) (message : List Byte) :
    s.scpTaken d f (c, some message) = (s.up fun _ => c).accept (readMessage (.inband d f) message) := rfl

/-- A row of the command channel: what the group hears of the packet is received, and takes effect. -/
theorem onGroup_scp {syms : List Sym} {hits : List Hit} {after : List (Option Sym)}
    (h : Sys2Proof.hears s d g f (s.chip.arriving d f syms hits) symSCP after) :
    onGroup s d g (fun s f => s.linkRx d f (s.chip.arriving d f syms hits) []) =
      .next (s.scpTaken d f ((s.chip.hearGroup d f (s.chip.arriving d f syms hits)).1.scpReceived d f after)) :=
  (exec_onGroup (k := fun s f => s.linkRx d f (s.chip.arriving d f syms hits) []) h.1).trans (congrArg _ (State.linkRx_scp h []))

end

theorem commandChannel : Claim.CommandChannel := by
  intro s d g f cseq message hits rest hcseq p x lanes u heard
  have hport : ∀ {kind bs stop}, heard kind bs stop → (s.chip.hearGroup d f (lanes kind bs stop)).1.port p = x := fun h =>
    Chip.port_of_heardLike (Chip.heardLike_of_hears h) p
  refine ⟨fun h hexpected => ?message, fun h => ?nullified, fun h holdest hsent => ?ack, fun h hbefore hsent => ?nak,
    fun hgroup hready hsent => ?timeout⟩
  case message =>
    have hx := hport h
    have hrow : exec (.scpMessageRx d g cseq message symEND hits) s = _ := onGroup_scp h
    rw [hrow, Chip.scpReceived_end _ d f rest message (by decide) hcseq, if_pos rfl,
      Chip.scpMessage_expected (hexpected.trans (congrArg PortSt.rxExpect hx.symm)), if_pos rfl, State.scpTaken_some, hx]
  case nullified =>
    have hrow : exec (.scpMessageRx d g cseq message symEDB hits) s = _ := onGroup_scp h
    rw [hrow, Chip.scpReceived_edb, State.scpTaken_none]
  case ack =>
    have hx := hport h
    have hrow : exec (.scpAckRx d g cseq hits) s = _ := onGroup_scp h
    rw [hrow, Chip.scpReceived_end _ d f rest [] (by decide) hcseq, if_neg (by decide), if_pos rfl,
      Chip.scpAck_oldest (holdest.trans (congrArg PortSt.txBase hx.symm)) (hsent.trans_eq (congrArg PortSt.sent hx.symm)),
      State.scpTaken_none, hx]
  case nak =>
    have hx := hport h
    have hrow : exec (.scpNakRx d g cseq hits) s = _ := onGroup_scp h
    rw [hrow, Chip.scpReceived_end _ d f rest [] (by decide) hcseq, if_neg (by decide), if_neg (by decide), if_pos rfl,
      Chip.scpNak_before hcseq (hbefore.trans (congrArg PortSt.txBase hx.symm)), State.scpTaken_none, hx]
  case timeout =>
    refine (exec_onGroup (k := fun s f => s.up fun c => if c.firstReady d f then c.replay d f (c.port (.inband d f)).sent else c)
      hgroup).trans (congrArg _ (State.up_congr ?_))
    rw [hready, if_pos rfl]
    exact Chip.replay_all hsent

end Sys2Proof.Machine
end

section
/-! PROOFS. SKP ordered sets and the readiness of a group, and with them the statement on stream lane groups (O25; R92, R161, R162,
R169 to R171). -/

namespace Sys2Proof.Machine

/-! ### The lanes of a group (R166) -/

theorem Chip.groupFirst_of_starts {c : Chip} {d f : Nat} (h : c.startsGroup d f = true) : c.groupFirst d f = f := by
  unfold Chip.groupFirst
  rw [List.range_succ, List.reverse_append, List.reverse_singleton, List.singleton_append, List.find?_cons_of_pos h, Option.getD_some]

theorem Chip.groupFirst_le (c : Chip) (d l : Nat) : c.groupFirst d l ≤ l := by
  unfold Chip.groupFirst
  rcases hfind : (List.range (l + 1)).reverse.find? fun i => c.startsGroup d i with _ | i
  · exact Nat.zero_le l
  · exact Nat.lt_succ_iff.1 (List.mem_range.1 (List.mem_reverse.1 (List.mem_of_find?_eq_some hfind)))

theorem starts_of_isGroup {s : State} {d g f : Nat} (h : isGroup s d g f) : s.chip.startsGroup d f = true :=
  (List.mem_filter.1 (List.mem_of_getElem? h.2)).2

theorem Chip.mem_groupLanes {c : Chip} {d f l : Nat} : l ∈ c.groupLanes d f ↔ l < 8 ∧ c.groupFirst d l = f := by
  unfold Chip.groupLanes
  rw [List.mem_filter, List.mem_range, decide_eq_true_eq]

theorem Chip.first_le_of_mem {c : Chip} {d f l : Nat} (h : l ∈ c.groupLanes d f) : f ≤ l := (Chip.mem_groupLanes.1 h).2 ▸ c.groupFirst_le d l

/-! ### What an SKP ordered set carries (R161, R162) -/

theorem isCode_skpSyms (lmap : Byte) : ∀ s ∈ skpSyms lmap, isCode s := by
  have hdata : isCode (.data lmap) := fun h => Bool.noConfusion h
  have hcom : isCode symCOM := fun _ => by decide
  have hskp : isCode symSKP := fun _ => by decide
  unfold skpSyms
  simp only [List.forall_mem_cons]
  exact ⟨hcom, hdata, hskp, hskp, hskp, nofun⟩

/-- A lane that carries one set of the device's form carries nothing else. -/
theorem cutLane_skp (pos : Nat) (lmap : Byte) :
    cutLane { pos := pos, plus := false, groups := encodeLane false (skpSyms lmap) } = { pos := pos, head := [], sets := [(lmap, [])] } := by
  unfold cutLane
  rw [decodeLane_encodeLane false _ (isCode_skpSyms lmap)]
  rfl

theorem codeErrors_skp (pos : Nat) (lmap : Byte) :
    codeErrors { pos := pos, plus := false, groups := encodeLane false (skpSyms lmap) } = 0 := by
  unfold codeErrors
  rw [decodeLane_encodeLane false _ (isCode_skpSyms lmap)]
  rfl

theorem cutLanes_skpLanes (c : Chip) (d f : Nat) (lmap : Byte) :
    (skpLanes c d f lmap).map cutLane = (c.groupLanes d f).map fun l => { pos := l - f, head := [], sets := [(lmap, [])] } := by
  rw [skpLanes, List.map_map]
  exact List.map_congr_left fun l _ => cutLane_skp (l - f) lmap

/-- Rounds that each leave the chip as it is leave it so together. -/
theorem Chip.each_fixed {α : Type} {c : Chip} {l : List α} {f : Chip → α → Chip} (h : ∀ x ∈ l, f c x = c) : c.each l f = c :=
  Chip.each_preserves (P := fun u => u = c) (fun u x hx hu => by rw [hu]; exact h x hx) rfl

theorem Chip.countCodeErrors_skpLanes (c : Chip) (d f : Nat) (lmap : Byte) : c.countCodeErrors d f (skpLanes c d f lmap) = c := by
  refine Chip.each_fixed fun lane hlane => ?_
  obtain ⟨l, _, rfl⟩ := List.mem_map.1 hlane
  exact if_pos (.inl (codeErrors_skp (l - f) lmap))

theorem skewExceeded_nil (rate : Nat) : skewExceeded rate [] = false := by
  unfold skewExceeded
  dsimp only [List.foldl_nil]
  rw [Nat.sub_self, Nat.zero_mul]
  rfl

/-- A set that a group which is not READY hears on all its lanes makes the group READY if its lanes are (R170). -/
theorem Chip.skpReceived_skpLanes {c : Chip} {d f : Nat} (lmap : Byte) (hpower : c.power = .running) (hready : c.firstReady d f = false)
    (hf : f ∈ c.groupLanes d f) :
    c.skpReceived d f (skpLanes c d f lmap) [] = c.groupReadyNow d f ((c.groupLanes d f).map fun l => l - f) lmap.toNat := by
  have hne : c.groupLanes d f ≠ [] := List.ne_nil_of_mem hf
  have hwhole : ((c.groupLanes d f).map fun l => ({ pos := l - f, head := [], sets := [(lmap, [])] } : CutLane)).all (fun l =>
      decide (l.head = []) && decide (l.sets.length = 1) && l.sets.all (fun s => decide (s.2 = []))) = true :=
    List.all_eq_true.2 fun x hx => by obtain ⟨l, _, rfl⟩ := List.mem_map.1 hx; rfl
  have hmaps : ((c.groupLanes d f).map fun l => ({ pos := l - f, head := [], sets := [(lmap, [])] } : CutLane)).flatMap
      (fun l => l.sets.map fun s => s.1) = (c.groupLanes d f).map fun _ => lmap := by
    rw [List.flatMap_map, List.map_eq_flatMap]
    rfl
  have hhead : ((c.groupLanes d f).map fun _ => lmap).headD 0 = lmap := by
    obtain ⟨a, ls, hls⟩ := List.exists_cons_of_ne_nil hne
    rw [hls, List.map_cons, List.headD_cons]
  have hagree : ((c.groupLanes d f).map fun _ => lmap).all (fun m => decide (m = lmap)) = true :=
    List.all_eq_true.2 fun m hm => by obtain ⟨_, _, rfl⟩ := List.mem_map.1 hm; exact decide_eq_true rfl
  have hcut : ¬((c.groupLanes d f).map (fun l => ({ pos := l - f, head := [], sets := [(lmap, [])] } : CutLane)) = [] ∨ (!true) = true) :=
    not_or.2 ⟨fun h => hne (List.map_eq_nil_iff.1 h), by decide⟩
  unfold Chip.skpReceived
  dsimp only
  rw [cutLanes_skpLanes, hready, c.countCodeErrors_skpLanes, hwhole, hmaps, hhead, hagree, skewExceeded_nil, if_neg (not_not.2 hpower),
    if_neg hcut, if_neg (by decide), if_neg (by decide), if_neg (by decide), List.map_map]
  rfl

/-! ### PAGE_STATUS.READY of the port page (R92) -/

/-- READY_MAP shows nothing of the in-band ports. -/
theorem Chip.readyMap_put_inband (c : Chip) (d v : Nat) : (c.put d PORT_INB PAGE_STATUS 0 0 v).readyMap d = c.readyMap d := by
  have hready : ∀ p, apart p PAGE_STATUS PORT_INB PAGE_STATUS = true → (c.put d PORT_INB PAGE_STATUS 0 0 v).ready d p = c.ready d p := fun p hp =>
    congrArg (fun w => bit w 0) (c.reg_put_apart d d hp 0 0 v)
  have hlane : ∀ l < 24, apart (lanePage l) PAGE_STATUS PORT_INB PAGE_STATUS = true := by decide
  have hboot : (c.put d PORT_INB PAGE_STATUS 0 0 v).get 0 SYS SYS.BOOT_STATUS 24 24 = c.get 0 SYS SYS.BOOT_STATUS 24 24 :=
    Chip.get_congr (c.reg_put_apart d 0 (by decide) 0 0 v) 24 24
  unfold Chip.readyMap
  dsimp only
  rw [hboot, hready TGEN (by decide), hready PANEL_OD (by decide), hready PANEL_DM (by decide), hready PANEL_DT (by decide),
    hready (memcPage 0) (by decide), hready (memcPage 1) (by decide), hready STEWARD (by decide), hready AON (by decide),
    List.foldl_ext _ _ 0 fun n l hl => by rw [hready _ (hlane l (List.mem_range.1 hl))]]

/-- The page of the ports shows that it is READY without a record. -/
theorem Chip.noteInband_eq (c : Chip) (d : Nat) : c.noteInband d =
    c.put d PORT_INB PAGE_STATUS 0 0 (decide (c.get d SLINK SLINK.GROUP_READY 7 0 ≠ 0)).toNat := by
  unfold Chip.noteInband Chip.setReady Chip.noteReady
  dsimp only
  rw [Chip.readyMap_put_inband, Nat.xor_self, Nat.and_zero, if_pos rfl]
  exact Chip.events_nil _ d SYS

/-! ### A group becomes READY (R170) -/

/-- A group as it becomes READY: its bits and its lane map, the map by which it receives, and an empty port. -/
def Chip.groupUp (c : Chip) (d f lmap short carried : Nat) : Chip :=
  let g := c.groupNumber d f
  let c := (c.put d SLINK SLINK.GROUP_READY g g 1).put d SLINK SLINK.GROUP_READY (8 + g) (8 + g) short
  let c := (c.setNum d SLINK (SLINK.GROUP_LMAP + 4 * g) lmap).setRxMap d f carried
  ((c.setDegraded d SLINK (decide (c.get d SLINK SLINK.GROUP_READY 15 8 ≠ 0))).setPort (.inband d f) {}).noteInband d

theorem Chip.groupReadyNow_all {c : Chip} {d f carried : Nat} {got : List Nat}
    (h : ∀ l ∈ c.groupLanes d f, c.isReady d l = true ∧ c.lrate d l = c.lrate d f ∧ l - f ∈ got) :
    ∃ lmap short, c.groupReadyNow d f got carried = c.groupUp d f lmap short carried := by
  have hrate : c.lrate d (((c.groupLanes d f).filter fun l => !c.isSpare d l).headD f) = c.lrate d f := by
    rcases hcore : (c.groupLanes d f).filter fun l => !c.isSpare d l with _ | ⟨l, ls⟩
    · rfl
    · exact (h l (List.mem_filter.1 (hcore ▸ List.mem_cons_self ..)).1).2.1
  have hall : ((c.groupLanes d f).filter fun l => !c.isSpare d l).all (fun l =>
      c.isReady d l && decide (c.lrate d l = c.lrate d f) && got.contains (l - f)) = true := by
    refine List.all_eq_true.2 fun l hl => ?_
    obtain ⟨hready, hsame, hgot⟩ := h l (List.mem_filter.1 hl).1
    rw [hready, hsame, decide_eq_true rfl, List.contains_iff_mem.2 hgot]
    rfl
  unfold Chip.groupReadyNow
  dsimp only
  rw [hrate, hall, if_pos rfl]
  exact ⟨_, _, rfl⟩

section
variable (c : Chip) (d f lmap short carried : Nat)

theorem Chip.port_put (p o hi lo v : Nat) (q : Port) : (c.put d p o hi lo v).port q = c.port q := rfl

theorem Chip.rxMap_put (p o hi lo v e k : Nat) : (c.put d p o hi lo v).rxMap e k = c.rxMap e k := rfl

theorem Chip.port_groupUp : (c.groupUp d f lmap short carried).port (.inband d f) = {} := by
  unfold Chip.groupUp
  dsimp only
  rw [Chip.noteInband_eq, Chip.port_put, Chip.port_setPort, if_pos rfl]

theorem Chip.rxMap_setPort (p : Port) (x : PortSt) (e k : Nat) : (c.setPort p x).rxMap e k = c.rxMap e k := rfl

theorem Chip.rxMap_groupUp : (c.groupUp d f lmap short carried).rxMap d f = carried := by
  unfold Chip.groupUp Chip.setDegraded
  dsimp only
  rw [Chip.noteInband_eq, Chip.rxMap_put, Chip.rxMap_setPort, Chip.rxMap_put, Chip.rxMap_setRxMap, if_pos rfl]

theorem Chip.reg_setPort (p : Port) (x : PortSt) (e q r : Nat) : (c.setPort p x).reg e q r = c.reg e q r := rfl

theorem Chip.reg_setRxMap (v e q r : Nat) : (c.setRxMap d f v).reg e q r = c.reg e q r := rfl

/-- Of the registers of SLINK before the lane maps, a group that becomes READY changes GROUP_READY and PAGE_STATUS. -/
theorem Chip.reg_groupUp {r : Nat} (hr : r ≤ SLINK.GROUP_READY) (hstatus : r ≠ PAGE_STATUS) :
    (c.groupUp d f lmap short carried).reg d SLINK r =
      ((c.put d SLINK SLINK.GROUP_READY (c.groupNumber d f) (c.groupNumber d f) 1).put d SLINK SLINK.GROUP_READY
        (8 + c.groupNumber d f) (8 + c.groupNumber d f) short).reg d SLINK r := by
  have hpage : r < 0x1000 := lt_of_le_of_lt hr (by decide)
  have hlmap : apart SLINK r SLINK (SLINK.GROUP_LMAP + 4 * c.groupNumber d f) = true :=
    apart_of_ne (by decide) hpage (by decide) (groupLmap_in_page c d f)
      (.inr (ne_of_lt (lt_of_le_of_lt hr (Nat.lt_of_lt_of_le (by decide) (Nat.le_add_right _ _)))))
  have hin : apart SLINK r PORT_INB PAGE_STATUS = true := apart_of_ne (by decide) hpage (by decide) (by decide) (.inl (by decide))
  have hdegraded : apart SLINK r SLINK PAGE_STATUS = true := apart_of_ne (by decide) hpage (by decide) (by decide) (.inr hstatus)
  unfold Chip.groupUp Chip.setDegraded
  dsimp only
  rw [Chip.noteInband_eq, Chip.reg_put_apart _ d d hin, Chip.reg_setPort, Chip.reg_put_apart _ d d hdegraded, Chip.reg_setRxMap,
    Chip.reg_setNum_apart _ d d hlmap]

theorem Chip.firstReady_groupUp : (c.groupUp d f lmap short carried).firstReady d f = true := by
  have hg := c.groupNumber_le d f
  have hstarts : (c.groupUp d f lmap short carried).startsGroup d = c.startsGroup d := Chip.startsGroup_congr (by
    rw [Chip.reg_groupUp _ _ _ _ _ _ (by decide) (by decide), Chip.reg_put_apart _ d d (by decide), Chip.reg_put_apart _ d d (by decide)])
  unfold Chip.firstReady Chip.groupReady
  rw [Chip.groupNumber_congr hstarts, Chip.flag, Chip.reg_groupUp _ _ _ _ _ _ le_rfl (by decide), ← Chip.flag,
    Chip.flag_put _ _ _ _ _ _ (by omega), if_neg (by omega), Chip.flag_put _ _ _ _ _ _ (by omega), if_pos rfl]
  rfl

end

/-- The set makes the group READY: its lanes are READY at one rate, and the maps that they carry agree. -/
theorem Chip.skpReceived_ready {c : Chip} {d f : Nat} (lmap : Byte) (hpower : c.power = .running) (hready : c.firstReady d f = false)
    (hf : f ∈ c.groupLanes d f) (hlanes : ∀ l ∈ c.groupLanes d f, c.isReady d l = true ∧ c.lrate d l = c.lrate d f) :
    ∃ mask short, c.skpReceived d f (skpLanes c d f lmap) [] = c.groupUp d f mask short lmap.toNat := by
  rw [Chip.skpReceived_skpLanes lmap hpower hready hf]
  refine Chip.groupReadyNow_all fun l hl => ?_
  obtain ⟨hl', hrate⟩ := hlanes l hl
  exact ⟨hl', hrate, List.mem_map.2 ⟨l, hl, rfl⟩⟩

/-! ### The map by which a group sends (R169, R171) -/

/-- The READY lanes of a group, as positions, ascending. -/
theorem Chip.sorted_readyLanes (c : Chip) (d f : Nat) (p : Nat → Bool) :
    (((c.groupLanes d f).filter p).map fun l => l - f).SortedLT := by
  refine List.sortedLT_iff_pairwise.2 (List.pairwise_map.2 (List.Pairwise.imp_of_mem (fun {a b} ha hb hab => ?_)
    ((List.pairwise_lt_range.filter _).filter _)))
  have hfa := Chip.first_le_of_mem (List.mem_filter.1 ha).1
  omega

/-- The map of the lanes that can carry stripes has the bits of their positions. -/
theorem Chip.testBit_readyMap (c : Chip) (d f i : Nat) : (c.readyMap' d f).testBit i = true ↔
    ∃ l ∈ c.groupLanes d f, (c.isReady d l = true ∧ c.lrate d l = c.get d SLINK (SLINK.GROUP_LMAP + 4 * c.groupNumber d f) 10 8) ∧
      l - f = i := by
  unfold Chip.readyMap'
  dsimp only
  generalize c.get d SLINK (SLINK.GROUP_LMAP + 4 * c.groupNumber d f) 10 8 = rate
  have hsorted := c.sorted_readyLanes d f fun l => c.isReady d l && decide (c.lrate d l = rate)
  have hsum : ∀ ls : List Nat, ls.foldl (fun n l => n + 2 ^ (l - f)) 0 = ((ls.map fun l => l - f).map fun i => 2 ^ i).sum := fun ls => by
    rw [List.sum_eq_foldl, List.foldl_map, List.foldl_map]
  rw [hsum, ← Nat.mem_bitIndices, Nat.bitIndices_sum_map_two_pow hsorted, List.mem_map]
  simp only [List.mem_filter, Bool.and_eq_true, decide_eq_true_eq, and_assoc]

/-- A lane that is not READY has no place in the map. -/
theorem Chip.testBit_readyMap_lost {c : Chip} {d f l : Nat} (hl : l ∈ c.groupLanes d f) (hlost : c.isReady d l = false) :
    (c.readyMap' d f).testBit (l - f) = false := by
  refine Bool.eq_false_iff.2 fun h => ?_
  obtain ⟨m, hm, ⟨hready, _⟩, hpos⟩ := (c.testBit_readyMap d f _).1 h
  have hml : m = l := by
    have := Chip.first_le_of_mem hm
    have := Chip.first_le_of_mem hl
    omega
  exact Bool.false_ne_true (hlost.symm.trans (hml ▸ hready))

/-- A lane that caps no other has no cap to lift (R197). -/
theorem Chip.liftCap_none {c : Chip} {d k : Nat} (h : ∀ m < 8, (c.lane d m).capBy ≠ k) : c.liftCap d k = c :=
  Chip.each_fixed fun m hm => if_neg (h m (List.mem_range.1 hm))

/-- A READY group after it sent a set with a new map (R171). -/
def Chip.mapSent (c : Chip) (d f : Nat) : Chip :=
  (c.sendOn d f (skpSyms (BitVec.ofNat 8 (c.readyMap' d f)))).put d SLINK (SLINK.GROUP_LMAP + 4 * c.groupNumber d f) 7 0 (c.readyMap' d f)

/-- The spare is back in the map: the group is DEGRADED no longer (R171). -/
def Chip.spareBack (c : Chip) (d g : Nat) : Chip :=
  let c := c.put d SLINK SLINK.GROUP_READY (8 + g) (8 + g) 0
  (c.setDegraded d SLINK (decide (c.get d SLINK SLINK.GROUP_READY 15 8 ≠ 0))).event d SLINK 7

/-- A set that a READY group sends leaves the map as it is, or changes it, and the spare may be back. -/
theorem Chip.sendSkp_cases {c : Chip} {d f : Nat} (hready : c.firstReady d f = true) (hcap : ∀ m < 8, (c.lane d m).capBy = 24) :
    (c.sendSkp d f = c.sendOn d f (skpSyms (BitVec.ofNat 8 (c.readyMap' d f))) ∧ c.txMap d f = c.readyMap' d f) ∨
      c.sendSkp d f = c.mapSent d f ∨ c.sendSkp d f = (c.mapSent d f).spareBack d (c.groupNumber d f) := by
  have hg : (c.sendOn d f (skpSyms (BitVec.ofNat 8 (c.readyMap' d f)))).groupReady d (c.groupNumber d f) = true := hready
  by_cases hsame : c.txMap d f = c.readyMap' d f
  · exact .inl ⟨if_pos (.inr hsame), hsame⟩
  · have hlift : (c.mapSent d f).each ((c.mapSent d f).groupLanes d f) (fun u l =>
        if (c.txMap d f).testBit (l - f) ∧ !(c.readyMap' d f).testBit (l - f) then u.liftCap d l else u) = c.mapSent d f :=
      Chip.each_fixed fun l hl => by
        have hlow := (Chip.mem_groupLanes.1 hl).1
        rw [Chip.liftCap_none (c := c.mapSent d f) fun m hm => ne_of_eq_of_ne (hcap m hm) (by omega), ite_self]
    refine .inr ?_
    unfold Chip.sendSkp
    dsimp only
    rw [hg, if_neg (not_or.2 ⟨by decide, hsame⟩)]
    unfold Chip.mapSent at hlift ⊢
    rw [hlift]
    split
    · exact .inr rfl
    · exact .inl rfl

section
variable (c : Chip) (d f : Nat)

theorem Chip.wire_mapSent : (c.mapSent d f).wire d f = skpSyms (BitVec.ofNat 8 (c.readyMap' d f)) := by
  have hput : (c.mapSent d f).wire d f = (c.sendOn d f (skpSyms (BitVec.ofNat 8 (c.readyMap' d f)))).wire d f := rfl
  rw [hput, Chip.wire_sendOn, if_pos rfl]

/-- The register of a group's map shows the map that was sent. -/
theorem Chip.lmap_mapSent {i : Nat} (hi : i < 8) :
    ((c.mapSent d f).num d SLINK (SLINK.GROUP_LMAP + 4 * c.groupNumber d f)).testBit i = (c.readyMap' d f).testBit i := by
  unfold Chip.mapSent
  rw [Chip.num, Chip.put_eq, Chip.reg_setReg_same]
  refine (bit_setBits _ _ (Nat.zero_le 7) (by omega)).trans ?_
  rw [if_pos (by omega), Nat.sub_zero]

theorem Chip.reg_mapSent {r : Nat} (hr : r ≤ SLINK.GROUP_READY) : (c.mapSent d f).reg d SLINK r = c.reg d SLINK r :=
  Chip.reg_put_apart _ d d (apart_of_ne (by decide) (lt_of_le_of_lt hr (by decide)) (by decide) (groupLmap_in_page c d f)
    (.inr (ne_of_lt (lt_of_le_of_lt hr (Nat.lt_of_lt_of_le (by decide) (Nat.le_add_right _ _)))))) 7 0 _

theorem Chip.wire_spareBack (g e k : Nat) : (c.spareBack d g).wire e k = c.wire e k := by
  have hwires : (c.spareBack d g).wires = c.wires := (congrArg Chip.wires (Chip.touches_event _ d SLINK 7).1).trans rfl
  unfold Chip.wire
  rw [hwires]

theorem Chip.reg_spareBack (g : Nat) {r : Nat} (hquiet : quiet SLINK r = true) (hstatus : r ≠ PAGE_STATUS) :
    (c.spareBack d g).reg d SLINK r = (c.put d SLINK SLINK.GROUP_READY (8 + g) (8 + g) 0).reg d SLINK r := by
  have hpage : r < 0x1000 := (bounds_of_quiet hquiet).2
  unfold Chip.spareBack Chip.setDegraded
  dsimp only
  rw [Chip.reg_event_quiet _ d d hquiet, Chip.reg_put_apart _ d d (apart_of_ne (by decide) hpage (by decide) (by decide) (.inr hstatus))]

end

/-- What the next set that a READY group sends shows of a lane that it lost. -/
theorem Chip.sendSkp_shows {c : Chip} {d f l : Nat} (hready : c.firstReady d f = true) (hcap : ∀ m < 8, (c.lane d m).capBy = 24)
    (hl : l ∈ c.groupLanes d f) (hlost : c.isReady d l = false) :
    (c.sendSkp d f).firstReady d f = true ∧ (c.sendSkp d f).wire d f = skpSyms (BitVec.ofNat 8 (c.readyMap' d f)) ∧
      ((c.sendSkp d f).num d SLINK (SLINK.GROUP_LMAP + 4 * c.groupNumber d f)).testBit (l - f) = false := by
  have hpos : l - f < 8 := lt_of_le_of_lt (Nat.sub_le l f) (Chip.mem_groupLanes.1 hl).1
  have hgone := Chip.testBit_readyMap_lost hl hlost
  have hsent : (c.mapSent d f).firstReady d f = true :=
    (Chip.firstReady_congr (Chip.startsGroup_congr (c.reg_mapSent d f (by decide))) (c.reg_mapSent d f le_rfl) f).trans hready
  rcases Chip.sendSkp_cases hready hcap with ⟨h, hsame⟩ | h | h <;> rw [h]
  · refine ⟨hready, (Chip.wire_sendOn c d f _ d f).trans (if_pos rfl), ?_⟩
    have hshown : (bits (c.reg d SLINK (SLINK.GROUP_LMAP + 4 * c.groupNumber d f)) 7 0).testBit (l - f) = false := by
      rw [← hsame] at hgone
      exact hgone
    rw [testBit_bits, decide_eq_true (by omega), Bool.true_and, Nat.zero_add] at hshown
    exact hshown
  · exact ⟨hsent, c.wire_mapSent d f, (c.lmap_mapSent d f hpos).trans hgone⟩
  · have hg := c.groupNumber_le d f
    have hlmap : quiet SLINK (SLINK.GROUP_LMAP + 4 * c.groupNumber d f) = true := by
      simp only [quiet, SLINK, PORT_SVC, PORT_INB, SLINK.GROUP_LMAP, PAGE_EVENT, PAGE_EVENT_LOST, Bool.and_eq_true, decide_eq_true_eq]
      omega
    have hstarts : ((c.mapSent d f).spareBack d (c.groupNumber d f)).startsGroup d = (c.mapSent d f).startsGroup d :=
      Chip.startsGroup_congr ((Chip.reg_spareBack _ d _ (by decide) (by decide)).trans (Chip.reg_put_apart _ d d (by decide) _ _ _))
    have hbeside : apart SLINK (SLINK.GROUP_LMAP + 4 * c.groupNumber d f) SLINK SLINK.GROUP_READY = true :=
      apart_of_ne (by decide) (groupLmap_in_page c d f) (by decide) (by decide)
        (.inr (ne_of_gt (Nat.lt_of_lt_of_le (by decide) (Nat.le_add_right _ _))))
    have hnumber : (c.mapSent d f).groupNumber d f = c.groupNumber d f :=
      Chip.groupNumber_congr (Chip.startsGroup_congr (c.reg_mapSent d f (by decide))) f
    refine ⟨?_, (Chip.wire_spareBack _ d _ d f).trans (c.wire_mapSent d f), ?_⟩
    · unfold Chip.firstReady Chip.groupReady at hsent ⊢
      rw [hnumber] at hsent
      rw [Chip.groupNumber_congr hstarts, hnumber, Chip.flag, Chip.reg_spareBack _ d _ (by decide) (by decide), ← Chip.flag,
        Chip.flag_put _ _ _ _ _ _ (by omega), if_neg (by omega)]
      exact hsent
    · rw [Chip.num, Chip.reg_spareBack _ d _ hlmap (ne_of_gt (Nat.lt_of_lt_of_le (by decide) (Nat.le_add_right _ _))),
        Chip.reg_put_apart _ d d hbeside, ← Chip.num, c.lmap_mapSent d f hpos, hgone]

theorem groupReadiness : Claim.GroupReadiness := by
  intro s d g f hgroup hpower
  have hfirst : s.chip.groupFirst d f = f := Chip.groupFirst_of_starts (starts_of_isGroup hgroup)
  have hf : f < 8 := first_lt_of_isGroup hgroup
  refine ⟨fun lmap hready hlanes => ?becomes, fun l hready hl hlost hcap => ?sends⟩
  case becomes =>
    obtain ⟨mask, short, hup⟩ := Chip.skpReceived_ready lmap hpower hready (Chip.mem_groupLanes.2 ⟨hf, hfirst⟩) hlanes
    have hexec : exec (.skpOrderedSetRx d g (skpLanes s.chip d f lmap) []) s =
        .next (s.up fun c => c.skpReceived d f (skpLanes s.chip d f lmap) []) :=
      exec_onGroup (k := fun t e => t.up fun c => c.skpReceived d e (skpLanes s.chip d f lmap) []) hgroup
    refine ⟨_, hexec, rfl, ?_, ?_, ?_⟩ <;> rw [State.up_chip, hup]
    · exact Chip.firstReady_groupUp ..
    · exact Chip.port_groupUp ..
    · exact Chip.rxMap_groupUp ..
  case sends =>
    have hsend : (if f < 8 then (if s.chip.firstReady d (s.chip.groupFirst d f) then s.chip.sendSkp d (s.chip.groupFirst d f) else s.chip)
        else if s.chip.isReady d f then s.chip.sendOn d f (skpSyms 1) else s.chip) = s.chip.sendSkp d f := by
      rw [hfirst, if_pos hf, if_pos hready]
    have hexec : exec (.skpOrderedSetSend d f) s = .next (s.up fun c => c.sendSkp d f) :=
      (if_pos ⟨hgroup.1, hf.trans (by decide)⟩).trans (congrArg _ (State.up_congr hsend))
    exact ⟨_, hexec, rfl, Chip.sendSkp_shows hready hcap hl hlost⟩

/-- Settles O25: the frame that a source marker closes, the sets that make a group READY and that it sends, and the packets of
the command channel. -/
theorem streamGroups : Obligations.StreamGroups := ⟨sourceFrameCloses, groupReadiness, commandChannel⟩

end Sys2Proof.Machine
end

section
/-! PROOFS. The phases of an attempt (O21; R164, R165, R190 to R194). -/

namespace Sys2Proof.Machine

/-! ### Records of lanes beside the registers -/

theorem Chip.touches_lanes {c c' : Chip} {p : Nat → Prop} (h : c.touches c' p) : c'.lanes = c.lanes := by rw [h.1]

theorem Chip.lane_congr {c c' : Chip} (h : c'.lanes = c.lanes) (d l : Nat) : c'.lane d l = c.lane d l := by
  unfold Chip.lane
  rw [h]

/-- A lane that was put holds what was put. -/
theorem Chip.lane_setLane_same (c : Chip) (d l : Nat) (x : LaneSt) : (c.setLane d l x).lane d l = x := by
  rw [Chip.lane_setLane, if_pos rfl]

section
variable (c : Chip) (d l : Nat)

theorem Chip.lanes_lput (o hi lo v : Nat) : (c.lput d l o hi lo v).lanes = c.lanes := rfl
theorem Chip.lanes_put (p o hi lo v : Nat) : (c.put d p o hi lo v).lanes = c.lanes := rfl

theorem Chip.lanes_setReady (p : Nat) (b : Bool) : (c.setReady d p b).lanes = c.lanes := Chip.touches_lanes (c.touches_setReady d p b)

theorem Chip.lanes_drvLost : (c.drvLost d l).lanes = c.lanes := by
  unfold Chip.drvLost Chip.endDrv
  split
  · rw [Chip.touches_lanes (Chip.touches_event _ d DLINK 5), Chip.lanes_put, Chip.setDie_lanes]
  · rfl

theorem Chip.lanes_setRate (v : Nat) : (c.setRate d l v).lanes = c.lanes := by
  unfold Chip.setRate Chip.showFails
  dsimp only
  split <;> simp only [Chip.lanes_lput]

theorem Chip.lanes_setLaneState (v : Nat) : (c.setLaneState d l v).lanes = c.lanes := by
  unfold Chip.setLaneState Chip.setState
  dsimp only
  split_ifs <;> simp only [Chip.lanes_setReady, Chip.lanes_setRate, Chip.lanes_lput, Chip.lanes_put, Chip.lanes_drvLost]

theorem Chip.lane_setFails (n r : Nat) : (c.setFails d l n r).lane d l = { c.lane d l with fails := n, failRate := r } := by
  unfold Chip.setFails Chip.showFails
  dsimp only
  rw [Chip.lane_congr (Chip.lanes_lput ..), Chip.lane_setLane_same]

theorem Chip.now_lput (o hi lo v : Nat) : (c.lput d l o hi lo v).now = c.now := rfl

theorem Chip.now_setRate (v : Nat) : (c.setRate d l v).now = c.now := by
  unfold Chip.setRate Chip.showFails
  dsimp only
  split <;> simp only [Chip.now_lput]

theorem Chip.lane_snapLane : ∃ snap, (c.snapLane d l).lane d l = { c.lane d l with snap := snap } := by
  unfold Chip.snapLane
  dsimp only
  split
  · exact ⟨_, rfl⟩
  · exact ⟨_, c.lane_setLane_same d l _⟩

theorem Chip.reg_snapLane (e q r : Nat) : (c.snapLane d l).reg e q r = c.reg e q r := by
  unfold Chip.snapLane
  dsimp only
  split <;> rfl

theorem Chip.lstate_snapLane : (c.snapLane d l).lstate d l = c.lstate d l := Chip.get_congr (c.reg_snapLane d l d _ _) 7 0
theorem Chip.lrate_snapLane : (c.snapLane d l).lrate d l = c.lrate d l := Chip.get_congr (c.reg_snapLane d l d _ _) 18 16

end

/-! ### The rate of a lane (R188, R190) -/

/-- The record of a lane that returns to Lock at 3.5 Gbit/s (R165). -/
def Chip.relocked (c : Chip) (d l : Nat) : LaneSt :=
  let x := c.lane d l
  { x with lockAt := c.now, phaseAt := c.now, rateAt := c.now, rxCount := 0, retrainTx := c.retrainSets d l, fomGood := 0, fomBad := 0,
           trial := none, far := if x.far = 2 then 1 else if x.far = 3 then 0 else x.far }

/-- The record of a lane that starts an attempt (R191). -/
def Chip.started (c : Chip) (d l : Nat) : LaneSt :=
  { c.relocked d l with attemptAt := c.now, ceiling := c.effCeiling d l, fails := 0 }

section
variable (c : Chip) (d : Nat) {l : Nat} (hl : l < 24)
include hl

theorem Chip.lrate_setRate {v : Nat} (hv : v < 8) : (c.setRate d l v).lrate d l = v := by
  have hfields : ((c.lput d l LANE.STATUS 18 16 v).showFails d l).lrate d l = v :=
    (Chip.get_put_beside _ d _ _ _ d _ _ (by decide) (by decide) (.inr (by decide))).trans
      ((c.get_put d (lanePage l) LANE.STATUS v (by decide) (by decide)).trans (Nat.mod_eq_of_lt hv))
  unfold Chip.setRate
  dsimp only
  split
  · exact (Chip.get_congr (Chip.reg_put_apart _ d d (apart_in_lanePage hl (by decide) (by decide) (by decide)) ..) 18 16).trans hfields
  · exact hfields

/-- A lane in an attempt, in DOWN or READY keeps its rate (R190). -/
theorem Chip.lrate_setLaneState {v : Nat} (hoff : v ≠ laneOFF) (hparked : v ≠ lanePARKED) :
    (c.setLaneState d l v).lrate d l = c.lrate d l := by
  have hq : quiet (lanePage l) LANE.STATUS = true := quiet_lanePage hl (by decide) (by decide) (by decide)
  have hpageStatus : apart (lanePage l) LANE.STATUS (lanePage l) PAGE_STATUS = true := apart_in_lanePage hl (by decide) (by decide) (by decide)
  have hctrl : apart (lanePage l) LANE.STATUS (lanePage l) LANE.CTRL = true := apart_in_lanePage hl (by decide) (by decide) (by decide)
  have hready : ∀ (x : Chip) b, (x.setReady d (lanePage l) b).lrate d l = x.lrate d l := fun x b =>
    Chip.get_congr ((x.reg_setReady_quiet d d hq _ b).trans (x.reg_put_apart d d hpageStatus 0 0 _)) 18 16
  have hput : ∀ x : Chip, (((x.lput d l LANE.STATUS 7 0 v).setState d (lanePage l) v).lput d l LANE.CTRL 0 0
      (decide (v ≠ laneOFF)).toNat).lrate d l = x.lrate d l := fun x =>
    (Chip.get_congr ((Chip.reg_put_apart _ d d hctrl ..).trans (Chip.reg_put_apart _ d d hpageStatus ..)) 18 16).trans
      (x.get_put_beside d _ _ _ d _ _ (by decide) (by decide) (.inr (by decide)))
  have hdrv : (c.drvLost d l).lrate d l = c.lrate d l := Chip.get_congr (c.reg_drvLost d l d hq (lanePage_ne_blocks hl).2.1) 18 16
  unfold Chip.setLaneState
  dsimp only
  rw [if_neg (not_or.2 ⟨hoff, hparked⟩)]
  split_ifs <;> simp only [hready, hput, hdrv]

/-! ### Phases (R164, R165, R191) -/

/-- A lane starts a phase at its rate. -/
theorem Chip.enterPhase_spec {v : Nat} (hv : v < 256) (hoff : v ≠ laneOFF) (hparked : v ≠ lanePARKED) :
    (c.enterPhase d l v).lstate d l = v ∧ (c.enterPhase d l v).lrate d l = c.lrate d l ∧
      (c.enterPhase d l v).lane d l = { c.lane d l with phaseAt := c.now, rxCount := 0 } := by
  refine ⟨Chip.lstate_setLaneState _ d hl hv, Chip.lrate_setLaneState _ d hl hoff hparked, ?_⟩
  exact (Chip.lane_congr (Chip.lanes_setLaneState ..) d l).trans (c.lane_setLane_same d l _)

/-- A lane whose record was put starts again in Lock at 3.5 Gbit/s. -/
theorem Chip.lockAgain_spec (x : LaneSt) :
    let t := ((c.setLane d l x).setRate d l 0).setLaneState d l laneLOCK
    t.lstate d l = laneLOCK ∧ t.lrate d l = 0 ∧ t.lane d l = x := by
  refine ⟨Chip.lstate_setLaneState _ d hl (by decide), ?_, ?_⟩
  · exact (Chip.lrate_setLaneState _ d hl (by decide) (by decide)).trans (Chip.lrate_setRate _ d hl (by decide))
  · exact (Chip.lane_congr ((Chip.lanes_setLaneState ..).trans (Chip.lanes_setRate ..)) d l).trans (c.lane_setLane_same d l x)

/-- The lane changes rate after Step and locks at the new one (R164). -/
theorem Chip.rateChanged_spec (hstep : c.lstate d l = laneSTEP) (hsent : c.sent16 d l = true) (hcount : 8 ≤ l ∨ 8 ≤ (c.lane d l).rxCount)
    (hrate : c.lrate d l < 4) :
    (c.rateChanged d l).lstate d l = laneLOCK ∧ (c.rateChanged d l).lrate d l = c.lrate d l + 1 ∧
      ((c.rateChanged d l).lane d l).rxCount = 0 ∧ ((c.rateChanged d l).lane d l).phaseAt = c.now := by
  have heq : c.rateChanged d l = (((c.setLane d l { c.lane d l with rateAt := c.now, fomGood := 0, fomBad := 0, trial := none }).setRate d l
      (c.lrate d l + 1)).enterPhase d l laneLOCK) := if_pos ⟨hstep, hsent, hcount⟩
  rw [heq]
  obtain ⟨hstate, hnew, hlane⟩ := ((c.setLane d l { c.lane d l with rateAt := c.now, fomGood := 0, fomBad := 0, trial := none }).setRate d l
      (c.lrate d l + 1)).enterPhase_spec d hl (v := laneLOCK) (by decide) (by decide) (by decide)
  refine ⟨hstate, hnew.trans (Chip.lrate_setRate _ d hl (by omega)), by rw [hlane], ?_⟩
  rw [hlane]
  exact Chip.now_setRate ..

/-! ### Failures (R193) -/

/-- A return to Lock at 3.5 Gbit/s keeps the count of failures. -/
theorem Chip.backToLock_spec :
    (c.backToLock d l).lstate d l = laneLOCK ∧ (c.backToLock d l).lrate d l = 0 ∧
      ((c.backToLock d l).lane d l).fails = (c.lane d l).fails ∧ ((c.backToLock d l).lane d l).failRate = (c.lane d l).failRate := by
  have heq : c.backToLock d l = ((c.setLane d l (c.relocked d l)).setRate d l 0).setLaneState d l laneLOCK := rfl
  obtain ⟨hstate, hrate, hlane⟩ := c.lockAgain_spec d hl (c.relocked d l)
  rw [heq, hlane]
  exact ⟨hstate, hrate, rfl, rfl⟩

/-- A lane that starts an attempt. -/
theorem Chip.startAttempt_spec :
    (c.startAttempt d l).lstate d l = laneLOCK ∧ (c.startAttempt d l).lrate d l = 0 ∧ ((c.startAttempt d l).lane d l).attemptAt = c.now := by
  have heq : c.startAttempt d l = ((c.setLane d l (c.started d l)).setRate d l 0).setLaneState d l laneLOCK := rfl
  obtain ⟨hstate, hrate, hlane⟩ := c.lockAgain_spec d hl (c.started d l)
  rw [heq, hlane]
  exact ⟨hstate, hrate, rfl⟩

/-- A first failure at a rate returns the lane to Lock at 3.5 Gbit/s. -/
theorem Chip.failAt_first {r : Nat} (h : (c.lane d l).failRate ≠ r) :
    (c.failAt d l r).lstate d l = laneLOCK ∧ (c.failAt d l r).lrate d l = 0 ∧ ((c.failAt d l r).lane d l).fails = 1 ∧
      ((c.failAt d l r).lane d l).failRate = r := by
  have heq : c.failAt d l r = (c.setFails d l 1 r).backToLock d l := by
    unfold Chip.failAt
    dsimp only
    rw [if_neg h, if_neg (by decide)]
  have hfails := c.lane_setFails d l 1 r
  obtain ⟨hstate, hrate, hkept⟩ := (c.setFails d l 1 r).backToLock_spec d hl
  rw [hfails] at hkept
  rw [heq]
  exact ⟨hstate, hrate, hkept⟩

end

/-- A phase that has a limit fails at its rate (R165). -/
theorem Chip.phaseLimit_limited {c : Chip} {d l : Nat} (h : phaseLimited (c.lstate d l) (c.lrate d l) = true) :
    c.phaseLimit d l = (c.snapLane d l).failAt d l (c.lrate d l) := by
  unfold Chip.phaseLimit
  dsimp only
  rw [c.lstate_snapLane, c.lrate_snapLane, if_pos h]

/-- Every phase of an attempt has a limit but Lock at 3.5 Gbit/s. -/
theorem phaseLimited_of_training {c : Chip} {d l : Nat} (htraining : c.training d l = true)
    (h : ¬(c.lstate d l = laneLOCK ∧ c.lrate d l = 0)) : phaseLimited (c.lstate d l) (c.lrate d l) = true := by
  simp only [Chip.training, Bool.or_eq_true, decide_eq_true_eq] at htraining
  simp only [phaseLimited, Bool.or_eq_true, Bool.and_eq_true, decide_eq_true_eq]
  rcases htraining with (hlock | hconfirm) | hstep
  · exact .inl (.inl ⟨hlock, fun hrate => h ⟨hlock, hrate⟩⟩)
  · exact .inl (.inr hconfirm)
  · exact .inr hstep

/-! ### DOWN (R192) -/

/-- A register of a lane's page that no change of its state or rate writes. -/
theorem offLaneState_of {l r : Nat} (hl : l < 24)
    (hr : r < 0x1000 ∧ r ≠ PAGE_EVENT ∧ r ≠ PAGE_EVENT_LOST ∧ ∀ o ∈ laneStateRegs, o < 0x1000 ∧ r ≠ o) :
    offLaneState l (lanePage l) r = true := by
  obtain ⟨hlt, hev, hlost, hregs⟩ := hr
  simp only [offLaneState, Bool.and_eq_true, decide_eq_true_eq, List.all_eq_true]
  exact ⟨⟨quiet_lanePage hl hlt hev hlost, (lanePage_ne_blocks hl).2.1⟩, fun o ho => apart_in_lanePage hl hlt (hregs o ho).1 (hregs o ho).2⟩

/-- A lane in DOWN, its attempt ended and counted (R192). -/
def Chip.downShown (c : Chip) (d l : Nat) : Chip :=
  ((((c.endAttempt d l).levent d l 2).count d (lanePage l) LANE.DOWN_COUNT).setRate d l 0).setLaneState d l laneDOWN

section
variable (c : Chip) (d : Nat) {l : Nat} (hl : l < 24)
include hl

omit hl in
theorem Chip.num_count (p o : Nat) : (c.count d p o).num d p o = min 0xFFFFFFFF (c.num d p o + 1) := by
  rw [Chip.count_eq, Chip.num, Chip.reg_setReg_same, BitVec.toNat_ofNat]
  exact Nat.mod_eq_of_lt (by omega)

theorem Chip.downCount_downShown : (c.downShown d l).num d (lanePage l) LANE.DOWN_COUNT =
    min 0xFFFFFFFF (c.num d (lanePage l) LANE.DOWN_COUNT + 1) := by
  have hoff : offLaneState l (lanePage l) LANE.DOWN_COUNT = true := offLaneState_of hl (by decide)
  have hended : ((c.endAttempt d l).levent d l 2).reg d (lanePage l) LANE.DOWN_COUNT = c.reg d (lanePage l) LANE.DOWN_COUNT := by
    unfold Chip.levent Chip.endAttempt Chip.setFails Chip.showFails Chip.lput
    dsimp only
    rw [Chip.reg_event_quiet _ d d (quiet_of_offLaneState l hoff).1,
      Chip.reg_put_apart _ d d (apart_in_lanePage hl (by decide) (by decide) (by decide)), Chip.reg_setLane,
      Chip.reg_setNum_apart _ d d (apart_in_lanePage hl (by decide) (by decide) (by decide))]
  have hshown : (c.downShown d l).reg d (lanePage l) LANE.DOWN_COUNT =
      (((c.endAttempt d l).levent d l 2).count d (lanePage l) LANE.DOWN_COUNT).reg d (lanePage l) LANE.DOWN_COUNT :=
    (Chip.reg_setLaneState _ d l d hoff laneDOWN).trans (Chip.reg_setRate _ d l d hoff 0)
  rw [Chip.num, hshown, ← Chip.num, Chip.num_count, Chip.num, hended, ← Chip.num]

/-- What follows when a lane goes DOWN leaves the page of the lane as it is: commands complete, and other lanes' caps and the group
are judged. -/
theorem Chip.laneRegs_goDown : (c.goDown d l).laneRegs d l = (c.downShown d l).laneRegs d l := by
  have hdown : (c.downShown d l).lstate d l = laneDOWN := Chip.lstate_setLaneState _ d hl (by decide)
  have heq : c.goDown d l = ((((c.downShown d l).setLane d l { (c.downShown d l).lane d l with far := 0, retrainTx := 0, trial := none }).finishAll
      (laneCmd (d * 24 + l)) FAIL 1).liftCap d l).laneLost d l := rfl
  have hfinish : (((c.downShown d l).setLane d l { (c.downShown d l).lane d l with far := 0, retrainTx := 0, trial := none }).finishAll
      (laneCmd (d * 24 + l)) FAIL 1).laneRegs d l = (c.downShown d l).laneRegs d l := Chip.laneRegs_finishAll ..
  rw [heq, Chip.laneRegs_laneLost _ d hl, Chip.laneRegs_liftCap _ d hl, hfinish]
  rw [Chip.lstate_of_laneRegs hfinish hl, hdown]
  decide

theorem Chip.goDown_spec : (c.goDown d l).lstate d l = laneDOWN ∧
    (c.goDown d l).num d (lanePage l) LANE.DOWN_COUNT = min 0xFFFFFFFF (c.num d (lanePage l) LANE.DOWN_COUNT + 1) := by
  have hregs := c.laneRegs_goDown d hl
  have hquiet : quiet (lanePage l) LANE.DOWN_COUNT = true := quiet_lanePage hl (by decide) (by decide) (by decide)
  refine ⟨(Chip.lstate_of_laneRegs hregs hl).trans (Chip.lstate_setLaneState _ d hl (by decide)), ?_⟩
  exact (congrArg BitVec.toNat (congrFun hregs ⟨LANE.DOWN_COUNT, hquiet⟩)).trans (c.downCount_downShown d hl)

end

theorem lanePhases : Claim.LanePhases := by
  intro s d l hlane
  have hl := hlane.2
  refine ⟨fun hstep hsent hcount hrate => ?rate, fun htraining hlimit hfirst => ?limit, fun htraining => ?down, fun hdown hretry => ?retry⟩
  case rate => exact ⟨s.up fun c => c.rateChanged d l, if_pos hlane, rfl, s.chip.rateChanged_spec d hl hstep hsent hcount hrate⟩
  case limit =>
    have heq := Chip.phaseLimit_limited (phaseLimited_of_training htraining hlimit)
    obtain ⟨snap, hsnap⟩ := s.chip.lane_snapLane d l
    have hspec := (s.chip.snapLane d l).failAt_first d hl (r := s.chip.lrate d l) (by rw [hsnap]; exact hfirst)
    rw [← heq] at hspec
    exact ⟨s.up fun c => c.phaseLimit d l, if_pos hlane, rfl, hspec⟩
  case down =>
    have hexec : exec (.attemptDown d l) s = .next (s.up fun c => c.goDown d l) :=
      (if_pos hlane).trans (congrArg _ (State.up_congr (if_pos htraining)))
    exact ⟨_, hexec, rfl, s.chip.goDown_spec d hl⟩
  case retry =>
    have hexec : exec (.laneRetry d l) s = .next (s.up fun c => c.startAttempt d l) :=
      (if_pos hlane).trans (congrArg _ (State.up_congr (if_pos ⟨hdown, hretry⟩)))
    exact ⟨_, hexec, rfl, s.chip.startAttempt_spec d hl⟩

end Sys2Proof.Machine
end

section
/-! PROOFS. Training ordered sets, sent and received (O21; R163 to R166, R190, R302). -/

namespace Sys2Proof.Machine

/-! ### The sets that a lane sends (R163) -/

/-- The data bytes of a set before its CHK, by its fields. -/
def tsHead (kind rates target position number preset fom flags : Nat) : List Byte :=
  leBytes 1 kind ++ leBytes 1 rates ++ leBytes 1 target ++ leBytes 1 position ++ leBytes 2 number ++ leBytes 1 preset ++ leBytes 1 fom ++
    leBytes 1 flags ++ leBytes 4 0

/-- The data bytes of a set. -/
def tsData (kind rates target position number preset fom flags : Nat) : List Byte :=
  tsHead kind rates target position number preset fom flags ++ [crc8 (tsHead kind rates target position number preset fom flags)]

section
variable (kind rates target position number preset fom flags : Nat)

theorem tsData_kind : fieldAt (tsData kind rates target position number preset fom flags) 0 1 = kind % 256 := leNat_leBytes 1 kind
theorem tsData_rates : fieldAt (tsData kind rates target position number preset fom flags) 1 1 = rates % 256 := leNat_leBytes 1 rates
theorem tsData_target : fieldAt (tsData kind rates target position number preset fom flags) 2 1 = target % 256 := leNat_leBytes 1 target
theorem tsData_position : fieldAt (tsData kind rates target position number preset fom flags) 3 1 = position % 256 :=
  leNat_leBytes 1 position
theorem tsData_number : fieldAt (tsData kind rates target position number preset fom flags) 4 2 = number % 65536 := leNat_leBytes 2 number
theorem tsData_preset : fieldAt (tsData kind rates target position number preset fom flags) 6 1 = preset % 256 := leNat_leBytes 1 preset
theorem tsData_flags : fieldAt (tsData kind rates target position number preset fom flags) 8 1 = flags % 256 := leNat_leBytes 1 flags
theorem tsData_reserved : fieldAt (tsData kind rates target position number preset fom flags) 9 4 = 0 := rfl

theorem length_tsData : (tsData kind rates target position number preset fom flags).length = 14 := rfl

theorem tsData_chk : crc8 ((tsData kind rates target position number preset fom flags).take 13) =
    (tsData kind rates target position number preset fom flags).getD 13 0 := by
  have hlength : (tsHead kind rates target position number preset fom flags).length = 13 := rfl
  unfold tsData
  rw [← hlength, List.take_left, List.getD_append_right _ _ _ _ le_rfl, Nat.sub_self, List.getD_cons_zero]

variable {kind rates target preset flags}

/-- A set with allowed fields is valid. -/
theorem tsValid_tsData (hkind : kind = 1 ∨ kind = 2) (hrates : rates < 32) (htarget : target ≤ 4) (hpreset : preset < 16)
    (hflags : flags < 4) : tsValid (tsData kind rates target position number preset fom flags) = true := by
  unfold tsValid
  simp only [tsData_kind, tsData_rates, tsData_target, tsData_preset, tsData_flags, tsData_reserved, length_tsData, tsData_chk,
    Bool.and_eq_true, decide_eq_true_eq, and_true, true_and]
  omega

end

/-- The fields of the sets that a lane sends. -/
theorem Chip.tsBytes_eq (c : Chip) (d l : Nat) : ∃ fom far retrain : Nat, far ≤ 1 ∧ retrain ≤ 1 ∧ c.tsBytes d l = tsData
    (if c.lstate d l = laneLOCK ∨ c.lstate d l = laneDOWN then 1 else 2) (c.ownRates d l)
    (if c.lstate d l = laneSTEP then c.lrate d l + 1 else c.lrate d l) (if l < 8 then c.position d l else 0) (d * 24 + l)
    (if l < 8 then c.lget d l LANE.TX_PRESET 7 4 else c.lget d l LANE.TX_PRESET 3 0) fom (far + retrain * 2) := by
  unfold Chip.tsBytes
  dsimp only
  simp only [Bool.or_eq_true, decide_eq_true_eq]
  exact ⟨_, _, _, Bool.toNat_le _, Bool.toNat_le _, rfl⟩

/-- A lane in an attempt or in DOWN sends training sets (R190). -/
theorem Chip.laneSends_training {c : Chip} {d l : Nat} (h : c.training d l = true ∨ c.lstate d l = laneDOWN) :
    c.laneSends d l = .training (tsSyms (c.tsBytes d l)) := by
  simp only [Chip.training, Bool.or_eq_true, decide_eq_true_eq] at h
  unfold Chip.laneSends
  dsimp only
  rcases h with ((h | h) | h) | h <;> rw [h] <;> rfl

theorem trainingSetsSent : Claim.TrainingSetsSent := by
  intro c d l hd hl hceiling hrate hsends
  obtain ⟨fom, far, retrain, hfar, hretrain, heq⟩ := c.tsBytes_eq d l
  have hrates : c.ownRates d l < 32 := by
    have := Nat.pow_le_pow_right (n := 2) (by decide) (Nat.succ_le_succ hceiling)
    unfold Chip.ownRates
    omega
  have hpreset : ∀ hi lo, hi + 1 - lo = 4 → c.lget d l LANE.TX_PRESET hi lo < 16 := fun hi lo h =>
    (Nat.mod_lt _ (Nat.two_pow_pos _)).trans_eq (by rw [h])
  have htarget : (if c.lstate d l = laneSTEP then c.lrate d l + 1 else c.lrate d l) ≤ 4 := by split_ifs at hrate ⊢ <;> omega
  refine ⟨Chip.laneSends_training hsends, ?_, ?_, ?_, ?_, fun hdriver => ?_⟩ <;> rw [heq]
  · refine tsValid_tsData _ _ _ (by split_ifs <;> omega) hrates htarget ?_ (by omega)
    split_ifs
    · exact hpreset 7 4 rfl
    · exact hpreset 3 0 rfl
  · rw [tsData_kind]
    split_ifs <;> rfl
  · rw [tsData_target, Nat.mod_eq_of_lt (by omega)]
  · rw [tsData_number, Nat.mod_eq_of_lt (by omega)]
  · rw [tsData_position, if_neg (by omega)]

/-! ### A set as a lane receives it (R157, R163) -/

theorem isCode_tsSyms (bs : List Byte) : ∀ s ∈ tsSyms bs, isCode s := by
  have hcom : isCode symCOM := fun _ => by decide
  have hts : isCode symTS := fun _ => by decide
  unfold tsSyms
  simp only [List.forall_mem_cons]
  refine ⟨hcom, hts, fun s hs => ?_⟩
  obtain ⟨b, _, rfl⟩ := List.mem_map.1 hs
  exact fun h => Bool.noConfusion h

/-- A set that arrives as it was sent is judged by its data bytes. -/
theorem Chip.trainingSet_tsSyms (c : Chip) (d l : Nat) (plus : Bool) (bs : List Byte) :
    c.trainingSet d l ⟨plus, encodeLane plus (tsSyms bs)⟩ = c.tsReceived d l bs := by
  have hdecode : decodeLane plus (encodeLane plus (tsSyms bs)) = some symCOM :: some symTS :: (dataSyms bs).map some :=
    decodeLane_encodeLane plus _ (isCode_tsSyms bs)
  have hdata : takeData ((dataSyms bs).map some) = (bs, []) := by
    have h := takeData_dataSyms bs []
    rw [List.append_nil] at h
    rw [h]
    exact congrArg (·, []) (List.append_nil bs)
  have herrors : codeErrors { pos := 0, plus := plus, groups := encodeLane plus (tsSyms bs) } = 0 := by
    unfold codeErrors
    rw [hdecode, List.length_eq_zero_iff, List.filter_eq_nil_iff]
    intro s hs
    simp only [List.mem_cons, List.mem_map] at hs
    rcases hs with rfl | rfl | ⟨_, _, rfl⟩ <;> exact Bool.false_ne_true
  unfold Chip.trainingSet
  dsimp only
  rw [herrors, if_neg (fun h => h.2 rfl), hdecode]
  dsimp only
  rw [hdata, if_pos ⟨rfl, rfl, rfl⟩]

/-! ### What a valid set does (R164 to R166, R209) -/

theorem leNat_lt (bs : List Byte) : leNat bs < 256 ^ bs.length := by
  induction bs with
  | nil => exact Nat.one_pos
  | cons b bs ih =>
    have hcons : leNat (b :: bs) = b.toNat + 256 * leNat bs := rfl
    have hb := b.isLt
    rw [hcons, List.length_cons, Nat.pow_succ]
    omega

theorem fieldAt_lt (bs : List Byte) (i n : Nat) : fieldAt bs i n < 256 ^ n :=
  (leNat_lt _).trans_le (Nat.pow_le_pow_right (by decide) (List.length_take_le ..))

/-- A set that is not valid is ignored (R163). -/
theorem Chip.tsReceived_invalid {c : Chip} {d l : Nat} {bs : List Byte} (h : tsValid bs = false) : c.tsReceived d l bs = c :=
  if_pos (.inl (by rw [h]; rfl))

section
variable (c : Chip) (d l : Nat) (bs : List Byte)

/-- What every valid set tells the lane stands in three registers of its page. -/
def takenRegs : List Nat := [LANE.PARTNER, LANE.FOM, LANE.TX_PRESET]

theorem Chip.reg_takeTs (e : Nat) {q r : Nat} (h : ∀ o ∈ takenRegs, apart q r (lanePage l) o = true) :
    (c.takeTs d l bs).reg e q r = c.reg e q r := by
  have hpartner := h LANE.PARTNER (by decide)
  have hfom := h LANE.FOM (by decide)
  have hpreset := h LANE.TX_PRESET (by decide)
  unfold Chip.takeTs Chip.lput
  dsimp only
  rw [Chip.reg_setLane]
  split
  · rw [Chip.reg_put_apart _ d e hpreset, Chip.reg_put_apart _ d e hfom, Chip.reg_setNum_apart _ d e hpartner]
  · rw [Chip.reg_put_apart _ d e hfom, Chip.reg_setNum_apart _ d e hpartner]

theorem Chip.lane_setNum (p o v e k : Nat) : (c.setNum d p o v).lane e k = c.lane e k := rfl

theorem Chip.lane_countTs : (c.countTs d l).lane d l = { c.lane d l with rxCount := (c.lane d l).rxCount + 1 } :=
  c.lane_setLane_same d l _

theorem Chip.regs_countTs : (c.countTs d l).regs = c.regs := rfl
theorem Chip.reg_countTs (e q r : Nat) : (c.countTs d l).reg e q r = c.reg e q r := rfl
theorem Chip.reg_breakTs (e q r : Nat) : (c.breakTs d l).reg e q r = c.reg e q r := rfl

theorem Chip.lane_breakTs : (c.breakTs d l).lane d l = { c.lane d l with rxCount := 0 } := c.lane_setLane_same d l _

theorem Chip.lane_takeTs : (c.takeTs d l bs).lane d l = { c.lane d l with presetReq := fieldAt bs 6 1 } := by
  unfold Chip.takeTs
  dsimp only
  rw [Chip.lane_setLane_same, Chip.lane_lput, Chip.lane_setNum]

/-- PARTNER takes the rates, the position and the number that the partner says. -/
theorem Chip.partner_takeTs (hl : l < 24) : (c.takeTs d l bs).num d (lanePage l) LANE.PARTNER =
    fieldAt bs 4 2 * 65536 + fieldAt bs 3 1 * 256 + fieldAt bs 1 1 := by
  have hnumber := fieldAt_lt bs 4 2
  have hposition := fieldAt_lt bs 3 1
  have hrates := fieldAt_lt bs 1 1
  have hfom : apart (lanePage l) LANE.PARTNER (lanePage l) LANE.FOM = true := apart_in_lanePage hl (by decide) (by decide) (by decide)
  have hpreset : apart (lanePage l) LANE.PARTNER (lanePage l) LANE.TX_PRESET = true :=
    apart_in_lanePage hl (by decide) (by decide) (by decide)
  have hreg : (c.takeTs d l bs).reg d (lanePage l) LANE.PARTNER =
      BitVec.ofNat 32 (fieldAt bs 4 2 * 65536 + fieldAt bs 3 1 * 256 + fieldAt bs 1 1) := by
    unfold Chip.takeTs Chip.lput
    dsimp only
    rw [Chip.reg_setLane]
    split
    · rw [Chip.reg_put_apart _ d d hpreset, Chip.reg_put_apart _ d d hfom, Chip.setNum_eq, Chip.reg_setReg_same]
    · rw [Chip.reg_put_apart _ d d hfom, Chip.setNum_eq, Chip.reg_setReg_same]
  rw [Chip.num, hreg, BitVec.toNat_ofNat]
  exact Nat.mod_eq_of_lt (by omega)

/-- The place of a lane follows the layout of its die (R166). -/
theorem Chip.position_congr {c c' : Chip} (h : ∀ r ∈ [SLINK.GROUP_START, SLINK.SPARE], c'.reg d SLINK r = c.reg d SLINK r) :
    c'.position d l = c.position d l := by
  have hstarts := Chip.startsGroup_congr (h SLINK.GROUP_START (by decide))
  unfold Chip.position Chip.isSpare Chip.flag
  dsimp only
  rw [Chip.groupLanes_congr hstarts, h SLINK.SPARE (by decide)]
  unfold Chip.groupFirst
  rw [hstarts]

/-- A lane with what a valid set tells it, before the phase takes the set. -/
def Chip.taught : Chip := (c.snapLane d l).takeTs d l bs

variable {d l}

theorem Chip.reg_taught (e : Nat) {q r : Nat} (h : ∀ o ∈ takenRegs, apart q r (lanePage l) o = true) :
    (c.taught d l bs).reg e q r = c.reg e q r := (Chip.reg_takeTs _ d l bs e h).trans (c.reg_snapLane d l e q r)

theorem Chip.status_taught (hl : l < 24) : (c.taught d l bs).reg d (lanePage l) LANE.STATUS = c.reg d (lanePage l) LANE.STATUS :=
  c.reg_taught bs d fun o ho => by
    obtain ⟨hlt, hne⟩ : o < 0x1000 ∧ LANE.STATUS ≠ o := by revert o; decide
    exact apart_in_lanePage hl (by decide) hlt hne

theorem Chip.positionOk_taught (hl : l < 24) : (c.taught d l bs).positionOk d l bs = c.positionOk d l bs := by
  have hposition : (c.taught d l bs).position d l = c.position d l := Chip.position_congr d l fun r hr => c.reg_taught bs d fun o ho => by
    have hlt : o < 0x1000 := by revert o; decide
    have hr : r < 0x1000 := by revert r; decide
    exact apart_of_ne (by decide) hr (lanePage_lt hl) hlt (.inl (lanePage_ne_blocks hl).1.symm)
  unfold Chip.positionOk
  rw [hposition]

theorem Chip.rxCount_taught : ((c.taught d l bs).lane d l).rxCount = (c.lane d l).rxCount := by
  obtain ⟨snap, hsnap⟩ := c.lane_snapLane d l
  rw [Chip.taught, Chip.lane_takeTs, hsnap]

end

/-- A valid set in Lock at 3.5 Gbit/s: a TS_A counts or shows a wrong position, a TS_B ends the run (R164, R166). -/
theorem Chip.tsReceived_lock {c : Chip} {d l : Nat} {bs : List Byte} (hl : l < 24) (hvalid : tsValid bs = true)
    (hstate : c.lstate d l = laneLOCK) (hrate : c.lrate d l = 0) : c.tsReceived d l bs =
      let u := c.taught d l bs
      if fieldAt bs 0 1 = 1 then
        if c.positionOk d l bs then
          let v := (u.notePosition d l false).countTs d l
          if 8 ≤ (v.lane d l).rxCount then ((v.lput d l LANE.STATUS 12 12 0).enterPhase d l laneCONFIRM).startEq d l else v
        else (u.notePosition d l true).breakTs d l
      else u.breakTs d l := by
  have hkept : (c.taught d l bs).lrate d l = 0 := (Chip.get_congr (c.status_taught bs hl) 18 16).trans hrate
  have hok := c.positionOk_taught (d := d) bs hl
  unfold Chip.taught at hkept hok
  unfold Chip.tsReceived Chip.taught
  dsimp only
  have hheard : ¬((!true) = true ∨ laneLOCK = laneOFF ∨ laneLOCK = lanePARKED ∨ laneLOCK = laneLOOP ∧ (c.lane d l).far ≠ 3) := by
    rintro (h | h | h | ⟨h, -⟩) <;> exact absurd h (by decide)
  rw [hvalid, hstate, if_neg hheard, if_neg (by decide), if_neg (by decide), if_pos rfl, hkept, if_neg (fun h => h.2 rfl), hok]

/-- A TS_A with the right position, one of the first seven in a row, counts. -/
theorem Chip.tsReceived_counts {c : Chip} {d l : Nat} {bs : List Byte} (hl : l < 24) (hvalid : tsValid bs = true)
    (hstate : c.lstate d l = laneLOCK) (hrate : c.lrate d l = 0) (hkind : fieldAt bs 0 1 = 1) (hok : c.positionOk d l bs = true)
    (hcount : (c.lane d l).rxCount < 7) :
    c.tsReceived d l bs = ((c.taught d l bs).lput d l LANE.STATUS 15 15 0).countTs d l := by
  have hnote : (c.taught d l bs).notePosition d l false = (c.taught d l bs).lput d l LANE.STATUS 15 15 0 := rfl
  rw [Chip.tsReceived_lock hl hvalid hstate hrate]
  dsimp only
  rw [if_pos hkind, if_pos hok, hnote, if_neg]
  rw [Chip.lane_countTs, Chip.lane_lput, c.rxCount_taught bs]
  dsimp only
  omega

/-- A TS_B ends the run of TS_A. -/
theorem Chip.tsReceived_breaks {c : Chip} {d l : Nat} {bs : List Byte} (hl : l < 24) (hvalid : tsValid bs = true)
    (hstate : c.lstate d l = laneLOCK) (hrate : c.lrate d l = 0) (hkind : fieldAt bs 0 1 = 2) :
    c.tsReceived d l bs = (c.taught d l bs).breakTs d l := by
  rw [Chip.tsReceived_lock hl hvalid hstate hrate]
  dsimp only
  rw [if_neg (by omega)]

/-! ### Registers of a lane's page -/

section
variable {d l a : Nat} (ha : ¬a / 0x1000 = d * 0x1000 + lanePage l)
include ha

theorem Chip.get?_setReg_page (c : Chip) {o : Nat} (ho : o < 0x1000) (w : Word) :
    KMap.get? (c.setReg d (lanePage l) o w).regs a = KMap.get? c.regs a :=
  (c.touches_setReg d (lanePage l) o w).2 a fun h => ha (h ▸ ra_div d (lanePage l) o ho)

/-- What a valid set tells the lane stands in the lane's page. -/
theorem Chip.get?_taught (c : Chip) (bs : List Byte) : KMap.get? (c.taught d l bs).regs a = KMap.get? c.regs a := by
  have hsnap : (c.snapLane d l).regs = c.regs := by
    unfold Chip.snapLane
    dsimp only
    split <;> rfl
  have hpartner : ∀ (x : Chip) w, KMap.get? (x.setReg d (lanePage l) LANE.PARTNER w).regs a = KMap.get? x.regs a := fun x w =>
    x.get?_setReg_page ha (by decide) w
  have hfom : ∀ (x : Chip) w, KMap.get? (x.setReg d (lanePage l) LANE.FOM w).regs a = KMap.get? x.regs a := fun x w =>
    x.get?_setReg_page ha (by decide) w
  have hpreset : ∀ (x : Chip) w, KMap.get? (x.setReg d (lanePage l) LANE.TX_PRESET w).regs a = KMap.get? x.regs a := fun x w =>
    x.get?_setReg_page ha (by decide) w
  have hlane : ∀ (x : Chip) y, (x.setLane d l y).regs = x.regs := fun _ _ => rfl
  unfold Chip.taught Chip.takeTs Chip.lput
  dsimp only
  rw [hlane]
  split
  · rw [Chip.put_eq, hpreset, Chip.put_eq, hfom, Chip.setNum_eq, hpartner, hsnap]
  · rw [Chip.put_eq, hfom, Chip.setNum_eq, hpartner, hsnap]

end

theorem trainingSets : Claim.TrainingSets := by
  intro s d l plus bs hlane hstream heard
  have hl := hlane.2
  have hexec : exec heard s = .next (s.up fun c => c.tsReceived d l bs) :=
    (if_pos hlane).trans (congrArg _ ((if_pos hstream).trans (State.up_congr (s.chip.trainingSet_tsSyms d l plus bs))))
  have hstatus := s.chip.status_taught (d := d) bs hl
  refine ⟨fun hinvalid => ?invalid, fun hvalid hstate hrate hkind hok hcount => ?counts, fun hvalid hstate hrate hkind => ?breaks⟩
  case invalid =>
    have hsame : (s.up fun c => c.tsReceived d l bs) = s.up id := State.up_congr (Chip.tsReceived_invalid hinvalid)
    rw [hexec, hsame]
    rfl
  case counts =>
    have hpartner : apart (lanePage l) LANE.PARTNER (lanePage l) LANE.STATUS = true := apart_in_lanePage hl (by decide) (by decide) (by decide)
    refine ⟨_, hexec, rfl, ?_, ?_, ?_, ?_, ?_⟩ <;> rw [State.up_chip, Chip.tsReceived_counts hl hvalid hstate hrate hkind hok hcount]
    · rw [Chip.lane_countTs, Chip.lane_lput, Chip.rxCount_taught]
    · rw [Chip.num, Chip.reg_countTs, Chip.lput, Chip.reg_put_apart _ d d hpartner]
      exact Chip.partner_takeTs _ d l bs hl
    · refine (Chip.get_congr (Chip.reg_countTs ..) 7 0).trans ?_
      exact (Chip.get_put_beside _ d _ _ _ d _ _ (by decide) (by decide) (.inl (by decide))).trans ((Chip.get_congr hstatus 7 0).trans hstate)
    · exact (Chip.get_congr (Chip.reg_countTs ..) 15 15).trans (Chip.get_put _ d _ _ 0 (by decide) (by decide))
    · intro a ha
      rw [Chip.regs_countTs, Chip.lput, Chip.put_eq, Chip.get?_setReg_page ha _ (by decide), Chip.get?_taught ha]
  case breaks =>
    refine ⟨_, hexec, rfl, ?_, ?_⟩ <;> rw [State.up_chip, Chip.tsReceived_breaks hl hvalid hstate hrate hkind]
    · rw [Chip.lane_breakTs]
    · exact (Chip.get_congr ((Chip.reg_breakTs ..).trans hstatus) 7 0).trans hstate

end Sys2Proof.Machine
end

section
/-! PROOFS. The figure of merit of a READY lane, and with it the statement on training (O21; R202, R203, R205). -/

namespace Sys2Proof.Machine

/-! ### What the adaptation changes (R205) -/

/-- A chip that differs, in the page and the record of a lane, in the coefficients of its equalizer. -/
def Chip.adaptedLike (c u : Chip) (d l : Nat) : Prop :=
  u.now = c.now ∧ (u.lane d l).snap = (c.lane d l).snap ∧
    ∀ r, apart (lanePage l) r (lanePage l) LANE.EQ_NOW = true → u.reg d (lanePage l) r = c.reg d (lanePage l) r

section
variable {c u : Chip} {d l : Nat}

theorem Chip.adaptedLike_refl (c : Chip) (d l : Nat) : c.adaptedLike c d l := ⟨rfl, rfl, fun _ _ => rfl⟩

theorem Chip.adaptedLike_eqNow (h : c.adaptedLike u d l) (hi lo v : Nat) : c.adaptedLike (u.lput d l LANE.EQ_NOW hi lo v) d l := by
  obtain ⟨hnow, hsnap, hreg⟩ := h
  exact ⟨hnow, hsnap, fun r hr => (u.reg_put_apart d d hr hi lo v).trans (hreg r hr)⟩

theorem Chip.adaptedLike_setLane (h : c.adaptedLike u d l) {x : LaneSt} (hx : x.snap = (u.lane d l).snap) :
    c.adaptedLike (u.setLane d l x) d l := by
  obtain ⟨hnow, hsnap, hreg⟩ := h
  exact ⟨hnow, by rw [Chip.lane_setLane_same, hx, hsnap], fun r hr => hreg r hr⟩

theorem Chip.adaptedLike_ite {p : Prop} [Decidable p] {v : Chip} (hv : c.adaptedLike v d l) (hu : c.adaptedLike u d l) :
    c.adaptedLike (if p then v else u) d l := by
  split
  · exact hv
  · exact hu

theorem Chip.adaptedLike_setTaps (h : c.adaptedLike u d l) (taps : List Nat) : c.adaptedLike (u.setTaps d l taps) d l := by
  unfold Chip.setTaps
  dsimp only
  exact Chip.adaptedLike_eqNow (Chip.adaptedLike_setLane h (by rfl)) 31 24 _

theorem Chip.adaptedLike_setEq (h : c.adaptedLike u d l) (ctle vga : Nat) : c.adaptedLike (u.setEq d l ctle vga) d l :=
  Chip.adaptedLike_eqNow (Chip.adaptedLike_eqNow h 20 16 _) 3 0 _

/-- A change of the coefficients that made the FOM lower is taken back. -/
def Chip.undone (c : Chip) (d l fom : Nat) : Chip :=
  match (c.lane d l).trial with
  | some (k, v, f) => if fom < f then c.setEq d l k v else c
  | none => c

theorem Chip.adaptedLike_undone (h : c.adaptedLike u d l) (fom : Nat) : c.adaptedLike (u.undone d l fom) d l := by
  unfold Chip.undone
  split
  · exact Chip.adaptedLike_ite (Chip.adaptedLike_setEq h _ _) h
  · exact h

theorem Chip.adapt_eq (c : Chip) (d l fom ctle vga : Nat) : c.adapt d l fom ctle vga =
    let u := c.undone d l fom
    (u.setLane d l { u.lane d l with trial := some ((u.eqNow d l).1, (u.eqNow d l).2.1, fom) }).setEq d l ctle vga := rfl

theorem Chip.adaptedLike_adapt (h : c.adaptedLike u d l) (fom ctle vga : Nat) : c.adaptedLike (u.adapt d l fom ctle vga) d l := by
  rw [Chip.adapt_eq]
  dsimp only
  exact Chip.adaptedLike_setEq (Chip.adaptedLike_setLane (Chip.adaptedLike_undone h fom) (by rfl)) ctle vga

/-- A lane with the coefficients in effect kept as the last good ones of its rate (R206). -/
def Chip.goodKept (c : Chip) (d l : Nat) : Chip :=
  let x := c.lane d l
  c.setLane d l (if c.lrate d l = 3 then { x with good3 := some (c.eqNow d l) } else { x with good4 := some (c.eqNow d l) })

theorem Chip.adaptedLike_goodKept (h : c.adaptedLike u d l) : c.adaptedLike (u.goodKept d l) d l := by
  refine Chip.adaptedLike_setLane h ?_
  split <;> rfl

variable (h : c.adaptedLike u d l)
include h

theorem Chip.snapOf_adaptedLike : u.snapOf d l = c.snapOf d l := by
  unfold Chip.snapOf
  rw [h.1, h.2.1]

theorem Chip.lget_adaptedLike (hl : l < 24) {o : Nat} (ho : o < 0x1000) (hne : o ≠ LANE.EQ_NOW) (hi lo : Nat) :
    u.lget d l o hi lo = c.lget d l o hi lo :=
  Chip.get_congr (h.2.2 o (apart_in_lanePage hl ho (by decide) hne)) hi lo

theorem Chip.lstate_adaptedLike (hl : l < 24) : u.lstate d l = c.lstate d l :=
  Chip.lget_adaptedLike h hl (o := LANE.STATUS) (by decide) (by decide) 7 0

end

/-! ### A FOM of a READY lane (R202, R203) -/

section
variable {c : Chip} {d l fom : Nat}

/-- A lane that is READY has not left READY. -/
theorem Chip.notLeft_of_ready (hready : c.lstate d l = laneREADY) (b : Bool) : ((decide (!c.isReady d l)) && b) = false := by
  unfold Chip.isReady
  rw [hready]
  rfl

/-- A FOM measured on a READY lane is judged after the equalizer has taken what it learned. -/
theorem Chip.fomMeasured_ready (hl : l < 8) (hready : c.lstate d l = laneREADY) (hrate : 3 ≤ c.lrate d l) (ctle vga : Nat) (dfe : List Nat) :
    ∃ u, (c.snapLane d l).adaptedLike u d l ∧ c.fomMeasured d l fom ctle vga dfe = (u.judgeFom d l fom).tryConfirm d l := by
  have hstate := (c.lstate_snapLane d l).trans hready
  have hruns : 3 ≤ (c.snapLane d l).lrate d l ∧ (c.snapLane d l).lstate d l ≠ laneOFF ∧ (c.snapLane d l).lstate d l ≠ lanePARKED ∧
      (c.snapLane d l).lstate d l ≠ laneDOWN := by
    rw [hstate, c.lrate_snapLane]
    exact ⟨hrate, by decide, by decide, by decide⟩
  unfold Chip.fomMeasured
  dsimp only
  rw [Chip.notLeft_of_ready hstate, if_neg (by omega), if_neg (by decide), if_pos hruns]
  refine ⟨_, ?_, rfl⟩
  have hrefl := (c.snapLane d l).adaptedLike_refl d l
  have htaps : ∀ b : Bool, (c.snapLane d l).adaptedLike (if b then (c.snapLane d l).setTaps d l dfe else c.snapLane d l) d l := fun b =>
    Chip.adaptedLike_ite (Chip.adaptedLike_setTaps hrefl dfe) hrefl
  have hkept : ∀ (b : Bool) (p : Prop) [Decidable p], (c.snapLane d l).adaptedLike
      (if p then (if b then (c.snapLane d l).setTaps d l dfe else c.snapLane d l).goodKept d l
        else if b then (c.snapLane d l).setTaps d l dfe else c.snapLane d l) d l := fun b p _ =>
    Chip.adaptedLike_ite (Chip.adaptedLike_goodKept (htaps b)) (htaps b)
  exact Chip.adaptedLike_ite (Chip.adaptedLike_adapt (hkept _ _) fom ctle vga) (hkept _ _)

/-- A FOM at or above FAIL shows, lowers the lowest one, and leaves a READY lane READY. -/
theorem Chip.judgeFom_good {snap : LaneSnap} (hsnap : c.snapOf d l = some snap) (hready : c.lstate d l = laneREADY)
    (hgood : failOf snap.limits ≤ fom) :
    ∃ sets x, x.fomBad = 0 ∧ c.judgeFom d l fom = ((((c.lput d l LANE.FOM_MIN 7 0 (min fom (c.lget d l LANE.FOM_MIN 7 0))).lput d l
      LANE.FOM 7 0 fom).events d (lanePage l) sets).setLane d l x) := by
  have hkept : c.snapLane d l = c := by
    obtain ⟨hsome, hat⟩ := Option.filter_eq_some_iff.1 hsnap
    refine if_pos ?_
    rw [hsome]
    exact hat
  unfold Chip.judgeFom
  dsimp only
  rw [hkept, hsnap]
  dsimp only
  rw [Chip.notLeft_of_ready hready, if_neg (Nat.not_lt.2 hgood)]
  simp only [Bool.false_eq_true, if_false, ite_self]
  rw [if_neg (fun h => absurd h.2 (by rw [Chip.lane_setLane_same]; exact Nat.not_succ_le_zero 3))]
  exact ⟨_, _, rfl, rfl⟩

end

/-- What a READY lane shows of a FOM at or above FAIL. -/
theorem Chip.fomMeasured_spec {c : Chip} {d l fom : Nat} (hl : l < 8) (hready : c.lstate d l = laneREADY) (hrate : 3 ≤ c.lrate d l)
    (hfom : fom < 256) (hsnap : c.snapOf d l = none) (hgood : failOf (c.reg d (lanePage l) LANE.FOM_LIMITS) ≤ fom) (ctle vga : Nat)
    (dfe : List Nat) :
    let t := c.fomMeasured d l fom ctle vga dfe
    t.lget d l LANE.FOM 7 0 = fom ∧ t.lget d l LANE.FOM_MIN 7 0 = min fom (c.lget d l LANE.FOM_MIN 7 0) ∧ t.lstate d l = laneREADY ∧
      (t.lane d l).fomBad = 0 := by
  have hl24 : l < 24 := hl.trans (by decide)
  have hapart : ∀ {r o : Nat}, r < 0x1000 → o < 0x1000 → r ≠ o → apart (lanePage l) r (lanePage l) o = true := apart_in_lanePage hl24
  have hquiet : ∀ {r : Nat}, r < 0x1000 → r ≠ PAGE_EVENT → r ≠ PAGE_EVENT_LOST → quiet (lanePage l) r = true := quiet_lanePage hl24
  obtain ⟨u, hlike, heq⟩ := Chip.fomMeasured_ready (fom := fom) hl hready hrate ctle vga dfe
  have hstate : u.lstate d l = laneREADY := (Chip.lstate_adaptedLike hlike hl24).trans ((c.lstate_snapLane d l).trans hready)
  have hlowest : u.lget d l LANE.FOM_MIN 7 0 = c.lget d l LANE.FOM_MIN 7 0 :=
    (Chip.lget_adaptedLike hlike hl24 (by decide) (by decide) 7 0).trans (Chip.get_congr (c.reg_snapLane d l d _ _) 7 0)
  have hkept : u.snapOf d l = some (c.snapshot d l) := (Chip.snapOf_adaptedLike hlike).trans (Chip.snapOf_snapLane hsnap)
  obtain ⟨sets, x, hbad, hjudged⟩ := Chip.judgeFom_good (fom := fom) hkept hstate hgood
  generalize hv : (u.lput d l LANE.FOM_MIN 7 0 (min fom (u.lget d l LANE.FOM_MIN 7 0))).lput d l LANE.FOM 7 0 fom = v at hjudged
  have hreg : ∀ {r : Nat}, r < 0x1000 → r ≠ PAGE_EVENT → r ≠ PAGE_EVENT_LOST →
      ((v.events d (lanePage l) sets).setLane d l x).reg d (lanePage l) r = v.reg d (lanePage l) r := fun hr hev hlost =>
    v.reg_events_quiet d d (hquiet hr hev hlost) (lanePage l) sets
  have hstays : (u.judgeFom d l fom).lstate d l = laneREADY := by
    rw [hjudged]
    refine (Chip.get_congr (hreg (by decide) (by decide) (by decide)) 7 0).trans ?_
    rw [← hv]
    exact (Chip.get_congr ((Chip.reg_put_apart _ d d (hapart (by decide) (by decide) (by decide)) ..).trans
      (Chip.reg_put_apart _ d d (hapart (by decide) (by decide) (by decide)) ..)) 7 0).trans hstate
  have hconfirm : (u.judgeFom d l fom).tryConfirm d l = u.judgeFom d l fom := if_neg fun h => by
    rw [hstays] at h
    exact absurd h.2.1 (by decide)
  dsimp only
  rw [heq, hconfirm]
  refine ⟨?_, ?_, hstays, ?_⟩ <;> rw [hjudged]
  · refine (Chip.get_congr (hreg (by decide) (by decide) (by decide)) 7 0).trans ?_
    rw [← hv]
    exact (Chip.get_put _ d _ _ fom (by decide) (by decide)).trans (Nat.mod_eq_of_lt hfom)
  · refine (Chip.get_congr (hreg (by decide) (by decide) (by decide)) 7 0).trans ?_
    rw [← hv, ← hlowest]
    refine (Chip.get_congr (Chip.reg_put_apart _ d d (hapart (by decide) (by decide) (by decide)) ..) 7 0).trans ?_
    exact (Chip.get_put _ d _ _ _ (by decide) (by decide)).trans (Nat.mod_eq_of_lt (lt_of_le_of_lt (Nat.min_le_left ..) hfom))
  · rw [Chip.lane_setLane_same, hbad]

theorem fomIsKept : Claim.FomIsKept := by
  intro s d l fom ctle vga dfe hlane hl hready hrate hfom hsnap hgood
  exact ⟨s.up fun c => c.fomMeasured d l fom ctle vga dfe, if_pos hlane, rfl,
    Chip.fomMeasured_spec hl hready hrate hfom hsnap hgood ctle vga dfe⟩

/-- Settles O21: the phases of an attempt, the sets that a lane receives and sends in it, and the figure of merit of a lane that it
made READY. -/
theorem laneTraining : Obligations.LaneTraining := ⟨lanePhases, trainingSets, trainingSetsSent, fomIsKept⟩

end Sys2Proof.Machine
end

section
/-! PROOFS. Loss of signal and of lock (O20; R193, R195, R199, R201, R320). -/

namespace Sys2Proof.Machine

/-! ### A loss, and the end of a loss (R199, R201) -/

/-- A lane with a loss shown in STATUS, and its event. -/
def Chip.lossShown (c : Chip) (d l statusBit eventBit : Nat) : Chip :=
  ((c.snapLane d l).lput d l LANE.STATUS statusBit statusBit 1).levent d l eventBit

section
variable {c : Chip} {d l : Nat}

/-- In training and in DOWN a loss is only shown. -/
theorem Chip.signalLost_shown (h : c.lstate d l ∈ [laneLOCK, laneCONFIRM, laneSTEP, laneDOWN]) (statusBit eventBit : Nat) :
    c.signalLost d l statusBit eventBit = c.lossShown d l statusBit eventBit := by
  have hne : ∀ st ∈ [laneOFF, lanePARKED, laneREADY, laneLOOP], c.lstate d l ≠ st :=
    (by decide : ∀ a ∈ [laneLOCK, laneCONFIRM, laneSTEP, laneDOWN], ∀ st ∈ [laneOFF, lanePARKED, laneREADY, laneLOOP], a ≠ st) _ h
  have hoff := hne laneOFF (by decide)
  have hparked := hne lanePARKED (by decide)
  have hready := hne laneREADY (by decide)
  have hloop := hne laneLOOP (by decide)
  unfold Chip.signalLost
  dsimp only
  simp only [Chip.lstate_snapLane, hoff, hparked, hready, hloop, false_and, or_self, if_false]
  rfl

/-- A READY lane departs by it (R195). -/
theorem Chip.signalLost_ready (h : c.lstate d l = laneREADY) (statusBit eventBit : Nat) :
    c.signalLost d l statusBit eventBit = (c.lossShown d l statusBit eventBit).depart d l true := by
  unfold Chip.signalLost
  dsimp only
  rw [Chip.lstate_snapLane, h, if_neg (by simp), if_pos rfl]
  rfl

end

/-- The record of a die on which the loss of signal of a lane has ended: on a stream lane LOS was absent (R398). -/
def Chip.losEnded (c : Chip) (d l : Nat) : DieSt :=
  { c.die d with calLos := if l < 8 then l :: (c.die d).calLos.filter (fun x => x ≠ l) else (c.die d).calLos }

theorem laneSignal : Claim.LaneSignal := by
  intro s d l hlane
  refine ⟨fun hl htraining => ⟨?_, ?_⟩, fun hl hloop => ?_, fun hl => ?_, ?cleared⟩
  case cleared =>
    refine ⟨s.up fun c => (c.lput d l LANE.STATUS 11 11 0).setDie d (c.losEnded d l), if_pos hlane, State.up_mem .., ?_, ?_⟩
    · rw [State.up_chip, Chip.setDie_regs]
    · rw [State.up_chip, Chip.die_setDie, if_pos rfl, Chip.losEnded]
  all_goals refine (if_pos hlane).trans (congrArg Host.Outcome.next ?_)
  · exact State.up_congr ((if_pos (.inl hl)).trans (Chip.signalLost_shown htraining 11 6))
  · exact State.up_congr ((if_pos hl).trans (Chip.signalLost_shown htraining 12 7))
  · exact State.up_congr (g := id) (if_neg (not_or.2 ⟨Nat.not_lt.2 hl, hloop⟩))
  · exact State.up_congr (g := id) (if_neg (Nat.not_lt.2 hl))

/-! ### What a departure leaves as it was (R190, R195) -/

/-- Registers that show what happens to a lane: those of its page, and those that events of SYS change. -/
def laneShown (d l a : Nat) : Prop := a / 0x1000 = d * 0x1000 + lanePage l ∨ eventReg d SYS a

/-- The member, the records of the dies, and every register that does not show what happens to a lane. -/
def Chip.offLane (c : Chip) (d l : Nat) : Member × KMap DieSt × ({a // ¬laneShown d l a} → Option Word) :=
  (c.member, c.dies, fun a => KMap.get? c.regs a)

theorem laneShown_page {d l o : Nat} (ho : o < 0x1000) : laneShown d l (ra d (lanePage l) o) := .inl (ra_div d _ o ho)

theorem laneShown_of_eventReg {d l a : Nat} (h : eventReg d (lanePage l) a) : laneShown d l a := by
  rcases h with rfl | rfl | hport
  · exact laneShown_page (by decide)
  · exact laneShown_page (by decide)
  · exact .inr (.inr (.inr hport))

/-- A register of another page that no event changes does not. -/
theorem not_laneShown {d l q r : Nat} (hq : quiet q r = true) (hpage : q ≠ lanePage l) : ¬laneShown d l (ra d q r) := by
  rintro (hlane | hevent)
  · rw [ra_div d q r (bounds_of_quiet hq).2] at hlane
    exact hpage (Nat.add_left_cancel hlane)
  · exact not_eventReg_of_quiet hq d d SYS hevent

section
variable {c u : Chip} {d l : Nat}

theorem Chip.offLane_of_touches {p : Nat → Prop} (h : c.touches u p) (hp : ∀ a, p a → laneShown d l a) : u.offLane d l = c.offLane d l := by
  refine Prod.ext (Chip.touches_member h) (Prod.ext (Chip.touches_dies h) (funext fun a => ?_))
  exact h.2 a fun ha => a.2 (hp a ha)

section
variable (h : u.offLane d l = c.offLane d l)
include h

theorem Chip.die_of_offLane (e : Nat) : u.die e = c.die e := by
  have hdies : u.dies = c.dies := congrArg (fun v => v.2.1) h
  unfold Chip.die
  rw [hdies]

theorem Chip.get?_of_offLane {a : Nat} (ha : ¬laneShown d l a) : KMap.get? u.regs a = KMap.get? c.regs a :=
  congrFun (congrArg (fun v => v.2.2) h) ⟨a, ha⟩

theorem Chip.reg_of_offLane {q r : Nat} (hq : quiet q r = true) (hpage : q ≠ lanePage l) : u.reg d q r = c.reg d q r :=
  Chip.reg_congr (congrArg Prod.fst h) d q r (Chip.get?_of_offLane h (not_laneShown hq hpage))

end

variable (c d l)

theorem Chip.offLane_setLane (x : LaneSt) : (c.setLane d l x).offLane d l = c.offLane d l := rfl

theorem Chip.offLane_lput {o : Nat} (ho : o < 0x1000) (hi lo v : Nat) : (c.lput d l o hi lo v).offLane d l = c.offLane d l :=
  Chip.offLane_of_touches (c.touches_put d _ o hi lo v) fun _ ha => ha ▸ laneShown_page ho

theorem Chip.offLane_count {o : Nat} (ho : o < 0x1000) : (c.count d (lanePage l) o).offLane d l = c.offLane d l :=
  Chip.offLane_of_touches (c.touches_count d _ o) fun _ ha => ha ▸ laneShown_page ho

theorem Chip.offLane_levent (b : Nat) : (c.levent d l b).offLane d l = c.offLane d l :=
  Chip.offLane_of_touches (c.touches_event d _ b) fun _ => laneShown_of_eventReg

theorem Chip.offLane_setReady (b : Bool) : (c.setReady d (lanePage l) b).offLane d l = c.offLane d l :=
  Chip.offLane_of_touches (c.touches_setReady d _ b) fun _ ha => ha.elim (fun hstatus => hstatus ▸ laneShown_page (by decide)) .inr

theorem Chip.offLane_setState (v : Nat) : (c.setState d (lanePage l) v).offLane d l = c.offLane d l :=
  c.offLane_lput d l (by decide) 15 8 v

theorem Chip.offLane_snapLane : (c.snapLane d l).offLane d l = c.offLane d l := by
  unfold Chip.snapLane
  dsimp only
  split <;> rfl

theorem Chip.offLane_lossShown (statusBit eventBit : Nat) : (c.lossShown d l statusBit eventBit).offLane d l = c.offLane d l := by
  rw [Chip.lossShown, Chip.offLane_levent, Chip.offLane_lput _ d l (by decide), Chip.offLane_snapLane]

theorem Chip.offLane_setFails (n r : Nat) : (c.setFails d l n r).offLane d l = c.offLane d l :=
  Chip.offLane_lput _ d l (by decide) 10 8 _

theorem Chip.offLane_setRate (v : Nat) : (c.setRate d l v).offLane d l = c.offLane d l := by
  unfold Chip.setRate Chip.showFails
  dsimp only
  split <;> simp only [Chip.offLane_lput _ d l (show LANE.STATUS < 0x1000 by decide), Chip.offLane_lput _ d l (show LANE.FOM < 0x1000 by decide)]

variable {c d} (hdrv : (c.die d).drv = none)
include hdrv

/-- Without a DRV_CMD none ends. -/
theorem Chip.drvLost_idle : c.drvLost d l = c := by
  unfold Chip.drvLost
  rw [hdrv]
  rfl

theorem Chip.offLane_setLaneState (v : Nat) : (c.setLaneState d l v).offLane d l = c.offLane d l := by
  unfold Chip.setLaneState
  simp only [Chip.drvLost_idle l hdrv, ite_self]
  split_ifs <;> simp only [Chip.offLane_setReady, Chip.offLane_setRate, Chip.offLane_setState,
    Chip.offLane_lput _ d l (show LANE.STATUS < 0x1000 by decide), Chip.offLane_lput _ d l (show LANE.CTRL < 0x1000 by decide)]

theorem Chip.offLane_startAttempt : (c.startAttempt d l).offLane d l = c.offLane d l := by
  have hrate : ((c.setLane d l (c.started d l)).setRate d l 0).offLane d l = c.offLane d l :=
    (Chip.offLane_setRate _ d l 0).trans (c.offLane_setLane d l _)
  have hidle : (((c.setLane d l (c.started d l)).setRate d l 0).die d).drv = none := (congrArg DieSt.drv (Chip.die_of_offLane hrate d)).trans hdrv
  exact (Chip.offLane_setLaneState l hidle laneLOCK).trans hrate

end

/-! ### A driver lane departs (R193, R195) -/

/-- A lane that has left READY, as its READY_LOST event and RETRAIN_COUNT show. -/
def Chip.departure (c : Chip) (d l : Nat) : Chip := (c.levent d l 1).count d (lanePage l) LANE.RETRAIN_COUNT

/-- A driver lane is in no group, so that its departure is its own (R170). -/
theorem Chip.depart_driver (c : Chip) (d : Nat) {l : Nat} (hl : 8 ≤ l) :
    c.depart d l true = ((c.departure d l).startAttempt d l).setFails d l 1 (c.lrate d l) := if_pos hl

/-- A READY lane that has lost lock, departed. -/
def Chip.lockLost (c : Chip) (d l : Nat) : Chip := (c.lossShown d l 12 7).depart d l true

/-- Fields of STATUS between the count of failures and the rate: LOS, LOL and the bits after them. -/
abbrev isSignalField (hi lo : Nat) : Prop := 10 < lo ∧ hi < 16

section
variable (c : Chip) (d : Nat) {l : Nat}

theorem Chip.status_setFails (n r : Nat) {hi lo : Nat} (hhi : hi < 32) (h : hi < 8 ∨ 10 < lo) :
    (c.setFails d l n r).lget d l LANE.STATUS hi lo = c.lget d l LANE.STATUS hi lo :=
  Chip.get_put_beside _ d _ _ _ d _ _ (by decide) hhi h

variable (hl : l < 24)
include hl

section
variable {hi lo : Nat} (h : isSignalField hi lo)
include h

/-- A change of rate leaves the signal bits. -/
theorem Chip.signal_setRate (v : Nat) : (c.setRate d l v).lget d l LANE.STATUS hi lo = c.lget d l LANE.STATUS hi lo := by
  have hfields : ((c.lput d l LANE.STATUS 18 16 v).showFails d l).lget d l LANE.STATUS hi lo = c.lget d l LANE.STATUS hi lo :=
    (Chip.get_put_beside _ d _ _ _ d _ _ (by decide) (by omega) (.inr h.1)).trans
      (Chip.get_put_beside _ d _ _ _ d _ _ (by decide) (by omega) (.inl h.2))
  unfold Chip.setRate
  dsimp only
  split
  · exact (Chip.get_congr (Chip.reg_put_apart _ d d (apart_in_lanePage hl (by decide) (by decide) (by decide)) ..) hi lo).trans hfields
  · exact hfields

/-- So does a change of state. -/
theorem Chip.signal_setLaneState (v : Nat) : (c.setLaneState d l v).lget d l LANE.STATUS hi lo = c.lget d l LANE.STATUS hi lo := by
  have hq : quiet (lanePage l) LANE.STATUS = true := quiet_lanePage hl (by decide) (by decide) (by decide)
  have hpageStatus : apart (lanePage l) LANE.STATUS (lanePage l) PAGE_STATUS = true := apart_in_lanePage hl (by decide) (by decide) (by decide)
  have hctrl : apart (lanePage l) LANE.STATUS (lanePage l) LANE.CTRL = true := apart_in_lanePage hl (by decide) (by decide) (by decide)
  have hready : ∀ (x : Chip) b, (x.setReady d (lanePage l) b).lget d l LANE.STATUS hi lo = x.lget d l LANE.STATUS hi lo := fun x b =>
    Chip.get_congr ((x.reg_setReady_quiet d d hq _ b).trans (x.reg_put_apart d d hpageStatus 0 0 _)) hi lo
  have hput : ∀ x : Chip, (((x.lput d l LANE.STATUS 7 0 v).setState d (lanePage l) v).lput d l LANE.CTRL 0 0
      (decide (v ≠ laneOFF)).toNat).lget d l LANE.STATUS hi lo = x.lget d l LANE.STATUS hi lo := fun x =>
    (Chip.get_congr ((Chip.reg_put_apart _ d d hctrl ..).trans (Chip.reg_put_apart _ d d hpageStatus ..)) hi lo).trans
      (x.get_put_beside d _ _ _ d _ _ (by decide) (by omega) (.inr (by omega)))
  have hdrv : (c.drvLost d l).lget d l LANE.STATUS hi lo = c.lget d l LANE.STATUS hi lo :=
    Chip.get_congr (c.reg_drvLost d l d hq (lanePage_ne_blocks hl).2.1) hi lo
  unfold Chip.setLaneState
  dsimp only
  split_ifs <;> simp only [hready, Chip.signal_setRate _ d hl h, hput, hdrv]

theorem Chip.signal_startAttempt : (c.startAttempt d l).lget d l LANE.STATUS hi lo = c.lget d l LANE.STATUS hi lo :=
  (Chip.signal_setLaneState _ d hl h laneLOCK).trans (Chip.signal_setRate _ d hl h 0)

end

/-- A departure is counted and leaves STATUS. -/
theorem Chip.reg_departure_status : (c.departure d l).reg d (lanePage l) LANE.STATUS = c.reg d (lanePage l) LANE.STATUS := by
  rw [Chip.departure, Chip.count_eq, Chip.reg_setReg_apart _ d d (apart_in_lanePage hl (by decide) (by decide) (by decide)), Chip.levent,
    Chip.reg_event_quiet _ d d (quiet_lanePage hl (by decide) (by decide) (by decide))]

theorem Chip.retrainCount_departure : (c.departure d l).num d (lanePage l) LANE.RETRAIN_COUNT =
    min 0xFFFFFFFF (c.num d (lanePage l) LANE.RETRAIN_COUNT + 1) := by
  rw [Chip.departure, Chip.num_count, Chip.num, Chip.levent,
    Chip.reg_event_quiet _ d d (quiet_lanePage hl (by decide) (by decide) (by decide)), ← Chip.num]

/-- The lane is back in Lock at 3.5 Gbit/s, with a first failure at the rate that it left, and shows the loss that it showed. -/
theorem Chip.depart_driver_spec (hdriver : 8 ≤ l) :
    let t := c.depart d l true
    t.lstate d l = laneLOCK ∧ t.lrate d l = 0 ∧ t.lget d l LANE.STATUS 12 12 = c.lget d l LANE.STATUS 12 12 ∧
      (t.lane d l).fails = 1 ∧ (t.lane d l).failRate = c.lrate d l ∧
      t.num d (lanePage l) LANE.RETRAIN_COUNT = min 0xFFFFFFFF (c.num d (lanePage l) LANE.RETRAIN_COUNT + 1) := by
  obtain ⟨hstate, hrate, -⟩ := (c.departure d l).startAttempt_spec d hl
  have hcount : (((c.departure d l).startAttempt d l).setFails d l 1 (c.lrate d l)).reg d (lanePage l) LANE.RETRAIN_COUNT =
      (c.departure d l).reg d (lanePage l) LANE.RETRAIN_COUNT :=
    (Chip.reg_put_apart _ d d (apart_in_lanePage hl (by decide) (by decide) (by decide)) ..).trans
      (Chip.reg_startAttempt _ d l d (offLaneState_of hl (by decide)))
  dsimp only
  rw [c.depart_driver d hdriver, Chip.lane_setFails]
  refine ⟨?_, ?_, ?_, rfl, rfl, ?_⟩
  · exact (Chip.status_setFails _ d 1 _ (by decide) (.inl (by decide))).trans hstate
  · exact (Chip.status_setFails _ d 1 _ (by decide) (.inr (by decide))).trans hrate
  · exact ((Chip.status_setFails _ d 1 _ (by decide) (.inr (by decide))).trans (Chip.signal_startAttempt _ d hl (by decide))).trans
      (Chip.get_congr (c.reg_departure_status d hl) 12 12)
  · exact (congrArg BitVec.toNat hcount).trans (c.retrainCount_departure d hl)

omit hl in
theorem Chip.offLane_depart_driver (hdriver : 8 ≤ l) (hdrv : (c.die d).drv = none) : (c.depart d l true).offLane d l = c.offLane d l := by
  have hleft : (c.departure d l).offLane d l = c.offLane d l := (Chip.offLane_count _ d l (by decide)).trans (c.offLane_levent d l 1)
  rw [c.depart_driver d hdriver, Chip.offLane_setFails, Chip.offLane_startAttempt l (by rw [Chip.die_of_offLane hleft, hdrv]), hleft]

/-- A loss of lock shows in STATUS, and leaves the lane's rate and its count of departures. -/
theorem Chip.lossShown_spec : (c.lossShown d l 12 7).lget d l LANE.STATUS 12 12 = 1 ∧ (c.lossShown d l 12 7).lrate d l = c.lrate d l ∧
    (c.lossShown d l 12 7).num d (lanePage l) LANE.RETRAIN_COUNT = c.num d (lanePage l) LANE.RETRAIN_COUNT := by
  have hquiet : ∀ {r}, r < 0x1000 → r ≠ PAGE_EVENT → r ≠ PAGE_EVENT_LOST → quiet (lanePage l) r = true := quiet_lanePage hl
  have hreg : ∀ {r}, quiet (lanePage l) r = true → (c.lossShown d l 12 7).reg d (lanePage l) r =
      ((c.snapLane d l).lput d l LANE.STATUS 12 12 1).reg d (lanePage l) r := fun h => Chip.reg_event_quiet _ d d h _ _
  have hstatus := hreg (r := LANE.STATUS) (hquiet (by decide) (by decide) (by decide))
  refine ⟨(Chip.get_congr hstatus 12 12).trans (Chip.get_put _ d _ _ 1 (by decide) (by decide)), ?_, congrArg BitVec.toNat ?_⟩
  · exact (Chip.get_congr hstatus 18 16).trans
      ((Chip.get_put_beside _ d _ _ _ d _ _ (by decide) (by decide) (.inr (by decide))).trans (c.lrate_snapLane d l))
  · exact (hreg (hquiet (by decide) (by decide) (by decide))).trans
      ((Chip.reg_put_apart _ d d (apart_in_lanePage hl (by decide) (by decide) (by decide)) ..).trans (c.reg_snapLane d l d _ _))

theorem Chip.lockLost_spec (hdriver : 8 ≤ l) :
    let t := c.lockLost d l
    t.lstate d l = laneLOCK ∧ t.lrate d l = 0 ∧ t.lget d l LANE.STATUS 12 12 = 1 ∧ (t.lane d l).fails = 1 ∧
      (t.lane d l).failRate = c.lrate d l ∧
      t.num d (lanePage l) LANE.RETRAIN_COUNT = min 0xFFFFFFFF (c.num d (lanePage l) LANE.RETRAIN_COUNT + 1) := by
  obtain ⟨hlol, hrate, hcount⟩ := c.lossShown_spec d hl
  have hspec := (c.lossShown d l 12 7).depart_driver_spec d hl hdriver
  rwa [hlol, hrate, hcount] at hspec

omit hl in
theorem Chip.offLane_lockLost (hdriver : 8 ≤ l) (hdrv : (c.die d).drv = none) : (c.lockLost d l).offLane d l = c.offLane d l := by
  have hshown := c.offLane_lossShown d l 12 7
  have hidle : ((c.lossShown d l 12 7).die d).drv = none := (congrArg DieSt.drv (Chip.die_of_offLane hshown d)).trans hdrv
  exact (Chip.offLane_depart_driver _ d hdriver hidle).trans hshown

end

/-! ### The report of a position (R199, R318, R320) -/

/-- A chip with the report of a position taken: what the driver says, its bits of RET_STATUS, and the errors that it counted. -/
def Chip.reported (c : Chip) (d k p : Nat) (x : DriverSt) (lock : Bool) (code crc : Nat) : Chip :=
  (((((c.setDriver d k p x).retPut d k p p lock.toNat).retPut d k (8 + p) (8 + p) 1).countBy d DLINK DLINK.DRV_CODE_COUNT code).countBy
    d DLINK DLINK.DRV_CRC_COUNT crc).eventIf (decide (0 < crc)) d DLINK 0

/-- Registers that a report changes: those of DLINK, and the ports' where they drop its record. -/
def reportReg (d a : Nat) : Prop := a / 0x1000 = d * 0x1000 + DLINK ∨ portReg a

theorem Chip.chainDrivers_le (c : Chip) (d : Nat) : c.chainDrivers d ≤ 8 := Nat.mod_lt _ (by decide)

theorem retStatus_lt {k : Nat} (hk : k < 16) : DLINK.RET_STATUS + 4 * k < DLINK.DRV_CRC_COUNT := by
  unfold DLINK.RET_STATUS DLINK.DRV_CRC_COUNT
  omega

theorem retStatus_quiet {k : Nat} (hk : k < 16) : quiet DLINK (DLINK.RET_STATUS + 4 * k) = true := by
  revert k
  decide

section
variable {c : Chip} {d k p : Nat} (x : DriverSt) (lock : Bool) (code crc : Nat) (hk : k < 16)
include hk

theorem Chip.touches_reported : (c.setDriver d k p x).touches (c.reported d k p x lock code crc) (reportReg d) := by
  have hreg : ∀ o < 0x1000, ∀ a, a = ra d DLINK o → reportReg d a := fun o ho a ha => .inl (ha ▸ ra_div d DLINK o ho)
  have hret := hreg _ ((retStatus_lt hk).trans (by decide))
  have hevent : ∀ a, eventReg d DLINK a → reportReg d a := fun a ha =>
    ha.elim (hreg _ (by decide) a) fun ha => ha.elim (hreg _ (by decide) a) .inr
  exact Chip.touches_trans (Chip.touches_trans (Chip.touches_trans (Chip.touches_trans
    (Chip.touches_mono (Chip.touches_put ..) hret) (Chip.touches_mono (Chip.touches_put ..) hret))
    (Chip.touches_mono (Chip.touches_countBy ..) (hreg _ (by decide)))) (Chip.touches_mono (Chip.touches_countBy ..) (hreg _ (by decide))))
    (Chip.touches_mono (Chip.touches_eventIf ..) hevent)

theorem Chip.reg_reported {q r : Nat} (hq : quiet q r = true) (hpage : q ≠ DLINK) :
    (c.reported d k p x lock code crc).reg d q r = c.reg d q r := by
  refine Chip.touches_reg (Chip.touches_reported x lock code crc hk) d q r ?_
  rintro (hdlink | hport)
  · rw [ra_div d q r (bounds_of_quiet hq).2] at hdlink
    exact hpage (Nat.add_left_cancel hdlink)
  · exact not_eventReg_of_quiet hq d d SYS (.inr (.inr hport))

/-- It shows whether the position is locked. -/
theorem Chip.retGet_reported (hp : p < 8) : (c.reported d k p x lock code crc).retGet d k p p = lock.toNat := by
  have hlt := retStatus_lt hk
  have hquiet := retStatus_quiet hk
  have hcode : apart DLINK (DLINK.RET_STATUS + 4 * k) DLINK DLINK.DRV_CODE_COUNT = true :=
    apart_of_offset hquiet (by decide) (by decide) (ne_of_lt (hlt.trans (by decide)))
  have hcrc : apart DLINK (DLINK.RET_STATUS + 4 * k) DLINK DLINK.DRV_CRC_COUNT = true :=
    apart_of_offset hquiet (by decide) (by decide) (ne_of_lt hlt)
  have hbits : ∀ u : Chip, ((u.retPut d k p p lock.toNat).retPut d k (8 + p) (8 + p) 1).retGet d k p p = lock.toNat := fun u =>
    (Chip.get_put_beside _ d _ _ _ d _ _ le_rfl (by omega) (.inl (by omega))).trans
      ((u.get_put d DLINK _ _ le_rfl (by omega)).trans (by cases lock <;> simp))
  refine (Chip.get_congr ?_ p p).trans (hbits (c.setDriver d k p x))
  unfold Chip.reported
  rw [Chip.reg_eventIf_quiet _ d d hquiet]
  exact (Chip.reg_setNum_apart _ d d hcrc _).trans (Chip.reg_setNum_apart _ d d hcode _)

theorem Chip.chainDrivers_reported : (c.reported d k p x lock code crc).chainDrivers d = c.chainDrivers d := by
  have hret : apart DLINK DLINK.CHAINS DLINK (DLINK.RET_STATUS + 4 * k) = true := by
    revert k; decide
  have hreg : (c.reported d k p x lock code crc).reg d DLINK DLINK.CHAINS = c.reg d DLINK DLINK.CHAINS := by
    unfold Chip.reported
    rw [Chip.reg_eventIf_quiet _ d d (by decide)]
    exact (Chip.reg_setNum_apart _ d d (by decide) _).trans ((Chip.reg_setNum_apart _ d d (by decide) _).trans
      ((Chip.reg_put_apart _ d d hret ..).trans (Chip.reg_put_apart _ d d hret ..)))
  exact congrArg (· + 1) (Chip.get_congr hreg 10 8)

end

section
variable {c : Chip} {d k p : Nat}

/-- In Lock a chain waits for the positions that are not locked. -/
theorem Chip.chainTrain_unlocked (hlock : c.lstate d (8 + k) = laneLOCK) (hp : p < c.chainDrivers d) (hpos : c.retGet d k p p ≠ 1) :
    c.chainTrain d k = c := by
  have hlocked : c.chainLocked d k = false := by
    refine List.all_eq_false.2 ⟨p, List.mem_range.2 hp, ?_⟩
    simp [hpos]
  unfold Chip.chainTrain
  simp [hlock, hlocked]

/-- What the reports of a chain do to its lane (R199, R210, R320). -/
def Chip.laneReported (c : Chip) (d k : Nat) (lock : Bool) : Chip :=
  let judged := match c.chainFom d k with
    | some f => if 3 ≤ c.lrate d (8 + k) ∧ (c.isReady d (8 + k) ∨ c.training d (8 + k) ∨ c.lstate d (8 + k) = laneLOOP) then
        c.judgeFom d (8 + k) f else c
    | none => c
  (if c.isReady d (8 + k) ∧ !lock then judged.signalLost d (8 + k) 12 7 else judged).chainTrain d k

theorem Chip.statusFrame_eq (hp : p < c.chainDrivers d) (lock : Bool) (rate : Nat) (loop : Bool) (fom code crc : Nat) :
    ∃ x, c.statusFrame d k p lock rate loop fom code crc = (c.reported d k p x lock code crc).laneReported d k lock :=
  ⟨_, if_neg (Nat.not_le.2 hp)⟩

/-- A report without lock takes a READY lane below 28 Gbit/s, where no FOM is judged, out of READY. -/
theorem Chip.laneReported_unlocked (hready : c.lstate d (8 + k) = laneREADY) (hrate : c.lrate d (8 + k) < 3) :
    c.laneReported d k false = (c.lockLost d (8 + k)).chainTrain d k := by
  have hslow : ¬3 ≤ c.lrate d (8 + k) := Nat.not_le.2 hrate
  rw [Chip.lockLost, ← Chip.signalLost_ready hready]
  unfold Chip.laneReported
  cases c.chainFom d k <;> simp [hslow, Chip.isReady, hready]

end

/-! ### A position loses lock (R195, R201, R320) -/

section
variable {c : Chip} {d k p : Nat} (x : DriverSt) (code crc : Nat) (hk : k < 16) (hp : p < c.chainDrivers d) (hdrv : (c.die d).drv = none)
include hk

/-- A report changes nothing on the page of the lane. -/
theorem Chip.laneReg_reported {r : Nat} (hr : r < 0x1000) (hev : r ≠ PAGE_EVENT) (hlost : r ≠ PAGE_EVENT_LOST) :
    (c.reported d k p x false code crc).reg d (lanePage (8 + k)) r = c.reg d (lanePage (8 + k)) r := by
  have hl : 8 + k < 24 := by omega
  exact Chip.reg_reported x false code crc hk (quiet_lanePage hl hr hev hlost) (lanePage_ne_blocks hl).2.1

include hdrv

theorem Chip.offLane_reported_lockLost : ((c.reported d k p x false code crc).lockLost d (8 + k)).offLane d (8 + k) =
    (c.reported d k p x false code crc).offLane d (8 + k) := by
  refine Chip.offLane_lockLost _ d (Nat.le_add_right 8 k) ?_
  rw [Chip.die, Chip.touches_dies (Chip.touches_reported x false code crc hk)]
  exact hdrv

include hp

/-- A lane that departed by a report waits in Lock for the position that is not locked. -/
theorem Chip.chainTrain_lockLost : ((c.reported d k p x false code crc).lockLost d (8 + k)).chainTrain d k =
    (c.reported d k p x false code crc).lockLost d (8 + k) := by
  have hl : 8 + k < 24 := by omega
  have hdlink : DLINK ≠ lanePage (8 + k) := (lanePage_ne_blocks hl).2.1.symm
  have hoff := Chip.offLane_reported_lockLost (p := p) x code crc hk hdrv
  have hchains : ((c.reported d k p x false code crc).lockLost d (8 + k)).chainDrivers d = c.chainDrivers d :=
    (congrArg (· + 1) (Chip.get_congr (Chip.reg_of_offLane hoff (by decide) hdlink) 10 8)).trans
      (Chip.chainDrivers_reported x false code crc hk)
  have hpos : ((c.reported d k p x false code crc).lockLost d (8 + k)).retGet d k p p = 0 :=
    (Chip.get_congr (Chip.reg_of_offLane hoff (retStatus_quiet hk) hdlink) p p).trans
      (Chip.retGet_reported x false code crc hk (lt_of_lt_of_le hp (c.chainDrivers_le d)))
  refine Chip.chainTrain_unlocked (Chip.lockLost_spec _ d hl (Nat.le_add_right 8 k)).1 (hchains ▸ hp) ?_
  rw [hpos]
  decide

end

/-- A report without lock of a fitted position takes the READY lane of its chain out of READY, and does no more to it. -/
theorem Chip.statusFrame_unlocked {c : Chip} {d k p : Nat} (hk : k < 16) (hp : p < c.chainDrivers d)
    (hready : c.lstate d (8 + k) = laneREADY) (hrate : c.lrate d (8 + k) < 3) (hdrv : (c.die d).drv = none)
    (rate : Nat) (loop : Bool) (fom code crc : Nat) :
    ∃ x, c.statusFrame d k p false rate loop fom code crc = (c.reported d k p x false code crc).lockLost d (8 + k) := by
  obtain ⟨x, hframe⟩ := Chip.statusFrame_eq (k := k) hp false rate loop fom code crc
  have hstatus : (c.reported d k p x false code crc).reg d (lanePage (8 + k)) LANE.STATUS = c.reg d (lanePage (8 + k)) LANE.STATUS :=
    Chip.laneReg_reported x code crc hk (by decide) (by decide) (by decide)
  refine ⟨x, hframe.trans ?_⟩
  rw [Chip.laneReported_unlocked ((Chip.get_congr hstatus 7 0).trans hready) ((Chip.get_congr hstatus 18 16).trans_lt hrate)]
  exact Chip.chainTrain_lockLost x code crc hk hp hdrv

theorem driverLaneDeparts : Claim.DriverLaneDeparts := by
  intro s d k p rate fom code crc loop hd hk hp hready hrate hdrv
  obtain ⟨x, hframe⟩ := Chip.statusFrame_unlocked hk hp hready hrate hdrv rate loop fom code crc
  have hoff := Chip.offLane_reported_lockLost (p := p) x code crc hk hdrv
  have hlrate : (s.chip.reported d k p x false code crc).lrate d (8 + k) = s.chip.lrate d (8 + k) :=
    Chip.get_congr (Chip.laneReg_reported x code crc hk (by decide) (by decide) (by decide)) 18 16
  have hcount : (s.chip.reported d k p x false code crc).num d (lanePage (8 + k)) LANE.RETRAIN_COUNT =
      s.chip.num d (lanePage (8 + k)) LANE.RETRAIN_COUNT :=
    congrArg BitVec.toNat (Chip.laneReg_reported x code crc hk (by decide) (by decide) (by decide))
  have hspec := (s.chip.reported d k p x false code crc).lockLost_spec d (l := 8 + k) (by omega) (Nat.le_add_right 8 k)
  rw [hlrate, hcount] at hspec
  obtain ⟨hlock, hslow, hshown, hfails, hfailRate, hretrain⟩ := hspec
  refine ⟨s.up fun c => c.statusFrame d k p false rate loop fom code crc, if_pos ⟨hd, hk, lt_of_lt_of_le hp (s.chip.chainDrivers_le d)⟩,
    State.up_mem .., ?_⟩
  rw [State.up_chip, hframe]
  refine ⟨hlock, hslow, hshown, hfails, hfailRate, hretrain, fun a ha => ?_⟩
  obtain ⟨hpage, hbeside⟩ := not_or.1 ha
  obtain ⟨hdlink, hevent⟩ := not_or.1 hbeside
  calc KMap.get? ((s.chip.reported d k p x false code crc).lockLost d (8 + k)).regs a
      = KMap.get? (s.chip.reported d k p x false code crc).regs a := Chip.get?_of_offLane hoff (not_or.2 ⟨hpage, hevent⟩)
    _ = KMap.get? (s.chip.setDriver d k p x).regs a :=
        (Chip.touches_reported x false code crc hk).2 a (not_or.2 ⟨hdlink, fun hport => hevent (.inr (.inr hport))⟩)

/-- Settles O20: a loss on a stream lane that is not READY is only shown, and a READY driver lane departs when a position of its chain
reports that it is not locked. -/
theorem laneSignals : Obligations.LaneSignals := ⟨laneSignal, driverLaneDeparts⟩

end Sys2Proof.Machine
end

section
/-! PROOFS. Blending and the order of the stack (O29; R224). -/

namespace Sys2Proof.Machine

/-! ### One channel blended (R224) -/

theorem blend_opaque (l b : Nat) : blend 255 l b = l := by unfold blend; omega
theorem blend_transparent (l b : Nat) : blend 0 l b = b := by unfold blend; omega

theorem blend_mono (a : Nat) {l l' b b' : Nat} (hl : l ≤ l') (hb : b ≤ b') : blend a l b ≤ blend a l' b' := by
  unfold blend; gcongr

/-- A layer that shows what lies under it changes nothing. -/
theorem blend_same {a : Nat} (ha : a ≤ 255) (x : Nat) : blend a x x = x := by
  have hsum : a * x + (255 - a) * x = 255 * x := by rw [← Nat.add_mul, Nat.add_sub_cancel' ha]
  unfold blend
  omega

theorem blendBounds : Claim.BlendBounds := by
  refine ⟨fun l b => ⟨blend_opaque l b, blend_transparent l b⟩, fun a l b ha => ⟨?below, ?above⟩, fun a l l' b _ hl => blend_mono a hl le_rfl⟩
  case below =>
    calc min l b = blend a (min l b) (min l b) := (blend_same ha _).symm
      _ ≤ blend a l b := blend_mono a (min_le_left ..) (min_le_right ..)
  case above =>
    calc blend a l b ≤ blend a (max l b) (max l b) := blend_mono a (le_max_left ..) (le_max_right ..)
      _ = max l b := blend_same ha _

/-! ### The stack (R224) -/

theorem mem_insertLayer {x y : Nat × Desc} {l : List (Nat × Desc)} : y ∈ insertLayer x l ↔ y = x ∨ y ∈ l := by
  induction l with
  | nil => simp [insertLayer]
  | cons a l ih =>
    unfold insertLayer
    split
    · simp
    · rw [List.mem_cons, ih, List.mem_cons, or_left_comm]

/-- A layer lies under another one, or in the same place of the stack. -/
def stackedUnder (x y : Nat × Desc) : Prop := x.2.z < y.2.z ∨ (x.2.z = y.2.z ∧ x.1 ≤ y.1)

theorem stackedUnder_trans {x y z : Nat × Desc} (h : stackedUnder x y) (h' : stackedUnder y z) : stackedUnder x z := by
  unfold stackedUnder at *; omega

/-- A layer put into a sorted stack leaves it sorted. -/
theorem pairwise_insertLayer (x : Nat × Desc) {l : List (Nat × Desc)} (h : l.Pairwise stackedUnder) :
    (insertLayer x l).Pairwise stackedUnder := by
  induction l with
  | nil => exact List.pairwise_singleton ..
  | cons y l ih =>
    obtain ⟨hy, hl⟩ := List.pairwise_cons.1 h
    unfold insertLayer
    split
    case isTrue hlt =>
      have hxy : stackedUnder x y := by unfold stackedUnder; omega
      refine List.pairwise_cons.2 ⟨fun a ha => ?_, h⟩
      rcases List.mem_cons.1 ha with rfl | ha
      · exact hxy
      · exact stackedUnder_trans hxy (hy a ha)
    case isFalse hge =>
      refine List.pairwise_cons.2 ⟨fun a ha => ?_, ih hl⟩
      rcases mem_insertLayer.1 ha with rfl | ha
      · unfold stackedUnder; omega
      · exact hy a ha

theorem stackIsSorted : Claim.StackIsSorted := fun _ _ =>
  List.foldlRecOn _ _ (motive := List.Pairwise stackedUnder) List.Pairwise.nil fun _ h _ _ => pairwise_insertLayer _ h

/-- Settles O29: the blend is monotone and keeps equal values, and each layer is put into its place in a sorted stack. -/
theorem composition : Obligations.Composition := ⟨blendBounds, stackIsSorted⟩

end Sys2Proof.Machine
end

section
/-! PROOFS. LAYER_COMMIT is BUSY (O27; R229, R383). -/

namespace Sys2Proof.Machine

theorem State.run_layerCommit (s : State) {r : Req} {o : Nat} {id : Word} (hr : r.cmd = .layerCommit o id) :
    s.run r = s.layerCommit r o := by unfold State.run; rw [hr]

/-- A LAYER_COMMIT of number `id` cannot begin: another one of the output is pending, the output has no entry, or a die of the gang
lacks a DRAM channel or a basket for its line lists (R229, R383). -/
def Chip.commitBarred (c : Chip) (o id : Nat) : Prop :=
  (∃ q ∈ c.inflight, isLayerCommit o q = true ∧ q.started = true ∧ q.id ≠ id) ∨ c.hasEntry o = false ∨
    ∃ d ∈ c.gang o, c.serving d 0 = false ∨ c.serving d 1 = false ∨ c.ownsBasket d 2 = false

/-- The test of `State.layerCommit`. -/
theorem Chip.commitBarred_iff (c : Chip) (o id : Nat) : c.commitBarred o id ↔
    (c.inflight.any fun q => isLayerCommit o q && q.started && decide (q.id ≠ id)) ∨ !c.hasEntry o ∨
      (c.gang o).any (fun d => !c.serving d 0 || !c.serving d 1 || !c.ownsBasket d 2) := by
  simp [Chip.commitBarred, List.any_eq_true, and_assoc, or_assoc]

theorem State.layerCommit_barred {s : State} {r : Req} {o : Nat} (h : s.chip.commitBarred o r.id) : s.layerCommit r o = s.done r BUSY :=
  if_pos ((s.chip.commitBarred_iff o r.id).1 h)

/-- The command's own entry among those in flight bars nothing. -/
theorem Chip.commitBarred_taken (c : Chip) (h : Hdr) (cmd : Cmd) (o : Nat) :
    (c.taken (Hdr.message h cmd) cmd).commitBarred o (c.begun (Hdr.message h cmd) cmd).id ↔ c.commitBarred o c.nextReq := by
  have hothers : (∃ q ∈ (c.taken (Hdr.message h cmd) cmd).inflight, isLayerCommit o q = true ∧ q.started = true ∧ q.id ≠ c.nextReq) ↔
      ∃ q ∈ c.inflight, isLayerCommit o q = true ∧ q.started = true ∧ q.id ≠ c.nextReq := by
    show (∃ q ∈ c.inflight ++ [c.begun (Hdr.message h cmd) cmd], _) ↔ _
    simp only [List.mem_append, List.mem_singleton, or_and_right, exists_or, exists_eq_left]
    exact or_iff_left fun hself => hself.2.2 rfl
  exact or_congr hothers Iff.rfl

theorem exec_layerCommit_barred {s : State} {h : Hdr} {o : Nat} {id : Word} (ha : s.chip.admits h (.layerCommit o id))
    (hbar : s.chip.commitBarred o s.chip.nextReq) :
    exec (.layerCommit h o id) s = .next ((s.starts h (.layerCommit o id)).done (s.req h (.layerCommit o id)) BUSY) := by
  rw [exec_admitted rfl ha, State.run_layerCommit _ rfl, State.layerCommit_barred ((s.chip.commitBarred_taken h _ o).2 hbar)]

/-- Settles O27: the test with which LAYER_COMMIT begins. -/
theorem layerCommitBusy : Obligations.LayerCommitBusy := by
  intro s h o id ha hbusy
  refine exec_layerCommit_barred ha (hbusy.imp_right (Or.imp_right ?_))
  rintro ⟨d, hd, hout⟩
  exact ⟨d, hd, hout.imp_right .inl⟩

end Sys2Proof.Machine
end

section
/-! PROOFS. LAYER_COMMIT from its start to the end of its drain (O28; R227 to R230, R234, R383). -/

namespace Sys2Proof.Machine

/-! ### Taking the staged descriptors (R227) -/

theorem Chip.layer_of_touches {c c' : Chip} {p : Nat → Prop} (h : c.touches c' p) (n : Nat) : c'.layer n = c.layer n := by
  unfold Chip.layer; rw [h.1]

/-- A commit takes one descriptor. -/
def Chip.takeDesc (c : Chip) (o : Nat) (x : Nat × Desc) : Chip :=
  c.setLayer x.1 { c.layer x.1 with taken := (c.layer x.1).taken.filter (fun t => t.1 ≠ o) ++ [(o, x.2)] }

/-- It takes the descriptors of a list. -/
def Chip.takeAll (c : Chip) (o : Nat) (l : List (Nat × Desc)) : Chip := c.each l fun c x => c.takeDesc o x

/-- The COMP pages of a gang show that line lists are being built. -/
def Chip.showBuilding (c : Chip) (o : Nat) : Chip := (c.each (c.gang o) fun c d => c.setState d COMP 0x02).setBusy o COMP true

/-- No line lists of an output are built. -/
def Chip.disarm (c : Chip) (o : Nat) : Chip := c.setOut o { c.out o with armedAt := none }

/-- A commit has taken its descriptors, and its line lists are being built. -/
def Chip.commitBegun (c : Chip) (o : Nat) (l : List (Nat × Desc)) : Chip := ((c.takeAll o l).disarm o).showBuilding o

/-- A commit that nothing bars, and whose checks pass, begins (R227, R228). -/
theorem State.layerCommit_begun {s : State} {r : Req} {o : Nat} (hbar : ¬s.chip.commitBarred o r.id)
    (hdesc : ∀ x ∈ s.chip.takes o, s.chip.descBad (s.chip.takes o) x.1 x.2 = false)
    (hline : s.chip.lineLimit o (((s.chip.after (s.chip.takes o)).filter (fun x => x.2.enable && decide (x.2.output = o))).foldl
      (fun acc x => insertLayer x acc) []) = none) :
    s.layerCommit r o = s.up fun c => c.commitBegun o (s.chip.takes o) := by
  have hfind : (s.chip.takes o).find? (fun x => s.chip.descBad (s.chip.takes o) x.1 x.2) = none :=
    List.find?_eq_none.2 fun x hx => ne_true_of_eq_false (hdesc x hx)
  unfold State.layerCommit
  dsimp only
  rw [if_neg (mt (s.chip.commitBarred_iff o r.id).2 hbar), hfind]
  dsimp only
  rw [hline]
  rfl

/-- A commit takes the descriptor that is staged. -/
theorem Chip.desc_of_mem_takes {c : Chip} {o : Nat} {x : Nat × Desc} (h : x ∈ c.takes o) : x.2 = c.stagedDesc x.1 := by
  obtain ⟨n, -, rfl⟩ := List.mem_map.1 h
  rfl

theorem Chip.layer_takeDesc (c : Chip) (o : Nat) (x : Nat × Desc) (n : Nat) : (c.takeDesc o x).layer n =
    if n = x.1 then { c.layer n with taken := (c.layer n).taken.filter (fun t => t.1 ≠ o) ++ [(o, x.2)] } else c.layer n := by
  unfold Chip.takeDesc
  rw [Chip.layer_setLayer]
  split
  · next h => subst h; rfl
  · rfl

/-- What is taken for an output replaces what was. -/
theorem lookup_filter_append {α : Type} (l : List (Nat × α)) (o : Nat) (w : α) : (l.filter (fun t => t.1 ≠ o) ++ [(o, w)]).lookup o = some w := by
  have hnone : (l.filter (fun t => t.1 ≠ o)).lookup o = none :=
    List.lookup_eq_none_iff.2 fun t ht => bne_iff_ne.2 (of_decide_eq_true (List.mem_filter.1 ht).2).symm
  rw [List.lookup_append, hnone]
  simp

section
variable (c : Chip) (o : Nat) {l : List (Nat × Desc)}

theorem Chip.words_takeAll (n : Nat) : ((c.takeAll o l).layer n).words = (c.layer n).words :=
  Chip.each_keeps (fun c => (c.layer n).words) c l fun c x _ => by
    rw [Chip.layer_takeDesc]
    split <;> rfl

/-- Every descriptor is taken, where one layer's are one. -/
theorem Chip.takenBy_takeAll {x : Nat × Desc} (hx : x ∈ l) (hone : ∀ y ∈ l, y.1 = x.1 → y.2 = x.2) :
    ((c.takeAll o l).layer x.1).takenBy o = some x.2 := by
  have htaken : ∀ (c : Chip) (y : Nat × Desc), y.1 = x.1 → y.2 = x.2 → ((c.takeDesc o y).layer x.1).takenBy o = some x.2 := fun c y hn hw => by
    rw [Chip.layer_takeDesc, if_pos hn.symm, ← hw]
    exact lookup_filter_append ..
  refine Chip.each_reaches (P := fun c => (c.layer x.1).takenBy o = some x.2) c hx (fun c => htaken c x rfl rfl) fun c y hy h => ?_
  by_cases hn : y.1 = x.1
  · exact htaken c y hn (hone y hy hn)
  · rw [Chip.layer_takeDesc, if_neg (Ne.symm hn)]
    exact h

/-! ### The chip once a commit has begun (R227, R230) -/

/-- Only registers show it. -/
theorem Chip.touches_showBuilding : c.touches (c.showBuilding o) fun a => ∃ d, a = ra d COMP PAGE_STATUS :=
  Chip.touches_trans
    (Chip.touches_foldl _ _ (c.gang o) c fun c d _ => Chip.touches_mono (c.touches_put d COMP PAGE_STATUS 15 8 0x02) fun _ h => ⟨d, h⟩)
    (Chip.touches_mono (Chip.touches_put _ o COMP PAGE_STATUS 1 1 _) fun _ h => ⟨o, h⟩)

theorem Chip.inflight_commitBegun : (c.commitBegun o l).inflight = c.inflight :=
  calc (c.commitBegun o l).inflight
      = ((c.takeAll o l).disarm o).inflight := Chip.touches_inflight (Chip.touches_showBuilding _ o)
    _ = c.inflight := Chip.each_keeps Chip.inflight c l fun _ _ _ => rfl

theorem Chip.layer_commitBegun (n : Nat) : (c.commitBegun o l).layer n = (c.takeAll o l).layer n :=
  Chip.layer_of_touches (Chip.touches_showBuilding _ o) n

theorem Chip.armedAt_commitBegun : ((c.commitBegun o l).out o).armedAt = none := by
  have hout : (c.commitBegun o l).out o = ((c.takeAll o l).disarm o).out o :=
    Chip.out_congr (Chip.touches_outs (Chip.touches_showBuilding _ o)) o
  rw [hout, Chip.disarm, Chip.out_setOut, if_pos rfl]

theorem Chip.state_setBusy (d p : Nat) (b : Bool) (e q : Nat) : (c.setBusy d p b).state e q = c.state e q :=
  c.get_put_beside d p PAGE_STATUS _ e q PAGE_STATUS (by decide) (by decide) (.inr (by decide))

theorem Chip.state_showBuilding {d : Nat} (hd : d ∈ c.gang o) : (c.showBuilding o).state d COMP = 2 := by
  unfold Chip.showBuilding
  rw [Chip.state_setBusy]
  refine Chip.each_reaches (P := fun c => c.state d COMP = 2) c hd (fun c => ?_) fun c e _ h => ?_
  · rw [c.state_setState d _ d (by decide) (by decide), if_pos ⟨rfl, rfl⟩]
  · rw [c.state_setState e _ d (by decide) (by decide), h, ite_self]

theorem Chip.state_commitBegun {d : Nat} (hd : d ∈ c.gang o) : (c.commitBegun o l).state d COMP = 2 := by
  have hgang : (c.takeAll o l).gang o = c.gang o := Chip.each_keeps (fun c => c.gang o) c l fun _ _ _ => rfl
  exact Chip.state_showBuilding _ o (hgang ▸ hd)

end

/-! ### The end of the drain (R234) -/

theorem onOutput_formed {s : State} {o : Nat} (h : s.chip.formed o = true) (f : State → State) : onOutput s o f = .next (f s) := by
  have hmember : o < dieCount s.chip.member := of_decide_eq_true (Bool.and_eq_true_iff.1 h).1
  rw [onOutput, if_pos hmember, if_pos h]

theorem State.up_eq_self {s : State} {f : Chip → Chip} (h : f s.chip = s.chip) : s.up f = s := State.up_congr (g := id) h

theorem exec_layoutArmed {s : State} {o : Nat} (h : s.chip.formed o = true) :
    exec (.layoutArmed o) s = .next (s.up fun c => c.layoutArmed o) :=
  onOutput_formed h fun s => s.up fun c => c.layoutArmed o

theorem exec_releaseDrainDone {s : State} {o : Nat} (h : s.chip.formed o = true) :
    exec (.releaseDrainDone o) s = .next (s.up fun c => c.drainDone o) :=
  onOutput_formed h fun s => s.up fun c => c.drainDone o

/-- The drain of an output is over, its released ranges are closed, and the RELEASE records are out. -/
def Chip.drained (c : Chip) (o : Nat) (y : Drain) : Chip :=
  (((c.setOut o { c.out o with draining := none }).compIdle o).closeRanges y.ranges).each y.told fun c n =>
    c.record o 0x03 false (leBytes 4 n ++ leBytes 4 y.frame.toNat ++ leBytes 4 y.id.toNat)

/-- A commit of the output has taken effect. -/
def commitInEffect (o : Nat) (q : Req) : Bool := isLayerCommit o q && q.started && q.pnr

section
variable {c : Chip} {o : Nat} {y : Drain} (hy : (c.out o).draining = some y)
include hy

theorem Chip.drainDone_waits (hw : c.stillWriting y.ranges = true) : c.drainDone o = c := by
  unfold Chip.drainDone
  dsimp only
  rw [hy]
  exact if_pos hw

theorem Chip.drainDone_ends (hw : c.stillWriting y.ranges = false) : c.drainDone o =
    (c.drained o y).each ((c.drained o y).reqs (commitInEffect o)) fun c r => c.finish r OK 0 (leBytes 4 y.frame.toNat) := by
  unfold Chip.drainDone
  dsimp only
  rw [hy]
  exact if_neg (ne_true_of_eq_false hw)

end

theorem Chip.outs_compIdle (c : Chip) (o : Nat) : (c.compIdle o).outs = c.outs :=
  Chip.each_keeps Chip.outs c (c.gang o) (f := fun c d => c.setState d COMP 0x01) fun _ _ _ => rfl

theorem Chip.outs_closeRanges (c : Chip) (l : List (Nat × Nat × Nat)) : (c.closeRanges l).outs = c.outs :=
  Chip.each_keeps Chip.outs c c.dies' fun _ _ _ => rfl

theorem Chip.draining_drained (c : Chip) (o : Nat) (y : Drain) : ((c.drained o y).out o).draining = none := by
  have houts : (c.drained o y).outs = (c.setOut o { c.out o with draining := none }).outs := by
    unfold Chip.drained
    rw [Chip.each_keeps Chip.outs _ _ fun c n _ => Chip.touches_outs (c.touches_record ..), Chip.outs_closeRanges, Chip.outs_compIdle]
  rw [Chip.out_congr houts, Chip.out_setOut, if_pos rfl]

theorem Chip.outs_finish (c : Chip) (r : Req) (st dt : Nat) (bs : List Byte) : (c.finish r st dt bs).outs = c.outs :=
  (congrArg Chip.outs (c.finish_eq r st dt bs)).trans rfl

/-- What is in flight after a completion: another command, or one that has nothing left to do (R146). -/
theorem Chip.inflight_finish_cases {c : Chip} {r q : Req} {st dt : Nat} {bs : List Byte} (hq : q ∈ (c.finish r st dt bs).inflight) :
    (q ∈ c.inflight ∧ q.id ≠ r.id) ∨ q.cmd = .wake := by
  unfold Chip.finish at hq
  split at hq
  · rw [Chip.inflight_reply] at hq
    exact .inl ⟨(List.mem_filter.1 hq).1, of_decide_eq_true (List.mem_filter.1 hq).2⟩
  · obtain ⟨x, hx, rfl⟩ := List.mem_map.1 hq
    by_cases hid : x.id = r.id
    · exact .inr (by rw [if_pos hid])
    · rw [if_neg hid]
      exact .inl ⟨hx, hid⟩

/-- Once every command that meets a test has completed, none in flight meets it. -/
theorem Chip.unmet_each_finish {p : Req → Bool} (hwake : ∀ q : Req, q.cmd = .wake → p q = false) (st dt : Nat) (bs : List Byte)
    (l : List Req) {c : Chip} (hl : ∀ q ∈ c.inflight, p q = true → ∃ r ∈ l, r.id = q.id) :
    ∀ q ∈ (c.each l fun c r => c.finish r st dt bs).inflight, p q = false := by
  induction l generalizing c with
  | nil => exact fun q hq => eq_false_of_ne_true fun hpq => by simpa using hl q hq hpq
  | cons r l ih =>
    refine ih (c := c.finish r st dt bs) fun q hq hpq => ?_
    rcases Chip.inflight_finish_cases hq with ⟨hq, hne⟩ | hw
    · obtain ⟨x, hx, hid⟩ := hl q hq hpq
      rcases List.mem_cons.1 hx with rfl | hx
      · exact absurd hid.symm hne
      · exact ⟨x, hx, hid⟩
    · rw [hwake q hw] at hpq
      exact absurd hpq Bool.false_ne_true

theorem commitInEffect_wake (o : Nat) {q : Req} (h : q.cmd = .wake) : commitInEffect o q = false := by
  unfold commitInEffect isLayerCommit
  rw [h]
  rfl

theorem layerCommitRuns : Claim.LayerCommitRuns := by
  refine ⟨fun s h o id => ?begins, fun s h o id ha hbasket => ?barred, fun s o hform hpend hdrain => ?armed,
    fun s o y hform hdrain => ⟨fun hw => ?waits, fun hw => ?ends⟩⟩
  case begins =>
    intro cmd ha hentry hfree hgang hdesc hline
    have hopen : ¬s.chip.commitBarred o s.chip.nextReq := by
      rintro (⟨q, hq, hcommit, -⟩ | hnone | ⟨d, hd, hout⟩)
      · exact Bool.false_ne_true ((hfree q hq).symm.trans hcommit)
      · exact Bool.false_ne_true (hnone.symm.trans hentry)
      · simp [hgang d hd] at hout
    refine ⟨(s.starts h cmd).up fun c => c.commitBegun o (s.chip.takes o), ?run, rfl, ?flight, Chip.armedAt_commitBegun .., fun x hx => ⟨?taken, ?words⟩,
      fun d hd => Chip.state_commitBegun _ o hd⟩
    case run =>
      rw [exec_admitted rfl ha, State.run_layerCommit _ rfl,
        State.layerCommit_begun (s := s.starts h cmd) (r := s.req h cmd) (mt (s.chip.commitBarred_taken h cmd o).1 hopen) hdesc hline]
      rfl
    case flight =>
      rw [State.up_chip, Chip.inflight_commitBegun]
      exact List.mem_append_right _ (List.mem_singleton_self _)
    case taken =>
      rw [State.up_chip, Chip.layer_commitBegun]
      refine Chip.takenBy_takeAll _ o hx fun y hy hn => ?_
      rw [Chip.desc_of_mem_takes hy, Chip.desc_of_mem_takes hx, hn]
    case words =>
      rw [State.up_chip, Chip.layer_commitBegun, Chip.words_takeAll]
      rfl
  case barred =>
    obtain ⟨d, hd, hnone⟩ := hbasket
    exact exec_layerCommit_barred ha (.inr (.inr ⟨d, hd, .inr (.inr hnone)⟩))
  case armed =>
    refine (exec_layoutArmed hform).trans (congrArg _ (State.up_congr ?_))
    exact if_pos ⟨hpend, Option.isNone_iff_eq_none.2 hdrain⟩
  case waits => rw [exec_releaseDrainDone hform, State.up_eq_self (Chip.drainDone_waits hdrain hw)]
  case ends =>
    refine ⟨_, exec_releaseDrainDone hform, rfl, ?_⟩
    rw [State.up_chip, Chip.drainDone_ends hdrain hw]
    refine ⟨?drain, Chip.unmet_each_finish (p := commitInEffect o) (fun q => commitInEffect_wake o) OK 0 _ _ fun q hq hp =>
      ⟨q, List.mem_filter.2 ⟨hq, hp⟩, rfl⟩⟩
    rw [Chip.out_congr (Chip.each_keeps Chip.outs _ _ fun c r _ => c.outs_finish r OK 0 _), Chip.draining_drained]

end Sys2Proof.Machine
end

section
/-! PROOFS. Fetches and faults of layers (O28; R235 to R237, R376). -/

namespace Sys2Proof.Machine

theorem onLayer_there {s : State} {d n : Nat} (h : isLayer s d n) (f : State → State) : onLayer s d n f = .next (f s) := if_pos h

/-! ### Fetches (R224, R226, R235) -/

/-- A layer with ALPHA 0, an output that does not compose, and a hidden tile have nothing fetched. -/
theorem Chip.not_fetches {c : Chip} {d n tx ty : Nat} (h : (c.layer n).words.alpha = 0 ∨ c.mode (c.layer n).words.output ≠ COMPOSE ∨
    tileHidden (c.layer n).words (((c.stack (c.layer n).words.output).dropWhile (fun x => x.1 ≠ n)).drop 1) tx ty = true) :
    c.fetches d n tx ty = false := by
  unfold Chip.fetches
  dsimp only
  rcases h with h | h | h
  · simp [h]
  · simp [h]
  · rw [h]; simp

theorem State.tileFetched_unneeded {s : State} {d n tx ty : Nat} (h : s.chip.fetches d n tx ty = false) : s.tileFetched d n tx ty = s :=
  if_neg fun hf => Bool.false_ne_true (h.symm.trans hf.1)

/-- A tile that verifies is kept for the frame. -/
theorem State.tileFetched_verified {s : State} {d n tx ty slot : Nat} {px : List Px} (hf : s.chip.fetches d n tx ty = true)
    (hslot : slot = (s.chip.layer n).words.show_ + ty * (s.chip.layer n).words.tw + tx) (hr : s.chip.reads d (slot % 2) = true)
    (hpx : readHamper (s.chip.slotBytes s.mem d (layerSlot slot)) n none = .ok px) :
    s.tileFetched d n tx ty = s.up fun c => c.setDie d { c.die d with fetched := KMap.set (c.die d).fetched (tileKey n tx ty) px } := by
  subst hslot
  unfold State.tileFetched
  dsimp only
  rw [if_pos ⟨hf, hr⟩, hpx]

/-! ### A notice (R238) -/

/-- A cause has arisen for a layer. -/
def Chip.noticed (c : Chip) (n cause : Nat) : Chip :=
  let y := c.layer n
  c.setLayer n { y with episodes := if y.episodes.contains cause then y.episodes else y.episodes ++ [cause],
                        thisFrame := if y.thisFrame.contains cause then y.thisFrame else y.thisFrame ++ [cause],
                        owed := y.owed || decide (cause ≤ 3) }

section
variable (c : Chip) (n cause frame : Nat)

theorem Chip.notice_eq : c.notice n cause frame = if (c.layer n).episodes.contains cause then c.noticed n cause
    else (c.noticed n cause).record (n / 512) 0x04 false (leBytes 2 n ++ leBytes 2 cause ++ leBytes 4 frame) := rfl

theorem Chip.touches_notice : (c.noticed n cause).touches (c.notice n cause frame) portReg := by
  rw [Chip.notice_eq]
  split
  · exact Chip.touches_refl ..
  · exact Chip.touches_record ..

theorem Chip.off_notice : ((c.notice n cause frame).layer n).off = (c.layer n).off := by
  rw [Chip.layer_of_touches (c.touches_notice n cause frame), Chip.noticed, Chip.layer_setLayer, if_pos rfl]

/-- The episode of the cause is open. -/
theorem Chip.mem_episodes_notice : cause ∈ ((c.notice n cause frame).layer n).episodes := by
  rw [Chip.layer_of_touches (c.touches_notice n cause frame), Chip.noticed, Chip.layer_setLayer, if_pos rfl]
  dsimp only
  split
  · next h => exact List.contains_iff_mem.1 h
  · exact List.mem_append_right _ (List.mem_singleton_self _)

theorem Chip.die_notice (d : Nat) : (c.notice n cause frame).die d = c.die d := by
  unfold Chip.die
  rw [Chip.touches_dies (c.touches_notice n cause frame)]
  rfl

theorem Chip.reg_notice (e : Nat) {q r : Nat} (h : quiet q r = true) : (c.notice n cause frame).reg e q r = c.reg e q r :=
  Chip.touches_reg (c.touches_notice n cause frame) e q r fun hp => not_eventReg_of_quiet h e 0 0 (.inr (.inr hp))

/-! ### Switching a layer off (R236) -/

/-- Offset of the register that holds a layer's LAYER_OFF bit. -/
def layerOffReg (n : Nat) : Nat := COMP.LAYER_OFF + 4 * (n % 512 / 32)

theorem quiet_layerOff : quiet COMP (layerOffReg n) = true := by
  unfold layerOffReg
  simp only [quiet, Bool.and_eq_true, decide_eq_true_eq, COMP.LAYER_OFF, COMP, PORT_SVC, PORT_INB, PAGE_EVENT, PAGE_EVENT_LOST]
  omega

theorem apart_layerOff : apart COMP COMP.UNDERRUN_COUNT COMP (layerOffReg n) = true :=
  apart_of_ne (by decide) (by decide) (by decide) (bounds_of_quiet (quiet_layerOff n)).2
    (.inr (by unfold layerOffReg COMP.UNDERRUN_COUNT COMP.LAYER_OFF; omega))

/-- A layer's LAYER_OFF bit sets on the die that owns it, with its event. -/
def Chip.showOff (c : Chip) (n : Nat) : Chip :=
  if c.flag (n / 512) COMP (layerOffReg n) (n % 32) then c
  else (c.put (n / 512) COMP (layerOffReg n) (n % 32) (n % 32) 1).event (n / 512) COMP 2

theorem Chip.flag_showOff : (c.showOff n).flag (n / 512) COMP (layerOffReg n) (n % 32) = true := by
  unfold Chip.showOff
  split
  · assumption
  · rw [Chip.flag, Chip.reg_event_quiet _ _ _ (quiet_layerOff n), ← Chip.flag, Chip.flag_put _ _ _ _ _ _ (Nat.mod_lt _ (by decide)),
      if_pos rfl]
    rfl

theorem Chip.touches_showOff : c.touches (c.showOff n) fun a => a = ra (n / 512) COMP (layerOffReg n) ∨ eventReg (n / 512) COMP a := by
  unfold Chip.showOff
  split
  · exact Chip.touches_refl ..
  · exact Chip.touches_trans (Chip.touches_mono (c.touches_put ..) fun _ h => .inl h)
      (Chip.touches_mono (Chip.touches_event ..) fun _ h => .inr h)

end

/-- A layer is off on a die from a line on. -/
def Chip.offFrom (c : Chip) (d n line : Nat) : Chip :=
  let c := c.setDie d { c.die d with offLayers := KMap.set (c.die d).offLayers n (min line (KMap.getD (c.die d).offLayers n line)) }
  c.setLayer n { c.layer n with off := true }

/-- The parts of a switch-off. -/
theorem Chip.switchOff_eq (c : Chip) (d n line cause : Nat) :
    ∃ frame, c.switchOff d n line cause = ((c.offFrom d n line).showOff n).notice n cause frame :=
  ⟨_, rfl⟩

/-- A layer is off on a die from a line on, its LAYER_OFF bit is set, and the episode of a cause is open (R236, R238). -/
structure Chip.shownOff (c : Chip) (d n line cause : Nat) : Prop where
  off : (c.layer n).off = true
  line : KMap.get? (c.die d).offLayers n = some line
  flag : c.flag (n / 512) COMP (layerOffReg n) (n % 32) = true
  episode : cause ∈ (c.layer n).episodes

section
variable (c : Chip) (d n line : Nat)

theorem Chip.shownOff_switchOff (cause : Nat) (h : line ≤ KMap.getD (c.die d).offLayers n line) :
    (c.switchOff d n line cause).shownOff d n line cause := by
  obtain ⟨frame, heq⟩ := c.switchOff_eq d n line cause
  rw [heq]
  refine ⟨?off, ?line, ?flag, Chip.mem_episodes_notice ..⟩
  case off =>
    rw [Chip.off_notice, Chip.layer_of_touches (Chip.touches_showOff ..), Chip.offFrom, Chip.layer_setLayer, if_pos rfl]
  case line =>
    have hdie : ((c.offFrom d n line).showOff n).die d = (c.offFrom d n line).die d := by
      unfold Chip.die
      rw [Chip.touches_dies (Chip.touches_showOff ..)]
    have hoff : (c.offFrom d n line).die d =
        { c.die d with offLayers := KMap.set (c.die d).offLayers n (min line (KMap.getD (c.die d).offLayers n line)) } :=
      (c.die_setDie d _ d).trans (if_pos rfl)
    rw [Chip.die_notice, hdie, hoff, KMap.get?_set, if_pos rfl, min_eq_left h]
  case flag =>
    rw [Chip.flag, Chip.reg_notice _ _ _ _ _ (quiet_layerOff n)]
    exact Chip.flag_showOff ..

theorem Chip.underrunCount_switchOff (cause : Nat) :
    (c.switchOff d n line cause).num d COMP COMP.UNDERRUN_COUNT = c.num d COMP COMP.UNDERRUN_COUNT := by
  obtain ⟨frame, heq⟩ := c.switchOff_eq d n line cause
  have hquiet : quiet COMP COMP.UNDERRUN_COUNT = true := by decide
  have hshow : ((c.offFrom d n line).showOff n).reg d COMP COMP.UNDERRUN_COUNT = (c.offFrom d n line).reg d COMP COMP.UNDERRUN_COUNT :=
    Chip.touches_reg (Chip.touches_showOff ..) d COMP _ (not_or.2 ⟨ra_ne_of_apart (apart_layerOff n) _ _, not_eventReg_of_quiet hquiet _ _ _⟩)
  rw [heq, Chip.num, Chip.reg_notice _ _ _ _ _ hquiet, hshow]
  rfl

/-! ### Underruns (R237) -/

theorem Chip.shownOff_underrun (h : line ≤ KMap.getD (c.die d).offLayers n line) : (c.underrun d n line).shownOff d n line 3 :=
  Chip.shownOff_switchOff _ d n line 3 h

theorem Chip.underrunCount_underrun :
    (c.underrun d n line).num d COMP COMP.UNDERRUN_COUNT = min 0xFFFFFFFF (c.num d COMP COMP.UNDERRUN_COUNT + 1) :=
  (Chip.underrunCount_switchOff _ d n line 3).trans (c.num_count d COMP COMP.UNDERRUN_COUNT)

/-- A layer that is off from a line on stays so when further tiles of the line are missing. -/
theorem Chip.shownOff_again {c : Chip} {d n line : Nat} (h : c.shownOff d n line 3) : (c.underrun d n line).shownOff d n line 3 :=
  c.shownOff_underrun d n line (le_of_eq (by rw [KMap.getD, h.line]; rfl))

variable {l : List Nat} (hl : ∀ m ∈ l, m = n)
include hl

theorem Chip.shownOff_each_underrun (hne : l ≠ []) (h : line ≤ KMap.getD (c.die d).offLayers n line) :
    (c.each l fun c n => c.underrun d n line).shownOff d n line 3 := by
  obtain ⟨m, l, rfl⟩ := List.exists_cons_of_ne_nil hne
  obtain rfl := hl m (List.mem_cons_self ..)
  refine Chip.each_preserves (P := fun c => c.shownOff d m line 3) (c := c.underrun d m line) (fun c x hx hc => ?_)
    (c.shownOff_underrun d m line h)
  obtain rfl := hl x (List.mem_cons_of_mem _ hx)
  exact Chip.shownOff_again hc

/-- Each missing tile counts. -/
theorem Chip.underrunCount_each_underrun : (c.each l fun c n => c.underrun d n line).num d COMP COMP.UNDERRUN_COUNT =
    min 0xFFFFFFFF (c.num d COMP COMP.UNDERRUN_COUNT + l.length) := by
  induction l generalizing c with
  | nil => exact (min_eq_right (Nat.le_of_lt_succ (c.num_lt ..))).symm
  | cons m l ih =>
    refine (ih (c := c.underrun d m line) fun x hx => hl x (List.mem_cons_of_mem _ hx)).trans ?_
    rw [Chip.underrunCount_underrun, List.length_cons]
    omega

end

/-- A layer whose tile is missing on a line is not off there yet (R236). -/
theorem Chip.le_offLine_of_missing {c : Chip} {o d line n : Nat} (h : n ∈ c.missing o d line) :
    line ≤ KMap.getD (c.die d).offLayers n line := by
  obtain ⟨t, ht, rfl⟩ := List.mem_map.1 h
  have hon : (c.die d).isOff t.1 line = false := by
    have htest := (List.mem_filter.1 ht).2
    simp only [Bool.and_eq_true, Bool.not_eq_true'] at htest
    exact htest.1.2
  unfold DieSt.isOff at hon
  unfold KMap.getD
  cases hoff : KMap.get? (c.die d).offLayers t.1 with
  | none => exact le_rfl
  | some l =>
    rw [hoff] at hon
    exact (Nat.lt_of_not_le (of_decide_eq_false hon)).le

/-- The missing tiles of a layer on a line switch it off from that line on, and each of them counts (R237). -/
theorem Chip.missing_switchesOff {c : Chip} {o d line n : Nat} (hk : 0 < ((c.missing o d line).filter (fun m => m = n)).length) :
    let c' := c.each ((c.missing o d line).filter (fun m => m = n)) fun c n => c.underrun d n line
    c'.shownOff d n line 3 ∧ c'.num d COMP COMP.UNDERRUN_COUNT =
      min 0xFFFFFFFF (c.num d COMP COMP.UNDERRUN_COUNT + ((c.missing o d line).filter (fun m => m = n)).length) := by
  have hall : ∀ m ∈ (c.missing o d line).filter (fun m => m = n), m = n := fun m hm => of_decide_eq_true (List.mem_filter.1 hm).2
  have hmissing : n ∈ c.missing o d line := by
    obtain ⟨m, hm⟩ := List.exists_mem_of_length_pos hk
    have hmem := (List.mem_filter.1 hm).1
    rwa [hall m hm] at hmem
  exact ⟨c.shownOff_each_underrun d n line hall (List.ne_nil_of_length_pos hk) (Chip.le_offLine_of_missing hmissing),
    c.underrunCount_each_underrun d n line hall⟩

/-! ### The rows -/

theorem exec_tileFetchDone {s : State} {d n tx ty : Nat} (hd : isLayer s d n) :
    exec (.tileFetchDone d n tx ty) s = .next (s.tileFetched d n tx ty) := onLayer_there hd fun s => s.tileFetched d n tx ty

theorem exec_compUnderrun {s : State} {d n : Nat} (hd : isLayer s d n) (hentry : s.chip.hasEntry (s.chip.layer n).words.output = true)
    (hlead : s.chip.leadOf d = (s.chip.layer n).words.output) (hmode : s.chip.mode (s.chip.layer n).words.output = COMPOSE) :
    let o := (s.chip.layer n).words.output
    exec (.compUnderrun d n) s = .next (s.up fun c => c.each ((s.chip.missing o d (s.chip.nextCompose o)).filter (fun m => m = n))
      fun c n => c.underrun d n (s.chip.nextCompose o)) := by
  show execCompUnderrun d n s = _
  unfold execCompUnderrun
  rw [onLayer_there hd]
  exact congrArg _ (State.up_congr (if_pos ⟨hentry, hlead, hmode⟩))

theorem layerFetches : Claim.LayerFetches := by
  intro s d n hd
  refine ⟨fun tx ty px => ⟨fun hf hr hpx => ?verified, fun hunneeded => ?unneeded⟩, fun hoff hlead hnone => ?notice,
    fun w hw hentry hlead hmode => ?underrun, fun tx ty => onLayer_there hd fun s => s.up fun c => c.endResend n tx ty⟩
  case verified => rw [exec_tileFetchDone hd, State.tileFetched_verified hf rfl hr hpx]
  case unneeded => rw [exec_tileFetchDone hd, State.tileFetched_unneeded (Chip.not_fetches hunneeded)]
  case notice =>
    show execLayerOffNotice d n s = _
    unfold execLayerOffNotice
    rw [onLayer_there hd]
    exact congrArg _ (State.up_congr (if_pos ⟨hoff, hlead, Option.isNone_iff_eq_none.2 hnone⟩))
  case underrun =>
    subst hw
    intro k hk
    obtain ⟨⟨hoff, hline, hflag, hepisode⟩, hcount⟩ := Chip.missing_switchesOff hk
    exact ⟨_, exec_compUnderrun hd hentry hlead hmode, State.up_mem .., hoff, hline, hflag, hepisode, hcount⟩

end Sys2Proof.Machine
end

section
/-! PROOFS. The freeze watch, and with it the statement on LAYER_COMMIT, fetches and freezing (O28; R296). -/

namespace Sys2Proof.Machine

/-- The digest of a frame is the one before (R241, R296). -/
def Chip.digestSame (c : Chip) (n : Nat) (frame : Word) : Chip :=
  let y := c.layer n
  let raise_ := decide (y.words.freezeN ≤ y.freeze + 1) && !y.frozen
  let c := c.setLayer n { y with closed := none, freeze := y.freeze + 1, frozen := y.frozen || raise_ }
  if raise_ then (c.record (n / 512) 0x05 false (leBytes 4 n ++ leBytes 4 frame.toNat)).event (n / 512) COMP 6 else c

/-- It is another one. -/
def Chip.digestNew (c : Chip) (n : Nat) (g : Word) : Chip :=
  c.setLayer n { c.layer n with closed := none, digest := some g, freeze := 0, frozen := false }

/-- The digest of a whole frame of a watched layer is compared with the one before. -/
theorem exec_freezeDigest {s : State} {n base : Nat} {frame : Word} (hn : n < layerCount s.chip.member)
    (hclosed : (s.chip.layer n).closed = some (frame, true, base)) (hwatched : (s.chip.layer n).words.watched = true)
    (hentry : s.chip.hasEntry (s.chip.layer n).words.output = true) :
    let g := s.chip.layerDigest s.mem (s.chip.layer n).words base
    exec (.freezeDigest n) s = .next
      (s.up fun c => if (s.chip.layer n).digest = some g then c.digestSame n frame else c.digestNew n g) := by
  refine (if_pos hn : execFreezeDigest n s = _).trans (congrArg _ ?_)
  unfold State.freezeDigest
  dsimp only
  rw [hclosed]
  dsimp only
  rw [hwatched, if_neg (by decide), if_pos ⟨rfl, hentry⟩]
  rfl

section
variable {c : Chip} {n : Nat} (frame : Word)

/-- Below FREEZE_N it only counts. -/
theorem Chip.digestSame_counts (h : (c.layer n).freeze + 1 < (c.layer n).words.freezeN) :
    c.digestSame n frame = c.setLayer n { c.layer n with closed := none, freeze := (c.layer n).freeze + 1 } := by
  have hraise : decide ((c.layer n).words.freezeN ≤ (c.layer n).freeze + 1) = false := decide_eq_false (Nat.not_le.2 h)
  unfold Chip.digestSame
  simp [hraise]

/-- From FREEZE_N on the layer freezes, and tells of it. -/
theorem Chip.digestSame_freezes (h : (c.layer n).words.freezeN ≤ (c.layer n).freeze + 1) (hopen : (c.layer n).frozen = false) :
    c.digestSame n frame = ((c.setLayer n { c.layer n with closed := none, freeze := (c.layer n).freeze + 1, frozen := true }).record
      (n / 512) 0x05 false (leBytes 4 n ++ leBytes 4 frame.toNat)).event (n / 512) COMP 6 := by
  unfold Chip.digestSame
  simp [h, hopen]

end

theorem freezeDigests : Claim.FreezeDigests := by
  intro s n base frame hn y g hclosed hwatched hentry
  have hexec := exec_freezeDigest hn hclosed hwatched hentry
  refine ⟨fun hnew => ?new, fun hsame hcount => ?counts, fun hsame hreached hopen => ?freezes⟩
  case new => exact hexec.trans (congrArg _ (State.up_congr (if_neg hnew)))
  case counts => exact hexec.trans (congrArg _ (State.up_congr ((if_pos hsame).trans (Chip.digestSame_counts frame hcount))))
  case freezes => exact hexec.trans (congrArg _ (State.up_congr ((if_pos hsame).trans (Chip.digestSame_freezes frame hreached hopen))))

/-- Settles O28: a commit begins, is armed and ends with its drain; each missing tile of a line switches its layer off from the same
line; the watch compares the digest with the one before. -/
theorem layerCommits : Obligations.LayerCommits := ⟨layerCommitRuns, layerFetches, freezeDigests⟩

end Sys2Proof.Machine
end

section
/-! PROOFS. The panel stages at their neutral settings, and the codes of the dither (O39; R249, R258, R262 to R264). -/

namespace Sys2Proof.Machine

/-! ### Neutral settings (R249, R258, R262) -/

/-- A grid without deltas leaves a code. -/
theorem overdrive_of_zero {bank : Array Byte} {ch : Nat} (h : ∀ i j, odNode bank ch i j = 0) (prev : Nat) {cur : Nat} (hcur : cur < 4096) :
    overdrive bank ch prev cur = cur := by
  unfold overdrive
  simp only [h, zero_mul, add_zero, zero_add]
  omega

/-- The weights of the four samples add up to 256. -/
theorem demura_weights {wx wy : Nat} (hx : wx ≤ 16) (hy : wy ≤ 16) :
    (16 - wx) * (16 - wy) + wx * (16 - wy) + (16 - wx) * wy + wx * wy = 256 := by
  calc (16 - wx) * (16 - wy) + wx * (16 - wy) + (16 - wx) * wy + wx * wy
      = ((16 - wx) + wx) * ((16 - wy) + wy) := by ring
    _ = 256 := by rw [Nat.sub_add_cancel hx, Nat.sub_add_cancel hy]

/-- Samples of gain 1 and offset 0 leave a code. -/
theorem demura_of_identity {v wx wy : Nat} (hv : v < 4096) (hx : wx ≤ 16) (hy : wy ≤ 16) :
    demura v (0x4000, 0) (0x4000, 0) (0x4000, 0) (0x4000, 0) wx wy = v := by
  have hgain : (16 - wx) * (16 - wy) * 0x4000 + wx * (16 - wy) * 0x4000 + (16 - wx) * wy * 0x4000 + wx * wy * 0x4000 = 2 ^ 22 := by
    rw [← Nat.add_mul, ← Nat.add_mul, ← Nat.add_mul, demura_weights hx hy]
    rfl
  unfold demura
  simp only [hgain, mul_zero, add_zero, zero_mul]
  omega

/-- A line without defect entries keeps its codes. -/
theorem maskCh_nil (col ch : Nat) {v : Nat} (hv : v < 4096) : maskCh [] col ch v = v := by
  simp only [maskCh, List.any_nil, List.foldl_nil, Bool.false_eq_true, if_false]
  omega

/-! ### Driver codes (R263) -/

theorem ditherCh_truncate (n g t : Nat) : ditherCh n 2 g t = g / 2 ^ (16 - n) := by
  unfold ditherCh; exact if_pos rfl

/-- The upper bits of a 16-bit value are a code of the driver's depth. -/
theorem div_lt_depth {n g : Nat} (hn : n ≤ 16) (hg : g < 65536) : g / 2 ^ (16 - n) < 2 ^ n := by
  refine Nat.div_lt_of_lt_mul ?_
  rwa [← Nat.pow_add, Nat.sub_add_cancel hn]

theorem ditherCh_lt {n g : Nat} (hn : n ≤ 16) (hg : g < 65536) (mode t : Nat) : ditherCh n mode g t < 2 ^ n := by
  have hpos : 0 < 2 ^ n := Nat.two_pow_pos n
  unfold ditherCh
  split
  · exact div_lt_depth hn hg
  · exact (min_le_left _ _).trans_lt (Nat.sub_lt hpos Nat.one_pos)

/-- Settles O39: what each stage gives at its neutral setting, and the bound on the codes of the dither. -/
theorem panelStageLaws : Obligations.PanelStageLaws :=
  ⟨fun _ _ prev _ h hcur => overdrive_of_zero h prev hcur, fun _ _ _ hv hx hy => demura_of_identity hv hx hy,
    fun col ch _ hv => maskCh_nil col ch hv, fun _ mode _ t hn hg => ditherCh_lt hn hg mode t, ditherCh_truncate⟩

end Sys2Proof.Machine
end

section
/-! PROOFS. The overdrive bank that a gang uses, and with it the statement on a pinned bank (O40; R250 to R252). -/

namespace Sys2Proof.Machine

/-! ### Sets of several event bits (R152) -/

/-- One set of a PAGE_EVENT bit, as `Chip.setEvents` makes them one after another. -/
def setEvent (d p : Nat) (x : Chip × Nat) (b : Nat) : Chip × Nat :=
  let w := x.1.num d p PAGE_EVENT
  if w.testBit b then (x.1.count d p PAGE_EVENT_LOST, x.2) else (x.1.setNum d p PAGE_EVENT (w ||| 2 ^ b), x.2 ||| 2 ^ b)

theorem Chip.setEvents_fst (c : Chip) (d p : Nat) (sets : List Nat) :
    (c.setEvents d p sets).1 = (sets.foldl (setEvent d p) (c, 0)).1 := rfl

section
variable {d p : Nat} (hp : p < 0x1000)
include hp

theorem testBit_setEvent (x : Chip × Nat) {b : Nat} (hb : b < 32) (a : Nat) :
    ((setEvent d p x b).1.num d p PAGE_EVENT).testBit a = ((x.1.num d p PAGE_EVENT).testBit a || decide (a = b)) := by
  have hlost : apart p PAGE_EVENT p PAGE_EVENT_LOST = true :=
    apart_of_ne hp (by decide) hp (by decide) (.inr (by decide))
  unfold setEvent
  dsimp only
  split
  · next hset =>
    have hword : (x.1.count d p PAGE_EVENT_LOST).num d p PAGE_EVENT = x.1.num d p PAGE_EVENT :=
      congrArg BitVec.toNat (x.1.reg_setNum_apart d d hlost _)
    rw [hword]
    by_cases h : a = b
    · rw [h, hset]; rfl
    · simp [h]
  · rw [Chip.num_setNum _ _ _ _ (Nat.or_lt_two_pow (x.1.num_lt ..) (Nat.pow_lt_pow_right (by decide) hb)), Nat.testBit_or,
      Nat.testBit_two_pow]
    simp only [eq_comm]

/-- After sets of several bits each of them is 1, and every other bit is as it was. -/
theorem Chip.testBit_setEvents (c : Chip) {sets : List Nat} (hsets : ∀ b ∈ sets, b < 32) (a : Nat) :
    ((c.setEvents d p sets).1.num d p PAGE_EVENT).testBit a = ((c.num d p PAGE_EVENT).testBit a || decide (a ∈ sets)) := by
  rw [Chip.setEvents_fst]
  suffices h : ∀ x : Chip × Nat, ((sets.foldl (setEvent d p) x).1.num d p PAGE_EVENT).testBit a =
      ((x.1.num d p PAGE_EVENT).testBit a || decide (a ∈ sets)) from h (c, 0)
  induction sets with
  | nil => simp
  | cons b sets ih =>
    intro x
    rw [List.foldl_cons, ih fun e he => hsets e (List.mem_cons_of_mem _ he), testBit_setEvent hp x (hsets b (List.mem_cons_self ..)),
      Bool.or_assoc]
    simp only [List.mem_cons, Bool.decide_or]

/-- The record that tells of the sets leaves PAGE_EVENT, on any page but the ports' (R128, R130). -/
theorem Chip.pageEvent_events (c : Chip) (hport : p ≠ PORT_SVC ∧ p ≠ PORT_INB) (sets : List Nat) :
    (c.events d p sets).reg d p PAGE_EVENT = (c.setEvents d p sets).1.reg d p PAGE_EVENT := by
  have hnot : ¬portReg (ra d p PAGE_EVENT) := by
    rintro (⟨h, -⟩ | ⟨h, -⟩) <;> rw [pageOf_ra d p PAGE_EVENT hp (by decide)] at h
    · exact hport.1 h
    · exact hport.2 h
  unfold Chip.events
  dsimp only
  split
  · rfl
  · split
    · exact Chip.touches_reg (Chip.touches_joinRecord _ d p _ portReg) d p PAGE_EVENT hnot
    · exact (Chip.touches_reg (Chip.touches_record ..) d p PAGE_EVENT hnot).trans rfl

/-- A bit that a block sets is 1 afterwards. -/
theorem Chip.flag_events (c : Chip) (hport : p ≠ PORT_SVC ∧ p ≠ PORT_INB) {sets : List Nat} (hsets : ∀ b ∈ sets, b < 32) {a : Nat}
    (ha : a ∈ sets) : (c.events d p sets).flag d p PAGE_EVENT a = true := by
  rw [Chip.flag, c.pageEvent_events hp hport]
  exact (c.testBit_setEvents hp hsets a).trans (by simp [ha])

end

/-! ### The bank of a gang (R250 to R252) -/

/-- The bank that the lead computes at a frame boundary, pinned or not. -/
def Chip.chosenBank (c : Chip) (o : Nat) : Nat :=
  match c.panelTemp o with
  | some v => selectBank (fun k => signed 8 (c.get o PANEL_OD OD.TEMP_POINTS (8 * k + 7) (8 * k))) v (c.get o PANEL_OD OD.STATUS 9 8)
  | none => c.get o PANEL_OD OD.CTRL 9 8

/-- Every die of the gang takes a bank. -/
def Chip.useBank (c : Chip) (o bank : Nat) : Chip := c.each (c.gang o) fun c d => c.put d PANEL_OD OD.STATUS 9 8 bank

/-- The lead shows a panel temperature. -/
def Chip.showTemp (c : Chip) (o : Nat) : Option Int → Chip
  | some v => c.put o PANEL_OD OD.STATUS 23 16 (unsigned 8 v)
  | none => c

/-- The PAGE_EVENT bits of a selection: BANK_CHANGE, NO_TEMP and PIN_ALARM. -/
def Chip.bankEvents (c : Chip) (o bank : Nat) : List Nat :=
  (if bank ≠ c.get o PANEL_OD OD.STATUS 9 8 then [2] else []) ++ (if (c.panelTemp o).isNone then [3] else []) ++
    if c.flag o PANEL_OD OD.CTRL 3 ∧ c.chosenBank o ≠ bank then [4] else []

/-- With PIN set the gang uses PIN_BANK (R252). -/
theorem Chip.bankSelect_pinned {c : Chip} {o : Nat} (h : c.flag o PANEL_OD OD.CTRL 3 = true) :
    c.bankSelect o = ((c.useBank o (c.get o PANEL_OD OD.CTRL 5 4)).showTemp o (c.panelTemp o)).events o PANEL_OD
      (c.bankEvents o (c.get o PANEL_OD OD.CTRL 5 4)) := by
  have hbank : (if c.flag o PANEL_OD OD.CTRL 3 then c.get o PANEL_OD OD.CTRL 5 4 else c.chosenBank o) = c.get o PANEL_OD OD.CTRL 5 4 :=
    if_pos h
  rw [← hbank]
  rfl

/-- After a write of a field it reads the same on that die whatever was written, and on every other die as before. -/
theorem Chip.get_put_of_die (c : Chip) (d p o : Nat) {hi lo : Nat} (v e : Nat) (hp : p < 0x1000) (ho : o < 0x1000) (hlo : lo ≤ hi)
    (hhi : hi < 32) : (c.put d p o hi lo v).get e p o hi lo = if e = d then v % 2 ^ (hi + 1 - lo) else c.get e p o hi lo := by
  split
  · next h => rw [h]; exact c.get_put d p o v hlo hhi
  · next h =>
    refine Chip.get_congr ?_ hi lo
    rw [Chip.put_eq, Chip.reg_setReg, if_neg fun hra => h ((ra_inj hp ho hp ho).1 hra).1]

theorem Chip.bank_useBank (c : Chip) {o bank d : Nat} (hbank : bank < 4) (hd : d ∈ c.gang o) :
    (c.useBank o bank).get d PANEL_OD OD.STATUS 9 8 = bank := by
  have hput : ∀ (c : Chip) (y e : Nat), (c.put y PANEL_OD OD.STATUS 9 8 bank).get e PANEL_OD OD.STATUS 9 8 =
      if e = y then bank else c.get e PANEL_OD OD.STATUS 9 8 := fun c y e =>
    (c.get_put_of_die y PANEL_OD OD.STATUS bank e (by decide) (by decide) (by decide) (by decide)).trans
      (by rw [Nat.mod_eq_of_lt (show bank < 2 ^ (9 + 1 - 8) from hbank)])
  refine Chip.each_reaches (P := fun c => c.get d PANEL_OD OD.STATUS 9 8 = bank) c hd (fun c => (hput c d d).trans (if_pos rfl))
    fun c y _ hc => (hput c y d).trans ?_
  rw [hc, ite_self]

theorem Chip.bank_showTemp (c : Chip) (o : Nat) (t : Option Int) (d : Nat) :
    (c.showTemp o t).get d PANEL_OD OD.STATUS 9 8 = c.get d PANEL_OD OD.STATUS 9 8 := by
  cases t with
  | none => rfl
  | some v => exact c.get_put_beside o PANEL_OD OD.STATUS _ d PANEL_OD OD.STATUS (by decide) (by decide) (.inl (by decide))

theorem Chip.bankEvents_lt (c : Chip) (o bank : Nat) : ∀ b ∈ c.bankEvents o bank, b < 32 := by
  intro b hb
  simp only [Chip.bankEvents, List.mem_append, List.mem_ite_nil_right, List.mem_singleton] at hb
  omega

/-- Settles O40: a pinned gang takes PIN_BANK on every die, and the lead sets PIN_ALARM while it computes another bank. -/
theorem pinnedBank : Obligations.PinnedBank := by
  intro c o hpin _ pin pts chosen
  have hlt : pin < 4 := Nat.mod_lt _ (by decide)
  rw [Chip.bankSelect_pinned hpin]
  refine ⟨fun d hd => ?bank, fun hother => ?alarm⟩
  case bank =>
    rw [Chip.get_congr (Chip.reg_events_quiet _ o d (by decide) PANEL_OD _), Chip.bank_showTemp, c.bank_useBank hlt hd]
  case alarm =>
    have halarm : 4 ∈ c.bankEvents o pin := List.mem_append_right _ (by rw [if_pos ⟨hpin, hother⟩]; exact List.mem_singleton_self 4)
    exact Chip.flag_events (by decide) _ (by decide) (c.bankEvents_lt o pin) halarm

end Sys2Proof.Machine
end

section
/-! PROOFS. Loading panel tables, and the step point of a panel page, and with them the statement on loads that meet a commit (O41;
R265 to R268, R272). -/

namespace Sys2Proof.Machine

theorem Chip.dies_setNum (c : Chip) (d p o v : Nat) : (c.setNum d p o v).dies = c.dies := rfl
theorem Chip.dies_setState (c : Chip) (d p v : Nat) : (c.setState d p v).dies = c.dies := rfl
theorem Chip.dies_noteReady (old c : Chip) (d : Nat) : (Chip.noteReady old c d).dies = c.dies := touches_dies (touches_noteReady old c d)
theorem Chip.dies_setReady (c : Chip) (d p : Nat) (b : Bool) : (c.setReady d p b).dies = c.dies := touches_dies (c.touches_setReady d p b)

theorem Chip.dies_notePanel (c : Chip) (d : Nat) : (c.notePanel d).dies = c.dies := by
  unfold Chip.notePanel
  rw [dies_setState, dies_setState, dies_noteReady, dies_put, dies_put, dies_put, dies_put, dies_setNum, dies_setNum, dies_setNum,
    dies_put, dies_put]

/-! ### TABLE_LOAD (R265, R268) -/

theorem State.run_tableLoad (s : State) {r : Req} {t b source : Nat} {a : Word} {n : Nat} (hr : r.cmd = .tableLoad t b source a n) :
    s.run r = s.up fun c => c.tableLoad r t := by
  unfold State.run; rw [hr]

/-- An admitted TABLE_LOAD is judged by the lead's pending commits and the die's room for the table. -/
theorem exec_tableLoad {s : State} {h : Hdr} {t b source : Nat} {a : Word} {n : Nat}
    (ha : s.chip.admits h (.tableLoad t b source a n)) :
    exec (.tableLoad h t b source a n) s = .next ((s.starts h (.tableLoad t b source a n)).up fun c =>
      c.tableLoad (s.req h (.tableLoad t b source a n)) t) :=
  (exec_admitted rfl ha).trans (congrArg _ (State.run_tableLoad _ rfl))

section
variable {c : Chip} {r : Req} {t : Nat}

theorem Chip.tableLoad_busy (h : c.committing (c.leadOf r.die) (tablePage t) = true) : c.tableLoad r t = c.done r BUSY := if_pos h

/-- With no commit pending, and room for the table, the load stays in flight. -/
theorem Chip.tableLoad_stays (h : c.committing (c.leadOf r.die) (tablePage t) = false)
    (hmap : t = 2 → c.serving r.die 0 = true ∨ c.serving r.die 1 = true) (hroom : t ≠ 2 → c.ownsBasket r.die 4 = true) :
    c.tableLoad r t = c := by
  unfold Chip.tableLoad
  dsimp only
  rw [if_neg (by simp [h]), if_neg, if_neg]
  · rintro ⟨ht, hno⟩
    simp [hroom ht] at hno
  · rintro ⟨ht, h0, h1⟩
    rcases hmap ht with hs | hs <;> simp [hs] at h0 h1

end

/-! ### The end of a load (R266) -/

/-- An image from flash that passes every check is taken, and the command completes with OK: no basket word is read for it. -/
theorem State.tableLoadDone_taken {s : State} {d t b n : Nat} {a : Word} {r : Req} {img : Image}
    (hr : (s.chip.reqs (fun r => isTableLoad d r && r.started)).head? = some r) (hcmd : r.cmd = .tableLoad t b 0 a n)
    (himg : s.chip.readImage d t b n (((s.chip.die d).partialMap.map (fun m => m.rows)).getD 0)
      (s.mem.flashBytes s.chip.fresh a.toNat n) = some img) :
    s.tableLoadDone d false = (s.takeImage d (tablePage t) img).up fun c => (c.notePanel d).done r OK := by
  have hwords : (if (0 : Nat) = 0 then [] else wordAddrs a.toNat ((n + 3) / 4)) = [] := if_pos rfl
  have hread : (s.chip.wantWords 1 d []).checkWords d [] = (s.chip, true) := rfl
  have hsame : (s.up fun _ => if (true : Bool) then s.chip else s.chip.latchCode d BASKET 2) = s := rfl
  have hquiet : ∀ f, s.when (!true) f = s := fun _ => rfl
  unfold State.tableLoadDone
  dsimp only
  rw [hr]
  dsimp only
  rw [hcmd]
  dsimp only
  rw [hwords, hread]
  dsimp only
  rw [hsame, hquiet, if_neg (by decide), if_pos rfl, himg]

theorem exec_tableLoadDone {s : State} {d : Nat} (hd : d < dieCount s.chip.member) :
    exec (.tableLoadDone d false) s = .next (s.tableLoadDone d false) := if_pos hd

/-! ### Where an image goes (R266, R268, R272) -/

/-- Only a demura map is loaded in rows. -/
def Image.isMap : Image → Bool
  | .demura _ _ _ _ _ => true
  | _ => false

/-- A table code other than that of the demura map names no demura image. -/
theorem Chip.isMap_readImage {c : Chip} {d t b bytes loaded : Nat} {bs : List Byte} {img : Image}
    (h : c.readImage d t b bytes loaded bs = some img) (ht : t ≠ 2) : img.isMap = false := by
  unfold Chip.readImage at h
  simp only [if_neg ht] at h
  split_ifs at h
  · obtain rfl := Option.some.inj h; rfl
  · obtain ⟨l, -, rfl⟩ := Option.map_eq_some_iff.1 h; rfl
  · obtain rfl := Option.some.inj h; rfl
  · obtain rfl := Option.some.inj h; rfl

/-- A table other than a demura map goes where its page stages tables. -/
theorem State.takeImage_table (s : State) (d p : Nat) {img : Image} (h : img.isMap = false) :
    s.takeImage d p img = s.up fun c => c.stageTable d p fun t => t.take img := by
  cases img with
  | demura => cases h
  | od | defects | gamma | dither => rfl

section
variable (c : Chip) (d p : Nat)

theorem Chip.heldBack_iff : c.heldBack d p = true ↔
    c.committing (c.leadOf d) p = true ∧ c.commitTime (c.leadOf d) p < c.now := by
  unfold Chip.heldBack; rw [Bool.and_eq_true, decide_eq_true_eq]

variable {c d p}

/-- While a commit is pending that was written before this cycle, tables wait for its step point. -/
theorem Chip.stageTable_held (h : c.heldBack d p = true) (f : Tables → Tables) :
    c.stageTable d p f = c.setDie d { c.die d with next := f (c.die d).next } := if_pos h

/-- Else they are staged at once. -/
theorem Chip.stageTable_atOnce (h : c.heldBack d p = false) (f : Tables → Tables) :
    c.stageTable d p f = c.setDie d { c.die d with staged := f (c.die d).staged } := if_neg (ne_true_of_eq_false h)

theorem Chip.die_setDie_same (c : Chip) (d : Nat) (x : DieSt) : (c.setDie d x).die d = x := (c.die_setDie d x d).trans (if_pos rfl)

theorem Chip.die_stageTable_held (h : c.heldBack d p = true) (f : Tables → Tables) :
    (c.stageTable d p f).die d = { c.die d with next := f (c.die d).next } := by
  rw [Chip.stageTable_held h, Chip.die_setDie_same]

theorem Chip.die_stageTable_atOnce (h : c.heldBack d p = false) (f : Tables → Tables) :
    (c.stageTable d p f).die d = { c.die d with staged := f (c.die d).staged } := by
  rw [Chip.stageTable_atOnce h, Chip.die_setDie_same]

end

/-! ### Demura maps (R266, R268) -/

/-- An image with the first row starts a new map. -/
def Chip.startMap (c : Chip) (d p first : Nat) : Chip := if first = 0 then c.stageTable d p (fun t => { t with demura := none }) else c

/-- A map of which `loaded` rows are there is still being loaded, or whole. -/
def Chip.putMap (c : Chip) (d p loaded total : Nat) (m : DemuraMap) : Chip :=
  if loaded = total then (c.setDie d { c.die d with partialMap := none }).stageTable d p (fun t => { t with demura := some m })
  else c.setDie d { c.die d with partialMap := some m }

section
variable {c : Chip} {d p : Nat} (h : c.heldBack d p = true)
include h

theorem Chip.heldBack_startMap (first : Nat) : (c.startMap d p first).heldBack d p = true := by
  unfold Chip.startMap
  split
  · rw [Chip.stageTable_held h]; exact h
  · exact h

theorem Chip.staged_startMap (first : Nat) : ((c.startMap d p first).die d).staged = (c.die d).staged := by
  unfold Chip.startMap
  split
  · rw [Chip.die_stageTable_held h]
  · rfl

theorem Chip.staged_putMap (loaded total : Nat) (m : DemuraMap) : ((c.putMap d p loaded total m).die d).staged = (c.die d).staged := by
  unfold Chip.putMap
  split
  · rw [Chip.die_stageTable_held (c := c.setDie d _) h, Chip.die_setDie_same]
  · rw [Chip.die_setDie_same]

theorem Chip.next_putMap_whole {loaded total : Nat} (hwhole : loaded = total) (m : DemuraMap) :
    ((c.putMap d p loaded total m).die d).next.demura = some m := by
  unfold Chip.putMap
  rw [if_pos hwhole, Chip.die_stageTable_held (c := c.setDie d _) h]

end

/-- The rows of an image that waits for a step point stay out of the frame memory. -/
theorem State.takeDemura_held {s : State} {d p : Nat} (h : s.chip.heldBack d p = true) (cols rows first total : Nat) (body : List Byte) :
    ∃ m, s.takeDemura d p cols rows first total body = s.up fun c => (c.startMap d p first).putMap d p (first + rows) total m := by
  unfold State.takeDemura
  dsimp only
  rw [if_pos h]
  exact ⟨_, rfl⟩

/-- What is staged is left as it was while a commit is pending. -/
theorem State.staged_takeImage_held {s : State} {d p : Nat} (h : s.chip.heldBack d p = true) (img : Image) :
    ((s.takeImage d p img).chip.die d).staged = (s.chip.die d).staged := by
  cases himg : img.isMap with
  | false => rw [s.takeImage_table d p himg, State.up_chip, Chip.die_stageTable_held h]
  | true =>
    obtain ⟨cols, rows, first, total, body, rfl⟩ : ∃ cols rows first total body, img = .demura cols rows first total body := by
      cases img with
      | demura cols rows first total body => exact ⟨cols, rows, first, total, body, rfl⟩
      | od | defects | gamma | dither => cases himg
    obtain ⟨m, hm⟩ := State.takeDemura_held h cols rows first total body
    show ((s.takeDemura d p cols rows first total body).chip.die d).staged = _
    rw [hm, State.up_chip, Chip.staged_putMap (Chip.heldBack_startMap h first), Chip.staged_startMap h]

/-- A map that becomes whole waits for the step point. -/
theorem State.next_takeDemura_whole {s : State} {d p : Nat} (h : s.chip.heldBack d p = true) {cols rows first total : Nat}
    (hwhole : first + rows = total) (body : List Byte) :
    ((s.takeDemura d p cols rows first total body).chip.die d).next.demura.isSome = true := by
  obtain ⟨m, hm⟩ := State.takeDemura_held h cols rows first total body
  rw [hm, State.up_chip, Chip.next_putMap_whole (Chip.heldBack_startMap h first) hwhole]
  rfl

/-! ### The step point (R267, R268) -/

/-- The tables of a die after the step point of a page. -/
def DieSt.stepTables (y : DieSt) (p : Nat) : DieSt :=
  { y with active := y.active.swap y.staged p, staged := y.staged.withPage y.next p, next := y.next.withPage {} p }

/-- The step point of a panel page on one die of the gang. -/
def Chip.panelStepOn (c : Chip) (d p : Nat) : Chip :=
  let c := c.setDie d ((c.die d).stepTables p)
  let c := (c.applyStaged d p).clearCommit d p
  let c := if p = PANEL_DT then (c.setReady d p true).setState d p 2 else c
  c.notePanel d

theorem Chip.panelStepPoint_eq (c : Chip) (o p : Nat) : c.panelStepPoint o p = c.each (c.gang o) fun c d => c.panelStepOn d p := rfl

theorem Chip.dies_applyStaged (c : Chip) (d p : Nat) : (c.applyStaged d p).dies = c.dies :=
  Chip.each_keeps Chip.dies c (c.stagedOf d p) (f := fun c kv => c.applyOne d p kv.1 kv.2) fun _ _ _ => rfl

theorem Chip.die_panelStepOn (c : Chip) (d p e : Nat) :
    (c.panelStepOn d p).die e = if e = d then (c.die d).stepTables p else c.die e := by
  rw [← Chip.die_setDie]
  refine Chip.die_congr ?_ e
  have hcommit : ∀ c : Chip, ((c.applyStaged d p).clearCommit d p).dies = c.dies := fun c => c.dies_applyStaged d p
  unfold Chip.panelStepOn
  dsimp only
  rw [Chip.dies_notePanel]
  split
  · rw [Chip.dies_setState, Chip.dies_setReady, hcommit]
  · rw [hcommit]

theorem Chip.nodup_gang (c : Chip) (o : Nat) : (c.gang o).Nodup := List.nodup_range.map fun _ _ => Nat.add_left_cancel

/-- Rounds that each change one die change every die of the list once. -/
theorem Chip.die_each {l : List Nat} (hl : l.Nodup) {f : Chip → Nat → Chip} {g : DieSt → DieSt}
    (hf : ∀ c d e, (f c d).die e = if e = d then g (c.die d) else c.die e) (c : Chip) {d : Nat} (hd : d ∈ l) :
    (c.each l f).die d = g (c.die d) := by
  obtain ⟨l₁, l₂, rfl⟩ := List.append_of_mem hd
  obtain ⟨h₁, h₂⟩ : d ∉ l₁ ∧ d ∉ l₂ := by
    have := List.nodup_middle.1 hl
    simpa using (List.nodup_cons.1 this).1
  have hkeep : ∀ (c : Chip) {l : List Nat}, d ∉ l → (l.foldl f c).die d = c.die d := fun c l hdl =>
    Chip.each_keeps (fun c => c.die d) c l fun c x hx => (hf c x d).trans (if_neg fun h : d = x => hdl (h ▸ hx))
  unfold Chip.each
  rw [List.foldl_append, List.foldl_cons, hkeep _ h₂, hf, if_pos rfl, hkeep _ h₁]

/-- At the step point of a page every die of the gang takes what is staged, and what waited is staged. -/
theorem Chip.die_panelStepPoint (c : Chip) {o d : Nat} (p : Nat) (hd : d ∈ c.gang o) :
    (c.panelStepPoint o p).die d = (c.die d).stepTables p := by
  rw [Chip.panelStepPoint_eq]
  exact Chip.die_each (c.nodup_gang o) (g := fun y => y.stepTables p) (fun c d e => c.die_panelStepOn d p e) c hd

/-! ### The statement -/

theorem State.done_eq_up (s : State) (r : Req) (st : Nat) : s.done r st = s.up fun c => c.done r st := rfl

/-- A command that starts leaves the pending commits. -/
theorem State.committing_starts (s : State) (h : Hdr) (cmd : Cmd) (p : Nat) :
    (s.starts h cmd).chip.committing ((s.starts h cmd).chip.leadOf (s.req h cmd).die) p = s.chip.committing (s.chip.leadOf h.die) p := rfl

theorem exec_tableLoad_busy {s : State} {h : Hdr} {t b source : Nat} {a : Word} {n : Nat}
    (ha : s.chip.admits h (.tableLoad t b source a n)) (hpending : s.chip.committing (s.chip.leadOf h.die) (tablePage t) = true) :
    exec (.tableLoad h t b source a n) s =
      .next ((s.starts h (.tableLoad t b source a n)).done (s.req h (.tableLoad t b source a n)) BUSY) := by
  have hbusy := Chip.tableLoad_busy ((s.committing_starts h (.tableLoad t b source a n) (tablePage t)).trans hpending)
  rw [exec_tableLoad ha, State.done_eq_up]
  exact congrArg _ (State.up_congr hbusy)

/-- The state in which a load that has taken its image completes. -/
def State.imageTaken (s : State) (d p : Nat) (img : Image) : State := (s.takeImage d p img).up fun c => c.notePanel d

theorem State.die_imageTaken (s : State) (d p : Nat) (img : Image) : (s.imageTaken d p img).chip.die d = (s.takeImage d p img).chip.die d :=
  Chip.die_congr (Chip.dies_notePanel ..) d

theorem State.done_imageTaken (s : State) (d p : Nat) (img : Image) (r : Req) (st : Nat) :
    (s.imageTaken d p img).done r st = (s.takeImage d p img).up fun c => (c.notePanel d).done r st := by
  rw [State.done_eq_up, State.imageTaken, State.up_up]

/-- Settles O41: the test with which TABLE_LOAD begins, where a checked image goes while a commit is pending, and what the step point
makes of the tables that wait. -/
theorem tableLoadDuringCommit : Obligations.TableLoadDuringCommit := by
  refine ⟨fun _ _ _ _ _ _ _ ha hpending => exec_tableLoad_busy ha hpending,
    fun s d t b n a r img hd hr hcmd himg hpending => ?ends,
    fun c o d hd => ?stepPoint⟩
  case ends =>
    have htaken := (State.tableLoadDone_taken hr hcmd himg).trans (s.done_imageTaken d (tablePage t) img r OK).symm
    have hexec := (exec_tableLoadDone hd).trans (congrArg Host.Outcome.next htaken)
    refine ⟨fun hbefore => ⟨_, hexec, ?_⟩, fun hnow ht => ⟨_, hexec, ?_⟩⟩
    · have hheld := (s.chip.heldBack_iff d (tablePage t)).2 ⟨hpending, hbefore⟩
      rw [State.die_imageTaken]
      refine ⟨State.staged_takeImage_held hheld img, fun ht => ?_, ?_⟩
      · rw [s.takeImage_table d _ (Chip.isMap_readImage himg ht), State.up_chip, Chip.die_stageTable_held hheld]
      · rintro cols rows first total body rfl hwhole
        exact State.next_takeDemura_whole hheld hwhole body
    · have hfree : s.chip.heldBack d (tablePage t) = false :=
        Bool.eq_false_iff.2 fun hheld => ((s.chip.heldBack_iff d _).1 hheld).2.ne hnow
      rw [State.die_imageTaken, s.takeImage_table d _ (Chip.isMap_readImage himg ht), State.up_chip, Chip.die_stageTable_atOnce hfree]
      exact ⟨rfl, rfl⟩
  case stepPoint =>
    rw [c.die_panelStepPoint PANEL_OD hd, c.die_panelStepPoint PANEL_DM hd, c.die_panelStepPoint PANEL_DT hd]
    exact ⟨rfl, rfl, rfl, rfl, rfl⟩

end Sys2Proof.Machine
end

section
/-! PROOFS. What a read error of the frame memory leaves of a die and of the pages beside its channel (R372 to R375, R456). -/

namespace Sys2Proof.Machine

/-! ### Operations that leave the state of every die -/

section
variable (c : Chip) (d p : Nat)

theorem Chip.dies_event (b : Nat) : (c.event d p b).dies = c.dies := touches_dies (c.touches_event d p b)

theorem Chip.dies_reply (r : Req) (st dt : Nat) (bs : List Byte) : (c.reply r st dt bs).dies = c.dies := by
  unfold Chip.reply
  dsimp only
  split
  · rfl
  · exact (touches_dies (p := fun _ => False) (touches_answer ..)).trans rfl

theorem Chip.dies_finish (r : Req) (st dt : Nat) (bs : List Byte) : (c.finish r st dt bs).dies = c.dies := by
  unfold Chip.finish
  split
  · exact c.dies_reply ..
  · rfl

theorem Chip.dies_finishAll (q : Req → Bool) (st dt : Nat) : (c.finishAll q st dt).dies = c.dies :=
  each_keeps Chip.dies c (c.reqs q) (f := fun c r => c.finish r st dt []) fun c r _ => c.dies_finish r st dt []

theorem Chip.dies_marginNote (o : Nat) : (c.marginNote o).dies = c.dies := by
  have hidle : ∀ (c : Chip) l, (c.each l fun c d => c.setState d AGE 1).dies = c.dies := fun c l =>
    each_keeps Chip.dies c l fun _ _ _ => rfl
  unfold Chip.marginNote
  split
  · split
    · rfl
    · extract_lets p x c' named good
      have hdies : c'.dies = c.dies := (hidle ..).trans rfl
      clear_value p c' good
      split <;> rw [dies_finish, hdies]
  · rfl

theorem Chip.dies_setScan (f : MarginRun → MarginRun) : (c.setScan d f).dies = c.dies := (Chip.dies_marginNote ..).trans rfl

theorem Chip.dies_retentionResult (ch code : Nat) : (c.retentionResult d ch code).dies = c.dies := (Chip.dies_setScan ..).trans rfl

theorem Chip.dies_stopScan (ch : Nat) : (c.stopScan d ch).dies = c.dies := by
  unfold Chip.stopScan
  split
  · exact c.dies_retentionResult ..
  · split
    · exact c.dies_setScan ..
    · rfl

theorem Chip.dies_freqCut (ch st : Nat) : (c.freqCut d ch st).dies = c.dies := by
  unfold Chip.freqCut Chip.when
  dsimp only
  split
  · exact (Chip.dies_finishAll ..).trans rfl
  · rfl

theorem Chip.dies_noteChannels : (c.noteChannels d).dies = c.dies := by
  unfold Chip.noteChannels
  dsimp only
  split
  · rw [dies_setNum, dies_setReady]
  · rw [dies_setReady]

theorem Chip.dies_showLost (ch : Nat) : (c.showLost d ch).dies = c.dies := by
  unfold Chip.showLost Chip.setDegraded Chip.mevent Chip.mput
  dsimp only
  rw [dies_put, dies_setReady, dies_event, dies_finishAll, dies_put, dies_put, dies_setState]

end

theorem State.dies_log (s : State) (d type page code arg : Nat) : (s.log d type page code arg).chip.dies = s.chip.dies := by
  have hbytes : ∀ (s : State) a bs, (s.setBytes a bs).chip.dies = s.chip.dies := fun s a bs =>
    Chip.each_keeps Chip.dies s.chip (List.range ((bs.length + 3) / 4)) (f := fun c i => c.wordWritten (a + 4 * i)) fun _ _ _ => rfl
  unfold State.log
  dsimp only
  rw [State.up_chip, Chip.touches_dies (Chip.touches_eventIf ..), Chip.dies_setNum, hbytes]

theorem State.dies_latch (s : State) (d p code : Nat) : (s.latch d p code).chip.dies = s.chip.dies := by
  unfold State.latch
  split
  · rfl
  · exact (State.dies_log ..).trans rfl

/-! ### A die beside its open tiles, and a register -/

/-- The state of a die beside its open layer tiles, which a channel that goes out of service spoils (R356), and one of its registers. -/
def Chip.dieView (c : Chip) (e q r : Nat) : DieSt × Word := ({ c.die e with asm := [] }, c.reg e q r)

theorem Chip.dieView_congr {c c' : Chip} {e q r : Nat} (hdies : c'.dies = c.dies) (hreg : c'.reg e q r = c.reg e q r) :
    c'.dieView e q r = c.dieView e q r := by
  unfold Chip.dieView; rw [Chip.die_congr hdies, hreg]

section
variable {c c' : Chip} {e q r : Nat} (h : c'.dieView e q r = c.dieView e q r)
include h

theorem Chip.dmRows_of_dieView : (c'.die e).dmRows = (c.die e).dmRows := congrArg (fun v => v.1.dmRows) h
theorem Chip.dmFailed_of_dieView : (c'.die e).dmFailed = (c.die e).dmFailed := congrArg (fun v => v.1.dmFailed) h
theorem Chip.reg_of_dieView : c'.reg e q r = c.reg e q r := congrArg Prod.snd h

end

theorem Chip.dieView_spillLost (c : Chip) (d ch e q r : Nat) : (c.spillLost d ch).dieView e q r = c.dieView e q r := by
  refine Prod.ext ?_ rfl
  show { (c.spillLost d ch).die e with asm := [] } = { c.die e with asm := [] }
  unfold Chip.spillLost
  dsimp only
  rw [Chip.die_setDie]
  split
  · next h => rw [h]
  · rfl

/-- A register of a page that shows nothing of a channel's errors, of the log and of events. -/
def offMemory (ch q r : Nat) : Bool := unlogged q r && decide (q ≠ memcPage ch) && decide (q ≠ COMP) && decide (q ≠ AGE)

theorem offMemory_iff {ch q r : Nat} : offMemory ch q r = true ↔ unlogged q r = true ∧ q ≠ memcPage ch ∧ q ≠ COMP ∧ q ≠ AGE := by
  simp [offMemory, and_assoc]

section
variable {ch q r : Nat} (hch : ch < 2) (hoff : offMemory ch q r = true) (d e : Nat)

include hoff in
theorem Chip.dieView_retentionResult (c : Chip) (code : Nat) : (c.retentionResult d ch code).dieView e q r = c.dieView e q r := by
  obtain ⟨hun, -, -, hage⟩ := offMemory_iff.1 hoff
  have hpage : ∀ {o}, o < 0x1000 → apart q r AGE o = true := fun ho => apart_of_page (quiet_of_unlogged hun) (by decide) ho hage
  refine Chip.dieView_congr (c.dies_retentionResult ..) ?_
  unfold Chip.retentionResult
  dsimp only
  rw [Chip.reg_setScan _ _ _ _ (hpage (by decide)), Chip.reg_put_apart _ d e (hpage (by decide)), Chip.reg_setChan]

include hoff in
theorem State.dieView_latch (s : State) (p code : Nat) : (s.latch d p code).chip.dieView e q r = s.chip.dieView e q r :=
  Chip.dieView_congr (s.dies_latch ..) (s.reg_latch d e (offMemory_iff.1 hoff).1 ..)

include hch hoff

theorem Chip.dieView_withoutChannel (c : Chip) : (c.withoutChannel d ch).dieView e q r = c.dieView e q r := by
  obtain ⟨hun, hmemc, hcomp, hage⟩ := offMemory_iff.1 hoff
  have hdies : (c.withoutChannel d ch).dies = ((c.freqCut d ch FAIL).spillLost d ch).dies := by
    unfold Chip.withoutChannel Chip.lossIsDue Chip.cutWork
    dsimp only
    rw [Chip.setOut_dies, Chip.dies_stopScan, Chip.dies_noteChannels, Chip.dies_showLost, Chip.setChan_dies]
  have hreg : (c.withoutChannel d ch).reg e q r = ((c.freqCut d ch FAIL).spillLost d ch).reg e q r := by
    rw [c.reg_withoutChannel d hch e (quiet_of_unlogged hun) hmemc hcomp hage, Chip.reg_spillLost, Chip.reg_freqCut]
  rw [Chip.dieView_congr hdies hreg, Chip.dieView_spillLost, Chip.dieView_congr (c.dies_freqCut d ch FAIL) (c.reg_freqCut d e ch FAIL)]

/-- A channel that goes out of service (R375). -/
theorem State.dieView_channelLost (s : State) : (s.channelLost d ch).chip.dieView e q r = s.chip.dieView e q r := by
  rw [State.channelLost_eq, State.dieView_latch hoff, State.up_chip, Chip.dieView_withoutChannel hch hoff]

/-! ### Writes to the channel's page -/

theorem apart_memc {o : Nat} (ho : o < 0x1000) : apart q r (memcPage ch) o = true :=
  apart_of_page (quiet_of_unlogged (offMemory_iff.1 hoff).1) (memc_pages hch).1 ho (offMemory_iff.1 hoff).2.1

theorem Chip.dieView_mput (c : Chip) {o : Nat} (ho : o < 0x1000) (hi lo v : Nat) :
    (c.mput d ch o hi lo v).dieView e q r = c.dieView e q r :=
  Chip.dieView_congr rfl (c.reg_put_apart d e (apart_memc hch hoff ho) hi lo v)

theorem Chip.dieView_mcount (c : Chip) {o : Nat} (ho : o < 0x1000) : (c.mcount d ch o).dieView e q r = c.dieView e q r :=
  Chip.dieView_congr rfl (c.reg_setNum_apart d e (apart_memc hch hoff ho) _)

omit hch in
theorem Chip.dieView_mevent (c : Chip) (b : Nat) : (c.mevent d ch b).dieView e q r = c.dieView e q r :=
  Chip.dieView_congr (c.dies_event ..) (c.reg_event_quiet d e (quiet_of_unlogged (offMemory_iff.1 hoff).1) ..)

omit hch hoff in
theorem Chip.dieView_setChan (c : Chip) (x : ChanSt) : (c.setChan d ch x).dieView e q r = c.dieView e q r := rfl

/-- A migration starts (R373). -/
theorem Chip.dieView_migrateStart (c : Chip) (rank : Nat) : (c.migrateStart d ch rank).dieView e q r = c.dieView e q r := by
  have hscan : (if (c.chan d ch).holding then c.retentionResult d ch 0 else c).dieView e q r = c.dieView e q r := by
    split
    · exact Chip.dieView_retentionResult hoff ..
    · rfl
  have hnum : ∀ (c : Chip) v, (c.setNum d (memcPage ch) MEMC.MIGRATE v).dieView e q r = c.dieView e q r := fun c v =>
    Chip.dieView_congr rfl (c.reg_setNum_apart d e (apart_memc hch hoff (by decide)) v)
  have hstate : ∀ (c : Chip) v, (c.setState d (memcPage ch) v).dieView e q r = c.dieView e q r := fun c v =>
    Chip.dieView_congr rfl (c.reg_put_apart d e (apart_memc hch hoff (by decide)) 15 8 v)
  rw [← hscan]
  unfold Chip.migrateStart
  dsimp only
  rw [Chip.dieView_mevent hoff, hstate, hnum, Chip.dieView_setChan]

/-! ### Errors (R372, R373) -/

/-- An uncorrectable error is nothing new, or it takes the channel or its spare out of service, or starts a migration. -/
theorem State.dieView_uncorrectable (s : State) (rank : Nat) : (s.uncorrectable d ch rank).chip.dieView e q r = s.chip.dieView e q r := by
  have hbad : ∀ (b : Prop) [Decidable b] (c : Chip), (if b then c.mput d ch MEMC.STATUS 31 30 3 else c).dieView e q r = c.dieView e q r := by
    intro b _ c
    split
    · exact Chip.dieView_mput hch hoff _ _ c (by decide) ..
    · rfl
  unfold State.uncorrectable
  dsimp only
  have hlost := State.dieView_channelLost hch hoff d e
  split
  · rfl
  split
  · rfl
  split
  case isTrue hmigrating =>
    split
    · rfl
    · rw [hlost, State.up_chip, hbad]
  split
  case isTrue hspare =>
    split
    · rw [State.dieView_latch hoff, State.up_chip, Chip.dieView_mevent hoff, Chip.dieView_mput hch hoff _ _ _ (by decide)]
    · split
      · rw [hlost]
      · rfl
  split
  · rfl
  split
  · rw [State.up_chip, Chip.dieView_setChan, Chip.dieView_migrateStart hch hoff]
  · rw [hlost]

/-- A read error of a slot leaves every die as it was but for its open tiles, and the registers of other pages (R372). -/
theorem State.dieView_slotError (s : State) (cs : Nat) (stale : Bool) : (s.slotError d ch cs stale).chip.dieView e q r = s.chip.dieView e q r := by
  have hcount : ∀ c : Chip, (c.mcount d ch (if stale then MEMC.WRITE_ERR_COUNT else MEMC.READ_ERR_COUNT)).dieView e q r = c.dieView e q r :=
    fun c => Chip.dieView_mcount hch hoff d e c (by cases stale <;> decide)
  have hlast : ∀ (c : Chip) kind, (c.lastErr d ch kind (some cs)).dieView e q r = c.dieView e q r := fun c kind =>
    (Chip.dieView_mput hch hoff d e _ (by decide) ..).trans (Chip.dieView_mput hch hoff d e c (by decide) ..)
  unfold State.slotError
  dsimp only
  split
  · rfl
  split
  · rw [State.dieView_uncorrectable hch hoff, State.up_chip, Chip.dieView_mevent hoff, hlast, hcount, Chip.dieView_setChan]
  · rw [State.up_chip, Chip.dieView_mevent hoff, hlast, hcount, Chip.dieView_setChan]

end

end Sys2Proof.Machine
end

section
/-! PROOFS. What reaches a die for a frame, and with it the statement on loads and fetches of the panel stages (O42; R253, R257, R259,
R260, R265, R266). -/

namespace Sys2Proof.Machine

/-! ### Row records (R257) -/

/-- The samples of a record that the device makes are read back. -/
theorem readRow_rowRecord {cols : Nat} {samples : List Byte} (h : samples.length = 12 * cols) :
    readRow cols (rowRecord samples) = some samples := by
  have hcrc : fieldAt (rowRecord samples) (12 * cols) 4 = (crc32c samples).toNat := by
    unfold fieldAt rowRecord
    rw [List.drop_left' h, List.take_of_length_le (by rw [length_leBytes]), leNat_leBytes]
    exact Nat.mod_eq_of_lt (crc32c samples).isLt
  have htake : (rowRecord samples).take (12 * cols) = samples := List.take_left' h
  unfold readRow
  dsimp only
  rw [htake, if_pos hcrc.symm]

/-! ### Previous-frame tiles (R253, R254) -/

/-- A previous-frame tile that verifies is kept, and a tile row that is then whole shows its lead. -/
def Chip.prevKept (c : Chip) (d w tx ty lead : Nat) (px : List Px) : Chip :=
  let y := c.die d
  let c := c.setDie d { y with prev := KMap.set y.prev (ty * 64 + tx) (some px) }
  let whole := (List.range (w / 64)).all (fun t => (KMap.getD (c.die d).prev (ty * 64 + t) none).isSome)
  if whole then c.put d PANEL_OD OD.MARGIN_MIN 15 0 (min (min lead 0xFFFF) (c.get d PANEL_OD OD.MARGIN_MIN 15 0)) else c

/-- The plane that holds the previous frame of a die's output (R253). -/
def Chip.prevPlane (c : Chip) (d : Nat) : Nat := (c.seq (c.leadOf d) + 1) % 2

/-- The hamper of a previous-frame tile as it is read. -/
def State.prevHamper (s : State) (d tx ty : Nat) : List Byte :=
  s.chip.slotBytes s.mem d (s.chip.planeSlot d (s.chip.prevPlane d) (s.chip.entry (s.chip.leadOf d)).w tx ty)

/-- A tile of the slice that overdrive is to have, from the plane that holds frame `held`, and that has not come back yet. -/
structure State.tileDue (s : State) (d tx ty : Nat) (held : Word) : Prop where
  frame : ((s.chip.out (s.chip.leadOf d)).planes.getD (s.chip.prevPlane d) {}).frame = some held
  entry : s.chip.hasEntry (s.chip.leadOf d) = true
  on : s.chip.odOff d = false
  inWidth : tx < (s.chip.entry (s.chip.leadOf d)).w / 64
  inHeight : ty < (s.chip.entry (s.chip.leadOf d)).vActive / 16
  reads : s.chip.reads d (s.chip.prevPlane d) = true
  missing : KMap.get? (s.chip.die d).prev (ty * 64 + tx) = none

theorem State.prevTile_verified {s : State} {d tx ty : Nat} {held : Word} {px : List Px} (h : s.tileDue d tx ty held) (lead : Nat)
    (hpx : readHamper (s.prevHamper d tx ty) (planeOwner (s.chip.leadOf d) (s.chip.prevPlane d)) (some held.toNat) = .ok px) :
    s.prevTile d tx ty lead = s.up fun c => c.prevKept d (s.chip.entry (s.chip.leadOf d)).w tx ty lead px := by
  obtain ⟨hframe, hentry, hon, htx, hty, hreads, hnew⟩ := h
  unfold State.prevHamper at hpx
  unfold Chip.prevPlane at hframe hreads hpx
  unfold State.prevTile
  dsimp only
  rw [hframe]
  dsimp only
  rw [if_pos ⟨hentry, by rw [hon]; rfl, htx, hty, hreads, by rw [hnew]; rfl⟩, hpx]
  rfl

section
variable (c : Chip) (d w tx ty lead : Nat) (px : List Px)

theorem Chip.prev_prevKept : KMap.get? ((c.prevKept d w tx ty lead px).die d).prev (ty * 64 + tx) = some (some px) := by
  have hkept : ((c.prevKept d w tx ty lead px).die d) = { c.die d with prev := KMap.set (c.die d).prev (ty * 64 + tx) (some px) } := by
    rw [← c.die_setDie_same d { c.die d with prev := KMap.set (c.die d).prev (ty * 64 + tx) (some px) }]
    unfold Chip.prevKept
    dsimp only
    split <;> rfl
  rw [hkept, KMap.get?_set, if_pos rfl]

theorem Chip.regsBut_prevKept : c.regsBut (c.prevKept d w tx ty lead px) fun a => a = ra d PANEL_OD OD.MARGIN_MIN := by
  intro a ha
  unfold Chip.prevKept
  dsimp only
  split
  · rw [Chip.put_eq, Chip.get?_setReg_of_ne _ _ _ _ _ _ ha, Chip.setDie_regs]
  · rw [Chip.setDie_regs]

end

theorem exec_prevFrameTileDone {s : State} {d : Nat} (hd : d < dieCount s.chip.member) (tx ty lead : Nat) :
    exec (.prevFrameTileDone d tx ty lead) s = .next (s.prevTile d tx ty lead) := if_pos hd

/-! ### Demura rows (R259) -/

/-- The channel from which a demura row is read: both hold a copy (R356). -/
def Chip.rowChannel (c : Chip) (d row : Nat) : Nat := if c.serving d (row % 2) then row % 2 else 1 - row % 2

theorem Chip.rowChannel_lt (c : Chip) (d row : Nat) : c.rowChannel d row < 2 := by
  unfold Chip.rowChannel; split <;> omega

/-- A row record as it is read. -/
def State.rowRead (s : State) (d row : Nat) (m : DemuraMap) : List Byte :=
  s.chip.granules s.mem d (s.chip.rowChannel d row) (m.granule row) (recordGranules m.cols)

/-- A row is refused for its CRC: it is not used in this frame, and it counts. -/
def Chip.rowRefused (c : Chip) (d row : Nat) : Chip :=
  ((c.setDie d { c.die d with dmFailed := (c.die d).dmFailed ++ [row] }).count d PANEL_DM DM.CRC_COUNT).event d PANEL_DM 1

/-- A row of the active map that the demura of a die is to have, and has neither taken nor refused. -/
structure State.rowDue (s : State) (d row : Nat) (m : DemuraMap) : Prop where
  map : (s.chip.die d).active.demura = some m
  on : s.chip.demuraOn d = true
  inMap : row < s.chip.mapRows (s.chip.leadOf d)
  notTaken : KMap.get? (s.chip.die d).dmRows row = none
  notRefused : row ∉ (s.chip.die d).dmFailed
  reads : s.chip.reads d (s.chip.rowChannel d row) = true

section
variable {s : State} {d row : Nat} {m : DemuraMap} (h : s.rowDue d row m)
include h

/-- Nothing keeps a row that is due from being read. -/
theorem State.not_idle_of_rowDue : ¬(!s.chip.demuraOn d ∨ s.chip.mapRows (s.chip.leadOf d) ≤ row ∨
    (KMap.get? (s.chip.die d).dmRows row).isSome ∨ (s.chip.die d).dmFailed.contains row ∨ !s.chip.reads d (s.chip.rowChannel d row)) := by
  obtain ⟨-, hon, hrow, htaken, hrefused, hreads⟩ := h
  simp [hon, hrow, htaken, hrefused, hreads]

/-- A row whose CRC is right is taken. -/
theorem State.demuraRow_taken {samples : List Byte} (hread : readRow m.cols (s.rowRead d row m) = some samples) :
    s.demuraRow d row true = s.up fun c => c.setDie d { c.die d with dmRows := KMap.set (c.die d).dmRows row samples } := by
  have hdue := State.not_idle_of_rowDue h
  unfold State.rowRead at hread
  unfold Chip.rowChannel at hdue hread
  unfold State.demuraRow
  dsimp only
  rw [h.map]
  dsimp only
  rw [if_neg hdue, hread]
  dsimp only
  rw [if_pos rfl]
  exact State.up_congr rfl

/-- A row whose CRC is not right is refused, and its slot has a read error. -/
theorem State.demuraRow_refused (hread : readRow m.cols (s.rowRead d row m) = none) :
    ∃ cs, s.demuraRow d row true = (s.up fun c => c.rowRefused d row).slotError d (s.chip.rowChannel d row) cs false := by
  have hdue := State.not_idle_of_rowDue h
  unfold State.rowRead at hread
  unfold Chip.rowChannel at hdue hread ⊢
  unfold State.demuraRow
  dsimp only
  rw [h.map]
  dsimp only
  rw [if_neg hdue, hread]
  exact ⟨_, congrArg (fun t : State => t.slotError d _ _ false) (State.up_congr rfl)⟩

end

section
variable (c : Chip) (d row : Nat)

theorem Chip.die_rowRefused : (c.rowRefused d row).die d = { c.die d with dmFailed := (c.die d).dmFailed ++ [row] } := by
  rw [← c.die_setDie_same d { c.die d with dmFailed := (c.die d).dmFailed ++ [row] }]
  refine Chip.die_congr ?_ d
  unfold Chip.rowRefused
  rw [Chip.dies_event]
  rfl

theorem Chip.crcCount_rowRefused :
    (c.rowRefused d row).num d PANEL_DM DM.CRC_COUNT = min 0xFFFFFFFF (c.num d PANEL_DM DM.CRC_COUNT + 1) := by
  have hevent : (c.rowRefused d row).num d PANEL_DM DM.CRC_COUNT = _ :=
    congrArg BitVec.toNat (Chip.reg_event_quiet _ d d (by decide) PANEL_DM 1)
  exact hevent.trans (Chip.num_count ..)

end

/-- What a refused row leaves: it is among those refused, it was not taken, and DM_CRC_COUNT adds 1. -/
theorem State.demuraRow_refused_spec {s : State} {d row : Nat} {m : DemuraMap} (h : s.rowDue d row m)
    (hread : readRow m.cols (s.rowRead d row m) = none) :
    row ∈ ((s.demuraRow d row true).chip.die d).dmFailed ∧ KMap.get? ((s.demuraRow d row true).chip.die d).dmRows row = none ∧
      (s.demuraRow d row true).chip.num d PANEL_DM DM.CRC_COUNT = min 0xFFFFFFFF (s.chip.num d PANEL_DM DM.CRC_COUNT + 1) := by
  obtain ⟨cs, hcs⟩ := State.demuraRow_refused h hread
  have hch := s.chip.rowChannel_lt d row
  have hoff : offMemory (s.chip.rowChannel d row) PANEL_DM DM.CRC_COUNT = true := by
    generalize s.chip.rowChannel d row = ch at hch
    revert ch; decide
  have hview := State.dieView_slotError hch hoff d d (s.up fun c => c.rowRefused d row) cs false
  rw [hcs, Chip.dmFailed_of_dieView hview, Chip.dmRows_of_dieView hview, Chip.num, Chip.reg_of_dieView hview, ← Chip.num, State.up_chip,
    Chip.die_rowRefused]
  exact ⟨List.mem_append_right _ (List.mem_singleton_self row), h.notTaken, s.chip.crcCount_rowRefused d row⟩

theorem exec_demuraRowDone {s : State} {d : Nat} (hd : d < dieCount s.chip.member) (row : Nat) :
    exec (.demuraRowDone d row true) s = .next (s.demuraRow d row true) := if_pos hd

/-! ### Halos (R260) -/

theorem Chip.length_gang (c : Chip) (o : Nat) : (c.gang o).length = 2 ^ c.gangCode o := by
  unfold Chip.gang; rw [List.length_map, List.length_range]

/-- Number of a side in the list of halos at hand. -/
def haloSide : Side → Nat
  | .prev => 0
  | .next => 1

/-- A die of an output has a neighbour on a side (R38). -/
def Chip.neighbour (c : Chip) (d : Nat) : Side → Prop
  | .prev => c.leadOf d < d
  | .next => d + 1 < c.leadOf d + 2 ^ c.gangCode (c.leadOf d)

/-- A halo of an active line that a neighbour sends for the first time is kept. -/
theorem Chip.haloIn_new {c : Chip} {d line : Nat} {side : Side} (hentry : c.hasEntry (c.leadOf d) = true)
    (hline : line < (c.entry (c.leadOf d)).vActive) (hside : c.neighbour d side) (hnew : line * 2 + haloSide side ∉ (c.die d).halo) :
    c.haloIn d side line = c.setDie d { c.die d with halo := (c.die d).halo ++ [line * 2 + haloSide side] } := by
  have hfree : (!(c.die d).halo.contains (line * 2 + haloSide side)) = true := by simpa using hnew
  cases side with
  | prev => exact if_pos ⟨hentry, decide_eq_true hside, hline, hfree⟩
  | next =>
    have hthere : decide (d + 1 < c.leadOf d + (c.gang (c.leadOf d)).length) = true := by
      rw [Chip.length_gang]; exact decide_eq_true hside
    exact if_pos ⟨hentry, hthere, hline, hfree⟩

theorem exec_haloRx_new {s : State} {d line : Nat} {side : Side} (hd : d < dieCount s.chip.member)
    (hentry : s.chip.hasEntry (s.chip.leadOf d) = true) (hline : line < (s.chip.entry (s.chip.leadOf d)).vActive)
    (hside : s.chip.neighbour d side) (hnew : line * 2 + haloSide side ∉ (s.chip.die d).halo) :
    exec (.haloRx d side line) s =
      .next (s.up fun c => c.setDie d { c.die d with halo := (c.die d).halo ++ [line * 2 + haloSide side] }) :=
  (if_pos hd : execHaloRx d side line s = _).trans (congrArg _ (State.up_congr (Chip.haloIn_new hentry hline hside hnew)))

/-! ### The statement -/

theorem panelFetches : Claim.PanelFetches := by
  refine ⟨fun _ _ h => readRow_rowRecord h, fun s d hd => ⟨?tile, ?row, fun line hentry hline => ⟨?prev, ?next⟩⟩⟩
  case tile =>
    intro tx ty lead held px e p hframe hentry hon htx hty hreads hnew hpx
    have hdue : s.tileDue d tx ty held := ⟨hframe, hentry, hon, htx, hty, hreads, hnew⟩
    exact ⟨_, (exec_prevFrameTileDone hd tx ty lead).trans (congrArg _ (State.prevTile_verified hdue lead hpx)), State.up_mem ..,
      Chip.prev_prevKept .., s.chip.regsBut_prevKept d _ tx ty lead px⟩
  case row =>
    intro row m ch record hmap hon hrow htaken hrefused hreads
    have hdue : s.rowDue d row m := ⟨hmap, hon, hrow, htaken, hrefused, hreads⟩
    have hexec := exec_demuraRowDone hd row
    exact ⟨fun samples hread => hexec.trans (congrArg _ (State.demuraRow_taken hdue hread)),
      fun hread => ⟨_, hexec, State.demuraRow_refused_spec hdue hread⟩⟩
  case prev => exact fun hside hnew => exec_haloRx_new (side := .prev) hd hentry hline hside hnew
  case next => exact fun hside hnew => exec_haloRx_new (side := .next) hd hentry hline hside hnew

theorem exec_tableLoad_stays {s : State} {h : Hdr} {t b source : Nat} {a : Word} {n : Nat}
    (ha : s.chip.admits h (.tableLoad t b source a n)) (hfree : s.chip.committing (s.chip.leadOf h.die) (tablePage t) = false)
    (hmap : t = 2 → s.chip.serving h.die 0 = true ∨ s.chip.serving h.die 1 = true) (hroom : t ≠ 2 → s.chip.ownsBasket h.die 4 = true) :
    exec (.tableLoad h t b source a n) s = .next (s.starts h (.tableLoad t b source a n)) := by
  have hstays : (s.starts h (.tableLoad t b source a n)).chip.tableLoad (s.req h (.tableLoad t b source a n)) t =
      (s.starts h (.tableLoad t b source a n)).chip :=
    Chip.tableLoad_stays ((s.committing_starts h _ (tablePage t)).trans hfree) hmap hroom
  rw [exec_tableLoad ha, State.up_eq_self hstays]

theorem tableLoadRuns : Claim.TableLoadRuns :=
  ⟨fun _ _ _ _ _ _ _ ha hfree hmap hroom => exec_tableLoad_stays ha hfree hmap hroom,
    fun _ _ _ _ _ _ _ _ hd hr hcmd himg => (exec_tableLoadDone hd).trans (congrArg _ (State.tableLoadDone_taken hr hcmd himg))⟩

/-- Settles O42: a load with room for its table stays in flight and takes an image that passes every check; tiles, rows and halos that
reach a die are kept, and a row whose CRC is not right is refused. -/
theorem panelTablesAndFetches : Obligations.PanelTablesAndFetches := ⟨tableLoadRuns, panelFetches⟩

end Sys2Proof.Machine
end

section
/-! PROOFS. TIMING_SET, and the write of BL_PWM (O55; R281, R282, R287). -/

namespace Sys2Proof.Machine

/-! ### TIMING_SET (R281, R282) -/

@[simp] theorem Chip.isStaged_stage (c : Chip) (d p o : Nat) (w : Word) : (c.stage d p o w).isStaged d p o = true := by
  simp [Chip.isStaged, Chip.stage]

theorem State.run_timingSet (s : State) {r : Req} {o n : Nat} (hr : r.cmd = .timingSet o n) :
    s.run r = s.up fun c => c.timingSet r o n := by
  unfold State.run; rw [hr]

/-- An admitted TIMING_SET has the outcome of its run, which the chip in which it starts decides. -/
theorem exec_timingSet {s : State} {h : Hdr} {o n : Nat} {f : Chip → Chip} (ha : s.chip.admits h (.timingSet o n))
    (hf : (s.starts h (.timingSet o n)).chip.timingSet (s.req h (.timingSet o n)) o n = f (s.starts h (.timingSet o n)).chip) :
    exec (.timingSet h o n) s = .next ((s.starts h (.timingSet o n)).up f) :=
  (exec_admitted rfl ha).trans (congrArg _ ((State.run_timingSet _ rfl).trans (State.up_congr hf)))

/-- A commit of a number that is not in effect is pending. -/
theorem Chip.tgenCommit_new {c : Chip} {o : Nat} (hstaged : c.isStaged o TGEN TGEN.ENTRY = true) (hnew : c.sameEntry o = false) :
    c.tgenCommit o = c.setCommit o TGEN := by
  simp [Chip.tgenCommit, hstaged, hnew]

section
variable {c : Chip} {r : Req} {o n : Nat} (hfree : c.committing o TGEN = false)
include hfree

/-- With no commit pending, the staged number is judged. -/
theorem Chip.timingSet_free : c.timingSet r o n =
    let v := c.stage o TGEN TGEN.ENTRY (BitVec.ofNat 32 n)
    if v.tgenStatus o ≠ OK then (v.done r (v.tgenStatus o)).eventIf (decide (v.entryStatus o ≠ OK)) o TGEN 6
    else if v.sameEntry o then (v.tgenCommit o).finish r OK 0 (leBytes 4 (v.num o TGEN TGEN.CHANGEOVER_FRAME))
    else v.tgenCommit o := if_neg (ne_true_of_eq_false hfree)

theorem Chip.timingSet_refused (hst : (c.stage o TGEN TGEN.ENTRY (BitVec.ofNat 32 n)).tgenStatus o ≠ OK) :
    c.timingSet r o n =
      ((c.stage o TGEN TGEN.ENTRY (BitVec.ofNat 32 n)).done r ((c.stage o TGEN TGEN.ENTRY (BitVec.ofNat 32 n)).tgenStatus o)).eventIf
        (decide ((c.stage o TGEN TGEN.ENTRY (BitVec.ofNat 32 n)).entryStatus o ≠ OK)) o TGEN 6 :=
  (Chip.timingSet_free hfree).trans (if_pos hst)

theorem Chip.timingSet_inEffect (hst : (c.stage o TGEN TGEN.ENTRY (BitVec.ofNat 32 n)).tgenStatus o = OK)
    (hsame : (c.stage o TGEN TGEN.ENTRY (BitVec.ofNat 32 n)).sameEntry o = true) :
    c.timingSet r o n = ((c.stage o TGEN TGEN.ENTRY (BitVec.ofNat 32 n)).tgenCommit o).finish r OK 0
      (leBytes 4 (c.num o TGEN TGEN.CHANGEOVER_FRAME)) :=
  (Chip.timingSet_free hfree).trans ((if_neg (not_not_intro hst)).trans (if_pos hsame))

theorem Chip.timingSet_new (hst : (c.stage o TGEN TGEN.ENTRY (BitVec.ofNat 32 n)).tgenStatus o = OK)
    (hnew : (c.stage o TGEN TGEN.ENTRY (BitVec.ofNat 32 n)).sameEntry o = false) :
    c.timingSet r o n = (c.stage o TGEN TGEN.ENTRY (BitVec.ofNat 32 n)).setCommit o TGEN := by
  have hjudged := (Chip.timingSet_free (r := r) hfree).trans ((if_neg (not_not_intro hst)).trans (if_neg (ne_true_of_eq_false hnew)))
  exact hjudged.trans (Chip.tgenCommit_new (Chip.isStaged_stage ..) hnew)

end

theorem timingSets : Claim.TimingSet := by
  intro s h o n ha hfree cmd v
  have hstarts : (s.starts h cmd).chip.committing o TGEN = false := hfree
  refine ⟨fun hst hnew => ?new, fun hst hsame => ?inEffect, fun hst => ?refused⟩
  case new => exact exec_timingSet ha (Chip.timingSet_new hstarts hst hnew)
  case inEffect => exact exec_timingSet ha (Chip.timingSet_inEffect hstarts hst hsame)
  case refused => exact exec_timingSet ha (Chip.timingSet_refused hstarts hst)

/-! ### BL_PWM (R287) -/

/-- A register without staged bits takes the writable bits of a word at once (R15). -/
theorem Chip.storeWord_plain (c : Chip) (d p : Nat) {k : PageKind} {o : Nat} (w : Word) (hrw : (regAt k o).rw ≠ 0)
    (hrws : (regAt k o).rws = 0) : c.storeWord d p k o w = c.setReg d p o (mergeBits (regAt k o).rw (c.reg d p o) w) := by
  simp [Chip.storeWord, hrw, hrws]

/-- A write of BL_PWM takes the word, and with SYNC = 0 it is the start of the first period. -/
theorem State.writeReg_blPwm (s : State) (d : Nat) (w : Word) :
    s.writeReg d TGEN TGEN.BL_PWM w =
      s.up fun c => let t := c.storeWord d TGEN .tgen TGEN.BL_PWM w
        if bit w 31 then t else t.setOut d { t.out d with pwmAt := t.now } := by
  have hact : s.writeReg d TGEN TGEN.BL_PWM w = s.actWrite d TGEN .tgen TGEN.BL_PWM w := rfl
  rw [hact]
  unfold State.actWrite
  cases bit w 31 <;> rfl

theorem backlightPwm : Claim.BacklightPwm := by
  intro s h w hw m
  have hstore (c : Chip) : c.storeWord h.die TGEN .tgen TGEN.BL_PWM w =
      c.setReg h.die TGEN TGEN.BL_PWM (mergeBits m (c.reg h.die TGEN TGEN.BL_PWM) w) :=
    c.storeWord_plain h.die TGEN w (by decide) (by decide)
  refine ⟨fun hsync => ?atBoundary, fun hsync => ?atWrite⟩ <;>
    refine exec_mayWrite rfl rfl (by decide) hw ((State.writeReg_blPwm _ _ w).trans (State.up_congr ?_))
  case atBoundary => exact (if_pos hsync).trans (hstore _)
  case atWrite =>
    refine (if_neg (ne_true_of_eq_false hsync)).trans ?_
    rw [hstore]
    rfl

end Sys2Proof.Machine
end

section
/-! PROOFS. The lines of the standard modes and the gate pins, and with them the statement on entries (O55; R275, R277, R323 to R326). -/

namespace Sys2Proof.Machine

/-! ### Lines of an entry (R275, R277) -/

/-- Core cycles of the last `k` lines of a frame: the lines at the positions below `k`. -/
def ModeEntry.lastLines (e : ModeEntry) (k : Nat) : Nat := k * e.frameCycles / e.vTotal

theorem ModeEntry.lastLines_mono (e : ModeEntry) {j k : Nat} (h : j ≤ k) : e.lastLines j ≤ e.lastLines k :=
  Nat.div_le_div_right (Nat.mul_le_mul_right _ h)

theorem ModeEntry.vTotal_pos (e : ModeEntry) : 0 < e.vTotal := Nat.succ_pos _

theorem ModeEntry.lineCycles_eq (e : ModeEntry) (k : Nat) :
    e.lineCycles k = e.lastLines (k % e.vTotal + 1) - e.lastLines (k % e.vTotal) := rfl

/-- The lines at the positions below `m` last together what the last `m` lines do. -/
theorem ModeEntry.sum_lineCycles (e : ModeEntry) {m : Nat} (hm : m ≤ e.vTotal) :
    ((List.range m).map e.lineCycles).sum = e.lastLines m := by
  induction m with
  | zero => exact (by simp [ModeEntry.lastLines] : e.lastLines 0 = 0).symm
  | succ m ih =>
    have hline : e.lineCycles m = e.lastLines (m + 1) - e.lastLines m := by rw [e.lineCycles_eq, Nat.mod_eq_of_lt hm]
    have hmono : e.lastLines m ≤ e.lastLines (m + 1) := e.lastLines_mono m.le_succ
    simp only [List.range_succ, List.map_append, List.sum_append, List.map_singleton, List.sum_singleton, hline,
      ih (Nat.le_of_succ_le hm)]
    omega

/-- All lines of an entry last its frame. -/
theorem ModeEntry.lastLines_vTotal (e : ModeEntry) : e.lastLines e.vTotal = e.frameCycles := Nat.mul_div_cancel_left _ e.vTotal_pos

/-- No line is shorter than t_min. -/
theorem ModeEntry.tMin_le_lineCycles (e : ModeEntry) (k : Nat) : e.tMin ≤ e.lineCycles k := by
  have hsum : e.lastLines (k % e.vTotal) + e.tMin ≤ e.lastLines (k % e.vTotal + 1) := by
    unfold ModeEntry.lastLines ModeEntry.tMin
    rw [Nat.succ_mul]
    exact Nat.div_add_div_le_add_div ..
  rw [e.lineCycles_eq]
  omega

/-- t_min of every entry of the table is at least W ÷ 8 core cycles. -/
theorem modeEntry_w_le_tMin : ∀ n < 64, (modeEntry n).w ≤ 8 * (modeEntry n).tMin := by decide

theorem lineLengths : Claim.LineLengths := fun n hn =>
  ⟨((modeEntry n).sum_lineCycles le_rfl).trans (modeEntry n).lastLines_vTotal,
    fun k => (modeEntry_w_le_tMin n hn).trans (Nat.mul_le_mul_left 8 ((modeEntry n).tMin_le_lineCycles k))⟩

/-! ### The windows of the gate pins (R324, R325) -/

/-- The line `q` of `t` that lies `b` lines before the line `a` lines after line `n`. -/
theorem add_sub_mod_eq_iff {t n a b q : Nat} (hq : q < t) (hb : b ≤ n + t + a) : (n + t + a - b) % t = q ↔ (q + b) % t = (n + a) % t := by
  have hforth : n + t + a - b + b ≡ q + b [MOD t] ↔ n + t + a - b ≡ q [MOD t] := Nat.ModEq.add_iff_right rfl
  have hround : n + t + a ≡ n + a [MOD t] := by rw [Nat.add_right_comm]; exact Nat.add_mod_right ..
  calc (n + t + a - b) % t = q
    _ ↔ n + t + a - b ≡ q [MOD t] := by rw [Nat.ModEq, Nat.mod_eq_of_lt hq]
    _ ↔ n + t + a ≡ q + b [MOD t] := by rw [← hforth, Nat.sub_add_cancel hb]
    _ ↔ q + b ≡ n + a [MOD t] := ⟨fun h => h.symm.trans hround, fun h => hround.trans h.symm⟩

section
variable {c : Chip} {d n : Nat} (hn : n < (c.out d).lines)
include hn

/-- A clock is active in the window of every gate row of its phase. -/
theorem Chip.clockLine_iff (k : Nat) (hv : (c.entry d).vActive ≤ (c.out d).lines) : c.clockLine d k n = true ↔
    ∃ q < (c.entry d).vActive, q % c.gatePhases d = k ∧
      ∃ j < c.gateHigh d, (q + 2 + j) % (c.out d).lines = (n + c.gateHigh d) % (c.out d).lines := by
  have hrow {q j : Nat} (hq : q < (c.entry d).vActive) (hj : j < c.gateHigh d) :
      (n + (c.out d).lines + c.gateHigh d - 2 - j) % (c.out d).lines = q ↔
        (q + 2 + j) % (c.out d).lines = (n + c.gateHigh d) % (c.out d).lines := by
    rw [Nat.sub_sub, add_sub_mod_eq_iff (by omega) (by omega), Nat.add_assoc q]
  have hlines : c.clockLine d k n = true ↔ ∃ j < c.gateHigh d, (n + (c.out d).lines + c.gateHigh d - 2 - j) % (c.out d).lines <
      (c.entry d).vActive ∧ (n + (c.out d).lines + c.gateHigh d - 2 - j) % (c.out d).lines % c.gatePhases d = k := by
    simp [Chip.clockLine]
  rw [hlines]
  constructor
  · rintro ⟨j, hj, hq, hphase⟩
    exact ⟨_, hq, hphase, j, hj, (hrow hq hj).1 rfl⟩
  · rintro ⟨q, hq, hphase, j, hj, hwindow⟩
    have hline := (hrow hq hj).2 hwindow
    exact ⟨j, hj, by rwa [hline], by rwa [hline]⟩

/-- STVd_A is active in its lines up to 1 - H. -/
theorem Chip.startLine_iff (hs : c.stvLines d ≤ (c.out d).lines) : c.startLine d n = true ↔
    ∃ j < c.stvLines d, (n + c.gateHigh d + c.stvLines d) % (c.out d).lines = (2 + j) % (c.out d).lines := by
  have hhigh : 0 < c.gateHigh d := Nat.succ_pos _
  have hline {j : Nat} (hj : j < c.stvLines d) : (n + (c.out d).lines + c.gateHigh d + c.stvLines d - 2) % (c.out d).lines = j ↔
      (n + c.gateHigh d + c.stvLines d) % (c.out d).lines = (2 + j) % (c.out d).lines := by
    rw [Nat.add_assoc _ (c.gateHigh d), add_sub_mod_eq_iff (by omega) (by omega), Nat.add_comm j, Nat.add_assoc n, eq_comm]
  rw [Chip.startLine, decide_eq_true_iff]
  constructor
  · exact fun h => ⟨_, h, (hline h).1 rfl⟩
  · rintro ⟨j, hj, hwindow⟩
    exact ((hline hj).2 hwindow).trans_lt hj

end

/-! ### The level of a gate pin (R323 to R326) -/

@[simp] theorem Chip.gateLevel_false (c : Chip) (d : Nat) : c.gateLevel d false = c.flag d DLINK DLINK.GATE_CTRL 15 := Bool.false_bne _

@[simp] theorem Chip.gateLevel_true (c : Chip) (d : Nat) : c.gateLevel d true = !c.flag d DLINK DLINK.GATE_CTRL 15 := Bool.true_bne _

theorem Chip.gatesRun_eq_false {c : Chip} {d : Nat}
    (h : c.formed d = false ∨ c.hasEntry d = false ∨ c.flag d DLINK DLINK.GATE_CTRL 7 = false) : c.gatesRun d = false := by
  rcases h with h | h | h <;> simp [Chip.gatesRun, h]

section
variable {c : Chip} {d : Nat} {on : Nat → Bool}

theorem Chip.pulse_stopped (h : c.gatesRun d = false) : c.pulse d on = false := by simp [Chip.pulse, h]

theorem Chip.pulse_outside (h : on (c.get d TGEN TGEN.POSITION 31 16) = false) : c.pulse d on = false := by simp [Chip.pulse, h]

/-- Before RISE has passed in the first line of a stretch. -/
theorem Chip.pulse_beforeRise
    (hfirst : on ((c.get d TGEN TGEN.POSITION 31 16 + (c.out d).lines - 1) % (c.out d).lines) = false)
    (hrise : c.now < (c.out d).lineAt + c.get d DLINK DLINK.GATE_CTRL 23 16) : c.pulse d on = false := by
  simp [Chip.pulse, hfirst, Nat.not_le.2 hrise]

/-- In a line between two lines of a stretch. -/
theorem Chip.pulse_between (hrun : c.gatesRun d = true)
    (hbefore : on ((c.get d TGEN TGEN.POSITION 31 16 + (c.out d).lines - 1) % (c.out d).lines) = true)
    (hline : on (c.get d TGEN TGEN.POSITION 31 16) = true)
    (hafter : on ((c.get d TGEN TGEN.POSITION 31 16 + 1) % (c.out d).lines) = true) : c.pulse d on = true := by
  simp [Chip.pulse, hrun, hbefore, hline, hafter]

end

theorem Chip.gck_of_pulse {c : Chip} {d k : Nat} {b : Bool} (h : c.pulse d (c.clockLine d k) = b) : c.gck d k = c.gateLevel d b :=
  congrArg _ h

theorem Chip.stvA_of_pulse {c : Chip} {d : Nat} {b : Bool} (h : c.pulse d (c.startLine d) = b) : c.stvA d = c.gateLevel d b :=
  congrArg _ h

/-- With B_MODE = 0, STVd_B is STVd_A. -/
theorem Chip.stvB_copies {c : Chip} {d : Nat} (h : c.get d DLINK DLINK.GATE_CTRL 13 12 = 0) : c.stvB d = c.stvA d := by
  simp [Chip.stvB, Chip.stvA, h]

/-- Otherwise it is inactive. -/
theorem Chip.stvB_inactive {c : Chip} {d : Nat} (h : c.get d DLINK DLINK.GATE_CTRL 13 12 ≠ 0) :
    c.stvB d = c.flag d DLINK DLINK.GATE_CTRL 15 := by
  simp [Chip.stvB, h]

theorem Chip.stvB_stopped {c : Chip} {d : Nat} (h : c.gatesRun d = false) : c.stvB d = c.flag d DLINK DLINK.GATE_CTRL 15 := by
  simp [Chip.stvB, Chip.pulse_stopped h]

theorem gatePins : Claim.GatePins := by
  intro c d k pol t line
  have hinactive (h : c.pulse d (c.clockLine d k) = false) : c.gck d k = pol := (Chip.gck_of_pulse h).trans (c.gateLevel_false d)
  refine ⟨fun hstop => ?stopped, Chip.stvB_copies, Chip.stvB_inactive, fun n hn hv => ⟨Chip.clockLine_iff hn k hv, Chip.startLine_iff hn⟩,
    fun hout => hinactive (Chip.pulse_outside hout), fun hrun hbefore hline hafter => ?between,
    fun hfirst hrise => hinactive (Chip.pulse_beforeRise hfirst hrise)⟩
  case stopped =>
    have hrun := Chip.gatesRun_eq_false hstop
    exact ⟨hinactive (Chip.pulse_stopped hrun), (Chip.stvA_of_pulse (Chip.pulse_stopped hrun)).trans (c.gateLevel_false d),
      Chip.stvB_stopped hrun⟩
  case between => exact (Chip.gck_of_pulse (Chip.pulse_between hrun hbefore hline hafter)).trans (c.gateLevel_true d)

/-- Settles O55: the staged number is in effect, new or refused; the lines of an entry telescope to its frame; a write of BL_PWM with
SYNC = 0 starts the period; the windows of the gate pins follow from arithmetic modulo the lines of the frame. -/
theorem timingEntries : Obligations.TimingEntries := ⟨timingSets, lineLengths, backlightPwm, gatePins⟩

end Sys2Proof.Machine
end

section
/-! PROOFS. The step (O1), and the canonical form of the byte memories (O6; R85, R329, R380): every operation of the state keeps it, whatever the state.
One lemma for an operation, in the order in which they call each other. -/

namespace Sys2Proof.Machine

/-- The byte memories are in canonical form. A structure, so that no proof about a state unfolds what the state was made by. -/
structure State.Canon (s : State) : Prop where
  wf : s.mem.wf = true

/-! ### The memories (R101, R133, R329, R356) -/

theorem Chip.putGranules_wf (c : Chip) (d ch n g : Nat) (bs : List Byte) {m : Mem} (h : m.wf = true) :
    (c.putGranules d ch n g bs m).wf = true := by
  induction n generalizing g bs m with
  | zero => exact h
  | succ n ih => exact ih _ _ (m.wf_setSlot _ _ _ h)

/-- What OFF leaves: the flash. -/
theorem Mem.wf_off {m : Mem} (h : m.wf = true) : Mem.wf { m with baskets := [], dram := [] } = true :=
  (Mem.wf_iff _).2 ⟨(m.wf_iff.1 h).1, rfl, rfl⟩

theorem State.Canon.ite {p : Prop} [Decidable p] {a b : State} (ha : a.Canon) (hb : b.Canon) : (if p then a else b).Canon := by
  split
  · exact ha
  · exact hb

theorem State.Canon.each {α : Type} {f : State → α → State} {s : State} (h : s.Canon) (l : List α)
    (hf : ∀ {s : State}, s.Canon → ∀ x, (f s x).Canon) : (s.each l f).Canon :=
  ⟨s.wf_each l f (fun _ x hs => (hf ⟨hs⟩ x).wf) h.wf⟩

/-- Items taken one after the other, with a result that is collected beside the state. -/
theorem State.Canon.foldl {α β : Type} {f : State × β → α → State × β} {s : State} (h : s.Canon) (b : β) (l : List α)
    (hf : ∀ {q : State × β}, q.1.Canon → ∀ x, (f q x).1.Canon) : (l.foldl f (s, b)).1.Canon :=
  List.foldlRecOn l f (motive := fun q => q.1.Canon) h fun _ hq x _ => hf hq x

section
variable {s : State} (h : s.Canon)
include h

theorem State.Canon.up (f : Chip → Chip) : (s.up f).Canon := ⟨h.wf⟩

theorem State.Canon.mapMem {f : Mem → Mem} (hf : ∀ {m : Mem}, m.wf = true → (f m).wf = true) : (s.mapMem f).Canon := ⟨hf h.wf⟩

theorem State.Canon.when (b : Bool) {f : State → State} (hf : ∀ {s : State}, s.Canon → (f s).Canon) : (s.when b f).Canon :=
  ⟨s.wf_when b f (hf h).wf h.wf⟩

theorem State.Canon.setWord (a : Nat) (w : Word) : (s.setWord a w).Canon := ⟨s.wf_setWord a w h.wf⟩

theorem State.Canon.setBytes (a : Nat) (bs : List Byte) : (s.setBytes a bs).Canon := ⟨s.wf_setBytes a bs h.wf⟩

/-! ### The log, fault codes, modes and completions -/

theorem State.Canon.finish (r : Req) (st dt : Nat) (bs : List Byte) : (s.finish r st dt bs).Canon := h.up _

theorem State.Canon.done (r : Req) (st : Nat) : (s.done r st).Canon := h.finish r st 0 []

theorem State.Canon.log (d type page code arg : Nat) : (s.log d type page code arg).Canon := ⟨s.wf_log d type page code arg h.wf⟩

theorem State.Canon.latch (d p code : Nat) : (s.latch d p code).Canon := ⟨s.wf_latch d p code h.wf⟩

theorem State.Canon.fatal (d code : Nat) : (s.fatal d code).Canon := ⟨s.wf_fatal d code h.wf⟩

theorem State.Canon.changeMode (o old new cause first : Nat) : (s.changeMode o old new cause first).Canon :=
  ⟨s.wf_changeMode o old new cause first h.wf⟩

/-! ### Frame memory (R351 to R379) -/

theorem State.Canon.pairMismatch (d stage : Nat) : (s.pairMismatch d stage).Canon :=
  .ite ((((h.up _).up _).fatal ..).up _) (h.up _)

theorem State.Canon.channelLost (d ch : Nat) : (s.channelLost d ch).Canon := (h.up _).latch ..

theorem State.Canon.uncorrectable (d ch rank : Nat) : (s.uncorrectable d ch rank).Canon :=
  have hlost := h.channelLost d ch
  .ite h <| .ite (h.up _) <| .ite (.ite h ((h.up _).channelLost ..)) <|
    .ite (.ite ((h.up _).latch ..) (.ite hlost h)) <| .ite h <| .ite (h.up _) hlost

theorem State.Canon.migrateDone (d ch : Nat) : (s.migrateDone d ch).Canon := .ite ((h.latch ..).up _) h

theorem State.Canon.rankSpare (r : Req) (d ch rank : Nat) : (s.rankSpare r d ch rank).Canon :=
  .ite (h.done ..) <| .ite h <| .ite (h.finish ..) (h.up _)

theorem State.Canon.slotError (d ch cs : Nat) (stale : Bool) : (s.slotError d ch cs stale).Canon :=
  .ite h <| .ite ((h.up _).uncorrectable ..) (h.up _)

theorem State.Canon.readFailed (d slot shown consumer cause : Nat) : (s.readFailed d slot shown consumer cause).Canon :=
  .ite ((h.up _).slotError ..) <| .ite ((h.up _).slotError ..) (h.up _)

theorem State.Canon.writeSlot (d slot : Nat) (bs : List Byte) : (s.writeSlot d slot bs).Canon :=
  .ite ((h.mapMem fun {m} hm => m.wf_storeHamper d slot bs hm).up _) h

theorem State.Canon.putHamper (d slot : Nat) (bs : List Byte) : (s.putHamper d slot bs).Canon := (h.writeSlot ..).up _

theorem State.Canon.storeTile (d slot owner seq : Nat) (ctrl : Bool × Bool) (subst checkFails : Bool) (px : List Px) :
    (s.storeTile d slot owner seq ctrl subst checkFails px).Canon := by
  unfold State.storeTile
  exact (h.putHamper ..).up _

theorem State.Canon.commandError (d ch rank : Nat) : (s.commandError d ch rank).Canon :=
  .ite h <| .ite ((h.up _).uncorrectable ..) (h.up _)

theorem State.Canon.dramFreq (r : Req) (d mask t : Nat) : (s.dramFreq r d mask t).Canon :=
  .ite (h.done ..) <| .ite (h.done ..) <| .ite (h.finish ..) <| .ite (h.done ..) h

theorem State.Canon.freqDone (d : Nat) : (s.freqDone d).Canon := by
  refine .ite h ((h.up _).each _ fun {s} h k => ?_)
  split
  · exact (h.up _).uncorrectable ..
  · exact h

theorem State.Canon.dramConfig (r : Req) (d : Nat) (p : List Byte) : (s.dramConfig r d p).Canon :=
  have hinit := (h.mapMem fun {m} hm => m.wf_dropSlots d _ hm).up _
  .ite (h.done ..) <| .ite ((hinit.up _).finish ..) <| .ite ((hinit.up _).finish ..) hinit

theorem State.Canon.dramConfigDone (d ch : Nat) (x : ConfigOutcome) : (s.dramConfigDone d ch x).Canon := by
  unfold State.dramConfigDone
  extract_lets
  split
  · exact h
  · split
    · exact .ite (((h.latch ..).up _).finish ..) <| .ite (((h.latch ..).up _).finish ..) <|
        ((State.Canon.ite (h.latch ..) (.ite (h.latch ..) h)).up _).done ..
    · exact h

/-! ### Layers and panel tables (R219 to R272) -/

theorem State.Canon.layerCommit (r : Req) (o : Nat) : (s.layerCommit r o).Canon := by
  refine .ite (h.done ..) ?_
  split
  · exact (h.up _).finish ..
  · extract_lets
    split
    · exact (h.up _).finish ..
    · exact h.up _

theorem State.Canon.tileFetched (d n tx ty : Nat) : (s.tileFetched d n tx ty).Canon := by
  refine .ite ?_ h
  split
  · exact h.up _
  · exact (h.readFailed ..).up _

theorem State.Canon.freezeDigest (n : Nat) : (s.freezeDigest n).Canon := by
  unfold State.freezeDigest
  extract_lets
  split
  · exact h
  · exact .ite (h.up _) (.ite (h.up _) (h.up _))

theorem State.Canon.putRows (d : Nat) (m : DemuraMap) (rows : KMap (List Byte)) : (s.putRows d m rows).Canon :=
  h.each _ fun h _ => h.mapMem fun hm => List.foldlRecOn rows _ (motive := fun mem : Mem => mem.wf = true) hm
    fun _ hmem _ _ => Chip.putGranules_wf _ _ _ _ _ _ hmem

theorem State.Canon.putLate (d : Nat) (m : DemuraMap) : (s.putLate d m).1.Canon := by
  unfold State.putLate
  split
  · exact h
  · exact h.putRows ..

theorem State.Canon.takeDemura (d p cols rows first total : Nat) (body : List Byte) :
    (s.takeDemura d p cols rows first total body).Canon := by
  unfold State.takeDemura
  refine State.Canon.up ?_ _
  split
  · exact h
  · exact (h.putLate ..).putRows ..

theorem State.Canon.takeImage (d p : Nat) (img : Image) : (s.takeImage d p img).Canon := by
  unfold State.takeImage
  split
  · exact h.takeDemura ..
  · exact h.up _

theorem State.Canon.tableLoadDone (d : Nat) (readError : Bool) : (s.tableLoadDone d readError).Canon := by
  unfold State.tableLoadDone
  extract_lets c
  split
  · exact h
  · split
    · extract_lets words read u v
      have hv : v.Canon := (h.up _).when _ fun h => h.log ..
      refine .ite (hv.up _) ?_
      extract_lets
      split
      · exact hv.up _
      · exact (hv.takeImage ..).up _
    · exact h

theorem State.Canon.panelStep (o p : Nat) : (s.panelStep o p).Canon := by
  refine (h.up _).each _ fun {s} h d => State.Canon.up ?_ _
  dsimp only
  split <;> split <;> simp only [h, State.Canon.putLate]

theorem State.Canon.prevTile (d tx ty lead : Nat) : (s.prevTile d tx ty lead).Canon := by
  unfold State.prevTile
  extract_lets
  split
  · exact h
  · refine .ite ?_ h
    extract_lets
    split
    · exact h.up _
    · exact (h.readFailed ..).up _

theorem State.Canon.demuraRow (d row : Nat) (good : Bool) : (s.demuraRow d row good).Canon := by
  unfold State.demuraRow
  extract_lets c o y ch u failed
  have hfailed : ∀ m, (failed m).Canon := fun m => (h.up _).slotError ..
  split
  · exact h
  · refine .ite h ?_
    split
    · exact .ite (h.up _) (hfailed _)
    · exact hfailed _

/-! ### Modes (R58 to R80) -/

theorem State.Canon.enterMode (o m cause first : Nat) : (s.enterMode o m cause first).Canon := (h.up _).changeMode ..

theorem State.Canon.enterSafe (o cause first : Nat) : (s.enterSafe o cause first).Canon := (h.up _).enterMode ..

theorem State.Canon.lossBoundary (o f : Nat) : (s.lossBoundary o f).Canon := by
  refine .ite h (.ite (h.up _) ?_)
  split
  · exact .ite ((h.up _).enterMode ..) ((h.up _).up _)
  · exact .ite ((h.up _).up _) ((h.up _).enterSafe ..)

theorem State.Canon.windowEnd (o f cause : Nat) : (s.windowEnd o f cause).Canon := (h.up _).enterMode ..

theorem State.Canon.pendingMode (o f : Nat) (r : Req) (m flags window : Nat) : (s.pendingMode o f r m flags window).Canon :=
  .ite ((h.up _).finish ..) <| .ite (h.done ..) <| .ite (h.done ..) <| .ite (h.done ..) <|
    .ite (((h.windowEnd ..).when _ fun h => h.up _).finish ..) <|
      ((((h.when _ fun h => h.up _).enterMode ..).when _ fun h => h.up _).when _ fun h => h.up _).finish ..

theorem State.Canon.boundaryModes (o f : Nat) : (s.boundaryModes o f).Canon := by
  unfold State.boundaryModes
  extract_lets u v m left t w
  have hu : u.Canon := by
    unfold u
    split
    · exact .ite (h.enterSafe ..) h
    · exact h
  have hv : v.Canon := hu.lossBoundary ..
  have hw : w.Canon := .ite (hv.enterMode ..) <| .ite (.ite ((hv.up _).windowEnd ..) (hv.up _)) <| .ite (hv.enterMode ..) hv
  split
  · refine .ite (hw.up _) ?_
    split
    · exact hw.pendingMode ..
    · exact hw
  · exact hw

/-! ### Faults, the core voltage and temperature (R417 to R464) -/

theorem State.Canon.fatalLatch (d code : Nat) : (s.fatalLatch d code).Canon :=
  have hlog := (h.up _).log ..
  .ite (hlog.enterSafe ..) hlog

theorem State.Canon.latchedClear (d : Nat) (w : Word) : (s.latchedClear d w).Canon :=
  h.each _ fun h _ => .ite ((h.up _).log ..) h

theorem State.Canon.codeClear (d p : Nat) : (s.codeClear d p).Canon := .ite h ((h.up _).log ..)

theorem State.Canon.escalate (d : Nat) : (s.escalate d).Canon := (h.up _).fatal ..

theorem State.Canon.wdogExpire (d : Nat) : (s.wdogExpire d).Canon :=
  have hlog := (h.up _).log ..
  .ite (.ite (hlog.escalate _) (hlog.up _)) h

theorem State.Canon.judgeTemp (d : Nat) : (s.judgeTemp d).Canon := .ite (((h.up _).fatal ..).up _) (h.up _)

theorem State.Canon.pwrStepPoint (d : Nat) : (s.pwrStepPoint d).Canon := .ite h <| .ite ((h.up _).judgeTemp _) (h.up _)

theorem State.Canon.loopPeriod (d : Nat) (worst : Int) : (s.loopPeriod d worst).Canon := .ite (((h.up _).fatal ..).up _) (h.up _)

theorem State.Canon.avsSend (d : Nat) (answered : Bool) : (s.avsSend d answered).Canon :=
  .ite h <| .ite (h.up _) <| .ite (h.up _) ((h.up _).latch ..)

theorem State.Canon.avsPeriod (d measured : Nat) (answered : Bool) : (s.avsPeriod d measured answered).Canon := by
  unfold State.avsPeriod
  extract_lets c now worst s1 first s2 s3 s4 s5
  have h1 : s1.Canon := h.up _
  have h2 : s2.Canon := .ite h1 (h1.pwrStepPoint d)
  have h3 : s3.Canon := h2.up _
  have h4 : s4.Canon := .ite (h3.loopPeriod ..) h3
  have h5 : s5.Canon := .ite (h4.avsSend ..) h4
  exact .ite (h5.pwrStepPoint d) h5

/-! ### Baskets and margins (R380 to R416) -/

theorem State.Canon.aliasWrite (d a : Nat) (set : Bool) (w : Word) : (s.aliasWrite d a set w).1.Canon := by
  unfold State.aliasWrite
  extract_lets r u
  have hu : u.Canon := h.up _
  split
  · exact hu.setWord ..
  · exact hu

theorem State.Canon.retire (d i : Nat) : (s.retire d i).Canon :=
  .ite ((h.latch ..).up _) ((h.when _ fun h => h.latch ..).up _)

theorem State.Canon.testRegion (d : Nat) (fails1 fails2 : Bool) : (s.testRegion d fails1 fails2).Canon := by
  unfold State.testRegion
  split
  · exact h
  · exact (((((h.up _).when _ fun h => h.up _).when _ fun h => h.up _).when _ fun h => h.retire ..).up _)

theorem State.Canon.rankScanDone (d ch rank : Nat) (l : List LaneWindow) : (s.rankScanDone d ch rank l).Canon :=
  .ite ((State.Canon.ite ((h.up _).uncorrectable ..) (h.up _)).up _) h

/-! ### Gangs, firmware and boot (R29 to R45, R81 to R104, R426 to R444) -/

theorem State.Canon.formOutput (o : Nat) (due : List (Nat × Nat)) : (s.formOutput o due).Canon := by
  rw [State.formOutput_eq]
  extract_lets u
  have hu : u.Canon := (h.up _).changeMode ..
  split
  · exact hu.enterSafe ..
  · exact hu

theorem State.Canon.gangApply : s.gangApply.Canon :=
  .ite h <| .ite (h.up _) (((h.up _).each _ fun h o => h.formOutput o _).up _)

theorem State.Canon.imageVerify (d : Nat) (copyGood : Bool) : (s.imageVerify d copyGood).Canon := by
  unfold State.imageVerify
  extract_lets c
  split
  · exact .ite (h.up _) (h.up _)
  · split
    · exact .ite (h.up _) (h.up _)
    · exact h.up _
  · exact h

theorem State.Canon.fwRestart : s.fwRestart.Canon := by
  unfold State.fwRestart
  split
  · exact h
  · split
    · extract_lets c rom words read u env
      have hu : u.Canon := h.up _
      clear_value env
      refine .ite h ?_
      split
      · exact hu.finish ..
      · extract_lets v
        have hv : v.Canon := hu.each _ fun h _ => h.setBytes ..
        split
        · exact hv.finish ..
        · exact hv.up _
    · exact h

theorem State.Canon.deriveIdentity (entropyOk : Bool) : (s.deriveIdentity entropyOk).Canon :=
  .ite h <| .ite ((h.up _).up _) ((h.up _).latch ..)

theorem State.Canon.calApply (p : Profile) : (s.calApply p).Canon := by
  unfold State.calApply
  split <;> exact h.up _

theorem State.Canon.profileApply (p : Profile) : (s.profileApply p).Canon :=
  .ite h <| .ite (h.up _) (((h.up _).gangApply.up _).calApply _)

theorem State.Canon.aonUp (d : Nat) (temp : Option Int) : (s.aonUp d temp).Canon := by
  unfold State.aonUp
  extract_lets u
  have hu : u.Canon := h.up _
  split
  · exact hu
  · exact .ite (((hu.up _).fatal ..).up _) (hu.up _)

theorem State.Canon.formAll (old : Nat) : (s.formAll old).Canon :=
  (h.each _ fun h _ => h.changeMode ..).each _ fun h _ => h.log ..

theorem State.Canon.pllLock : s.pllLock.Canon := .ite h ((h.up _).formAll _)

theorem State.Canon.wakeDie (d : Nat) : (s.wakeDie d).Canon := by
  unfold State.wakeDie
  split
  · exact .ite (h.up _) (h.up _)
  · exact h.up _

theorem State.Canon.wake (r : Req) : (s.wake r).Canon := by
  unfold State.wake
  exact (((h.up _).formAll _).each _ fun h d => h.wakeDie d).up _

theorem State.Canon.safeLeave (r : Req) (o flags first : Nat) : (s.safeLeave r o flags first).Canon :=
  ((h.enterMode ..).up _).finish ..

theorem State.Canon.safeExit (r : Req) (o flags : Nat) : (s.safeExit r o flags).Canon :=
  .ite (h.done ..) <| .ite (h.safeLeave ..) <| .ite (h.up _) h

theorem State.Canon.safeExitBoundary (o f : Nat) : (s.safeExitBoundary o f).Canon := by
  unfold State.safeExitBoundary
  split
  · refine .ite (h.up _) ?_
    split
    · exact .ite (h.safeLeave ..) h
    · exact h
  · exact h

/-! ### Scan-out and the timing generator (R273 to R299, R341) -/

theorem State.Canon.encoded (d tx ty : Nat) (checkFails : Bool) : (s.encoded d tx ty checkFails).Canon := by
  unfold State.encoded
  extract_lets y
  split
  · exact h
  · extract_lets u up v
    have hu : u.Canon := h.up _
    have hv : v.Canon := by
      unfold v
      split
      · exact hu.storeTile ..
      · exact hu.putHamper ..
    split <;> exact hv.up _

theorem State.Canon.closeDie (o line d : Nat) : (s.closeDie o line d).Canon := by
  unfold State.closeDie
  exact (h.up _).up _

theorem State.Canon.closeLine (o : Nat) : (s.closeLine o).Canon := by
  unfold State.closeLine
  split
  · exact h
  · exact (h.each _ fun h d => h.closeDie o _ d).up _

theorem State.Canon.lineStart (o : Nat) : (s.lineStart o).Canon := by
  refine .ite h ?_
  split
  · exact h
  · have hclose := (h.up fun c => c.hush o).closeLine o
    refine State.Canon.up ?_ _
    split
    · exact .ite hclose (hclose.enterSafe ..)
    · exact hclose

theorem State.Canon.heldTile (d tx ty : Nat) : (s.heldTile d tx ty).Canon := by
  unfold State.heldTile
  extract_lets
  split
  · exact h
  · split
    · exact h
    · refine .ite ?_ h
      extract_lets
      split
      · exact h.up _
      · exact (h.readFailed ..).up _

theorem State.Canon.pairEvent (d stage : Nat) : (s.pairEvent d stage).Canon := .ite h ((h.up _).pairMismatch ..)

theorem State.Canon.splashDone (o : Nat) : (s.splashDone o).Canon := by
  refine .ite h ?_
  split
  · exact h.up _
  · exact (h.each _ fun h _ => h.each _ fun h _ => h.each _ fun h _ => h.putHamper ..).up _

theorem State.Canon.classify (o : Nat) : (s.classify o).Canon := .ite ((h.up _).log ..) (h.up _)

theorem State.Canon.losePlanes (o : Nat) (old : ModeEntry) : (s.losePlanes o old).Canon := by
  unfold State.losePlanes
  exact (h.each _ fun h d => h.mapMem fun {m} hm => m.wf_dropSlots d _ hm).up _

theorem State.Canon.changeover (o f : Nat) : (s.changeover o f).Canon :=
  .ite h (((h.up _).when _ fun h => (h.losePlanes ..).up _).up _)

theorem State.Canon.panelDue (o : Nat) : (s.panelDue o).Canon := h.each _ fun h _ => .ite (h.panelStep ..) h

theorem State.Canon.endFrame (o f : Nat) : (s.endFrame o f).Canon := by
  unfold State.endFrame
  exact (((h.closeLine o).up _).classify o).up _

theorem State.Canon.frameBoundary (o : Nat) : (s.frameBoundary o).Canon :=
  .ite h ((((((((h.up _).endFrame ..).up _).boundaryModes ..).safeExitBoundary ..).panelDue _).when _ fun h => h.changeover ..).up _)

theorem State.Canon.timingStart (o : Nat) : (s.timingStart o).Canon := .ite h ((h.panelDue o).up _)

/-! ### Registers and baskets over the ports (R132 to R152) -/

theorem State.Canon.readWord (port : Port) (d x : Nat) : (s.readWord port d x).1.Canon := by
  unfold State.readWord
  split <;> dsimp only
  case h_5 => exact h
  all_goals exact h.up _

omit h in
theorem State.Canon.readWords (port : Port) (d : Nat) (l : List Nat) (h : s.Canon) : (s.readWords port d l).1.Canon := by
  induction l generalizing s with
  | nil => exact h
  | cons x l ih => exact ih (h.readWord port d x)

theorem State.Canon.stepPoint (d p : Nat) : (s.stepPoint d p).Canon := by
  refine .ite h ?_
  split
  · exact h
  · split
    · exact h.gangApply
    · exact h.pwrStepPoint d
    case h_8 | h_9 | h_10 => exact .ite (h.panelStep ..) h
    all_goals exact h.up _

theorem State.Canon.actWrite (d pg : Nat) (k : PageKind) (o : Nat) (w : Word) : (s.actWrite d pg k o w).Canon := by
  have hstore : (s.up fun c => c.storeWord d pg k o w).Canon := h.up _
  unfold State.actWrite
  extract_lets
  split
  · exact .ite (h.latchedClear ..) <| .ite (hstore.codeClear ..) <| .ite (h.up _) hstore
  · exact .ite (h.up _) <| .ite (h.up _) <| .ite (h.up _) hstore
  · exact .ite (h.up _) <| .ite (hstore.up _) hstore
  · exact .ite (hstore.up _) hstore
  · exact .ite hstore (.ite h (h.up _))
  · exact .ite (hstore.up _) (.ite (hstore.up _) hstore)
  · exact .ite (hstore.up _) (.ite (hstore.up _) hstore)
  · exact .ite (hstore.up _) hstore
  · exact .ite (hstore.up _) hstore
  · exact .ite (h.up _) hstore
  · exact .ite (h.up _) hstore
  · exact .ite (hstore.up _) hstore
  · exact hstore

theorem State.Canon.writeReg (d pg o : Nat) (w : Word) : (s.writeReg d pg o w).Canon := by
  unfold State.writeReg
  split
  · exact h
  · exact .ite h <| .ite (h.actWrite ..) <| .ite (h.up _) <| .ite (h.up _) <| .ite (h.up _) (h.actWrite ..)

theorem State.Canon.portWrite (port : Port) (d pg o : Nat) (w : Word) : (s.portWrite port d pg o w).Canon := by
  unfold State.portWrite
  exact ((h.writeReg ..).when _ fun h => h.up _).up _

theorem State.Canon.writeWord (port : Port) (master d x : Nat) (w : Word) : (s.writeWord port master d x w).1.Canon := by
  unfold State.writeWord
  extract_lets
  split
  · exact h.portWrite ..
  · exact (h.up _).setWord ..
  · exact (h.up _).aliasWrite ..
  · exact (h.up _).aliasWrite ..
  · exact h

theorem State.Canon.writeList (port : Port) (d : Nat) (l : List (Nat × Word)) : (s.writeList port d l).1.Canon :=
  h.foldl true l fun h a => h.writeWord port 5 d a.1 a.2

theorem State.Canon.writeWords (port : Port) (d x : Nat) (ws : List Word) : (s.writeWords port d x ws).1.Canon := h.writeList ..

theorem State.Canon.writeAtOnce (port : Port) (d x : Nat) (ws : List Word) : (s.writeAtOnce port d x ws).1.Canon := h.writeList ..

theorem State.Canon.regRead (r : Req) (d x n : Nat) : (s.regRead r d x n).Canon := by
  have hread := State.Canon.readWords r.port d (wordAddrs x n) h
  unfold State.regRead
  extract_lets
  split
  · exact hread.finish ..
  · exact hread.done ..

theorem State.Canon.regWrite (r : Req) (d x : Nat) (ws : List Word) : (s.regWrite r d x ws).Canon :=
  .ite ((h.up _).done ..) ((h.writeWords ..).done ..)

theorem State.Canon.bcastRead (r : Req) (x n : Nat) : (s.bcastRead r x n).Canon :=
  have hread : (s.chip.dies'.foldl (fun (q : State × List (Option (List Word))) d =>
      let y := q.1.readWords r.port d (wordAddrs x n); (y.1, q.2 ++ [y.2])) (s, [])).1.Canon :=
    h.foldl [] _ fun h d => State.Canon.readWords r.port d _ h
  .ite (h.done ..) <| .ite (hread.done ..) ((State.Canon.ite hread (hread.up _)).finish ..)

theorem State.Canon.bcastWrite (r : Req) (x : Nat) (ws : List Word) : (s.bcastWrite r x ws).Canon := .ite ((h.up _).done ..) (h.up _)

theorem State.Canon.directLoad (d : Nat) (a : Word) (x : DirectLoad) : (s.directLoad d a x).Canon := by
  refine .ite h (.ite (h.up _) ?_)
  split
  case h_1 => exact h.up _
  case h_5 => exact h
  all_goals exact .ite (h.up _) ((h.up _).latch ..)

theorem State.Canon.directStore (d : Nat) (a : Word) (store : DirectStore) : (s.directStore d a store).Canon :=
  have hwrite := h.writeWord (.steward d) 0 d (a.toNat % 0x1000000) store.value
  .ite h <| .ite (h.up _) <| .ite (h.up _) <| .ite hwrite ((hwrite.latch ..).up _)

theorem State.Canon.engineRead (d a n : Nat) : (s.engineRead d a n).1.Canon := by
  refine h.foldl [] _ fun h b => ?_
  dsimp only
  split <;> dsimp only
  · exact h.up _
  · exact ((h.up _).latch ..).up _

theorem State.Canon.logRead (r : Req) (index n : Nat) : (s.logRead r index n).Canon := by
  unfold State.logRead
  split
  · extract_lets q
    have hq : q.1.Canon := h.foldl [] _ fun h k => h.engineRead ..
    exact hq.finish ..
  · exact h.finish ..

/-! ### Commands and the transports (R105 to R131) -/

theorem State.Canon.run (r : Req) : (s.run r).Canon := by
  unfold State.run
  split
  case h_1 => exact .ite (h.bcastRead ..) (h.regRead ..)
  case h_2 => exact .ite (h.bcastWrite ..) (h.regWrite ..)
  case h_4 => exact h.wake _
  case h_7 => exact h.safeExit ..
  case h_10 => exact h.layerCommit ..
  case h_15 => exact h.dramConfig ..
  case h_16 => exact h.dramFreq ..
  case h_17 => exact h.rankSpare ..
  case h_21 => exact h.finish ..
  case h_22 => exact h
  case h_25 => exact h.logRead ..
  all_goals exact h.up _

theorem State.Canon.launch (r : Req) : (s.launch r).Canon := by
  unfold State.launch
  extract_lets c dies r' u st
  have hu : u.Canon := h.up _
  exact .ite (h.up _) (.ite (hu.run _) (hu.done ..))

theorem State.Canon.offer (r : Req) : (s.offer r).Canon := .ite (h.up _) (h.launch r)

theorem State.Canon.release : s.release.Canon := (h.up _).each _ fun h r => h.offer r

theorem State.Canon.accept (a : Arrival) : (s.accept a).Canon := by
  unfold State.accept
  extract_lets c x u refuse st
  have hu : u.Canon := h.up _
  have hrefuse : ∀ st, (refuse st).Canon := fun st => hu.up _
  refine .ite h (.ite (h.up _) (.ite (h.up _) ?_))
  split
  · exact hrefuse st
  · exact .ite (hrefuse st) (.ite (hu.offer _) (.ite ((hu.up _).run _) ((hu.up _).done ..)))

theorem State.Canon.bcastApply (late : List Nat) : (s.bcastApply late).Canon := by
  unfold State.bcastApply
  extract_lets c
  split
  · exact h
  · refine .ite h ?_
    extract_lets q u v
    have hq : q.1.Canon := by
      refine h.foldl true _ fun h d => ?_
      dsimp only
      exact (h.writeAtOnce ..).up _
    have hu : u.Canon := hq.up _
    have hv : v.Canon := by
      unfold v
      split
      · exact hu.done ..
      · exact hu
    exact hv.release

theorem State.Canon.msgWrite (bs : List Byte) : (s.msgWrite bs).Canon := .ite h <| .ite (h.accept _) (h.up _)

theorem State.Canon.msgIoUpdate (bs : List Byte) : (s.msgIoUpdate bs).Canon := .ite (h.accept _) h

theorem State.Canon.mailboxTake (d : Nat) : (s.mailboxTake d).Canon :=
  have hheads := h.engineRead d (basketAddr d 0 0) 2
  .ite h <| .ite hheads (((hheads.engineRead ..).setWord ..).accept _)

theorem State.Canon.mailboxOut (d : Nat) : (s.mailboxOut d).Canon := by
  refine .ite h ?_
  split
  · exact h
  · have hheads := h.engineRead d (basketAddr d 1 0) 2
    exact .ite hheads (((hheads.setBytes ..).setWord ..).up _)

theorem State.Canon.linkRx (d f : Nat) (lanes : List LaneRx) (noRoom : List Nat) : (s.linkRx d f lanes noRoom).Canon := by
  unfold State.linkRx
  extract_lets c r u
  have hu : u.Canon := h.up _
  refine .ite h (.ite hu ?_)
  split
  · refine .ite (hu.up _) (.ite (hu.up _) (.ite ?_ (hu.up _)))
    extract_lets q v
    have hv : v.Canon := hu.up _
    split
    · exact hv.accept _
    · exact hv
  · exact hu

/-! ### What may change the boot flash (R101, R124) -/

theorem State.Canon.spoilWrite (r : Req) : (s.spoilWrite r).Canon := by
  unfold State.spoilWrite
  split
  · exact .ite (h.mapMem fun {m} hm => m.wf_spoilFlash _ _ hm) h
  · exact h

theorem State.Canon.flashWriteDone : s.flashWriteDone.Canon := by
  unfold State.flashWriteDone
  split
  · exact h
  · split
    · refine State.Canon.done (h.mapMem fun {m} hm => ?_) _ _
      split
      · exact m.wf_eraseSector _ hm
      · exact m.wf_programBytes _ _ hm
    · exact h

theorem State.Canon.timedOut (r : Req) : (s.timedOut r).Canon := by
  refine .ite h ?_
  split
  case h_13 => exact h.spoilWrite r
  case h_14 => exact h
  all_goals exact h.up _

theorem State.Canon.timeLimit (p : Port) (tag : Byte) : (s.timeLimit p tag).Canon := by
  unfold State.timeLimit
  extract_lets
  split
  · exact h
  · extract_lets u
    have hu : u.Canon := (h.up _).timedOut _
    exact .ite hu.release hu

theorem State.Canon.powerOff : s.powerOff.Canon := ((h.each _ fun h r => h.spoilWrite r).mapMem Mem.wf_off).up _

theorem State.Canon.brownOut (d : Nat) : (s.brownOut d).Canon := h.powerOff.up _

theorem State.Canon.standbyDown : s.standbyDown.Canon :=
  .ite h <| State.Canon.up (((h.each _ fun h r => h.spoilWrite r).up _).mapMem fun {m} hm => m.wf_lose _ hm) _

theorem State.Canon.pllLoss (d : Nat) (p : Pll) : (s.pllLoss d p).Canon := by
  refine .ite h ?_
  cases p with
  | core => exact (h.up _).brownOut d
  | mem ch => exact .ite (h.up _) ((h.up _).up _)
  | lane k => exact (h.up _).up _

end

/-! ### The rows of the table -/

/-- An outcome whose next state, if it is one, has its memories in canonical form. -/
structure NextCanon (x : Host.Outcome State Fault Refusal) : Prop where
  canon : ∀ t, x = .next t → t.Canon

theorem NextCanon.next {t : State} (h : t.Canon) : NextCanon (.next t) := ⟨fun _ ht => Host.Outcome.next.inj ht ▸ h⟩

theorem NextCanon.fault (f : Fault) : NextCanon (.fault f) := ⟨fun _ ht => by cases ht⟩

theorem NextCanon.ite {p : Prop} [Decidable p] {x y : Host.Outcome State Fault Refusal} (hx : NextCanon x) (hy : NextCanon y) :
    NextCanon (if p then x else y) := by
  split
  · exact hx
  · exact hy

section
variable {s : State} {f : State → State} {d k p : Nat} (h : (f s).Canon)
include h

theorem NextCanon.onDie : NextCanon (onDie s d f) := .ite (.next h) (.fault _)
theorem NextCanon.onLane : NextCanon (onLane s d k f) := .ite (.next h) (.fault _)
theorem NextCanon.onChannel : NextCanon (onChannel s d k f) := .ite (.next h) (.fault _)
theorem NextCanon.onDriver : NextCanon (onDriver s d k p f) := .ite (.next h) (.fault _)
theorem NextCanon.onLayer : NextCanon (onLayer s d k f) := .ite (.next h) (.fault _)
theorem NextCanon.onOutput (hs : s.Canon) : NextCanon (onOutput s d f) := .ite (.next (.ite h hs)) (.fault _)

end

theorem NextCanon.onGroup {s : State} {d g : Nat} {f : State → Nat → State} (h : ∀ n, (f s n).Canon) : NextCanon (onGroup s d g f) := by
  unfold Machine.onGroup
  split
  · split
    · exact .next (h _)
    · exact .fault _
  · exact .fault _

section
variable {s : State} (h : s.Canon)
include h

theorem NextCanon.command (hd : Hdr) (cmd : Cmd) : NextCanon (s.command hd cmd) := .ite (.next (h.accept _)) (.fault _)

/-- A write of PAGE_EVENT is a command message, and what it meets changes the chip only. -/
theorem NextCanon.pageEventClear (hd : Hdr) (p : Nat) (bits : Word) (sets : List Nat) :
    NextCanon (execPageEventClear hd p bits sets s) := by
  have hwrite : NextCanon (s.writeOne hd p PAGE_EVENT bits) := .command h ..
  unfold execPageEventClear
  split
  · rename_i t ht
    have hs : t.Canon := hwrite.canon t ht
    exact .next (.ite (hs.up _) hs)
  · exact hwrite

theorem NextCanon.schedulerIssue (d ch : Nat) (x : SchedCycle) : NextCanon (execSchedulerIssue d ch x s) := by
  refine .onChannel (.ite ?_ (h.up _))
  extract_lets
  split
  · exact h.commandError ..
  · exact h

theorem NextCanon.wcrcAlert (d ch slot : Nat) : NextCanon (execWcrcAlert d ch slot s) :=
  .onChannel (.ite h (.ite ((h.up _).up _) ((h.up _).uncorrectable ..)))

theorem NextCanon.vddqLoss (d ch : Nat) : NextCanon (execVddqLoss d ch s) := .onChannel (.ite ((h.up _).channelLost ..) (h.up _))

theorem NextCanon.wdogRestartTimeout (d : Nat) : NextCanon (execWdogRestartTimeout d s) := by
  refine .onDie ?_
  split
  · exact .ite (h.escalate d) h
  · exact h

theorem NextCanon.vfloor (d : Nat) : NextCanon (execVfloor d s) := .onDie (.ite (((h.up _).fatal ..).up _) h)

theorem NextCanon.thermalSample (d : Nat) (temps : List Int) : NextCanon (execThermalSample d temps s) :=
  .onDie (.ite (h.up _) (.ite (((h.pwrStepPoint d).up _).judgeTemp d) h))

theorem NextCanon.tsDeselect (d k : Nat) : NextCanon (execTsDeselect d k s) :=
  .onDie (.ite (.ite (h.up _) (.ite ((h.up _).judgeTemp d) h)) h)

theorem NextCanon.directoryRead : NextCanon (execDirectoryRead s) := by
  refine .next (.ite ?_ h)
  split <;> exact h.up _

theorem NextCanon.pllLoss (d : Nat) (pll : Pll) : NextCanon (execPllLoss d pll s) := by
  cases pll with
  | core => exact .onDie (f := fun s => s.pllLoss d _) (h.pllLoss d _)
  | mem ch => exact .onChannel (f := fun s => s.pllLoss d _) (h.pllLoss d _)
  | lane k => exact .ite (.next (h.pllLoss d _)) (.fault _)

theorem NextCanon.pllRelock (d : Nat) (pll : Pll) : NextCanon (execPllRelock d pll s) := by
  cases pll with
  | core => exact .onDie (f := fun s => s.up _) (h.up _)
  | mem ch => exact .onChannel (f := fun s => s.up _) (h.up _)
  | lane k => exact .ite (.next (h.up _)) (.fault _)

/-- Every row keeps the memories in canonical form: a command message (R109), or one of the rows below. -/
theorem exec_canon (i : Instr) : NextCanon (exec i s) := by
  cases hi : i.asCommand with
  | some m => exact exec_of_asCommand s hi ▸ NextCanon.command h m.1 m.2
  | none =>
  cases i <;> dsimp only [exec]
  case pageEventClear g p w sets => exact .pageEventClear h g p w sets
  case rateChange | phaseLimit | attemptDown | laneRetry | losDeclared | losCleared | lolDeclared | fomMeasured | adaptIdleHold |
      adaptHoldEnd | loopLock | loopErr | skpOrderedSetSend => exact .onLane (h.up _)
  case refreshDue | mr4Poll | rowIdleClose | powerDownEntry | selfRefreshEntry | lowPowerExit | migrateUnitCopy | vddqInRange |
      retentionHoldEnd => exact .onChannel (h.up _)
  case msgRead | statusRead | msgIoCapture | extest | idcode | samplePreload | extestPulse | extestTrain | highz | clamp | bypass |
      msgIo | porRelease | refclkRetry | sfdpRead | quoteSigned | internalResetEnd => exact .next (h.up _)
  case completionDelivered | timingTokenRx | timingTokenMiss | flitRetry | linkDown | drvCmdTimeout | haloRx | liveSegmentDeadline |
      tolUpdate | freqWindowOpen | correctionWriteBack | ramblerAbort | slackReport | avsRetry | wdogKick | stewardReady |
      otpProgramDone | calRunDone => exact .onDie (h.up _)
  case layoutArmed | teEdge | liveStreamLoss | releaseDrainDone | signatureReady | ageScanDone => exact .onOutput (h.up _) h
  case statusFrameRx | tempFrameRx | helloFrameRx | ackFrameRx | readDataFrameRx | retSilent | returnFrameDiscard =>
    exact .onDriver (h.up _)
  case layerOffNotice | compUnderrun | resendTimeout => exact .onLayer (h.up _)
  case scpReplayTimeout | skpOrderedSetRx => exact .onGroup fun _ => h.up _
  case bcastApply => exact .next (h.bcastApply _)
  case fwActivateRestart => exact .next h.fwRestart
  case flashWriteDone => exact .next h.flashWriteDone
  case commandTimeLimit => exact .onDie (h.timeLimit ..)
  case porAssert => exact .next (State.Canon.powerOff ⟨h.wf⟩)
  case brownOut => exact .onDie (h.brownOut _)
  case pllLoss => exact .pllLoss h ..
  case standbyPowerDown => exact .next h.standbyDown
  case msgWrite => exact .next (h.msgWrite _)
  case msgIoUpdate => exact .next (h.msgIoUpdate _)
  case aonReady => exact .next (.ite (h.each _ fun h d => h.aonUp d _) h)
  case pllLock => exact .next h.pllLock
  case directoryRead => exact .directoryRead h
  case profileApply => exact .next (h.profileApply _)
  case gangMapApply => exact .next h.gangApply
  case identityDerive => exact .next (h.deriveIdentity _)
  case freezeDigest => exact .ite (.next (h.freezeDigest _)) (.fault _)
  case stewardDirectLoad => exact .onDie (h.directLoad ..)
  case stewardDirectStore => exact .onDie (h.directStore ..)
  case commitStepPoint => exact .onDie (h.stepPoint ..)
  case mailboxCmdTake => exact .onDie (h.mailboxTake _)
  case mailboxOutWrite => exact .onDie (h.mailboxOut _)
  case imageVerify => exact .onDie (h.imageVerify ..)
  case prevFrameTileDone => exact .onDie (h.prevTile ..)
  case demuraRowDone => exact .onDie (h.demuraRow ..)
  case heldTileDone => exact .onDie (h.heldTile ..)
  case hamperEncodeDone => exact .onDie (h.encoded ..)
  case pairMismatch => exact .onDie (h.pairEvent ..)
  case freqDone => exact .onDie (h.freqDone _)
  case ramblerRegionTest => exact .onDie (.ite (h.testRegion ..) h)
  case avsPeriod => exact .onDie (.ite (h.avsPeriod ..) h)
  case vfloor => exact .vfloor h _
  case thermalSample => exact .thermalSample h ..
  case tsDeselect => exact .tsDeselect h ..
  case fatalCauseLatch => exact .onDie (.ite (h.fatalLatch ..) h)
  case wdogExpire => exact .onDie (h.wdogExpire _)
  case wdogRestartTimeout => exact .wdogRestartTimeout h _
  case tableLoadDone => exact .onDie (h.tableLoadDone ..)
  case tsOrderedSetRx => exact .onLane (.ite (h.up _) h)
  case rankScanDone => exact .onChannel (h.rankScanDone ..)
  case zqCalibration => exact .onChannel h
  case schedulerIssue => exact .schedulerIssue h ..
  case wcrcAlert => exact .wcrcAlert h ..
  case cmdErrAlert => exact .onChannel (h.commandError ..)
  case slotErrorReport => exact .onChannel (h.slotError ..)
  case migrateDone => exact .onChannel (h.migrateDone ..)
  case vddqLoss => exact .vddqLoss h ..
  case dramConfigDone => exact .onChannel (h.dramConfigDone ..)
  case pllRelock => exact .pllRelock h ..
  case frameBoundary => exact .onOutput (h.frameBoundary _) h
  case timingStart => exact .onOutput (h.timingStart _) h
  case lineStart => exact .onOutput (h.lineStart _) h
  case splashLoadDone => exact .onOutput (h.splashDone _) h
  case tileFetchDone => exact .onLayer (h.tileFetched ..)
  case pixelPacketRx | sourceFrmRx | scpMessageRx | scpAckRx | scpNakRx => exact .onGroup fun _ => h.linkRx ..
  all_goals exact absurd hi (Option.some_ne_none _)

end

/-- Settles O1: it is what `step` does with a queue that is not empty. -/
theorem stepRunsFrontCommand : Obligations.StepRunsFrontCommand := fun _ _ _ => rfl

/-- Settles O6: a step lets a cycle pass, or carries out the row in front (`exec_canon`). -/
theorem stepKeepsMemoryCanonical : Obligations.StepKeepsMemoryCanonical := by
  intro s t hwf hstep
  unfold step at hstep
  split at hstep
  · cases hstep
    exact hwf
  · rename_i i rest _
    exact ((exec_canon (s := { s with pending := rest }) ⟨hwf⟩ i).canon t hstep).wf

end Sys2Proof.Machine
end

section
/-! PROOFS. Bit strings, the raw layout and the residual transform (O34; R333, R336, R347). -/

namespace Sys2Proof.Machine

/-! ### Bytes and bits -/

theorem leNat_append (a b : List Byte) : leNat (a ++ b) = leNat a + 256 ^ a.length * leNat b := by
  induction a with
  | nil => simp [leNat]
  | cons x a ih =>
    have hcons : ∀ l : List Byte, leNat (x :: l) = x.toNat + 256 * leNat l := fun _ => rfl
    rw [List.cons_append, hcons, hcons, ih, List.length_cons, Nat.pow_succ']
    ring

/-- The number that values of given widths spell, the first in the least significant bits. -/
def bitString : List (Nat × Nat) → Nat
  | [] => 0
  | (v, w) :: l => v + 2 ^ w * bitString l

/-- How many bits they take. -/
def bitCount (l : List (Nat × Nat)) : Nat := (l.map Prod.snd).sum

/-- Every value fits its width. -/
abbrev Fits (l : List (Nat × Nat)) : Prop := ∀ x ∈ l, x.1 < 2 ^ x.2

/-- Packed bits spell the bit string that the waiting bits begin (R333, R337). -/
theorem leNat_packBits (l : List (Nat × Nat)) {acc n : Nat} (hacc : acc < 2 ^ n) (hn : n < 8) (hl : Fits l) :
    leNat (packBits acc n l) = acc + 2 ^ n * bitString l := by
  induction l generalizing acc n with
  | nil =>
    have hle : 2 ^ n ≤ 2 ^ 8 := Nat.pow_le_pow_right (by decide) hn.le
    unfold packBits
    split
    · subst n
      have hzero : acc = 0 := by omega
      simp [hzero, leNat, bitString]
    · have hsmall : acc % 2 ^ 8 = acc := Nat.mod_eq_of_lt (by omega)
      simpa [leNat, bitString] using hsmall
  | cons x l ih =>
    obtain ⟨v, w⟩ := x
    have hv : v < 2 ^ w := hl _ (List.mem_cons_self ..)
    obtain ⟨a, ha⟩ : ∃ a, a = acc + v <<< n := ⟨_, rfl⟩
    obtain ⟨k, hk⟩ : ∃ k, k = (n + w) / 8 := ⟨_, rfl⟩
    obtain ⟨m, hm⟩ : ∃ m, m = n + w - 8 * k := ⟨_, rfl⟩
    have hsum : n + w = 8 * k + m := by omega
    have hadd : a = acc + 2 ^ n * v := by rw [ha, Nat.shiftLeft_eq, Nat.mul_comm]
    have hpow : 2 ^ n * 2 ^ w = 256 ^ k * 2 ^ m := by rw [← Nat.pow_add, hsum, Nat.pow_add, Nat.pow_mul]
    have hlt : a < 256 ^ k * 2 ^ m := by
      rw [← hpow, hadd]
      calc acc + 2 ^ n * v < 2 ^ n * (v + 1) := by rw [Nat.mul_succ]; omega
        _ ≤ 2 ^ n * 2 ^ w := Nat.mul_le_mul_left _ hv
    have hshift : a >>> (8 * k) = a / 256 ^ k := by rw [Nat.shiftRight_eq_div_pow, Nat.pow_mul]
    have hpack : packBits acc n ((v, w) :: l) = leBytes k a ++ packBits (a >>> (8 * k)) m l := by rw [hm, hk, ha]; rfl
    have hrest := ih (acc := a / 256 ^ k) (n := m) (Nat.div_lt_of_lt_mul hlt) (by omega) fun x hx => hl x (List.mem_cons_of_mem _ hx)
    calc leNat (packBits acc n ((v, w) :: l)) = a % 256 ^ k + 256 ^ k * (a / 256 ^ k + 2 ^ m * bitString l) := by
          rw [hpack, leNat_append, leNat_leBytes, length_leBytes, hshift, hrest]
      _ = a + 256 ^ k * 2 ^ m * bitString l := by rw [Nat.mul_add, ← Nat.add_assoc, Nat.mod_add_div, Nat.mul_assoc]
      _ = acc + 2 ^ n * (v + 2 ^ w * bitString l) := by rw [← hpow, hadd]; ring

theorem length_packBits (l : List (Nat × Nat)) (acc : Nat) {n : Nat} (hn : n < 8) :
    (packBits acc n l).length = (n + bitCount l + 7) / 8 := by
  induction l generalizing acc n with
  | nil =>
    have hcount : bitCount [] = 0 := rfl
    unfold packBits
    split
    · simp_all
    · rw [hcount, List.length_singleton]; omega
  | cons x l ih =>
    have hcount : bitCount (x :: l) = x.2 + bitCount l := List.sum_cons
    have hpack : packBits acc n (x :: l) = leBytes ((n + x.2) / 8) (acc + x.1 <<< n) ++
        packBits ((acc + x.1 <<< n) >>> (8 * ((n + x.2) / 8))) (n + x.2 - 8 * ((n + x.2) / 8)) l := rfl
    rw [hpack, List.length_append, length_leBytes, ih _ (by omega), hcount]
    omega

/-- Values of one width after those of an earlier part. -/
theorem bitString_shift {w : Nat} (c l : List Nat) (hc : ∀ v ∈ c, v < 2 ^ w) :
    bitString ((c ++ l).map fun v => (v, w)) >>> (w * c.length) = bitString (l.map fun v => (v, w)) := by
  induction c with
  | nil => rfl
  | cons v c ih =>
    have hv : v < 2 ^ w := hc v (List.mem_cons_self ..)
    have hcons : bitString ((v :: c ++ l).map fun v => (v, w)) = v + 2 ^ w * bitString ((c ++ l).map fun v => (v, w)) := rfl
    have hlen : w * (v :: c).length = w + w * c.length := by rw [List.length_cons, Nat.mul_succ, Nat.add_comm]
    rw [hcons, hlen, Nat.shiftRight_add, Nat.shiftRight_eq_div_pow _ w, Nat.add_mul_div_left _ _ (Nat.two_pow_pos w), Nat.div_eq_of_lt hv,
      Nat.zero_add]
    exact ih fun x hx => hc x (List.mem_cons_of_mem _ hx)

/-- The value that comes next in a bit string. -/
theorem bitsOf_bitString {w : Nat} (c l : List Nat) {v : Nat} (hc : ∀ v ∈ c, v < 2 ^ w) (hv : v < 2 ^ w) :
    bitsOf (bitString ((c ++ v :: l).map fun v => (v, w))) (w * c.length) w = v := by
  have hcons : bitString ((v :: l).map fun v => (v, w)) = v + 2 ^ w * bitString (l.map fun v => (v, w)) := rfl
  rw [bitsOf, bitString_shift c _ hc, hcons, Nat.add_mul_mod_self_left, Nat.mod_eq_of_lt hv]

/-! ### The raw layout (R333, R347) -/

theorem raw_lt (p : Px) : p.raw < 2 ^ 36 := by
  have hr := p.r.isLt; have hg := p.g.isLt; have hb := p.b.isLt
  simp only [Px.raw, Px.ch]
  omega

theorem pxRaw_raw (p : Px) : pxRaw p.raw = p := by
  obtain ⟨r, g, b⟩ := p
  have hr := r.isLt; have hg := g.isLt; have hb := b.isLt
  have hred : (r.toNat + g.toNat * 2 ^ 12 + b.toNat * 2 ^ 24) % 4096 = r.toNat := by omega
  have hgreen : (r.toNat + g.toNat * 2 ^ 12 + b.toNat * 2 ^ 24) / 4096 % 4096 = g.toNat := by omega
  have hblue : (r.toNat + g.toNat * 2 ^ 12 + b.toNat * 2 ^ 24) / 2 ^ 24 % 4096 = b.toNat := by omega
  simp only [pxRaw, pxOf, Px.raw, Px.ch, hred, hgreen, hblue, BitVec.ofNat_toNat, BitVec.setWidth_eq]

theorem leNat_rawBytes (px : List Px) : leNat (rawBytes px) = bitString ((px.map Px.raw).map fun v => (v, 36)) := by
  unfold rawBytes
  rw [leNat_packBits _ (by decide) (by decide), Nat.zero_add, Nat.pow_zero, Nat.one_mul, List.map_map]
  · rfl
  · intro x hx
    obtain ⟨p, -, rfl⟩ := List.mem_map.1 hx
    exact raw_lt p

theorem length_rawBytes (px : List Px) : (rawBytes px).length = (36 * px.length + 7) / 8 := by
  have hcount : bitCount (px.map fun p => (p.raw, 36)) = 36 * px.length := by
    simp [bitCount, Function.comp_def, Nat.mul_comm]
  rw [rawBytes, length_packBits _ _ (by decide), hcount, Nat.zero_add]

theorem rawRoundTrip : Claim.RawRoundTrip := by
  intro px
  refine List.ext_getElem (by simp [rawPixels]) fun i hi hpx => ?_
  have hraw : ∀ l : List Px, ∀ v ∈ l.map Px.raw, v < 2 ^ 36 := fun l v hv => by
    obtain ⟨p, -, rfl⟩ := List.mem_map.1 hv
    exact raw_lt p
  have hsplit : px.map Px.raw = (px.take i).map Px.raw ++ px[i].raw :: (px.drop (i + 1)).map Px.raw := by
    rw [← List.map_cons, ← List.map_append, List.cons_getElem_drop_succ, List.take_append_drop]
  have hlen : ((px.take i).map Px.raw).length = i := by simp; omega
  have hget : bitsOf (leNat (rawBytes px)) (36 * i) 36 = px[i].raw := by
    have h := bitsOf_bitString ((px.take i).map Px.raw) ((px.drop (i + 1)).map Px.raw) (hraw _) (raw_lt px[i])
    rwa [← hsplit, hlen, ← leNat_rawBytes] at h
  simp only [rawPixels, List.getElem_map, List.getElem_range, hget, pxRaw_raw]

/-! ### The residual transform (R336) -/

theorem length_residual (p : Nat) (vs : List Nat) : (residual p vs).length = vs.length := by
  induction vs generalizing p with
  | nil => rfl
  | cons v vs ih => exact congrArg (· + 1) (ih v)

theorem residual_lt (p : Nat) (vs : List Nat) : ∀ s ∈ residual p vs, s < 4096 := by
  induction vs generalizing p with
  | nil => exact fun _ h => absurd h List.not_mem_nil
  | cons v vs ih =>
    intro s hs
    rcases List.mem_cons.1 hs with rfl | hs
    · exact Nat.mod_lt _ (by decide)
    · exact ih v s hs

theorem integrate_residual {p : Nat} (vs : List Nat) (hp : p < 4096) (hvs : ∀ v ∈ vs, v < 4096) : integrate p (residual p vs) = vs := by
  induction vs generalizing p with
  | nil => rfl
  | cons v vs ih =>
    have hv : v < 4096 := hvs v (List.mem_cons_self ..)
    have hback : ((v + 4096 - p) % 4096 + p) % 4096 = v := by omega
    rw [residual, integrate, hback, ih hv fun x hx => hvs x (List.mem_cons_of_mem _ hx)]

/-- The values of a channel. -/
def plane (px : List Px) (k : Nat) : List Nat := px.map fun p => p.ch k

theorem length_plane (px : List Px) (k : Nat) : (plane px k).length = px.length := List.length_map ..

theorem channel_lt (p : Px) (k : Nat) : p.ch k < 4096 := by
  unfold Px.ch
  split
  · exact p.r.isLt
  · exact p.g.isLt
  · exact p.b.isLt

theorem integrate_plane (px : List Px) (k : Nat) : integrate 0 (residual 0 (plane px k)) = plane px k := by
  refine integrate_residual _ (by decide) fun v hv => ?_
  obtain ⟨p, -, rfl⟩ := List.mem_map.1 hv
  exact channel_lt p k

theorem symbolsOf_eq (px : List Px) :
    symbolsOf px = residual 0 (plane px 0) ++ (residual 0 (plane px 1) ++ residual 0 (plane px 2)) := List.append_assoc ..

theorem length_symbolsOf (px : List Px) : (symbolsOf px).length = 3 * px.length := by
  simp only [symbolsOf_eq, List.length_append, length_residual, length_plane]
  omega

theorem symbolsOf_lt (px : List Px) : ∀ s ∈ symbolsOf px, s < 4096 := by
  intro s hs
  simp only [symbolsOf_eq, List.mem_append] at hs
  rcases hs with hs | hs | hs <;> exact residual_lt _ _ s hs

theorem pixels_of_planes (px : List Px) :
    ((plane px 0).zip ((plane px 1).zip (plane px 2))).map (fun x => pxOf x.1 x.2.1 x.2.2) = px := by
  induction px with
  | nil => rfl
  | cons p px ih =>
    have hp : pxOf (p.ch 0) (p.ch 1) (p.ch 2) = p := by
      simp only [pxOf, Px.ch, BitVec.ofNat_toNat, BitVec.setWidth_eq]
    exact congrArg₂ List.cons hp ih

theorem pixelsOf_symbolsOf {px : List Px} (h : px.length = 1024) : pixelsOf (symbolsOf px) = px := by
  have hlen : ∀ k, (residual 0 (plane px k)).length = 1024 := fun k => by rw [length_residual, length_plane, h]
  have hred : (symbolsOf px).take 1024 = residual 0 (plane px 0) := by rw [symbolsOf_eq, List.take_left' (hlen 0)]
  have hrest : (symbolsOf px).drop 1024 = residual 0 (plane px 1) ++ residual 0 (plane px 2) := by
    rw [symbolsOf_eq, List.drop_left' (hlen 0)]
  have hblue : (symbolsOf px).drop 2048 = residual 0 (plane px 2) := by
    rw [← List.drop_drop (i := 1024) (j := 1024), hrest, List.drop_left' (hlen 1)]
  unfold pixelsOf
  rw [hred, hrest, hblue, List.take_left' (hlen 1), integrate_plane, integrate_plane, integrate_plane]
  exact pixels_of_planes px

theorem residualRoundTrip : Claim.ResidualRoundTrip := fun _ h => pixelsOf_symbolsOf h

/-- Settles O34: each residual adds up to its value again, and the packed pixels spell a bit string of 36-bit values. -/
theorem tileBodies : Obligations.TileBodies := ⟨residualRoundTrip, rawRoundTrip⟩

end Sys2Proof.Machine
end

section
/-! PROOFS. The dictionary coder and its decoder (O35; R337, R338). The decoder's entries lag the coder's by one; `Decoded` says what the
decoder holds after each code, in terms of the coder's entries. -/

namespace Sys2Proof.Machine

/-- The string of a code, by the entries made so far. -/
def codeString (T : List (List Nat)) (k : Nat) : List Nat := if k < 4096 then [k] else T.getD (k - 4096) []

theorem lzwString_toArray (T : List (List Nat)) (k : Nat) : lzwString T.toArray k = codeString T k := by
  simp [lzwString, codeString]

theorem codeString_symbol (T : List (List Nat)) {s : Nat} (hs : s < 4096) : codeString T s = [s] := if_pos hs

/-- A new entry changes no string of a code before it. -/
theorem codeString_concat (T : List (List Nat)) (e : List Nat) {k : Nat} (hk : k < 4096 + T.length) :
    codeString (T ++ [e]) k = codeString T k := by
  unfold codeString
  split
  · rfl
  · rw [List.getD_append _ _ _ _ (by omega)]

theorem codeString_new (T : List (List Nat)) (e : List Nat) : codeString (T ++ [e]) (4096 + T.length) = e := by
  have hindex : 4096 + T.length - 4096 = T.length := by omega
  rw [codeString, if_neg (by omega), hindex, List.getD_append_right _ _ _ _ le_rfl, Nat.sub_self]
  rfl

/-- The entries after the next code, whose string begins with `h`: one more than before, unless the next code is the first. -/
def grown (codes : List Nat) (T : List (List Nat)) (h : Nat) : List (List Nat) :=
  match codes with
  | [] => T
  | p :: _ => T ++ [codeString T p ++ [h]]

/-- Codes, latest first, decode to symbols, with the entries that the decoder then has. -/
inductive Decoded : List Nat → List (List Nat) → List Nat → Prop
  | nil : Decoded [] [] []
  | cons {codes : List Nat} {T T' : List (List Nat)} {out : List Nat} {k : Nat} (before : Decoded codes T out)
      (entries : T' = grown codes T ((codeString T' k).headD 0)) (known : k < 4096 + T'.length) :
      Decoded (k :: codes) T' (out ++ codeString T' k)

theorem Decoded.entries_ne_nil {codes : List Nat} {T : List (List Nat)} {out : List Nat} (h : Decoded codes T out) : ∀ e ∈ T, e ≠ [] := by
  induction h with
  | nil => exact fun _ he => absurd he List.not_mem_nil
  | @cons codes T T' out k _ entries _ ih =>
    intro e he
    rw [entries] at he
    match codes, he with
    | [], he => exact ih e he
    | p :: _, he =>
      rcases List.mem_append.1 he with he | he
      · exact ih e he
      · rw [List.mem_singleton.1 he]; simp

/-- The string of a code is never empty. -/
theorem Decoded.codeString_ne_nil {codes : List Nat} {T : List (List Nat)} {out : List Nat} (h : Decoded codes T out) {k : Nat}
    (hk : k < 4096 + T.length) : codeString T k ≠ [] := by
  unfold codeString
  split
  · simp
  · have hindex : k - 4096 < T.length := by omega
    rw [List.getD_eq_getElem _ _ hindex]
    exact h.entries_ne_nil _ (List.getElem_mem _)

theorem Decoded.length_entries {k : Nat} {codes : List Nat} {T : List (List Nat)} {out : List Nat} (h : Decoded (k :: codes) T out) :
    T.length = codes.length := by
  induction codes generalizing k T out with
  | nil =>
    cases h with
    | cons before entries known => cases before; exact congrArg List.length entries
  | cons p codes ih =>
    cases h with
    | cons before entries known =>
      rw [entries]
      simp [grown, ih before]

/-- Every code gives at least one symbol. -/
theorem Decoded.length_codes_le {codes : List Nat} {T : List (List Nat)} {out : List Nat} (h : Decoded codes T out) :
    codes.length ≤ out.length := by
  induction h with
  | nil => exact le_rfl
  | cons before entries known ih =>
    have hne := List.length_pos_iff.2 ((Decoded.cons before entries known).codeString_ne_nil known)
    rw [List.length_cons, List.length_append]
    omega

theorem Decoded.codes_lt {codes : List Nat} {T : List (List Nat)} {out : List Nat} (h : Decoded codes T out) :
    ∀ k ∈ codes, k < 4096 + codes.length := by
  induction h with
  | nil => exact fun _ hk => absurd hk List.not_mem_nil
  | @cons codes T T' out k before entries known ih =>
    have hlen := (Decoded.cons before entries known).length_entries
    intro j hj
    rw [List.length_cons]
    rcases List.mem_cons.1 hj with rfl | hj
    · omega
    · have := ih j hj; omega

/-! ### The coder (R337) -/

/-- The coder in hand of code `x.w` has coded `done`: its dictionary holds the entries `T`. -/
structure Coded (x : Lzw) (T : List (List Nat)) (done : List Nat) : Prop where
  decoded : Decoded (x.w :: x.out) T done
  next : x.next = 4096 + T.length
  dict : ∀ p s k, s < 4096 → x.dict.lookup (p * 4096 + s) = some k →
    p < 4096 + T.length ∧ k < 4096 + T.length ∧ codeString T k = codeString T p ++ [s]

theorem Coded.start {s : Nat} (hs : s < 4096) : Coded { w := s, next := 4096, dict := [], out := [] } [] [s] where
  decoded := by
    have h := Decoded.cons (T' := []) (k := s) .nil rfl (Nat.lt_of_lt_of_le hs (Nat.le_add_right ..))
    rwa [codeString_symbol _ hs] at h
  next := rfl
  dict := fun _ _ _ _ h => by simp at h

theorem Coded.known {x : Lzw} {T : List (List Nat)} {done : List Nat} (h : Coded x T done) : x.w < 4096 + T.length := by
  cases h.decoded with
  | cons before entries known => exact known

/-- The string in hand with the next symbol has an entry: it becomes the string in hand. -/
theorem Coded.extend {x : Lzw} {T : List (List Nat)} {done : List Nat} {s k : Nat} (h : Coded x T done) (hs : s < 4096)
    (hk : x.dict.lookup (x.w * 4096 + s) = some k) : Coded { x with w := k } T (done ++ [s]) := by
  obtain ⟨-, hknown, hstring⟩ := h.dict _ _ _ hs hk
  have hne := h.decoded.codeString_ne_nil h.known
  have hhead : (codeString T k).headD 0 = (codeString T x.w).headD 0 := by
    rw [hstring]
    cases hw : codeString T x.w with
    | nil => exact absurd hw hne
    | cons a l => rfl
  refine ⟨?_, h.next, h.dict⟩
  cases h.decoded with
  | cons before entries known =>
    rw [List.append_assoc, ← hstring]
    exact .cons before (hhead ▸ entries) hknown

/-- It has none: its code is emitted, a new entry is made of it, and the symbol is the string in hand. -/
theorem Coded.emit {x : Lzw} {T : List (List Nat)} {done : List Nat} {s : Nat} (h : Coded x T done) (hs : s < 4096) :
    Coded { w := s, next := x.next + 1, dict := (x.w * 4096 + s, x.next) :: x.dict, out := x.w :: x.out }
      (T ++ [codeString T x.w ++ [s]]) (done ++ [s]) := by
  have hsymbol : codeString (T ++ [codeString T x.w ++ [s]]) s = [s] := codeString_symbol _ hs
  have hlen : (T ++ [codeString T x.w ++ [s]]).length = T.length + 1 := by simp
  refine ⟨?_, by rw [hlen]; exact congrArg (· + 1) h.next, fun p q k hq hlook => ?_⟩
  · have hcons := Decoded.cons (T' := T ++ [codeString T x.w ++ [s]]) (k := s) h.decoded (by rw [hsymbol]; rfl) (by omega)
    rwa [hsymbol] at hcons
  · rw [hlen]
    by_cases hkey : p * 4096 + q = x.w * 4096 + s
    · obtain ⟨rfl, rfl⟩ : p = x.w ∧ q = s := by omega
      have hk : x.next = k := by simpa using hlook
      have hw := h.known
      have hnext := h.next
      refine ⟨by omega, by omega, ?_⟩
      rw [← hk, h.next, codeString_new, codeString_concat _ _ h.known]
    · rw [List.lookup_cons, beq_false_of_ne hkey] at hlook
      obtain ⟨hp, hk, hstring⟩ := h.dict p q k hq hlook
      refine ⟨by omega, by omega, ?_⟩
      rw [codeString_concat _ _ hp, codeString_concat _ _ hk, hstring]

theorem Coded.step {x : Lzw} {T : List (List Nat)} {done : List Nat} {s : Nat} (h : Coded x T done) (hs : s < 4096)
    (hroom : done.length < 12288) : ∃ T', Coded (lzwStep x s) T' (done ++ [s]) := by
  unfold lzwStep
  split
  · next k hk => exact ⟨T, h.extend hs hk⟩
  · have hgrow : decide (x.next ≤ 16383) = true := by
      have hcodes := h.decoded.length_codes_le
      have hlen := h.decoded.length_entries
      have hnext := h.next
      rw [List.length_cons] at hcodes
      exact decide_eq_true (by omega)
    simp only [hgrow, if_true]
    exact ⟨_, h.emit hs⟩

theorem Coded.foldl {x : Lzw} {T : List (List Nat)} {done : List Nat} (ss : List Nat) (h : Coded x T done) (hss : ∀ s ∈ ss, s < 4096)
    (hroom : done.length + ss.length ≤ 12288) : ∃ T', Coded (ss.foldl lzwStep x) T' (done ++ ss) := by
  induction ss generalizing x T done with
  | nil => exact ⟨T, by rwa [List.append_nil]⟩
  | cons s ss ih =>
    rw [List.length_cons] at hroom
    obtain ⟨T', hstep⟩ := h.step (hss s (List.mem_cons_self ..)) (by omega)
    obtain ⟨U, hrest⟩ := ih hstep (fun q hq => hss q (List.mem_cons_of_mem _ hq)) (by rw [List.length_append]; simp; omega)
    exact ⟨U, by rwa [List.append_assoc] at hrest⟩

/-- The codes of a symbol string decode to it. -/
theorem decoded_lzwCodes {sym : List Nat} (hsym : ∀ s ∈ sym, s < 4096) (hlen : sym.length ≤ 12288) :
    ∃ T, Decoded (lzwCodes sym).reverse T sym := by
  cases sym with
  | nil => exact ⟨[], .nil⟩
  | cons s ss =>
    obtain ⟨T, h⟩ := (Coded.start (hsym s (List.mem_cons_self ..))).foldl ss (fun q hq => hsym q (List.mem_cons_of_mem _ hq))
      (by rw [List.length_cons] at hlen; simp; omega)
    refine ⟨T, ?_⟩
    rw [lzwCodes, List.reverse_reverse]
    exact h.decoded

/-! ### The body (R337) -/

theorem lzwBody_eq {sym : List Nat} (h : (lzwCodes sym).length ≤ 4096) :
    lzwBody sym = packBits 0 0 ((lzwCodes sym).map fun k => (k, 13)) := by
  refine congrArg (packBits 0 0) (List.ext_getElem (by simp) fun i hi _ => ?_)
  have hwidth : codeWidth i = 13 := if_pos (by simp at hi; omega)
  simp [hwidth]

/-! ### The decoder (R338) -/

/-- What the decoder takes for a code: an entry that it has, or the one that it is about to make. -/
theorem decoder_string {codes : List Nat} {T T' : List (List Nat)} {out : List Nat} {k : Nat} (before : Decoded codes T out)
    (entries : T' = grown codes T ((codeString T' k).headD 0)) (known : k < 4096 + T'.length) :
    (if k < 4096 + T.toArray.size then some (lzwString T.toArray k)
      else if k = 4096 + T.toArray.size then codes.head?.map fun p => lzwString T.toArray p ++ [(lzwString T.toArray p).headD 0]
      else none) = some (codeString T' k) := by
  simp only [lzwString_toArray, List.size_toArray]
  cases codes with
  | nil =>
    obtain rfl : T' = T := entries
    rw [if_pos known]
  | cons p codes =>
    generalize hh : (codeString T' k).headD 0 = a at entries
    have hT : T' = T ++ [codeString T p ++ [a]] := entries
    have hlen : T'.length = T.length + 1 := by rw [hT]; simp
    split
    · next hlt => rw [hT, codeString_concat _ _ hlt]
    · obtain rfl : k = 4096 + T.length := by omega
      have hp : codeString T p ≠ [] := by
        refine before.codeString_ne_nil ?_
        cases before with
        | cons _ _ hp => exact hp
      have hnew : codeString T' (4096 + T.length) = codeString T p ++ [a] := by rw [hT, codeString_new]
      have ha : (codeString T p).headD 0 = a := by
        rw [← hh, hnew]
        cases hw : codeString T p with
        | nil => exact absurd hw hp
        | cons b l => rfl
      rw [if_pos rfl, hnew, ← ha]
      rfl

/-- The entries that the decoder then has. -/
theorem decoder_entries {codes : List Nat} {T T' : List (List Nat)} {k : Nat}
    (entries : T' = grown codes T ((codeString T' k).headD 0)) (hroom : T.length < 12288) :
    (match codes.head? with
      | some p => if 4096 + T.toArray.size ≤ 16383 then T.toArray.push (lzwString T.toArray p ++ [(codeString T' k).headD 0]) else T.toArray
      | none => T.toArray) = T'.toArray := by
  generalize (codeString T' k).headD 0 = a at entries ⊢
  subst entries
  cases codes with
  | nil => rfl
  | cons p codes =>
    simp only [List.head?_cons, List.size_toArray, lzwString_toArray, grown]
    rw [if_pos (by omega), List.push_toArray]

/-- The decoder reads the codes one after the other, whatever codes follow them. -/
theorem lzwLoop_codes {codes : List Nat} {T : List (List Nat)} {out : List Nat} (h : Decoded codes T out) (hout : out.length ≤ 3072)
    {rest : List Nat} {x total : Nat} (hx : x = bitString ((codes.reverse ++ rest).map fun k => (k, 13)))
    (htotal : 13 * codes.length ≤ total) (fuel : Nat) :
    lzwLoop x total (fuel + codes.length) 0 0 #[] none [] =
      lzwLoop x total fuel (13 * codes.length) codes.length T.toArray codes.head? out := by
  induction h generalizing rest fuel with
  | nil => rfl
  | @cons codes T T' out k before entries known ih =>
    have hfull := Decoded.cons before entries known
    have hne := List.length_pos_iff.2 (hfull.codeString_ne_nil known)
    have hcodes := before.length_codes_le
    have hbound := hfull.codes_lt
    have hlen := hfull.length_entries
    have hgrown : T.length ≤ T'.length := by
      rw [entries]
      cases codes <;> simp [grown]
    rw [List.length_append] at hout
    rw [List.length_cons] at htotal
    have hlt : ∀ v ∈ k :: codes, v < 2 ^ 13 := fun v hv => by
      have := hbound v hv
      rw [List.length_cons] at this
      omega
    rw [List.reverse_cons, ← List.append_cons] at hx
    have hbits : bitsOf x (13 * codes.length) 13 = k := by
      have hget := bitsOf_bitString (w := 13) codes.reverse rest
        (fun v hv => hlt v (List.mem_cons_of_mem _ (List.mem_reverse.1 hv))) (hlt k (List.mem_cons_self ..))
      rwa [List.length_reverse, ← hx] at hget
    have hprefix := ih (by omega) hx (by omega) (fuel + 1)
    have hwidth : codeWidth codes.length = 13 := if_pos (by omega)
    have hfuel : fuel + (k :: codes).length = fuel + 1 + codes.length := by rw [List.length_cons]; omega
    rw [hfuel, hprefix, lzwLoop, if_neg (by omega)]
    simp only [hwidth, hbits]
    rw [if_neg (by omega), decoder_string before entries known]
    simp only
    rw [if_neg (by omega)]
    exact congrArg (fun dict => lzwLoop x total fuel (13 * (codes.length + 1)) (codes.length + 1) dict (some k) (out ++ codeString T' k))
      (decoder_entries entries (by omega))

/-- The 3,072 symbols are there, and only bits that fill the last byte are left. -/
theorem lzwLoop_end {x total pos i fuel : Nat} {dict : Array (List Nat)} {prev : Option Nat} {out : List Nat} (hout : out.length = 3072)
    (hlast : total - pos < 8) (hzero : x >>> pos = 0) : lzwLoop x total (fuel + 1) pos i dict prev out = some out := by
  rw [lzwLoop, if_pos hout.ge, if_neg (by rw [hzero]; omega)]

/-- The codes of 3,072 symbols, and bits that fill the last byte. -/
theorem lzwDecode_codes {codes : List Nat} {T : List (List Nat)} {out : List Nat} (h : Decoded codes T out) (hout : out.length = 3072) :
    lzwDecode (packBits 0 0 (codes.reverse.map fun k => (k, 13))) = some (pixelsOf out) := by
  have hcodes := h.length_codes_le
  have hlt : ∀ v ∈ codes, v < 2 ^ 13 := fun v hv => by have := h.codes_lt v hv; omega
  have hfits : Fits (codes.reverse.map fun k => (k, 13)) := by
    intro x hx
    obtain ⟨v, hv, rfl⟩ := List.mem_map.1 hx
    exact hlt v (List.mem_reverse.1 hv)
  have hcount : bitCount (codes.reverse.map fun k => (k, 13)) = 13 * codes.length := by
    simp [bitCount, Function.comp_def, Nat.mul_comm]
  have hlen := length_packBits (codes.reverse.map fun k => (k, 13)) 0 (n := 0) (by decide)
  have hspell := leNat_packBits (codes.reverse.map fun k => (k, 13)) (acc := 0) (n := 0) (by decide) (by decide) hfits
  have hend : bitString (codes.reverse.map fun k => (k, 13)) >>> (13 * codes.length) = 0 := by
    have hshift := bitString_shift (w := 13) codes.reverse [] fun v hv => hlt v (List.mem_reverse.1 hv)
    rwa [List.append_nil, List.length_reverse] at hshift
  have hloop := lzwLoop_codes h hout.le (rest := []) (total := 8 * ((13 * codes.length + 7) / 8)) rfl (by omega) (3073 - codes.length)
  obtain ⟨fuel, hfuel⟩ : ∃ fuel, 3073 - codes.length = fuel + 1 := ⟨3072 - codes.length, by omega⟩
  rw [Nat.sub_add_cancel (by omega), hfuel, List.append_nil, lzwLoop_end hout (by omega) hend] at hloop
  rw [hcount, Nat.zero_add] at hlen
  rw [Nat.zero_add, Nat.pow_zero, Nat.one_mul] at hspell
  unfold lzwDecode
  rw [hspell, hlen, hloop]
  rfl

theorem length_lzwCodes_le {sym : List Nat} (hsym : ∀ s ∈ sym, s < 4096) (hlen : sym.length ≤ 12288) :
    (lzwCodes sym).length ≤ sym.length := by
  obtain ⟨T, h⟩ := decoded_lzwCodes hsym hlen
  simpa using h.length_codes_le

theorem lzwDecode_lzwBody {px : List Px} (h : px.length = 1024) : lzwDecode (lzwBody (symbolsOf px)) = some px := by
  have hlen : (symbolsOf px).length = 3072 := by rw [length_symbolsOf, h]
  have hcodes := length_lzwCodes_le (symbolsOf_lt px) (by omega)
  obtain ⟨T, hdec⟩ := decoded_lzwCodes (symbolsOf_lt px) (by omega)
  have hread := lzwDecode_codes hdec hlen
  rw [List.reverse_reverse, pixelsOf_symbolsOf h] at hread
  rw [lzwBody_eq (by omega), hread]

/-- Settles O35: the decoder's entries follow the coder's (`Decoded`), and the residuals add up to the pixels. -/
theorem dictRoundTrip : Obligations.DictRoundTrip := fun _ h => lzwDecode_lzwBody h

end Sys2Proof.Machine
end

section
/-! PROOFS. Hampers: what a reader gets back, and what it refuses (O36, O37; R329, R331, R332, R334, R339), and where layer slots lie
(O38; R355). -/

namespace Sys2Proof.Machine

/-! ### Headers (R331, R332) -/

section
variable (format : Nat) (subst : Bool) (len owner seq fill : Nat) (tcrc : Word) (tail : List Byte)

theorem fieldAt_format : fieldAt (hamperHeader format subst len owner seq fill tcrc ++ tail) 0 1 = format % 256 := leNat_leBytes 1 format

theorem fieldAt_subst : fieldAt (hamperHeader format subst len owner seq fill tcrc ++ tail) 1 1 = subst.toNat % 256 :=
  leNat_leBytes 1 subst.toNat

theorem fieldAt_bodyLen : fieldAt (hamperHeader format subst len owner seq fill tcrc ++ tail) 2 2 = len % 65536 := leNat_leBytes 2 len

theorem fieldAt_owner : fieldAt (hamperHeader format subst len owner seq fill tcrc ++ tail) 4 2 = owner % 65536 := leNat_leBytes 2 owner

theorem fieldAt_seq : fieldAt (hamperHeader format subst len owner seq fill tcrc ++ tail) 6 1 = seq % 256 := leNat_leBytes 1 seq

theorem fieldAt_fill : fieldAt (hamperHeader format subst len owner seq fill tcrc ++ tail) 7 5 = fill % 256 ^ 5 := leNat_leBytes 5 fill

theorem fieldAt_tcrc : fieldAt (hamperHeader format subst len owner seq fill tcrc ++ tail) 12 4 = tcrc.toNat :=
  (leNat_leBytes 4 tcrc.toNat).trans (Nat.mod_eq_of_lt tcrc.isLt)

theorem length_hamperHeader : (hamperHeader format subst len owner seq fill tcrc).length = 16 := rfl

theorem take_hamperHeader :
    (hamperHeader format subst len owner seq fill tcrc ++ tail).take 16 = hamperHeader format subst len owner seq fill tcrc ++ [] := by
  rw [List.append_nil]
  exact List.take_left' (length_hamperHeader ..)

theorem drop_hamperHeader : (hamperHeader format subst len owner seq fill tcrc ++ tail).drop 16 = tail :=
  List.drop_left' (length_hamperHeader ..)

end

theorem headerWellFormed_iff (bs : List Byte) :
    let f := fieldAt bs 0 1
    let len := fieldAt bs 2 2
    let owner := fieldAt bs 4 2
    let reserved := f / 4 ≠ 0 ∨ fieldAt bs 1 1 / 2 ≠ 0 ∨ len / 0x2000 ≠ 0 ∨ owner / 0x1000 % 8 ≠ 0 ∨
      (owner.testBit 15 = true ∧ owner / 16 % 0x800 ≠ 0) ∨ fieldAt bs 7 5 / 2 ^ 36 ≠ 0
    let range := if f = fmtDICT then 1 ≤ len ∧ len ≤ 4608 else if f = fmtSTORED then len = 4608 else len = 0
    headerOk bs = true ↔ ¬reserved ∧ range ∧ (f ≠ fmtFILL → fieldAt bs 7 5 = 0) := by
  have howner := fieldAt_lt bs 4 2
  unfold headerOk
  generalize fieldAt bs 0 1 = f, fieldAt bs 1 1 = subst, fieldAt bs 2 2 = len, fieldAt bs 4 2 = owner, fieldAt bs 7 5 = fill at *
  simp only [Nat.testBit_eq_decide_div_mod_eq, Bool.and_eq_true, Bool.or_eq_true, Bool.not_eq_true', decide_eq_true_eq, decide_eq_false_iff_not,
    beq_iff_eq]
  match f with
  | 0 | 1 | 2 | 3 => simp; omega
  | f + 4 => simp

/-- The bits that are 0 in every header of an owner. -/
theorem ownerOk_bits {owner : Nat} (h : ownerOk owner) :
    owner % 65536 = owner ∧ owner / 0x1000 % 8 = 0 ∧ (owner.testBit 15 = true → owner / 16 % 0x800 = 0) := by
  rw [Nat.testBit_eq_decide_div_mod_eq, decide_eq_true_eq]
  unfold ownerOk at h
  omega

/-- The length of the body and FILL_PX fit the format (R331). -/
structure HeaderFits (format len fill : Nat) : Prop where
  format_lt : format < 4
  range : if format = fmtDICT then 1 ≤ len ∧ len ≤ 4608 else if format = fmtSTORED then len = 4608 else len = 0
  fill_lt : fill < 2 ^ 36
  fill_zero : format ≠ fmtFILL → fill = 0

theorem HeaderFits.len_le {format len fill : Nat} (h : HeaderFits format len fill) : len ≤ 4608 := by
  have hrange := h.range
  split at hrange
  · exact hrange.2
  · split at hrange <;> omega

/-- The fields that a header shows are those that were put into it. -/
theorem HeaderFits.mods {format len fill : Nat} (h : HeaderFits format len fill) :
    format % 256 = format ∧ len % 65536 = len ∧ fill % 256 ^ 5 = fill := by
  have hlen := h.len_le; have hformat := h.format_lt; have hfill := h.fill_lt
  omega

theorem headerOk_hamperHeader {format len owner fill : Nat} (subst : Bool) (seq : Nat) (tcrc : Word) (tail : List Byte) (howner : ownerOk owner)
    (h : HeaderFits format len fill) : headerOk ((hamperHeader format subst len owner seq fill tcrc ++ tail).take 16) = true := by
  obtain ⟨hlow, hmiddle, hplane⟩ := ownerOk_bits howner
  obtain ⟨hf, hl, hpx⟩ := h.mods
  have hlen := h.len_le; have hformat := h.format_lt; have hfill := h.fill_lt; have hsubst := subst.toNat_le
  rw [take_hamperHeader]
  refine (headerWellFormed_iff _).2 ?_
  simp only [fieldAt_format, fieldAt_subst, fieldAt_bodyLen, fieldAt_owner, fieldAt_fill, hlow, hf, hl, hpx]
  refine ⟨?_, h.range, h.fill_zero⟩
  rintro (hr | hr | hr | hr | hr | hr)
  · omega
  · omega
  · omega
  · exact hr hmiddle
  · exact hr.2 (hplane hr.1)
  · omega

/-! ### The encoder (R334) -/

/-- The body that a reader expects for a format: the pixels of a FILL, a coded tile, or the raw tile. -/
theorem encodeTile_cases (noFill forced checkFails : Bool) {px : List Px} (h : px.length = 1024) :
    (encodeTile noFill forced checkFails px = (fmtFILL, []) ∧ px = List.replicate 1024 (px.headD blackPx)) ∨
    (encodeTile noFill forced checkFails px = (fmtDICT, lzwBody (symbolsOf px)) ∧ (lzwBody (symbolsOf px)).length ≤ 4608) ∨
      encodeTile noFill forced checkFails px = (fmtSTORED, rawBytes px) := by
  unfold encodeTile
  simp only
  split
  · next hfill =>
    refine .inl ⟨rfl, List.eq_replicate_iff.2 ⟨h, fun p hp => ?_⟩⟩
    simpa using List.all_eq_true.1 hfill.2 p hp
  · split
    · split
      · next hdict => exact .inr (.inl ⟨rfl, hdict.1⟩)
      · exact .inr (.inr rfl)
    · exact .inr (.inr rfl)

/-- A coded body is never empty: the decoder reads 3,072 symbols from it. -/
theorem lzwBody_ne_nil {px : List Px} (h : px.length = 1024) : lzwBody (symbolsOf px) ≠ [] := by
  intro hnil
  have hread := lzwDecode_lzwBody h
  rw [hnil] at hread
  exact absurd hread (by rw [show lzwDecode [] = none from rfl]; simp)

/-- FILL_PX of a format. -/
def fillOf (format : Nat) (px : List Px) : Nat := if format = fmtFILL then (px.headD blackPx).raw else 0

/-- The pixels that a reader finds in a body (R339). -/
def bodyPixels (format fill : Nat) (body : List Byte) : Option (List Px) :=
  if format = fmtFILL then some (List.replicate 1024 (pxRaw fill))
  else if format = fmtDICT then lzwDecode body else some (rawPixels 1024 body)

/-- What the encoder chooses holds the tile. -/
theorem encodeTile_holds (noFill forced checkFails : Bool) {px : List Px} (h : px.length = 1024) {e : Nat × List Byte}
    (he : e = encodeTile noFill forced checkFails px) :
    e.1 ≠ fmtEMPTY ∧ HeaderFits e.1 e.2.length (fillOf e.1 px) ∧ bodyPixels e.1 (fillOf e.1 px) e.2 = some px := by
  subst he
  rcases encodeTile_cases noFill forced checkFails h with ⟨he, hpx⟩ | ⟨he, hlen⟩ | he <;> rw [he]
  · refine ⟨by decide, ⟨by decide, rfl, raw_lt _, fun h => absurd rfl h⟩, ?_⟩
    have hfill : fillOf fmtFILL px = (px.headD blackPx).raw := rfl
    have hpixels : bodyPixels fmtFILL (fillOf fmtFILL px) [] = some (List.replicate 1024 (pxRaw (fillOf fmtFILL px))) := rfl
    rw [hpixels, hfill, pxRaw_raw, ← hpx]
  · exact ⟨Nat.succ_ne_zero _, ⟨Nat.lt_succ_of_lt (Nat.lt_succ_self 2), ⟨List.length_pos_iff.2 (lzwBody_ne_nil h), hlen⟩, Nat.two_pow_pos 36, fun _ => rfl⟩,
      lzwDecode_lzwBody h⟩
  · have hlen : (rawBytes px).length = 4608 := by rw [length_rawBytes, h]
    refine ⟨Nat.succ_ne_zero _, ⟨Nat.lt_succ_self 3, hlen, Nat.two_pow_pos 36, fun _ => rfl⟩, ?_⟩
    have hraw := rawRoundTrip px
    rw [h] at hraw
    exact congrArg some hraw

/-! ### The reader (R339) -/

/-- The checks of a reader on a header that is well formed and not EMPTY, in their order. -/
theorem readHamper_hamperHeader {format len owner fill : Nat} (subst : Bool) (seq : Nat) (tcrc : Word) {body pad : List Byte} {px : List Px}
    (howner : ownerOk owner) (hlen : body.length = len) (hbody : HeaderFits format len fill) (hformat : format ≠ fmtEMPTY)
    (hpx : bodyPixels format fill body = some px) (hcrc : tcrc = crc32c (rawBytes px)) (other : Nat) (sq : Option Nat) :
    readHamper (hamperHeader format subst len owner seq fill tcrc ++ (body ++ pad)) other sq =
      if owner ≠ other then .error causeOWNER else if sq.any (fun q => seq % 256 ≠ q % 256) then .error causeSTALE else .ok px := by
  obtain ⟨hf, hl, hfill⟩ := hbody.mods
  unfold readHamper
  simp only [headerOk_hamperHeader subst seq tcrc (body ++ pad) howner hbody, fieldAt_format, fieldAt_bodyLen, fieldAt_owner, fieldAt_seq,
    fieldAt_fill, fieldAt_tcrc, drop_hamperHeader, hf, hl, hfill, (ownerOk_bits howner).1, List.take_left' hlen]
  rw [if_neg (by decide), if_neg hformat]
  split
  · rfl
  · split
    · rfl
    · have hpixels : (if format = fmtFILL then some (List.replicate 1024 (pxRaw fill)) else if format = fmtDICT then lzwDecode body
          else some (rawPixels 1024 body)) = some px := hpx
      rw [hpixels]
      simp [hcrc]

/-- The hamper that an encoder writes, as its readers see it. -/
theorem readHamper_hamperOf (noFill forced checkFails subst : Bool) {owner : Nat} (seq : Nat) {px : List Px} (h : px.length = 1024)
    (howner : ownerOk owner) (other : Nat) (sq : Option Nat) :
    readHamper (hamperOf noFill forced checkFails subst owner seq px).2 other sq =
      if owner ≠ other then .error causeOWNER else if sq.any (fun q => seq % 256 ≠ q % 256) then .error causeSTALE else .ok px := by
  obtain ⟨hformat, hbody, hpx⟩ := encodeTile_holds noFill forced checkFails h rfl
  have hbytes : (hamperOf noFill forced checkFails subst owner seq px).2 =
      toGranules (hamperHeader (encodeTile noFill forced checkFails px).1 subst (encodeTile noFill forced checkFails px).2.length owner seq
        (fillOf (encodeTile noFill forced checkFails px).1 px) (crc32c (rawBytes px)) ++ (encodeTile noFill forced checkFails px).2) := rfl
  rw [hbytes, toGranules, List.append_assoc]
  exact readHamper_hamperHeader subst seq _ howner rfl hbody hformat hpx rfl other sq

/-- Settles O36: what the encoder chooses holds the tile (`encodeTile_holds`), and a reader that expects it passes every check. -/
theorem hamperRoundTrip : Obligations.HamperRoundTrip := by
  intro noFill forced checkFails subst owner seq px hpx howner
  have hread := readHamper_hamperOf noFill forced checkFails subst seq hpx howner owner
  constructor <;> simp [hread]

theorem readHamper_emptyHamper {owner : Nat} (seq : Nat) (howner : ownerOk owner) :
    readHamper (emptyHamper owner seq) owner none = .error causeEMPTY := by
  have hbytes : emptyHamper owner seq = hamperHeader fmtEMPTY false 0 owner seq 0 0#32 ++ List.replicate 48 0#8 := rfl
  have hok := headerOk_hamperHeader false seq 0#32 (List.replicate 48 0#8) howner
    (format := fmtEMPTY) ⟨by decide, rfl, by decide, fun _ => rfl⟩
  rw [hbytes]
  unfold readHamper
  simp only [hok, fieldAt_format]
  rfl

theorem hamperRefusals : Claim.HamperRefusals := by
  intro noFill forced checkFails subst owner other seq sq px hpx howner
  have hread := readHamper_hamperOf noFill forced checkFails subst seq hpx howner
  refine ⟨fun hne x => ?_, fun hstale => ?_, readHamper_emptyHamper seq howner⟩
  · rw [hread, if_pos hne.symm]
  · rw [hread, if_neg (not_not.2 rfl), if_pos (by simpa using hstale.symm)]

/-- Every check but that of the header has a cause of its own. -/
theorem readHamper_format_iff (bs : List Byte) (owner : Nat) (seq : Option Nat) :
    readHamper bs owner seq = .error causeFORMAT ↔ headerOk (bs.take 16) = false := by
  unfold readHamper
  cases headerOk (bs.take 16) with
  | false => simp
  | true =>
    simp only [Bool.not_true, Bool.false_eq_true, if_false, Bool.true_eq_false, iff_false]
    repeat' split
    all_goals simp

/-- Settles O37: the causes of a reader in their order, and a header's bits one by one. -/
theorem hamperChecks : Obligations.HamperChecks := ⟨hamperRefusals, fun bs _ => headerWellFormed_iff bs, readHamper_format_iff⟩

/-! ### Layer slots (R355) -/

theorem layerSlot_place {z : Nat} (hz : z < 2 ^ 25) : layerSlot z / 2 ^ 24 = z % 2 ∧ layerSlot z % 2 ^ 24 = z / 2 := by
  unfold layerSlot slotOf
  omega

/-- The slots of a channel, whatever CFG holds, fit a register with room. -/
theorem Chip.nCh_lt (c : Chip) (d ch : Nat) : c.nCh d ch < 2 ^ 23 := by
  have hranks : c.get d (memcPage ch) MEMC.CFG 5 4 < 2 ^ 2 := Nat.mod_lt _ (by decide)
  unfold Chip.nCh channelSlots
  split <;> omega

theorem Chip.slotLimit_noteChannels {c : Chip} {d : Nat} (h0 : c.serving d 0 = true) (h1 : c.serving d 1 = true) :
    (c.noteChannels d).num d COMP COMP.SLOT_LIMIT = 2 * (c.nCh d 0 - 75776) := by
  have hn : (c.setReady d COMP true).nCh d 0 = c.nCh d 0 := by
    unfold Chip.nCh Chip.get
    rw [Chip.reg_setReady_quiet _ d d (by decide), Chip.reg_put_apart _ d d (by decide)]
  have hlt := c.nCh_lt d 0
  unfold Chip.noteChannels
  simp only [h0, h1, Bool.and_self, if_true, hn]
  rw [Chip.num, Chip.setNum_eq, Chip.reg_setReg_same, BitVec.toNat_ofNat, Nat.mod_eq_of_lt (by omega)]

/-- Settles O38: SLOT_LIMIT is put into the register as the channels' readiness is noted, and fits it. -/
theorem layerSlots : Obligations.LayerSlots :=
  ⟨fun _ hz => layerSlot_place hz, rfl, by decide, fun _ _ _ h0 h1 => Chip.slotLimit_noteChannels h0 h1⟩

end Sys2Proof.Machine
end

section
/-! PROOFS. Reports of drivers, and configuration access (O43; R315 to R321). -/

namespace Sys2Proof.Machine

/-! ### A FOM that leaves a lane's state as it is (R210) -/

/-- What the reports of a chain keep: the dies, the drivers, the state of the lane, and every register beside its page. -/
def Chip.besideFom (c : Chip) (d l : Nat) := (c.offLane d l, c.drivers, c.reg d (lanePage l) LANE.STATUS)

section
variable {c : Chip} {d l : Nat}

theorem Chip.besideFom_setLane (x : LaneSt) : (c.setLane d l x).besideFom d l = c.besideFom d l := rfl

theorem Chip.besideFom_snapLane : (c.snapLane d l).besideFom d l = c.besideFom d l := by
  unfold Chip.snapLane
  dsimp only
  split <;> rfl

theorem Chip.besideFom_of_touches {u : Chip} {p : Nat → Prop} (h : c.touches u p) (hp : ∀ a, p a → laneShown d l a)
    (hstatus : u.reg d (lanePage l) LANE.STATUS = c.reg d (lanePage l) LANE.STATUS) : u.besideFom d l = c.besideFom d l :=
  Prod.ext (Chip.offLane_of_touches h hp) (Prod.ext (by rw [Chip.besideFom, h.1]; rfl) hstatus)

section
variable (hl : l < 24)
include hl

theorem Chip.besideFom_lput {o : Nat} (ho : o < 0x1000) (hne : LANE.STATUS ≠ o) (hi lo v : Nat) :
    (c.lput d l o hi lo v).besideFom d l = c.besideFom d l := by
  have hp : lanePage l < 0x1000 := (bounds_of_quiet (quiet_lanePage hl (r := LANE.STATUS) (by decide) (by decide) (by decide))).1
  exact Chip.besideFom_of_touches (c.touches_put d _ o hi lo v) (fun _ ha => ha ▸ laneShown_page ho)
    (c.reg_put_apart d d (apart_of_ne hp (by decide) hp ho (.inr hne)) hi lo v)

theorem Chip.besideFom_events (sets : List Nat) : (c.events d (lanePage l) sets).besideFom d l = c.besideFom d l :=
  Chip.besideFom_of_touches (c.touches_events d _ sets) (fun _ => laneShown_of_eventReg)
    (c.reg_events_quiet d d (quiet_lanePage hl (by decide) (by decide) (by decide)) _ sets)

end

theorem Chip.isReady_of_besideFom {u : Chip} (h : u.besideFom d l = c.besideFom d l) : u.isReady d l = c.isReady d l := by
  have hstatus : u.reg d (lanePage l) LANE.STATUS = c.reg d (lanePage l) LANE.STATUS := congrArg (fun v => v.2.2) h
  unfold Chip.isReady Chip.lstate
  rw [Chip.get_congr hstatus]

/-- A FOM on a lane that is not READY is shown, and changes nothing else. -/
theorem Chip.besideFom_judgeFom (hl : l < 24) (hready : c.isReady d l = false) (fom : Nat) :
    (c.judgeFom d l fom).besideFom d l = c.besideFom d l := by
  unfold Chip.judgeFom
  extract_lets c₁ before limits left pinned c₂ c₃ c₄ x bad c₅
  have h₁ : c₁.besideFom d l = c.besideFom d l := Chip.besideFom_snapLane
  have h₂ : c₂.besideFom d l = c.besideFom d l := (Chip.besideFom_lput hl (by decide) (by decide) ..).trans h₁
  have h₃ : c₃.besideFom d l = c.besideFom d l := by
    unfold c₃
    split
    · exact h₂
    · exact (Chip.besideFom_lput hl (by decide) (by decide) ..).trans h₂
  have h₄ : c₄.besideFom d l = c.besideFom d l := (Chip.besideFom_events hl _).trans h₃
  have h₅ : c₅.besideFom d l = c.besideFom d l := (Chip.besideFom_setLane _).trans h₄
  split
  · split
    · exact (Chip.besideFom_events hl _).trans h₄
    · exact h₄
  · split
    · next h =>
      rw [Chip.isReady_of_besideFom h₅, hready] at h
      exact absurd h.1 Bool.false_ne_true
    · exact h₅

end

/-! ### STATUS reports (R315 to R320) -/

section
variable {c : Chip} {d k p : Nat}

/-- A chain whose lane does not train is not trained by its reports. -/
theorem Chip.chainTrain_of_not_training (h : c.training d (8 + k) = false) : c.chainTrain d k = c := by
  simp only [Chip.training, Bool.or_eq_false_iff, decide_eq_false_iff_not] at h
  obtain ⟨⟨hlock, hconfirm⟩, -⟩ := h
  unfold Chip.chainTrain
  dsimp only
  rw [if_neg hlock, if_neg fun h => hconfirm h.1]

/-- A report on a chain whose lane does not train, and is not READY at 28 or 56 Gbit/s or without lock, changes the lane's page at
most. -/
theorem Chip.besideFom_laneReported (hk : k < 16) {lock : Bool} (htraining : c.training d (8 + k) = false)
    (hready : c.isReady d (8 + k) = true → lock = true ∧ c.lrate d (8 + k) < 3) :
    (c.laneReported d k lock).besideFom d (8 + k) = c.besideFom d (8 + k) := by
  have hl : 8 + k < 24 := by omega
  unfold Chip.laneReported
  extract_lets judged
  have hjudged : judged.besideFom d (8 + k) = c.besideFom d (8 + k) := by
    unfold judged
    split
    · next f _ =>
      split
      · next hrate =>
        exact Chip.besideFom_judgeFom hl (Bool.eq_false_iff.2 fun h => absurd hrate.1 (Nat.not_le.2 (hready h).2)) f
      · rfl
    · rfl
  have hkept : judged.training d (8 + k) = false := by
    have hstatus : judged.reg d (lanePage (8 + k)) LANE.STATUS = c.reg d (lanePage (8 + k)) LANE.STATUS :=
      congrArg (fun v => v.2.2) hjudged
    rw [← htraining]
    unfold Chip.training Chip.lstate
    rw [Chip.get_congr hstatus]
  rw [if_neg fun h => ?_, Chip.chainTrain_of_not_training hkept, hjudged]
  rw [(hready h.1).1] at h
  exact Bool.false_ne_true h.2

variable (x : DriverSt) (lock : Bool) (code crc : Nat)

theorem Chip.drivers_reported (hk : k < 16) : (c.reported d k p x lock code crc).drivers = (c.setDriver d k p x).drivers := by
  rw [(Chip.touches_reported x lock code crc hk).1]

/-- The position reports. -/
theorem Chip.reports_reported (hk : k < 16) (hp : p < 8) : (c.reported d k p x lock code crc).retGet d k (8 + p) (8 + p) = 1 := by
  have hquiet := retStatus_quiet hk
  have hlt := retStatus_lt hk
  have hput : ∀ u : Chip, (u.retPut d k (8 + p) (8 + p) 1).retGet d k (8 + p) (8 + p) = 1 := fun u =>
    (u.get_put d DLINK _ _ le_rfl (by omega)).trans (by rw [Nat.add_sub_cancel_left]; rfl)
  refine (Chip.get_congr ?_ (8 + p) (8 + p)).trans (hput ((c.setDriver d k p x).retPut d k p p lock.toNat))
  unfold Chip.reported
  rw [Chip.reg_eventIf_quiet _ d d hquiet]
  exact (Chip.reg_setNum_apart _ d d (apart_of_offset hquiet (by decide) (by decide) (ne_of_lt hlt)) _).trans
    (Chip.reg_setNum_apart _ d d (apart_of_offset hquiet (by decide) (by decide) (ne_of_lt (hlt.trans (by decide)))) _)

theorem Chip.num_countBy (c : Chip) (d p o n : Nat) : (c.countBy d p o n).num d p o = min 0xFFFFFFFF (c.num d p o + n) := by
  unfold Chip.countBy Chip.num
  rw [Chip.setNum_eq, Chip.reg_setReg_same, BitVec.toNat_ofNat]
  exact Nat.mod_eq_of_lt (by omega)

theorem Chip.codeErrors_reported (hk : k < 16) :
    (c.reported d k p x lock code crc).num d DLINK DLINK.DRV_CODE_COUNT = min 0xFFFFFFFF (c.num d DLINK DLINK.DRV_CODE_COUNT + code) := by
  have hret : apart DLINK DLINK.DRV_CODE_COUNT DLINK (DLINK.RET_STATUS + 4 * k) = true := by
    revert k; decide
  have hbefore : (((c.setDriver d k p x).retPut d k p p lock.toNat).retPut d k (8 + p) (8 + p) 1).num d DLINK DLINK.DRV_CODE_COUNT =
      c.num d DLINK DLINK.DRV_CODE_COUNT :=
    congrArg BitVec.toNat ((Chip.reg_put_apart _ d d hret ..).trans (Chip.reg_put_apart _ d d hret ..))
  rw [← hbefore, ← Chip.num_countBy]
  refine congrArg BitVec.toNat ?_
  unfold Chip.reported
  rw [Chip.reg_eventIf_quiet _ d d (by decide)]
  exact Chip.reg_setNum_apart _ d d (by decide) _

end

/-- The report of a position is taken as its bits of RET_STATUS, its errors and its driver's record, and what the lane makes of it. -/
theorem Chip.statusFrame_taken {c : Chip} {d k p : Nat} (hp : p < c.chainDrivers d) (lock : Bool) (rate : Nat) (loop : Bool)
    (fom code crc : Nat) : ∃ x : DriverSt, x.rate = rate ∧ x.statusAt = c.now ∧
      c.statusFrame d k p lock rate loop fom code crc = (c.reported d k p x lock code crc).laneReported d k lock :=
  ⟨_, rfl, rfl, if_neg (Nat.not_le.2 hp)⟩

theorem Chip.driver_congr {c c' : Chip} (h : c'.drivers = c.drivers) (d k p : Nat) : c'.driver d k p = c.driver d k p := by
  unfold Chip.driver; rw [h]

theorem Chip.driver_setDriver_same (c : Chip) (d k p : Nat) (x : DriverSt) : (c.setDriver d k p x).driver d k p = x :=
  (c.driver_setDriver d k p x d k p).trans (if_pos rfl)

section
variable {s : State} {d k p : Nat} (h : isDriver s d k p)
include h

theorem onDriver_of_isDriver (f : State → State) : onDriver s d k p f = .next (f s) := if_pos ⟨h.1, h.2.1, h.2.2.1⟩

theorem statusReportTaken {lock : Bool} (rate : Nat) (loop : Bool) (fom code crc : Nat) (htraining : s.chip.training d (8 + k) = false)
    (hready : s.chip.isReady d (8 + k) = true → lock = true ∧ s.chip.lrate d (8 + k) < 3) :
    ∃ t, exec (.statusFrameRx d k p lock rate loop fom code crc) s = .next t ∧ t.mem = s.mem ∧ t.chip.retGet d k p p = lock.toNat ∧
      t.chip.retGet d k (8 + p) (8 + p) = 1 ∧ (t.chip.driver d k p).rate = rate ∧ (t.chip.driver d k p).statusAt = s.chip.now ∧
      t.chip.num d DLINK DLINK.DRV_CODE_COUNT = min 0xFFFFFFFF (s.chip.num d DLINK DLINK.DRV_CODE_COUNT + code) := by
  obtain ⟨hd, hk, hp, hfitted⟩ := h
  obtain ⟨x, hrate, hat, hframe⟩ := Chip.statusFrame_taken (k := k) hfitted lock rate loop fom code crc
  have hl : 8 + k < 24 := by omega
  have hpage : DLINK ≠ lanePage (8 + k) := (lanePage_ne_blocks hl).2.1.symm
  have hstatus : (s.chip.reported d k p x lock code crc).reg d (lanePage (8 + k)) LANE.STATUS = s.chip.reg d (lanePage (8 + k)) LANE.STATUS :=
    Chip.reg_reported x lock code crc hk (quiet_lanePage hl (by decide) (by decide) (by decide)) hpage.symm
  have hbeside := Chip.besideFom_laneReported (c := s.chip.reported d k p x lock code crc) (d := d) hk (lock := lock)
    (by unfold Chip.training Chip.lstate at htraining ⊢; rw [Chip.get_congr hstatus]; exact htraining)
    (by unfold Chip.isReady Chip.lstate Chip.lrate at hready ⊢; rw [Chip.get_congr hstatus, Chip.get_congr hstatus]; exact hready)
  rw [← hframe] at hbeside
  have hreg {r : Nat} (hq : quiet DLINK r = true) := Chip.reg_of_offLane (congrArg Prod.fst hbeside) hq hpage
  have hdriver : (s.chip.statusFrame d k p lock rate loop fom code crc).driver d k p = x :=
    (Chip.driver_congr ((congrArg (fun v => v.2.1) hbeside).trans (Chip.drivers_reported x lock code crc hk)) d k p).trans
      (Chip.driver_setDriver_same ..)
  refine ⟨s.up fun c => c.statusFrame d k p lock rate loop fom code crc, onDriver_of_isDriver ⟨hd, hk, hp, hfitted⟩ fun s => s.up _, State.up_mem .., ?_⟩
  rw [State.up_chip, hdriver]
  exact ⟨(Chip.get_congr (hreg (retStatus_quiet hk)) p p).trans (Chip.retGet_reported x lock code crc hk hp),
    (Chip.get_congr (hreg (retStatus_quiet hk)) _ _).trans (Chip.reports_reported x lock code crc hk hp), hrate, hat,
    (congrArg BitVec.toNat (hreg (by decide))).trans (Chip.codeErrors_reported x lock code crc hk)⟩

/-! ### The other frames (R250, R315, R317) -/

theorem exec_tempFrame (temp : Int) :
    exec (.tempFrameRx d k p temp) s = .next (s.up fun c => c.setDriver d k p { c.driver d k p with
      temps := (c.driver d k p).temps.filter (fun y => decide (c.now ≤ y.2 + 1000000000)) ++ [(temp, c.now)] }) := by
  refine (onDriver_of_isDriver h fun s => s.up _).trans (congrArg Host.Outcome.next (State.up_congr ?_))
  exact if_neg (Nat.not_le.2 h.2.2.2)

theorem Chip.helloFrame_eq (rates : Nat) : s.chip.helloFrame d k p rates =
    (s.chip.setDriver d k p { s.chip.driver d k p with hello := some rates }).retPut d k 20 16
      ((s.chip.setDriver d k p { s.chip.driver d k p with hello := some rates }).chainRates d k) := if_neg (Nat.not_le.2 h.2.2.2)

end

theorem Chip.driver_retPut (c : Chip) (d k hi lo v e j q : Nat) : (c.retPut d k hi lo v).driver e j q = c.driver e j q := rfl

/-- RET_STATUS has no part in the rates of a chain. -/
theorem Chip.chainRates_retPut (c : Chip) {d k : Nat} (hk : k < 16) (hi lo v : Nat) :
    (c.retPut d k hi lo v).chainRates d k = c.chainRates d k := by
  have hret : apart DLINK DLINK.CHAINS DLINK (DLINK.RET_STATUS + 4 * k) = true := by
    revert k; decide
  have hpositions : (c.retPut d k hi lo v).positions d = c.positions d := by
    unfold Chip.positions Chip.chainDrivers Chip.retPut
    rw [Chip.get_congr (c.reg_put_apart d d hret hi lo v)]
  unfold Chip.chainRates
  rw [hpositions]
  rfl

theorem helloTaken {s : State} {d k p : Nat} (h : isDriver s d k p) (rates : Nat) :
    ∃ t, exec (.helloFrameRx d k p rates) s = .next t ∧ t.mem = s.mem ∧ (t.chip.driver d k p).hello = some rates ∧
      t.chip.retGet d k 20 16 = t.chip.chainRates d k % 32 := by
  refine ⟨s.up fun c => c.helloFrame d k p rates, onDriver_of_isDriver h fun s => s.up _, State.up_mem .., ?_⟩
  rw [State.up_chip, Chip.helloFrame_eq h]
  refine ⟨congrArg DriverSt.hello ((Chip.driver_retPut ..).trans (Chip.driver_setDriver_same s.chip d k p _)), ?_⟩
  rw [Chip.chainRates_retPut _ h.2.1]
  exact Chip.get_put _ d DLINK _ _ (by decide) (by decide)

theorem exec_retSilent {s : State} {d k p : Nat} (h : isDriver s d k p) (hreports : s.chip.retGet d k (8 + p) (8 + p) = 1) :
    exec (.retSilent d k p) s =
      .next (s.up fun c => ((c.retPut d k (8 + p) (8 + p) 0).count d DLINK DLINK.RET_SILENT_COUNT).event d DLINK 2) := by
  refine (onDriver_of_isDriver h fun s => s.up _).trans (congrArg Host.Outcome.next (State.up_congr ?_))
  refine (if_pos hreports).trans ?_
  unfold Chip.when
  exact if_pos (decide_eq_true h.2.2.2)

theorem exec_returnFrameDiscard {s : State} {d k : Nat} (hd : d < dieCount s.chip.member) (hk : k < 16) (halves : List Bool) :
    exec (.returnFrameDiscard ⟨d, k, halves⟩) s = .next (s.up fun c => match retFrame halves with
      | some bs => c.takeFrame d k bs
      | none => (c.count d DLINK DLINK.RET_ERR_COUNT).event d DLINK 1) := by
  refine (if_pos ⟨hd, hk, by decide⟩).trans (congrArg Host.Outcome.next (State.up_congr ?_))
  dsimp only
  cases retFrame halves <;> rfl

theorem driverReports : Claim.DriverReports := by
  intro s d k p h
  exact ⟨fun _ rate loop fom code crc htraining hready => statusReportTaken h rate loop fom code crc htraining hready,
    exec_tempFrame h, helloTaken h, exec_retSilent h, exec_returnFrameDiscard h.1 h.2.1⟩

/-! ### DRV_CMD starts (R321) -/

theorem bit_mergeBits (m : Nat) (old new : Word) {i : Nat} (hi : i < 32) :
    bit (mergeBits m old new) i = if m.testBit i then bit new i else bit old i := by
  have hmask : (BitVec.ofNat 32 m).getLsbD i = m.testBit i := by rw [BitVec.getLsbD_ofNat, decide_eq_true hi, Bool.true_and]
  have hbit : (mergeBits m old new).getLsbD i = if m.testBit i then new.getLsbD i else old.getLsbD i := by
    rw [mergeBits, BitVec.getLsbD_or, BitVec.getLsbD_and, BitVec.getLsbD_and, BitVec.getLsbD_not, hmask]
    cases m.testBit i <;> simp [hi]
  exact hbit

/-- A field within a mask is taken from the new word, a field beside it from the old one. -/
theorem bits_mergeBits_eq {m hi lo : Nat} {old new w : Word} (hhi : hi < 32)
    (h : ∀ i < 32, lo ≤ i → i ≤ hi → bit (mergeBits m old new) i = bit w i) : bits (mergeBits m old new) hi lo = bits w hi lo := by
  refine Nat.eq_of_testBit_eq fun i => ?_
  rw [testBit_bits, testBit_bits]
  by_cases hi : i < hi + 1 - lo
  · rw [h (lo + i) (by omega) (by omega) (by omega)]
  · rw [decide_eq_false hi]; rfl

/-- Bits of DRV_CMD that a write sets. -/
abbrev drvCmdMask : Nat := 0x6F70FF00

theorem bits_drvCmd_operand {hi lo : Nat} (old w : Word) (hhi : hi < 32) (h : ∀ i < 32, lo ≤ i → i ≤ hi → drvCmdMask.testBit i = true) :
    bits (mergeBits drvCmdMask old w) hi lo = bits w hi lo :=
  bits_mergeBits_eq hhi fun i hi hlo hle => by rw [bit_mergeBits _ _ _ hi, if_pos (h i hi hlo hle)]

theorem bits_drvCmd_tag (old w : Word) : bits (mergeBits drvCmdMask old w) 7 0 = bits old 7 0 :=
  bits_mergeBits_eq (by decide) fun i hi hlo hle => by
    rw [bit_mergeBits _ _ _ hi, if_neg]
    revert i; decide

/-- The command that GO starts, with the operands of DRV_CMD and DRV_DATA. -/
def Chip.drvTaken (c : Chip) (d : Nat) : DrvCmd :=
  let w := c.reg d DLINK DLINK.DRV_CMD
  { lane := bits w 27 24, pos := bits w 22 20, bcast := bit w 29, read := bit w 30, tag := (bits w 7 0 + 1) % 256, addr := bits w 15 8,
    data := c.get d DLINK DLINK.DRV_DATA 15 0, sent := false, answered := [], refused := false }

/-- The chip with its TAG, and STATUS in progress. -/
def Chip.drvShown (c : Chip) (d : Nat) : Chip := (c.put d DLINK DLINK.DRV_CMD 7 0 (c.drvTaken d).tag).put d DLINK DLINK.DRV_RESULT 2 0 1

/-- The chip with the command in progress. -/
def Chip.drvStarted (c : Chip) (d : Nat) : Chip := (c.drvShown d).setDie d { c.die d with drv := some (c.drvTaken d) }

theorem Chip.die_put (c : Chip) (d p o hi lo v e : Nat) : (c.put d p o hi lo v).die e = c.die e := rfl
theorem Chip.reg_setDie (c : Chip) (d : Nat) (x : DieSt) (e q r : Nat) : (c.setDie d x).reg e q r = c.reg e q r := rfl

section
variable {c : Chip} {d : Nat}

theorem Chip.reg_drvStarted {q r : Nat} (e : Nat) (h : apart q r DLINK DLINK.DRV_CMD = true) (h' : apart q r DLINK DLINK.DRV_RESULT = true) :
    (c.drvStarted d).reg e q r = c.reg e q r := by
  unfold Chip.drvStarted Chip.drvShown
  rw [Chip.reg_setDie, Chip.reg_put_apart _ d e h', Chip.reg_put_apart _ d e h]

/-- What GO does, case by case. -/
theorem Chip.drvGo_eq : c.drvGo d = if !(c.drvStarted d).isReady d (8 + (c.drvTaken d).lane) then (c.drvStarted d).endDrv d 5
    else if (c.drvStarted d).hasEntry ((c.drvStarted d).leadOf d) then c.drvStarted d
    else ((c.drvStarted d).sendOn d (8 + (c.drvTaken d).lane) []).drvSend d := by
  have hdata : (c.drvShown d).get d DLINK DLINK.DRV_DATA 15 0 = c.get d DLINK DLINK.DRV_DATA 15 0 := by
    unfold Chip.drvShown
    rw [Chip.get_congr (Chip.reg_put_apart _ d d (by decide) 2 0 1), Chip.get_congr (c.reg_put_apart d d (by decide) 7 0 _)]
  unfold Chip.drvGo
  extract_lets w tag u k y x v
  have hx : x = c.drvTaken d := by
    unfold x Chip.drvTaken
    rw [← hdata]
    rfl
  have hy : y = c.die d := (Chip.die_put ..).trans (Chip.die_put ..)
  have hv : v = c.drvStarted d := by
    unfold v Chip.drvStarted
    rw [hx, hy]
    rfl
  rw [hv]
  rfl

/-- GO to a READY lane of an output with an entry only starts the command: its packet waits for a vertical blanking line. -/
theorem Chip.drvGo_ready (hready : c.isReady d (8 + (c.drvTaken d).lane) = true) (hentry : c.hasEntry (c.leadOf d) = true) :
    c.drvGo d = c.drvStarted d := by
  have hlane : 8 + (c.drvTaken d).lane < 24 := by
    have hlt : (c.drvTaken d).lane < 2 ^ 4 := Nat.mod_lt _ (by decide)
    omega
  have hpage := (lanePage_ne_blocks hlane).2.1
  have hp := (bounds_of_quiet (quiet_lanePage hlane (r := LANE.STATUS) (by decide) (by decide) (by decide))).1
  have hready' : (c.drvStarted d).isReady d (8 + (c.drvTaken d).lane) = true := by
    rw [← hready]
    unfold Chip.isReady Chip.lstate
    rw [Chip.get_congr (Chip.reg_drvStarted d (apart_of_ne hp (by decide) (by decide) (by decide) (.inl hpage))
      (apart_of_ne hp (by decide) (by decide) (by decide) (.inl hpage)))]
  have hentry' : (c.drvStarted d).hasEntry ((c.drvStarted d).leadOf d) = true := by
    rw [Chip.leadOf_congr (Chip.reg_drvStarted 0 (by decide) (by decide)), ← hentry]
    unfold Chip.hasEntry Chip.flag
    rw [Chip.reg_drvStarted _ (by decide) (by decide)]
  rw [Chip.drvGo_eq, hready', hentry', if_neg (by decide), if_pos rfl]

theorem Chip.die_drvStarted : (c.drvStarted d).die d = { c.die d with drv := some (c.drvTaken d) } := Chip.die_setDie_same ..

theorem Chip.result_drvStarted : (c.drvStarted d).get d DLINK DLINK.DRV_RESULT 2 0 = 1 := by
  unfold Chip.drvStarted Chip.drvShown
  rw [Chip.get_congr (Chip.reg_setDie ..), Chip.get_put _ d DLINK _ _ (by decide) (by decide)]
  rfl

theorem Chip.tag_drvStarted : (c.drvStarted d).get d DLINK DLINK.DRV_CMD 7 0 = (c.drvTaken d).tag := by
  unfold Chip.drvStarted Chip.drvShown
  rw [Chip.get_congr (Chip.reg_setDie ..), Chip.get_congr (Chip.reg_put_apart _ d d (by decide) 2 0 1),
    Chip.get_put _ d DLINK _ _ (by decide) (by decide)]
  exact Nat.mod_mod _ _

end

/-- DRV_CMD has been written. -/
def Chip.drvWritten (c : Chip) (d : Nat) (w : Word) : Chip :=
  c.setReg d DLINK DLINK.DRV_CMD (mergeBits drvCmdMask (c.reg d DLINK DLINK.DRV_CMD) w)

section
variable (c : Chip) (d : Nat) (w : Word)

theorem Chip.reg_drvWritten {q r : Nat} (e : Nat) (h : apart q r DLINK DLINK.DRV_CMD = true) : (c.drvWritten d w).reg e q r = c.reg e q r :=
  c.reg_setReg_apart d e h _

/-- The command has the operands of the word written, and the next TAG. -/
theorem Chip.drvTaken_drvWritten : (c.drvWritten d w).drvTaken d =
    { lane := bits w 27 24, pos := bits w 22 20, bcast := bit w 29, read := bit w 30, tag := (c.get d DLINK DLINK.DRV_CMD 7 0 + 1) % 256,
      addr := bits w 15 8, data := bits (c.reg d DLINK DLINK.DRV_DATA) 15 0, sent := false, answered := [], refused := false } := by
  have hdata : (c.drvWritten d w).reg d DLINK DLINK.DRV_DATA = c.reg d DLINK DLINK.DRV_DATA := c.reg_drvWritten d w d (by decide)
  have hword : (c.drvWritten d w).reg d DLINK DLINK.DRV_CMD = mergeBits drvCmdMask (c.reg d DLINK DLINK.DRV_CMD) w :=
    Chip.reg_setReg_same ..
  unfold Chip.drvTaken Chip.get
  dsimp only
  rw [hdata, hword, bits_drvCmd_operand _ w (hi := 27) (lo := 24) (by decide) (by decide), bits_drvCmd_operand _ w (hi := 22) (by decide) (by decide),
    bits_drvCmd_operand _ w (hi := 15) (by decide) (by decide), bits_drvCmd_tag, bit_mergeBits _ _ _ (by decide),
    bit_mergeBits _ _ _ (by decide), if_pos (by decide), if_pos (by decide)]

end

theorem State.writeReg_drvGo (s : State) (d : Nat) {w : Word} (hgo : bit w 31 = true) :
    s.writeReg d DLINK DLINK.DRV_CMD w = s.up fun c => (c.drvWritten d w).drvGo d := by
  have hact : s.writeReg d DLINK DLINK.DRV_CMD w = s.actWrite d DLINK .dlink DLINK.DRV_CMD w := rfl
  have hstore : s.chip.storeWord d DLINK .dlink DLINK.DRV_CMD w = s.chip.drvWritten d w :=
    s.chip.storeWord_plain d DLINK w (by decide) (by decide)
  rw [hact]
  unfold State.actWrite
  dsimp only
  rw [if_pos ⟨rfl, hgo⟩, State.up_up]
  exact State.up_congr (congrArg (Chip.drvGo · d) hstore)

/-- The lane and the output of a command are judged as they were before the write. -/
theorem Chip.drvGo_drvWritten {c : Chip} {d : Nat} {w : Word} (hready : c.isReady d (8 + bits w 27 24) = true)
    (hentry : c.hasEntry (c.leadOf d) = true) : (c.drvWritten d w).drvGo d = (c.drvWritten d w).drvStarted d := by
  have hl : 8 + bits w 27 24 < 24 := by
    have hlt : bits w 27 24 < 2 ^ 4 := Nat.mod_lt _ (by decide)
    omega
  have hp := (bounds_of_quiet (quiet_lanePage hl (r := LANE.STATUS) (by decide) (by decide) (by decide))).1
  refine Chip.drvGo_ready ?_ ?_
  · rw [Chip.drvTaken_drvWritten, ← hready]
    unfold Chip.isReady Chip.lstate
    rw [Chip.get_congr (c.reg_drvWritten d w d (apart_of_ne hp (by decide) (by decide) (by decide) (.inl (lanePage_ne_blocks hl).2.1)))]
  · rw [Chip.leadOf_congr (c.reg_drvWritten d w 0 (by decide)), ← hentry]
    unfold Chip.hasEntry Chip.flag
    rw [c.reg_drvWritten d w _ (by decide)]

theorem Chip.get_noted (c old : Chip) (port : Port) (d p o e q r hi lo : Nat) : (c.noted old port d p o).get e q r hi lo = c.get e q r hi lo :=
  rfl
theorem Chip.die_noted (c old : Chip) (port : Port) (d p o e : Nat) : (c.noted old port d p o).die e = c.die e := rfl

theorem drvCmdStarts (s : State) (h : Hdr) (w : Word) (hw : s.mayWrite h DLINK DLINK.DRV_CMD w) (hgo : bit w 31 = true)
    (hready : s.chip.isReady h.die (8 + bits w 27 24) = true) (hentry : s.chip.hasEntry (s.chip.leadOf h.die) = true) :
    ∃ u : State, exec (.drvCmd h w) s = .next (u.done (s.req h (oneWord h DLINK DLINK.DRV_CMD w)) OK) ∧ u.mem = s.mem ∧
      u.chip.get h.die DLINK DLINK.DRV_RESULT 2 0 = 1 ∧
      u.chip.get h.die DLINK DLINK.DRV_CMD 7 0 = (s.chip.get h.die DLINK DLINK.DRV_CMD 7 0 + 1) % 256 ∧
      (u.chip.die h.die).drv = some { lane := bits w 27 24, pos := bits w 22 20, bcast := bit w 29, read := bit w 30,
                                      tag := u.chip.get h.die DLINK DLINK.DRV_CMD 7 0, addr := bits w 15 8,
                                      data := bits (s.chip.reg h.die DLINK DLINK.DRV_DATA) 15 0, sent := false, answered := [],
                                      refused := false } := by
  let v := (s.starts h (oneWord h DLINK DLINK.DRV_CMD w)).chip
  refine ⟨(s.starts h (oneWord h DLINK DLINK.DRV_CMD w)).up fun c => ((c.drvWritten h.die w).drvGo h.die).noted c h.port h.die DLINK
    DLINK.DRV_CMD, exec_mayWrite rfl rfl (by decide) hw (State.writeReg_drvGo _ _ hgo), (State.up_mem ..).trans (State.up_mem ..), ?_⟩
  have hgone : (v.drvWritten h.die w).drvGo h.die = (v.drvWritten h.die w).drvStarted h.die := Chip.drvGo_drvWritten hready hentry
  have htag : v.get h.die DLINK DLINK.DRV_CMD 7 0 = s.chip.get h.die DLINK DLINK.DRV_CMD 7 0 := Chip.get_congr rfl 7 0
  have hdata : v.reg h.die DLINK DLINK.DRV_DATA = s.chip.reg h.die DLINK DLINK.DRV_DATA := rfl
  rw [State.up_chip, hgone, Chip.get_noted, Chip.get_noted, Chip.die_noted, Chip.die_drvStarted, Chip.tag_drvStarted,
    Chip.drvTaken_drvWritten, htag, hdata, Chip.result_drvStarted]
  exact ⟨rfl, rfl, rfl⟩

/-! ### The answer of a driver, and the end of a DRV_CMD (R321) -/

section
variable {c : Chip} {d : Nat}

theorem Chip.get_event_quiet (c : Chip) (d e : Nat) {q r : Nat} (h : quiet q r = true) (p b hi lo : Nat) :
    (c.event d p b).get e q r hi lo = c.get e q r hi lo := Chip.get_congr (c.reg_event_quiet d e h p b) hi lo

theorem Chip.result_endDrv {st : Nat} (h : st < 8) : (c.endDrv d st).get d DLINK DLINK.DRV_RESULT 2 0 = st := by
  unfold Chip.endDrv
  rw [Chip.get_event_quiet _ d d (by decide), Chip.get_put _ d DLINK _ _ (by decide) (by decide)]
  exact Nat.mod_eq_of_lt h

/-- The end of a command leaves the data of a read. -/
theorem Chip.data_endDrv (st : Nat) : (c.endDrv d st).get d DLINK DLINK.DRV_RESULT 31 16 = c.get d DLINK DLINK.DRV_RESULT 31 16 := by
  unfold Chip.endDrv
  rw [Chip.get_event_quiet _ d d (by decide), Chip.get_put_beside _ d DLINK _ _ d DLINK _ (by decide) (by decide) (.inr (by decide))]
  rfl

theorem Chip.die_of_touches {u : Chip} {p : Nat → Prop} (h : c.touches u p) (e : Nat) : u.die e = c.die e := by
  unfold Chip.die; rw [Chip.touches_dies h]

theorem Chip.drv_endDrv (st : Nat) : ((c.endDrv d st).die d).drv = none := by
  unfold Chip.endDrv
  rw [Chip.die_of_touches (Chip.touches_event ..), Chip.die_put, Chip.die_setDie_same]

/-- The answer of the one driver that a command names ends it, with STATUS 2 where nothing refused the address. -/
theorem Chip.drvAnswer_single {x : DrvCmd} (hdrv : (c.die d).drv = some x) (hsent : x.sent = true) (hbcast : x.bcast = false)
    (hrefused : x.refused = false) : ∃ z : DieSt, c.drvAnswer d x.lane x.pos x.tag x.read false = (c.setDie d z).endDrv d 2 := by
  unfold Chip.drvAnswer
  dsimp only
  rw [hdrv]
  dsimp only
  rw [if_pos ⟨hsent, rfl, rfl, rfl, .inr rfl⟩, if_pos, hrefused]
  · exact ⟨_, rfl⟩
  · have hmem : x.pos ∈ if x.answered.contains x.pos then x.answered else x.answered ++ [x.pos] := by
      split
      · next h => exact List.contains_iff_mem.1 h
      · exact List.mem_append_right _ (List.mem_singleton_self _)
    rw [hbcast]
    simpa using hmem

end

section
variable {s : State} {d : Nat} {x : DrvCmd} (h : isDriver s d x.lane x.pos) (hdrv : (s.chip.die d).drv = some x) (hsent : x.sent = true)
include h hdrv hsent

theorem ackEnds (hbcast : x.bcast = false) (hread : x.read = false) (hrefused : x.refused = false) :
    ∃ t, exec (.ackFrameRx d x.lane x.pos x.tag 0) s = .next t ∧ t.mem = s.mem ∧ (t.chip.die d).drv = none ∧
      t.chip.get d DLINK DLINK.DRV_RESULT 2 0 = 2 := by
  obtain ⟨z, hanswer⟩ := Chip.drvAnswer_single hdrv hsent hbcast hrefused
  have hack : s.chip.ackFrame d x.lane x.pos x.tag 0 = (s.chip.setDie d z).endDrv d 2 := by
    rw [← hanswer, hread]
    exact (if_neg (by decide)).trans (if_neg (Nat.not_le.2 h.2.2.2))
  refine ⟨s.up fun c => c.ackFrame d x.lane x.pos x.tag 0, onDriver_of_isDriver h fun s => s.up _, State.up_mem .., ?_⟩
  rw [State.up_chip, hack]
  exact ⟨Chip.drv_endDrv 2, Chip.result_endDrv (by decide)⟩

theorem readDataEnds (hbcast : x.bcast = false) (hread : x.read = true) (hrefused : x.refused = false) {data : Nat} (hdata : data < 65536) :
    ∃ t, exec (.readDataFrameRx d x.lane x.pos x.tag x.addr data) s = .next t ∧ t.mem = s.mem ∧ (t.chip.die d).drv = none ∧
      t.chip.get d DLINK DLINK.DRV_RESULT 2 0 = 2 ∧ t.chip.get d DLINK DLINK.DRV_RESULT 31 16 = data := by
  obtain ⟨z, hanswer⟩ := Chip.drvAnswer_single (c := s.chip.put d DLINK DLINK.DRV_RESULT 31 16 data)
    ((congrArg DieSt.drv (Chip.die_put ..)).trans hdrv) hsent hbcast hrefused
  have hmine : (s.chip.die d).drv.any
      (fun y => y.sent && decide (y.lane = x.lane ∧ y.tag = x.tag ∧ y.pos = x.pos ∧ y.addr = x.addr) && y.read) = true := by
    rw [hdrv]
    simp [hsent, hread]
  have hframe : s.chip.readFrame d x.lane x.pos x.tag x.addr data =
      ((s.chip.put d DLINK DLINK.DRV_RESULT 31 16 data).setDie d z).endDrv d 2 := by
    rw [← hanswer, hread]
    exact (if_neg (Nat.not_le.2 h.2.2.2)).trans (if_pos hmine)
  refine ⟨s.up fun c => c.readFrame d x.lane x.pos x.tag x.addr data, onDriver_of_isDriver h fun s => s.up _, State.up_mem .., ?_⟩
  rw [State.up_chip, hframe, Chip.data_endDrv, Chip.get_congr (Chip.reg_setDie ..), Chip.get_put _ d DLINK _ _ (by decide) (by decide)]
  exact ⟨Chip.drv_endDrv 2, Chip.result_endDrv (by decide), Nat.mod_eq_of_lt hdata⟩

theorem exec_drvCmdTimeout : exec (.drvCmdTimeout d) s = .next (s.up fun c =>
    ((c.setDie d { c.die d with drv := none }).put d DLINK DLINK.DRV_RESULT 2 0 4).event d DLINK 5) := by
  refine (if_pos h.1).trans (congrArg Host.Outcome.next (State.up_congr ?_))
  have hwaits : (s.chip.die d).drv.any (fun x => x.sent) = true := by rw [hdrv]; exact hsent
  exact if_pos hwaits

end

theorem driverCommands : Claim.DriverCommands := by
  refine ⟨drvCmdStarts, ?_⟩
  rintro s d k p x h hdrv hsent rfl rfl hbcast
  exact ⟨ackEnds h hdrv hsent hbcast, fun hread hrefused _ => readDataEnds h hdrv hsent hbcast hread hrefused,
    exec_drvCmdTimeout h hdrv hsent⟩

/-- Settles O43: reports of drivers reach the registers of the driver link and the lane's page only, and a DRV_CMD starts with the operands
of the word and ends by its driver's answer or by time. -/
theorem columnDrivers : Obligations.ColumnDrivers := ⟨driverReports, driverCommands⟩

end Sys2Proof.Machine
end

section
/-! PROOFS. The steward's watchdog (O46; R452 to R455). -/

namespace Sys2Proof.Machine

/-! ### TIMEOUT_MS (R455) -/

theorem wdogTimeout_valueStatus (c : Chip) (p : Port) (direct : Bool) (d : Nat) (w : Word) :
    c.valueStatus p direct d STEWARD .steward STEWARD.WDOG_CTRL w = if bits w 15 0 < 10 then ARG else OK := by
  have hkick : ¬(STEWARD.WDOG_CTRL = STEWARD.WDOG_KICK ∧ !direct) := fun h => absurd h.1 (by decide)
  by_cases hlow : bits w 15 0 < 10
  · exact (if_pos ⟨rfl, hlow⟩).trans (if_pos hlow).symm
  · exact ((if_neg fun h => hlow h.2).trans (if_neg hkick)).trans (if_neg hlow).symm

/-- A write of WDOG_CTRL takes its writable bits, and reports a limit above 1000. -/
theorem State.writeReg_wdogCtrl (s : State) (d : Nat) (w : Word) : s.writeReg d STEWARD STEWARD.WDOG_CTRL w =
    s.up fun c => (c.setReg d STEWARD STEWARD.WDOG_CTRL (mergeBits 0xFFFF (c.reg d STEWARD STEWARD.WDOG_CTRL) w)).eventIf
      (decide (1000 < bits w 15 0)) d STEWARD 3 := by
  have hact : s.writeReg d STEWARD STEWARD.WDOG_CTRL w = s.actWrite d STEWARD .steward STEWARD.WDOG_CTRL w := rfl
  have hstore : s.chip.storeWord d STEWARD .steward STEWARD.WDOG_CTRL w =
      s.chip.setReg d STEWARD STEWARD.WDOG_CTRL (mergeBits 0xFFFF (s.chip.reg d STEWARD STEWARD.WDOG_CTRL) w) :=
    s.chip.storeWord_plain d STEWARD w (by decide) (by decide)
  rw [hact]
  unfold State.actWrite
  dsimp only
  rw [if_neg (by decide), if_pos rfl, State.up_up]
  exact State.up_congr (congrArg (·.eventIf (decide (1000 < bits w 15 0)) d STEWARD 3) hstore)

theorem watchdogTimeout : Claim.WatchdogTimeout := by
  refine ⟨wdogTimeout_valueStatus, fun s h w hw => exec_mayWrite rfl rfl (by decide) hw (State.writeReg_wdogCtrl ..),
    fun s d hd => ⟨fun hruns => ?kick, fun w hw => ?other⟩⟩ <;> refine (if_pos hd).trans (congrArg Host.Outcome.next ?_)
  case kick => exact State.up_congr (if_pos ⟨rfl, hruns⟩)
  case other => exact State.up_congr (g := id) (if_neg fun h => hw h.1)

/-! ### The codes of a page after a log entry (R154, R457) -/

theorem Chip.codes_of_touches {c u : Chip} {p : Nat → Prop} (h : c.touches u p) : u.codes = c.codes := by rw [h.1]

theorem State.codes_log (s : State) (d type page code arg : Nat) : (s.log d type page code arg).chip.codes = s.chip.codes := by
  have hbytes : ∀ (s : State) a bs, (s.setBytes a bs).chip.codes = s.chip.codes := fun s a bs =>
    Chip.each_keeps Chip.codes s.chip (List.range ((bs.length + 3) / 4)) (f := fun c i => c.wordWritten (a + 4 * i)) fun _ _ _ => rfl
  unfold State.log
  dsimp only
  rw [State.up_chip, Chip.codes_of_touches (Chip.touches_eventIf ..), Chip.setNum_eq, Chip.setReg_codes, hbytes]

theorem Chip.codesOf_congr {c c' : Chip} (h : c'.codes = c.codes) (d p : Nat) : c'.codesOf d p = c.codesOf d p := by
  unfold Chip.codesOf; rw [h]

/-- A code that a block latches is among those of its page. -/
theorem State.mem_codesOf_latch (s : State) (d p code : Nat) : code ∈ (s.latch d p code).chip.codesOf d p := by
  unfold State.latch
  split
  · next h => exact List.contains_iff_mem.1 h
  · rw [Chip.codesOf_congr (State.codes_log ..), State.up_chip, Chip.mem_codesOf_latchCode]
    exact List.mem_cons_self ..

/-! ### A fatal cause leaves the dies and the frame memory (R446) -/

section
variable (s : State) (d code : Nat)

/-- Beside latching its code, a fatal cause only waits for the FAULT page to take it. -/
theorem State.fatal_eq : ∃ l, s.fatal d code = (s.latch d (fatalSource code).1 (fatalSource code).2).up fun c => { c with fatals := l } := by
  unfold State.fatal
  dsimp only
  by_cases h : bit ((s.latch d (fatalSource code).1 (fatalSource code).2).chip.reg d FAULT FAULT.LATCHED) (code - 1) = true ∨
      (s.latch d (fatalSource code).1 (fatalSource code).2).chip.fatals.contains (d, code) = true
  · exact ⟨_, State.up_congr (if_pos h)⟩
  · exact ⟨_, State.up_congr (if_neg h)⟩

theorem State.dies_fatal : (s.fatal d code).chip.dies = s.chip.dies := by
  obtain ⟨l, h⟩ := s.fatal_eq d code
  rw [h]
  exact s.dies_latch ..

theorem State.dram_fatal (hp : offClkBridge (fatalSource code).1 = true) : (s.fatal d code).mem.dram = s.mem.dram := by
  obtain ⟨l, h⟩ := s.fatal_eq d code
  rw [h, State.up_mem]
  exact s.dram_latch d _ hp

theorem State.codesOf_fatal : (fatalSource code).2 ∈ (s.fatal d code).chip.codesOf d (fatalSource code).1 := by
  obtain ⟨l, h⟩ := s.fatal_eq d code
  rw [h]
  exact s.mem_codesOf_latch d _ _

end

/-! ### The steward is held (R454) -/

section
variable (s : State) (d : Nat)

theorem State.die_escalate : (s.escalate d).chip.die d = { s.chip.die d with steward := .held } := by
  unfold State.escalate
  rw [Chip.die_congr (State.dies_fatal ..), State.up_chip, Chip.die_put, Chip.die_setSteward, if_pos rfl]

theorem State.dram_escalate : (s.escalate d).mem.dram = s.mem.dram := by
  unfold State.escalate
  rw [State.dram_fatal _ d 1 (by decide), State.up_mem]

theorem State.held_escalate : (s.escalate d).chip.get d STEWARD STEWARD.WDOG_STATUS 0 0 = 1 := by
  unfold State.escalate
  rw [Chip.get_congr (State.reg_fatal _ d d (by decide) 1), State.up_chip, Chip.get_put _ d STEWARD _ _ (by decide) (by decide)]
  rfl

theorem State.ready_escalate : (s.escalate d).chip.ready d STEWARD = s.chip.ready d STEWARD := by
  unfold State.escalate
  rw [Chip.ready_congr (State.reg_fatal _ d d (by decide) 1), State.up_chip, Chip.ready_congr (Chip.reg_put_apart _ d d (by decide) ..)]
  rfl

end

/-! ### Expiries (R453) -/

/-- The steward restarts, and the expiries of the last 600 s are kept. -/
def Chip.wdogExpired (c : Chip) (d : Nat) (l : List Nat) : Chip :=
  ((c.setDie d { c.die d with steward := .restarting c.now, expiries := l }).setReady d STEWARD false).tick

/-- The expiry is reported and logged; `up`: the steward is to be held. -/
def State.wdogLogged (s : State) (d : Nat) (l : List Nat) (up : Bool) : State :=
  (s.up fun c => (c.wdogExpired d l).events d STEWARD (if up then [1] else [1, 2])).log d 0x04 STEWARD (if up then 2 else 1) l.length

section
variable {s : State} {d : Nat}

theorem State.wdogExpire_due (hruns : (s.chip.die d).steward = .running)
    (hdue : (s.chip.die d).wdogAt + (s.chip.die d).wdogMs * 1000000 < s.chip.now) :
    ∃ up : Bool, (2 ≤ (s.chip.expiries d).length → up = true) ∧ s.wdogExpire d =
      if up then (s.wdogLogged d (s.chip.expiries d ++ [s.chip.now]) up).escalate d
      else (s.wdogLogged d (s.chip.expiries d ++ [s.chip.now]) up).up fun c => c.put d STEWARD STEWARD.WDOG_STATUS 23 16
        (min 255 (c.get d STEWARD STEWARD.WDOG_STATUS 23 16 + 1)) := by
  refine ⟨decide ((s.chip.expiries d ++ [s.chip.now]).length ≥ 3) || !Config.freeBool s.chip.fresh, fun h => ?_, if_pos ⟨hruns, hdue⟩⟩
  rw [List.length_append, List.length_singleton, decide_eq_true (by omega), Bool.true_or]

theorem Chip.die_tick (c : Chip) (e : Nat) : c.tick.die e = c.die e := rfl
theorem Chip.ready_tick (c : Chip) (e q : Nat) : c.tick.ready e q = c.ready e q := rfl

theorem Chip.die_wdogExpired (c : Chip) (d : Nat) (l : List Nat) : (c.wdogExpired d l).die d =
    { c.die d with steward := .restarting c.now, expiries := l } := by
  unfold Chip.wdogExpired
  rw [Chip.die_tick, Chip.die_of_touches (Chip.touches_setReady ..), Chip.die_setDie_same]

theorem Chip.ready_wdogExpired (c : Chip) (d : Nat) (l : List Nat) : (c.wdogExpired d l).ready d STEWARD = false := by
  unfold Chip.wdogExpired
  rw [Chip.ready_tick, Chip.ready_setReady _ d false d (by decide) (by decide), if_pos ⟨rfl, rfl⟩]

theorem State.die_wdogLogged (l : List Nat) (up : Bool) : (s.wdogLogged d l up).chip.die d =
    { s.chip.die d with steward := .restarting s.chip.now, expiries := l } := by
  unfold State.wdogLogged
  rw [Chip.die_congr (State.dies_log ..), State.up_chip, Chip.die_of_touches (Chip.touches_events ..), Chip.die_wdogExpired]

theorem State.ready_wdogLogged (l : List Nat) (up : Bool) : (s.wdogLogged d l up).chip.ready d STEWARD = false := by
  unfold State.wdogLogged
  rw [Chip.ready_congr (State.reg_log _ d d (by decide) ..), State.up_chip, Chip.ready_congr (Chip.reg_events_quiet _ d d (by decide) ..),
    Chip.ready_wdogExpired]

theorem State.dram_wdogLogged (l : List Nat) (up : Bool) : (s.wdogLogged d l up).mem.dram = s.mem.dram := by
  unfold State.wdogLogged
  rw [State.dram_of_settled (State.settled_log ..), State.up_mem]

theorem wdogExpires (hd : d < dieCount s.chip.member) (hruns : (s.chip.die d).steward = .running)
    (hdue : (s.chip.die d).wdogAt + (s.chip.die d).wdogMs * 1000000 < s.chip.now) :
    ∃ t, exec (.wdogExpire d) s = .next t ∧ t.mem.flash = s.mem.flash ∧ t.mem.dram = s.mem.dram ∧ t.chip.ready d STEWARD = false ∧
      (t.chip.die d).expiries = s.chip.expiries d ++ [s.chip.now] ∧
      ((t.chip.die d).steward = .held ∨ (t.chip.die d).steward = .restarting s.chip.now) ∧
      (2 ≤ (s.chip.expiries d).length → (t.chip.die d).steward = .held ∧ t.chip.get d STEWARD STEWARD.WDOG_STATUS 0 0 = 1) := by
  obtain ⟨up, hthird, hexpire⟩ := State.wdogExpire_due hruns hdue
  refine ⟨s.wdogExpire d, if_pos hd, (Prod.mk.inj (s.flash_wdogExpire d)).1, ?_⟩
  rw [hexpire]
  cases up with
  | true =>
    rw [if_pos rfl, State.dram_escalate, State.dram_wdogLogged, State.ready_escalate, State.ready_wdogLogged, State.die_escalate,
      State.die_wdogLogged]
    exact ⟨rfl, rfl, rfl, .inl rfl, fun _ => ⟨rfl, State.held_escalate ..⟩⟩
  | false =>
    rw [if_neg Bool.false_ne_true, State.up_mem, State.dram_wdogLogged, State.up_chip,
      Chip.ready_congr (Chip.reg_put_apart _ d d (by decide) ..), State.ready_wdogLogged, Chip.die_put, State.die_wdogLogged]
    exact ⟨rfl, rfl, rfl, .inr rfl, fun h => absurd (hthird h) Bool.false_ne_true⟩

/-- A restart that takes longer than 100 ms holds the steward. -/
theorem wdogRestartLate (hd : d < dieCount s.chip.member) {since : Nat} (hsteward : (s.chip.die d).steward = .restarting since)
    (hlate : since + 100000000 < s.chip.now) :
    ∃ t, exec (.wdogRestartTimeout d) s = .next t ∧ t.mem.flash = s.mem.flash ∧ t.mem.dram = s.mem.dram ∧
      (t.chip.die d).steward = .held ∧ t.chip.get d STEWARD STEWARD.WDOG_STATUS 0 0 = 1 ∧ 1 ∈ t.chip.codesOf d STEWARD := by
  have hexec : exec (.wdogRestartTimeout d) s = .next (s.escalate d) := by
    refine (if_pos hd).trans (congrArg Host.Outcome.next ?_)
    dsimp only
    rw [hsteward]
    exact if_pos hlate
  refine ⟨s.escalate d, hexec, (Prod.mk.inj (s.flash_escalate d)).1, s.dram_escalate d, ?_, s.held_escalate d, State.codesOf_fatal _ d 1⟩
  rw [State.die_escalate]

/-- A restarted steward is up. -/
theorem stewardReturns (hd : d < dieCount s.chip.member) {since : Nat} (hsteward : (s.chip.die d).steward = .restarting since) :
    ∃ t, exec (.stewardReady d) s = .next t ∧ t.mem = s.mem ∧ (t.chip.die d).steward = .running ∧ t.chip.ready d STEWARD = true ∧
      (t.chip.die d).wdogAt = s.chip.now := by
  have hup : s.chip.stewardReady d = s.chip.stewardUp d := by
    unfold Chip.stewardReady
    rw [hsteward]
  refine ⟨s.up fun c => c.stewardReady d, if_pos hd, State.up_mem .., ?_⟩
  rw [State.up_chip, hup]
  refine ⟨Chip.dies_stewardUp .., Chip.ready_stewardUp .., ?_⟩
  exact congrArg DieSt.wdogAt ((Chip.die_of_touches (Chip.touches_setReady ..) d).trans (Chip.die_setDie_same ..))

end

/-- Settles O46: WDOG_CTRL and the kick by the writes of the register, the expiries by what escalation and the log leave. -/
theorem watchdog : Obligations.Watchdog := by
  refine ⟨watchdogTimeout, fun s d hd => ⟨?_, fun since hsteward => ⟨wdogRestartLate hd hsteward, stewardReturns hd hsteward⟩⟩⟩
  rintro y rfl hruns hdue
  exact wdogExpires hd hruns hdue

end Sys2Proof.Machine
end

section
/-! PROOFS. The core voltage loop and the thermal watch (O48; R417 to R424). -/

namespace Sys2Proof.Machine

/-! ### Numbers: held voltages, bounded moves, signed bytes (R418 to R420) -/

theorem holdMv_bounds (v : Nat) : 650 ≤ holdMv v ∧ holdMv v ≤ 850 := by unfold holdMv; omega

theorem towards_bounds (a b : Nat) : towards a b ≤ a + 5 ∧ a ≤ towards a b + 5 ∧ (a ≤ b → a ≤ towards a b ∧ towards a b ≤ b) ∧
    (b ≤ a → b ≤ towards a b ∧ towards a b ≤ a) := by
  unfold towards
  split <;> omega

theorem unsigned_lt (v : Int) : unsigned 8 v < 2 ^ 8 := by unfold unsigned; omega

theorem signed_unsigned {v : Int} (hlow : -128 ≤ v) (hhigh : v ≤ 127) : signed 8 (unsigned 8 v) = v := by
  unfold signed unsigned
  split <;> omega

theorem slackByte_of_bounds {v : Int} (hlow : -128 ≤ v) (hhigh : v ≤ 127) : slackByte v = v := by unfold slackByte; omega

/-! ### The record of the loop -/

section
variable (c : Chip) (d : Nat) (x : AvsSt)

theorem Chip.avs_congr {c c' : Chip} (h : c'.dies = c.dies) (d : Nat) : c'.avs d = c.avs d := congrArg DieSt.avs (Chip.die_congr h d)

theorem Chip.avs_setAvs : (c.setAvs d x).avs d = x := congrArg DieSt.avs (Chip.die_setDie_same ..)
theorem Chip.avs_put (p o hi lo v e : Nat) : (c.put d p o hi lo v).avs e = c.avs e := rfl
theorem Chip.avs_event (p b e : Nat) : (c.event d p b).avs e = c.avs e := Chip.avs_congr (Chip.touches_dies (c.touches_event d p b)) e
theorem Chip.reg_setAvs (e q r : Nat) : (c.setAvs d x).reg e q r = c.reg e q r := rfl

end

/-! ### A period with the loop pinned (R419, R420) -/

/-- A period that is neither frozen nor critical: LOOP_MV stands still, the request moves towards PIN_MV as held, and PIN_ALARM sets
where the worst slack is below SLACK_LO. -/
theorem State.loopPeriod_pinned {s : State} {d : Nat} {worst : Int} (hpin : s.chip.pinned d = true)
    (hlost : (s.chip.codesOf d PWR).contains 1 = false) (hslack : 8 ≤ worst) (hcrit : (s.chip.avs d).crit = false) :
    ∃ x : AvsSt, x.req = towards (s.chip.avs d).req (holdMv (s.chip.get d PWR PWR.AVS_CTRL 25 16)) ∧
      s.loopPeriod d worst = s.up fun c =>
        ((c.put d PWR PWR.AVS_STATUS 9 0 (s.chip.get d PWR PWR.AVS_STATUS 9 0)).setAvs d x).events d PWR
          ([] ++ if worst < heldLow (s.chip.reg d PWR PWR.AVS_SLACK) then [1] else []) := by
  unfold State.loopPeriod
  extract_lets c x k lo loop above loop' b target frozen critical good crit req low u
  have hnot : critical = false := decide_eq_false (by omega)
  have hcrit' : crit = false := by
    unfold crit x c
    rw [hnot, hcrit]
    rfl
  have hreq : req = towards (s.chip.avs d).req (holdMv (s.chip.get d PWR PWR.AVS_CTRL 25 16)) := by
    have htarget : target = holdMv (s.chip.get d PWR PWR.AVS_CTRL 25 16) := if_pos hpin
    unfold req
    rw [hnot, hcrit', htarget, if_neg (ne_true_of_eq_false hlost), if_neg Bool.false_ne_true, if_neg Bool.false_ne_true]
  have hloop : loop' = s.chip.get d PWR PWR.AVS_STATUS 9 0 := if_pos hpin
  have hlow : ¬low = 10 := by
    have hzero : low = 0 := if_neg fun h => by omega
    omega
  refine ⟨{ x with above := if above = 10 then 0 else above, good := good, crit := crit, req := req, low := low }, hreq,
    (if_neg hlow).trans (State.up_congr ?_)⟩
  dsimp only
  have hpinned : ∀ (v : Nat) (y : AvsSt), ((s.chip.put d PWR PWR.AVS_STATUS 9 0 v).setAvs d y).pinned d = true := fun v y => by
    rw [← hpin]
    unfold Chip.pinned Chip.flag
    rw [Chip.reg_setAvs, Chip.reg_put_apart _ d d (by decide)]
  rw [hpinned, hnot, hloop, if_neg Bool.false_ne_true]
  simp only [true_and]
  rfl

theorem voltageRequest : Claim.VoltageRequest := by
  refine ⟨holdMv_bounds, towards_bounds, fun s d worst hpin hlost hslack hcrit => ?_⟩
  obtain ⟨x, hreq, hperiod⟩ := State.loopPeriod_pinned hpin hlost hslack hcrit
  dsimp only
  rw [hperiod, State.up_chip, State.up_mem]
  refine ⟨rfl, ?_, ?_, fun hworst => ?_⟩
  · rw [Chip.avs_congr (Chip.touches_dies (Chip.touches_events ..)), Chip.avs_setAvs, hreq]
  · rw [Chip.get_congr (Chip.reg_events_quiet _ d d (by decide) ..), Chip.get_congr (Chip.reg_setAvs ..),
      Chip.get_put _ d PWR _ _ (by decide) (by decide)]
    exact Nat.mod_eq_of_lt (Nat.mod_lt _ (by decide))
  · rw [if_pos hworst]
    exact Chip.flag_events (by decide) _ (by decide) (by decide) (List.mem_singleton_self 1)

/-! ### The rows of the loop (R417, R421, R423) -/

section
variable {s : State} {d : Nat} (hd : d < dieCount s.chip.member)

/-- A slack report taken. -/
def Chip.slackTaken (c : Chip) (d : Nat) (v : Int) : Chip :=
  c.setAvs d { c.avs d with worst := some (match (c.avs d).worst with | some w => min w v | none => v) }

/-- A period of a loop that is off: it shows the worst slack, and takes what the rail answers of the floor. -/
def Chip.slackShown (c : Chip) (d measured : Nat) (answered : Bool) : Chip :=
  (c.put d PWR PWR.SLACK 15 8 (unsigned 8 ((c.avs d).worst.getD (signed 8 (c.get d PWR PWR.SLACK 15 8))))).setAvs d
    { c.avs d with worst := none, coreLow := if answered then decide (measured < 620) else (c.avs d).coreLow }

theorem Chip.loopOn_slackShown (c : Chip) (d measured : Nat) (answered : Bool) : (c.slackShown d measured answered).loopOn d = c.loopOn d := by
  unfold Chip.loopOn Chip.flag Chip.slackShown
  rw [Chip.reg_setAvs, Chip.reg_put_apart _ d d (by decide)]

theorem Chip.avs_slackShown (c : Chip) (d measured : Nat) (answered : Bool) : (c.slackShown d measured answered).avs d =
    { c.avs d with worst := none, coreLow := if answered then decide (measured < 620) else (c.avs d).coreLow } := Chip.avs_setAvs ..

theorem Chip.committing_slackShown (c : Chip) (d measured : Nat) (answered : Bool) :
    (c.slackShown d measured answered).committing d PWR = c.committing d PWR := by
  unfold Chip.slackShown Chip.setAvs Chip.committing
  rw [Chip.setDie_commits, Chip.put_eq, Chip.setReg_commits]

theorem Chip.regs_slackShown (c : Chip) (d measured : Nat) (answered : Bool) : (c.slackShown d measured answered).regs =
    (c.put d PWR PWR.SLACK 15 8 (unsigned 8 ((c.avs d).worst.getD (signed 8 (c.get d PWR PWR.SLACK 15 8))))).regs := by
  unfold Chip.slackShown Chip.setAvs
  rw [Chip.setDie_regs]

/-- Without a commit that waits the PWR page has no step point. -/
theorem State.pwrStepPoint_idle {s : State} {d : Nat} (h : s.chip.committing d PWR = false) : s.pwrStepPoint d = s :=
  if_pos (by rw [h]; rfl)

/-- A fatal cause is latched already, or waits for the FAULT page to take it. -/
theorem State.latched_or_waits (s : State) (d code : Nat) :
    (s.fatal d code).chip.flag d FAULT FAULT.LATCHED (code - 1) = true ∨ (d, code) ∈ (s.fatal d code).chip.fatals := by
  unfold State.fatal
  dsimp only
  rw [State.up_chip]
  split
  · next h => exact h.imp id List.contains_iff_mem.1
  · exact .inr (List.mem_append_right _ (List.mem_singleton_self _))

theorem Chip.fatals_of_touches {c u : Chip} {p : Nat → Prop} (h : c.touches u p) : u.fatals = c.fatals := by rw [h.1]

include hd

theorem slackReported (hruns : s.chip.dieRuns d = true) {v : Int} (hlow : -128 ≤ v) (hhigh : v ≤ 127) :
    ∃ t, exec (.slackReport d v) s = .next t ∧ t.mem = s.mem ∧
      (t.chip.avs d).worst = some (match (s.chip.avs d).worst with | some w => min w v | none => v) ∧
      signed 8 (t.chip.get d PWR PWR.SLACK 7 0) = min v (signed 8 (s.chip.get d PWR PWR.SLACK 7 0)) := by
  have hexec : exec (.slackReport d v) s = .next (s.up fun c =>
      if v < signed 8 ((c.slackTaken d v).get d PWR PWR.SLACK 7 0) then (c.slackTaken d v).put d PWR PWR.SLACK 7 0 (unsigned 8 v)
      else c.slackTaken d v) := by
    refine (if_pos hd).trans (congrArg Host.Outcome.next (State.up_congr ((if_pos hruns).trans ?_)))
    rw [slackByte_of_bounds hlow hhigh]
    rfl
  have hslack : (s.chip.slackTaken d v).get d PWR PWR.SLACK 7 0 = s.chip.get d PWR PWR.SLACK 7 0 := Chip.get_congr (Chip.reg_setAvs ..) 7 0
  have hworst : ((s.chip.slackTaken d v).avs d).worst = some (match (s.chip.avs d).worst with | some w => min w v | none => v) :=
    congrArg AvsSt.worst (Chip.avs_setAvs ..)
  refine ⟨_, hexec, State.up_mem .., ?_⟩
  rw [State.up_chip, hslack]
  split
  · next hless =>
    refine ⟨hworst, ?_⟩
    rw [Chip.get_put _ d PWR _ _ (by decide) (by decide), Nat.mod_eq_of_lt (unsigned_lt v), signed_unsigned hlow hhigh]
    exact (min_eq_left (le_of_lt hless)).symm
  · next hless => exact ⟨hworst, (congrArg (signed 8) hslack).trans (min_eq_right (not_lt.1 hless)).symm⟩

theorem avsPeriod_disabled (measured : Nat) (answered : Bool) (hruns : s.chip.dieRuns d = true) (hloop : s.chip.loopOn d = false)
    (hcommit : s.chip.committing d PWR = false) (hstart : (s.chip.avs d).start = false) :
    ∃ t, exec (.avsPeriod d measured answered) s = .next t ∧ t.mem = s.mem ∧ (t.chip.avs d).worst = none ∧
      (t.chip.avs d).req = (s.chip.avs d).req ∧ s.chip.regsBut t.chip fun a => a = ra d PWR PWR.SLACK := by
  refine ⟨s.up fun c => c.slackShown d measured answered, ?_, State.up_mem .., ?_, ?_, fun a ha => ?_⟩
  · refine (if_pos hd).trans (congrArg Host.Outcome.next ((if_pos hruns).trans ?_))
    unfold State.avsPeriod
    extract_lets c now worst u first v w x y
    have hu : u = s.up fun c => c.slackShown d measured answered := State.up_congr rfl
    have hloop' : u.chip.loopOn d = false := hu ▸ (Chip.loopOn_slackShown s.chip d measured answered).trans hloop
    have hstart' : (u.chip.avs d).start = false := hu ▸ (congrArg AvsSt.start (Chip.avs_slackShown ..)).trans hstart
    have hcommit' : u.chip.committing d PWR = false := hu ▸ (Chip.committing_slackShown s.chip d measured answered).trans hcommit
    clear_value u
    have hfirst : first = false := by
      unfold first
      rw [hloop', Bool.and_false]
    have hv : v = u := by
      unfold v
      rw [hfirst, if_neg Bool.false_ne_true, State.pwrStepPoint_idle hcommit']
    have hw : w = u := by
      unfold w
      rw [hv]
      refine State.up_congr (g := id) (if_neg fun h => ?_)
      rw [hstart'] at h
      exact Bool.false_ne_true h.1
    have hx : x = u := by
      unfold x
      rw [hw, hloop', Bool.false_and, if_neg Bool.false_ne_true]
    have hy : y = u := by
      unfold y
      rw [hx, if_neg (ne_true_of_eq_false hloop')]
    rw [hfirst, if_neg Bool.false_ne_true, hy, hu]
  · rw [State.up_chip, Chip.avs_slackShown]
  · rw [State.up_chip, Chip.avs_slackShown]
  · rw [State.up_chip, Chip.regs_slackShown]
    exact (Chip.touches_put ..).2 a ha

theorem avsRetried (hruns : s.chip.dieRuns d = true) (hlost : (s.chip.codesOf d PWR).contains 1 = true) :
    exec (.avsRetry d true) s = .next (s.up fun c => (c.count d PWR PWR.AVS_WRITE_COUNT).unlatchCode d PWR 1) := by
  refine (if_pos hd).trans (congrArg Host.Outcome.next (State.up_congr ?_))
  exact (if_pos ⟨hruns, hlost⟩).trans (if_pos rfl)

theorem floorLatches (hready : s.chip.ready d AON = true) (hpower : s.chip.power ≠ .standby) :
    ∃ t, exec (.vfloor d) s = .next t ∧ t.mem.flash = s.mem.flash ∧ t.mem.dram = s.mem.dram ∧ 3 ∈ t.chip.codesOf d PWR ∧
      (t.chip.avs d).coreLow = true ∧ (t.chip.flag d FAULT FAULT.LATCHED 3 = true ∨ (d, 4) ∈ t.chip.fatals) := by
  let u := s.up fun c => c.setAvs d { c.avs d with coreLow := true }
  have hexec : exec (.vfloor d) s = .next ((u.fatal d 4).up fun c => c.eventIf (!(s.chip.codesOf d PWR).contains 3) d PWR 7) :=
    (if_pos hd).trans (congrArg Host.Outcome.next (if_pos ⟨hready, hpower⟩))
  refine ⟨_, hexec, (Prod.mk.inj ((State.flash_up ..).trans ((State.flash_fatal ..).trans (State.flash_up ..)))).1, ?_⟩
  rw [State.up_mem, State.dram_fatal _ d 4 (by decide), State.up_mem, State.up_chip]
  have hevent := (u.fatal d 4).chip.touches_eventIf (!(s.chip.codesOf d PWR).contains 3) d PWR 7
  refine ⟨rfl, ?_, ?_, ?_⟩
  · rw [Chip.codesOf_congr (Chip.codes_of_touches hevent)]
    exact u.codesOf_fatal d 4
  · rw [Chip.avs_congr ((Chip.touches_dies hevent).trans (State.dies_fatal ..))]
    exact congrArg AvsSt.coreLow (Chip.avs_setAvs ..)
  · rw [Chip.fatals_of_touches hevent, Chip.flag, Chip.reg_eventIf_quiet _ d d (by decide)]
    exact u.latched_or_waits d 4

end

theorem avsRows : Claim.AvsRows := fun _ _ hd =>
  ⟨fun hruns => ⟨fun _ => slackReported hd hruns, fun measured answered => avsPeriod_disabled hd measured answered hruns,
    avsRetried hd hruns⟩, floorLatches hd⟩

/-! ### The die temperature (R424) -/

/-- The highest reading of the sensors in use. -/
def Chip.dieTemp (c : Chip) (d : Nat) : Int :=
  ((c.sensors d).map fun k => c.tsRead d k).foldl max (((c.sensors d).map fun k => c.tsRead d k).headD 0)

/-- It is shown, and a warning is reported. -/
def Chip.tempShown (c : Chip) (d : Nat) (t : Int) : Chip :=
  let u := (c.put d PWR PWR.THERM_STATUS 7 0 (unsigned 8 t)).aonTemp d t
  u.eventIf (decide (heldWarn (u.reg d PWR PWR.THERM) ≤ t)) d PWR 4

section
variable (s : State) (d : Nat)

theorem State.judgeTemp_eq : s.judgeTemp d =
    if 115 ≤ s.chip.dieTemp d then
      ((s.up fun c => c.tempShown d (s.chip.dieTemp d)).fatal d 5).up fun c =>
        c.eventIf (!((s.up fun c => c.tempShown d (s.chip.dieTemp d)).chip.codesOf d PWR).contains 4) d PWR 8
    else s.up fun c => c.tempShown d (s.chip.dieTemp d) := rfl

theorem State.dram_judgeTemp : (s.judgeTemp d).mem.dram = s.mem.dram := by
  rw [State.judgeTemp_eq]
  split
  · rw [State.up_mem, State.dram_fatal _ d 5 (by decide), State.up_mem]
  · rw [State.up_mem]

end

section
variable (c : Chip) (d : Nat) (t : Int)

theorem Chip.reg_tempShown {r : Nat} (hq : quiet PWR r = true) (hr : r ≠ PWR.THERM_STATUS) :
    (c.tempShown d t).reg d PWR r = c.reg d PWR r := by
  have hlt := (bounds_of_quiet hq).2
  unfold Chip.tempShown
  dsimp only
  rw [Chip.reg_eventIf_quiet _ d d hq,
    Chip.reg_aonTemp _ d t d (apart_of_page hq (by decide) (by decide) (by decide)) (apart_of_page hq (by decide) (by decide) (by decide)),
    Chip.reg_put_apart _ d d (apart_of_ne (by decide) hlt (by decide) (by decide) (.inr hr))]

/-- The sensors in use and the deselected ones are shown beside the temperature. -/
theorem Chip.flag_tempShown {j : Nat} (hj : j < 32) (hlow : 7 < j) :
    (c.tempShown d t).flag d PWR PWR.THERM_STATUS j = c.flag d PWR PWR.THERM_STATUS j := by
  unfold Chip.tempShown
  dsimp only
  rw [Chip.flag, Chip.reg_eventIf_quiet _ d d (by decide), Chip.reg_aonTemp _ d t d (by decide) (by decide), ← Chip.flag,
    Chip.flag_put_beside _ d PWR _ _ d PWR _ (by decide) hj (.inr hlow)]

theorem Chip.fatals_tempShown : (c.tempShown d t).fatals = c.fatals := by
  unfold Chip.tempShown Chip.aonTemp
  dsimp only
  rw [Chip.fatals_of_touches (Chip.touches_eventIf ..)]
  split <;> rfl

end

theorem State.flag_judgeTemp (s : State) (d : Nat) {j : Nat} (hj : j < 32) (hlow : 7 < j) :
    (s.judgeTemp d).chip.flag d PWR PWR.THERM_STATUS j = s.chip.flag d PWR PWR.THERM_STATUS j := by
  rw [State.judgeTemp_eq]
  split
  · rw [State.up_chip, Chip.flag, Chip.reg_eventIf_quiet _ d d (by decide), State.reg_fatal _ d d (by decide), State.up_chip, ← Chip.flag,
      Chip.flag_tempShown _ d _ hj hlow]
  · rw [State.up_chip, Chip.flag_tempShown _ d _ hj hlow]

/-! ### A thermal sample (R424) -/

/-- A sensor's reading is shown. -/
def Chip.setTs (c : Chip) (d k : Nat) (v : Int) : Chip :=
  c.put d PWR (PWR.TS_READ + 4 * (k / 4)) (8 * (k % 4) + 7) (8 * (k % 4)) (unsigned 8 v)

theorem tsRead_quiet {k : Nat} (hk : k < 8) : quiet PWR (PWR.TS_READ + 4 * (k / 4)) = true := by
  revert k; decide

theorem tsRead_ne_thermStatus {k : Nat} (hk : k < 8) : PWR.TS_READ + 4 * (k / 4) ≠ PWR.THERM_STATUS := by
  revert k; decide

theorem Chip.tsRead_tempShown (c : Chip) (d : Nat) (t : Int) {k : Nat} (hk : k < 8) : (c.tempShown d t).tsRead d k = c.tsRead d k :=
  congrArg (signed 8) (Chip.get_congr (c.reg_tempShown d t (tsRead_quiet hk) (tsRead_ne_thermStatus hk)) _ _)

section
variable (c : Chip) (d : Nat)

theorem Chip.fatals_setTs (k : Nat) (v : Int) : (c.setTs d k v).fatals = c.fatals := rfl

theorem Chip.tsRead_setTs_same {k : Nat} {v : Int} (hlow : -128 ≤ v) (hhigh : v ≤ 127) : (c.setTs d k v).tsRead d k = v := by
  unfold Chip.tsRead Chip.setTs
  rw [Chip.get_put _ d PWR _ _ (by omega) (by omega), show 8 * (k % 4) + 7 + 1 - 8 * (k % 4) = 8 by omega, Nat.mod_eq_of_lt (unsigned_lt v),
    signed_unsigned hlow hhigh]

theorem Chip.tsRead_setTs_of_ne {j k : Nat} (hj : j < 8) (hk : k < 8) (hne : j ≠ k) (v : Int) :
    (c.setTs d k v).tsRead d j = c.tsRead d j := by
  refine congrArg (signed 8) ?_
  unfold Chip.setTs
  by_cases hword : j / 4 = k / 4
  · exact c.get_put_beside d PWR _ _ d PWR _ (by omega) (by omega) (by omega)
  · have hapart : apart PWR (PWR.TS_READ + 4 * (j / 4)) PWR (PWR.TS_READ + 4 * (k / 4)) = true :=
      apart_of_ne (by decide) (bounds_of_quiet (tsRead_quiet hj)).2 (by decide) (bounds_of_quiet (tsRead_quiet hk)).2 (.inr (by omega))
    exact Chip.get_congr (c.reg_put_apart d d hapart _ _ _) _ _

/-- The chip with the readings of the sensors from one on. -/
def Chip.setTemps (n : Nat) (temps : List Int) : Chip := c.each (temps.zipIdx n) fun c x => c.setTs d x.2 x.1

theorem Chip.fatals_setTemps (n : Nat) (temps : List Int) : (c.setTemps d n temps).fatals = c.fatals := by
  unfold Chip.setTemps
  exact Chip.each_keeps Chip.fatals c _ fun c x _ => c.fatals_setTs d x.2 x.1

variable {c d}

theorem Chip.tsRead_setTemps_below {temps : List Int} {n j : Nat} (hn : n + temps.length ≤ 8) (hj : j < n) :
    (c.setTemps d n temps).tsRead d j = c.tsRead d j := by
  induction temps generalizing c n with
  | nil => rfl
  | cons v temps ih =>
    rw [List.length_cons] at hn
    exact (ih (c := c.setTs d n v) (by omega) (by omega)).trans (c.tsRead_setTs_of_ne d (by omega) (by omega) (by omega) v)

/-- Each sensor shows its reading. -/
theorem Chip.tsRead_setTemps {temps : List Int} {n j : Nat} (hn : n + temps.length ≤ 8) (htemps : ∀ v ∈ temps, -128 ≤ v ∧ v < 115)
    (hj : j < temps.length) : some ((c.setTemps d n temps).tsRead d (n + j)) = temps[j]? := by
  induction temps generalizing c n j with
  | nil => exact absurd hj (Nat.not_lt_zero j)
  | cons v temps ih =>
    rw [List.length_cons] at hn hj
    obtain ⟨hlow, hhigh⟩ := htemps v (List.mem_cons_self ..)
    cases j with
    | zero =>
      exact congrArg some ((Chip.tsRead_setTemps_below (c := c.setTs d n v) (by omega) (Nat.lt_succ_self n)).trans
        (c.tsRead_setTs_same d hlow (by omega)))
    | succ j =>
      have hnext := ih (c := c.setTs d n v) (n := n + 1) (j := j) (by omega) (fun w hw => htemps w (List.mem_cons_of_mem _ hw)) (by omega)
      rw [Nat.add_assoc, Nat.add_comm 1 j] at hnext
      exact hnext

end

theorem foldl_max_lt {l : List Int} {a b : Int} (ha : a < b) (hl : ∀ x ∈ l, x < b) : l.foldl max a < b := by
  induction l generalizing a with
  | nil => exact ha
  | cons x l ih => exact ih (max_lt ha (hl x (List.mem_cons_self ..))) fun y hy => hl y (List.mem_cons_of_mem _ hy)

theorem Chip.sensor_lt {c : Chip} {d k : Nat} (hk : k ∈ c.sensors d) : k < 8 := List.mem_range.1 (List.mem_filter.1 hk).1

/-- Where every reading is below a temperature above 0, so is the die. -/
theorem Chip.dieTemp_lt {c : Chip} {d : Nat} {b : Int} (hb : 0 < b) (h : ∀ k < 8, c.tsRead d k < b) : c.dieTemp d < b := by
  have hread : ∀ x ∈ (c.sensors d).map fun k => c.tsRead d k, x < b := by
    intro x hx
    obtain ⟨k, hk, rfl⟩ := List.mem_map.1 hx
    exact h k (Chip.sensor_lt hk)
  refine foldl_max_lt ?_ hread
  generalize (c.sensors d).map (fun k => c.tsRead d k) = l at hread
  cases l with
  | nil => exact hb
  | cons x l => exact hread x (List.mem_cons_self ..)

section
variable {s : State} {d : Nat} (hd : d < dieCount s.chip.member) (hready : s.chip.ready d AON = true)
include hd hready

theorem thermalSampled {temps : List Int} (hpower : s.chip.power ≠ .standby) (hcommit : s.chip.committing d PWR = false)
    (hlen : temps.length = 8) (htemps : ∀ v ∈ temps, -128 ≤ v ∧ v < 115) :
    ∃ t, exec (.thermalSample d temps) s = .next t ∧ t.mem = s.mem ∧ (∀ k < 8, some (t.chip.tsRead d k) = temps[k]?) ∧
      t.chip.fatals = s.chip.fatals := by
  have hread : ∀ k < 8, some ((s.chip.setTemps d 0 temps).tsRead d k) = temps[k]? := fun k hk => by
    have hk' := Chip.tsRead_setTemps (c := s.chip) (d := d) (n := 0) (j := k) (by omega) htemps (by omega)
    rwa [Nat.zero_add] at hk'
  have hcool : ¬115 ≤ (s.chip.setTemps d 0 temps).dieTemp d := by
    refine not_le.2 (Chip.dieTemp_lt (by decide) fun k hk => ?_)
    exact (htemps _ (List.mem_of_getElem? (hread k hk).symm)).2
  have hexec : exec (.thermalSample d temps) s = .next ((s.up fun c => c.setTemps d 0 temps).judgeTemp d) := by
    refine (if_pos hd).trans (congrArg Host.Outcome.next ((if_neg fun h => hpower h.2).trans ((if_pos hready).trans ?_)))
    dsimp only
    rw [State.pwrStepPoint_idle hcommit, List.take_of_length_le (by omega)]
    rfl
  refine ⟨_, hexec, ?_⟩
  rw [State.judgeTemp_eq, State.up_chip, if_neg hcool, State.up_mem, State.up_chip, State.up_chip, Chip.fatals_tempShown]
  refine ⟨rfl, fun k hk => ?_, ?_⟩
  · rw [Chip.tsRead_tempShown _ d _ hk, hread k hk]
  · exact Chip.fatals_setTemps ..

theorem thermalSample_standby (temps : List Int) (hpower : s.chip.power = .standby) : exec (.thermalSample d temps) s =
    .next (s.up fun c => c.aonTemp d ((temps.take 8).foldl max (temps.headD 0))) :=
  (if_pos hd).trans (congrArg Host.Outcome.next (if_pos ⟨hready, hpower⟩))

/-! ### A drifting sensor (R424) -/

/-- A sensor is deselected. -/
def Chip.tsOff (c : Chip) (d k : Nat) : Chip := (c.put d PWR PWR.THERM_STATUS (16 + k) (16 + k) 1).noteSensors d

omit hd hready in
theorem Chip.tsOff_spec (c : Chip) (d : Nat) {k : Nat} (hk : k < 8) : (c.tsOff d k).flag d PWR PWR.THERM_STATUS (16 + k) = true ∧
    (c.tsOff d k).flag d PWR PWR.THERM_STATUS (8 + k) = false := by
  have hoff : (c.put d PWR PWR.THERM_STATUS (16 + k) (16 + k) 1).flag d PWR PWR.THERM_STATUS (16 + k) = true :=
    (c.flag_put d PWR _ _ _ (by omega)).trans (if_pos rfl)
  unfold Chip.tsOff Chip.noteSensors
  dsimp only
  generalize c.put d PWR PWR.THERM_STATUS (16 + k) (16 + k) 1 = u at hoff ⊢
  refine ⟨(u.flag_put_beside d PWR _ _ d PWR _ (by decide) (by omega) (.inr (by omega))).trans hoff, ?_⟩
  have hoff' : (u.get d PWR PWR.THERM_STATUS 23 16).testBit k = true := by
    rw [Chip.get, testBit_bits, decide_eq_true (by omega), Bool.true_and]
    exact hoff
  have hmask : (255 - u.get d PWR PWR.THERM_STATUS 23 16).testBit k = false := by
    have hlt : u.get d PWR PWR.THERM_STATUS 23 16 < 2 ^ 8 := Nat.mod_lt _ (by decide)
    have hsub := Nat.testBit_two_pow_sub_succ hlt k
    rw [hoff', Bool.not_true, Bool.and_false] at hsub
    rwa [show 255 - u.get d PWR PWR.THERM_STATUS 23 16 = 2 ^ 8 - (u.get d PWR PWR.THERM_STATUS 23 16 + 1) by omega]
  rw [Chip.flag, Chip.put_eq, Chip.reg_setReg_same, bit_setBits _ _ (by decide) (by omega), if_pos (by omega), Nat.add_sub_cancel_left,
    Nat.testBit_and, hmask, Bool.and_false]

theorem tsDeselected {k : Nat} (hk : k ∈ s.chip.sensors d) (hthree : 3 < (s.chip.sensors d).length)
    (hkeep : s.chip.flag d PWR PWR.THERM 16 = false) (hfar : 2 * s.chip.get d PWR PWR.THERM 27 24 <
      (2 * s.chip.tsRead d k - twiceMedian ((s.chip.sensors d).map (fun i => s.chip.tsRead d i))).natAbs) :
    ∃ t, exec (.tsDeselect d k) s = .next t ∧ t.mem.flash = s.mem.flash ∧ t.mem.dram = s.mem.dram ∧
      t.chip.flag d PWR PWR.THERM_STATUS (16 + k) = true ∧ k ∉ t.chip.sensors d := by
  have hk' := Chip.sensor_lt hk
  have hexec : exec (.tsDeselect d k) s = .next ((s.up fun c => (c.tsOff d k).event d PWR 5).judgeTemp d) := by
    refine (if_pos hd).trans (congrArg Host.Outcome.next ?_)
    dsimp only
    rw [if_pos ⟨hready, List.contains_iff_mem.2 hk, decide_eq_true hfar⟩, if_neg (ne_true_of_eq_false hkeep), if_pos hthree]
    rfl
  refine ⟨_, hexec, (Prod.mk.inj ((State.flash_judgeTemp ..).trans (State.flash_up ..))).1, ?_⟩
  rw [State.dram_judgeTemp, State.up_mem]
  obtain ⟨hoff, hunused⟩ := s.chip.tsOff_spec d hk'
  have hflag {j : Nat} (hj : j < 32) (hlow : 7 < j) :
      ((s.up fun c => (c.tsOff d k).event d PWR 5).judgeTemp d).chip.flag d PWR PWR.THERM_STATUS j =
        (s.chip.tsOff d k).flag d PWR PWR.THERM_STATUS j := by
    rw [State.flag_judgeTemp _ d hj hlow, State.up_chip, Chip.flag, Chip.reg_event_quiet _ d d (by decide), Chip.flag]
  refine ⟨rfl, (hflag (by omega) (by omega)).trans hoff, fun hmem => ?_⟩
  have hused := (List.mem_filter.1 hmem).2
  rw [hflag (by omega) (by omega), hunused] at hused
  exact Bool.false_ne_true hused

end

theorem thermalRows : Claim.ThermalRows := fun _ _ hd hready =>
  ⟨fun _ => thermalSampled hd hready, thermalSample_standby hd hready, fun _ => tsDeselected hd hready⟩

/-- Settles O48: the bounds and moves by arithmetic, the rows of the loop and the thermal watch by what each of them writes. -/
theorem voltageAndTemperature : Obligations.VoltageAndTemperature := ⟨voltageRequest, avsRows, thermalRows⟩

end Sys2Proof.Machine
end

section
/-! PROOFS. One-time-programmable memory, measurements, identity and quotes (O58; R430 to R442). -/

namespace Sys2Proof.Machine

/-! ### Words of a command with GO (R13) -/

theorem bit31_ofNat {n : Nat} (h : n < 2 ^ 31) : bit (BitVec.ofNat 32 (2 ^ 31 + n)) 31 = true := by
  rw [bit, BitVec.toNat_ofNat, Nat.mod_eq_of_lt (by omega), Nat.testBit_two_pow_add_eq, Nat.testBit_lt_two_pow h]
  rfl

theorem bits_ofNat (n hi lo : Nat) (h : n < 2 ^ 32) : bits (BitVec.ofNat 32 n) hi lo = n / 2 ^ lo % 2 ^ (hi + 1 - lo) := by
  rw [bits, BitVec.toNat_ofNat, Nat.mod_eq_of_lt h, Nat.shiftRight_eq_div_pow]

/-! ### Programming (R430, R431) -/

theorem State.writeReg_otpCtrl (s : State) (d : Nat) (w : Word) : s.writeReg d SEC SEC.OTP_CTRL w = s.up fun c => c.otpCtrlWrite d w := rfl
theorem State.writeReg_rollback (s : State) (d : Nat) (w : Word) : s.writeReg d SEC SEC.ROLLBACK w = s.up fun c => c.rollbackWrite d w := rfl
theorem State.writeReg_extCtrl (s : State) (d : Nat) (w : Word) : s.writeReg d SEC SEC.EXT_CTRL w = s.up fun c => c.extCtrlWrite d w := rfl

theorem exec_otpEnroll (s : State) (h : Hdr) (hw : s.mayWrite h SEC SEC.OTP_CTRL 1#32) :
    exec (.otpEnroll h) s = .next (s.wrote h SEC SEC.OTP_CTRL 1#32 fun c => c.otpStart h.die (.enroll (c.ownerStage h.die))) :=
  exec_mayWrite rfl rfl (by decide) hw ((State.writeReg_otpCtrl ..).trans (State.up_congr (if_pos (by decide))))

theorem exec_otpRequireOwner (s : State) (h : Hdr) (hw : s.mayWrite h SEC SEC.OTP_CTRL 2#32) :
    exec (.otpRequireOwner h) s = .next (s.wrote h SEC SEC.OTP_CTRL 2#32 fun c => c.otpStart h.die .requireOwner) :=
  exec_mayWrite rfl rfl (by decide) hw
    ((State.writeReg_otpCtrl ..).trans (State.up_congr ((if_neg (by decide)).trans (if_pos (by decide)))))

theorem Chip.rollbackWrite_go (c : Chip) (d : Nat) {n : Nat} (hn : n ≤ 64) :
    c.rollbackWrite d (BitVec.ofNat 32 (2 ^ 31 + n)) = if ((c.put d SEC SEC.ROLLBACK 7 0 n).otpOf d).counter < n then
      (c.put d SEC SEC.ROLLBACK 7 0 n).otpStart d (.counter n) else c.put d SEC SEC.ROLLBACK 7 0 n := by
  have htarget : bits (BitVec.ofNat 32 (2 ^ 31 + n)) 7 0 = n := by
    rw [bits_ofNat _ _ _ (by omega)]
    omega
  unfold Chip.rollbackWrite
  dsimp only
  rw [htarget, bit31_ofNat (by omega)]
  simp only [true_and]

theorem exec_rollbackAdvance (s : State) (h : Hdr) (n : Nat) (hn : n ≤ 64) (hw : s.mayWrite h SEC SEC.ROLLBACK (BitVec.ofNat 32 (2 ^ 31 + n))) :
    exec (.rollbackAdvance h n) s = .next (s.wrote h SEC SEC.ROLLBACK (BitVec.ofNat 32 (2 ^ 31 + n)) fun c =>
      let c := c.put h.die SEC SEC.ROLLBACK 7 0 n
      if (c.otpOf h.die).counter < n then c.otpStart h.die (.counter n) else c) :=
  exec_mayWrite rfl rfl (by decide) hw ((State.writeReg_rollback ..).trans (State.up_congr (Chip.rollbackWrite_go _ h.die hn)))

section
variable (c : Chip) (d : Nat)

theorem Chip.otpOf_congr {c c' : Chip} (h : c'.otp = c.otp) (d : Nat) : c'.otpOf d = c.otpOf d := by unfold Chip.otpOf; rw [h]
theorem Chip.otp_of_touches {c u : Chip} {p : Nat → Prop} (h : c.touches u p) : u.otp = c.otp := by rw [h.1]
theorem Chip.otpOf_setOtp_same (x : OtpSt) : (c.setOtp d x).otpOf d = x := (c.otpOf_setOtp d x d).trans (if_pos rfl)
theorem Chip.otpOf_put (p o hi lo v e : Nat) : (c.put d p o hi lo v).otpOf e = c.otpOf e := rfl
theorem Chip.otpOf_setNum (p o v e : Nat) : (c.setNum d p o v).otpOf e = c.otpOf e := rfl
theorem Chip.otpOf_tick (e : Nat) : c.tick.otpOf e = c.otpOf e := rfl
theorem Chip.reg_tick (e q r : Nat) : c.tick.reg e q r = c.reg e q r := rfl

/-- Number of an operation in OTP_RESULT. -/
def OtpOp.code : OtpOp → Nat
  | .enroll _ => 1
  | .requireOwner => 2
  | .counter _ => 3

theorem Chip.otpStart_eq (op : OtpOp) : c.otpStart d op =
    (((c.setOtp d { c.otpOf d with prog := some (op, c.now) }).setNum d SEC SEC.OTP_RESULT (op.code * 16 + 1)).put d SEC PAGE_STATUS 1 1 1).put
      d SEC PAGE_STATUS 15 8 2 := by
  cases op <;> rfl

/-- Programming that starts shows as busy. -/
theorem otpStarts (op : OtpOp) : ((c.otpStart d op).otpOf d).prog = some (op, c.now) ∧ (c.otpStart d op).otpBusy d = true ∧
    (c.otpStart d op).flag d SEC PAGE_STATUS 1 = true ∧ (c.otpStart d op).state d SEC = 2 := by
  have hprog : ((c.otpStart d op).otpOf d).prog = some (op, c.now) := by
    rw [Chip.otpStart_eq, Chip.otpOf_put, Chip.otpOf_put, Chip.otpOf_setNum, Chip.otpOf_setOtp_same]
  refine ⟨hprog, ?_, ?_, ?_⟩
  · rw [Chip.otpBusy, hprog]
    rfl
  · rw [Chip.otpStart_eq, Chip.flag_put_beside _ d SEC _ _ d SEC _ (by decide) (by decide) (.inl (by decide)), Chip.flag_put _ d SEC _ _ _ (by decide),
      if_pos rfl]
    rfl
  · rw [Chip.otpStart_eq, Chip.state, Chip.get_put _ d SEC _ _ (by decide) (by decide)]
    rfl

/-! ### Programming ends (R430, R431, R443) -/

/-- One-time-programmable memory after an operation; `part`: which bits are programmed where the field does not read back as meant. -/
def OtpSt.programmed (x : OtpSt) (good : Bool) (part : Nat) : OtpOp → OtpSt
  | .enroll g => { x with prog := none, owner := x.owner ||| (if good then g else g &&& part), enrolled := x.enrolled || good }
  | .requireOwner => { x with prog := none, require := x.require || good || part.testBit 0 }
  | .counter n => { x with prog := none, counter := if good then max x.counter n else x.counter + part % (n - x.counter + 1) }

/-- What the end of programming shows. -/
def Chip.otpShown (c : Chip) (d : Nat) (x : OtpSt) (good : Bool) : Chip :=
  (((((c.setOtp d x).put d SEC SEC.OTP_RESULT 2 0 (if good then 2 else 4)).tick).put d SEC PAGE_STATUS 1 1 0).put d SEC PAGE_STATUS 15 8 1).event
    d SEC (if good then 0 else 1)

variable {c d}

theorem Chip.otpEnd_eq {op : OtpOp} {at_ : Nat} (h : (c.otpOf d).prog = some (op, at_)) (good : Bool) :
    c.otpEnd d good = c.otpShown d ((c.otpOf d).programmed good (Config.freeNat c.fresh) op) good := by
  unfold Chip.otpEnd
  dsimp only
  rw [h]
  cases op <;> rfl

variable (c d)

theorem Chip.otpOf_otpShown (x : OtpSt) (good : Bool) : (c.otpShown d x good).otpOf d = x := by
  unfold Chip.otpShown
  rw [Chip.otpOf_congr (Chip.otp_of_touches (Chip.touches_event ..)), Chip.otpOf_put, Chip.otpOf_put, Chip.otpOf_tick, Chip.otpOf_put,
    Chip.otpOf_setOtp_same]

theorem Chip.result_otpShown (x : OtpSt) : (c.otpShown d x true).get d SEC SEC.OTP_RESULT 2 0 = 2 := by
  unfold Chip.otpShown
  rw [Chip.get_event_quiet _ d d (by decide), Chip.get_congr (Chip.reg_put_apart _ d d (by decide) 15 8 1),
    Chip.get_congr (Chip.reg_put_apart _ d d (by decide) 1 1 0), Chip.get_congr (Chip.reg_tick ..), if_pos rfl,
    Chip.get_put _ d SEC _ _ (by decide) (by decide)]
  rfl

theorem Chip.state_otpShown (x : OtpSt) (good : Bool) : (c.otpShown d x good).state d SEC = 1 := by
  unfold Chip.otpShown
  rw [Chip.state, Chip.get_event_quiet _ d d (by decide), Chip.get_put _ d SEC _ _ (by decide) (by decide)]
  rfl

end

/-- One-time-programmable memory with the field of an operation set as meant. -/
def OtpSt.filled (x : OtpSt) : OtpOp → OtpSt
  | .enroll g => { x with prog := none, owner := x.owner ||| g, enrolled := true }
  | .requireOwner => { x with prog := none, require := true }
  | .counter n => { x with prog := none, counter := max x.counter n }

/-- Good programming sets the field. -/
theorem OtpSt.programmed_good (x : OtpSt) (part : Nat) (op : OtpOp) : x.programmed true part op = x.filled op := by
  cases op <;> simp [OtpSt.programmed, OtpSt.filled]

/-- Nothing takes a programmed bit back. -/
theorem OtpSt.programmed_keeps (x : OtpSt) (good : Bool) (part : Nat) (op : OtpOp) : (x.programmed good part op).prog = none ∧
    x.counter ≤ (x.programmed good part op).counter ∧ x.owner &&& (x.programmed good part op).owner = x.owner ∧
    (x.enrolled = true → (x.programmed good part op).enrolled = true) ∧ (x.require = true → (x.programmed good part op).require = true) := by
  have howner : ∀ g, x.owner &&& (x.owner ||| g) = x.owner := fun g => by
    refine Nat.eq_of_testBit_eq fun i => ?_
    rw [Nat.testBit_and, Nat.testBit_or]
    cases x.owner.testBit i <;> rfl
  cases op with
  | enroll g => exact ⟨rfl, le_rfl, howner _, fun h => by simp [OtpSt.programmed, h], id⟩
  | requireOwner => exact ⟨rfl, le_rfl, Nat.and_self _, id, fun h => by simp [OtpSt.programmed, h]⟩
  | counter n =>
    refine ⟨rfl, ?_, Nat.and_self _, id, id⟩
    unfold OtpSt.programmed
    cases good
    · exact Nat.le_add_right ..
    · exact le_max_left ..

section
variable {s : State} {d : Nat} (hd : d < dieCount s.chip.member)
include hd

theorem otpProgramsGood {op : OtpOp} {at_ : Nat} (h : (s.chip.otpOf d).prog = some (op, at_)) :
    ∃ t, exec (.otpProgramDone d true) s = .next t ∧ t.mem = s.mem ∧ t.chip.get d SEC SEC.OTP_RESULT 2 0 = 2 ∧
      t.chip.state d SEC = 1 ∧ t.chip.otpOf d = (s.chip.otpOf d).filled op := by
  refine ⟨s.up fun c => c.otpEnd d true, if_pos hd, State.up_mem .., ?_⟩
  rw [State.up_chip, Chip.otpEnd_eq h]
  exact ⟨Chip.result_otpShown .., Chip.state_otpShown .., (Chip.otpOf_otpShown ..).trans (OtpSt.programmed_good ..)⟩

theorem otpProgramKeeps {op : OtpOp} {at_ : Nat} (h : (s.chip.otpOf d).prog = some (op, at_)) (good : Bool) :
    ∃ t, exec (.otpProgramDone d good) s = .next t ∧ (t.chip.otpOf d).prog = none ∧
      (s.chip.otpOf d).counter ≤ (t.chip.otpOf d).counter ∧ (s.chip.otpOf d).owner &&& (t.chip.otpOf d).owner = (s.chip.otpOf d).owner ∧
      ((s.chip.otpOf d).enrolled = true → (t.chip.otpOf d).enrolled = true) ∧
      ((s.chip.otpOf d).require = true → (t.chip.otpOf d).require = true) := by
  refine ⟨s.up fun c => c.otpEnd d good, if_pos hd, ?_⟩
  rw [State.up_chip, Chip.otpEnd_eq h, Chip.otpOf_otpShown]
  exact OtpSt.programmed_keeps ..

theorem otpProgramDone_idle (good : Bool) (h : (s.chip.otpOf d).prog = none) : exec (.otpProgramDone d good) s = .next s := by
  have hend : s.chip.otpEnd d good = s.chip := by
    unfold Chip.otpEnd
    dsimp only
    rw [h]
  exact (if_pos hd).trans (congrArg Host.Outcome.next (State.up_congr (g := id) hend))

end

theorem otpProgramming : Claim.OtpProgramming :=
  ⟨exec_otpEnroll, exec_otpRequireOwner, exec_rollbackAdvance, otpStarts,
    fun _ _ op _ hd h => ⟨by cases op <;> exact otpProgramsGood hd h, otpProgramKeeps hd h⟩,
    fun _ _ good hd h => otpProgramDone_idle hd good h⟩

/-! ### Measurements (R437, R438) -/

section
variable (c : Chip) {d i : Nat} (type : Nat) {digest : List Byte} (hi : i < 4) (hdigest : digest.length = 32) (hcount : c.logCount d < 32)
include hi hdigest hcount

/-- An extension changes the words of its measurement register, of its log entry, and LOG_COUNT. -/
theorem Chip.reg_extend (e : Nat) {r : Nat} (hr : r < 0x1000) (hmr : r < SEC.MR + 0x20 * i ∨ SEC.MR + 0x20 * i + 32 ≤ r)
    (hlog : r < SEC.LOG + 0x28 * c.logCount d ∨ SEC.LOG + 0x28 * c.logCount d + 40 ≤ r) (hnum : r ≠ SEC.LOG_COUNT) :
    (c.extend d i type digest).reg e SEC r = c.reg e SEC r := by
  have hbases : SEC.MR = 0x100 ∧ SEC.LOG = 0x200 := ⟨rfl, rfl⟩
  have hlen := length_shake256 (n := 32) (by decide) (c.mr d i ++ digest)
  have hentry := length_logEntry d i type (c.logCount d) digest
  rw [Chip.extend_eq, Chip.reg_put_apart _ d e (apart_of_ne (by decide) hr (by decide) (by decide) (.inr hnum)),
    Chip.reg_putBytes_beside _ d _ e (by decide) hr (by decide) (by omega) (.inr (by omega)),
    Chip.reg_putBytes_beside _ d _ e (by decide) hr (by decide) (by omega) (.inr (by omega))]

/-- The measurement register takes the digest. -/
theorem Chip.mr_extend_same : (c.extend d i type digest).mr d i = shake256 32 (c.mr d i ++ digest) := by
  have hbases : SEC.MR = 0x100 ∧ SEC.LOG = 0x200 ∧ SEC.LOG_COUNT = 0x0E8 := ⟨rfl, rfl, rfl⟩
  have hentry := length_logEntry d i type (c.logCount d) digest
  have hput := c.pageBytes_putBytes d (p := SEC) (o := SEC.MR + 0x20 * i) (n := 8) (shake256 32 (c.mr d i ++ digest)) (by decide) (by omega)
    (length_shake256 (by decide) _)
  refine Eq.trans (Chip.pageBytes_congr fun k hk => ?_) hput
  rw [Chip.extend_eq, Chip.reg_put_apart _ d d (apart_of_ne (by decide) (by omega) (by decide) (by decide) (.inr (by omega))),
    Chip.reg_putBytes_beside _ d _ d (by decide) (by omega) (by decide) (by omega) (.inr (.inl (by omega)))]

/-- The other measurement registers stay. -/
theorem Chip.mr_extend_other {j : Nat} (hj : j < 4) (hne : j ≠ i) : (c.extend d i type digest).mr d j = c.mr d j := by
  have hbases : SEC.MR = 0x100 ∧ SEC.LOG = 0x200 ∧ SEC.LOG_COUNT = 0x0E8 := ⟨rfl, rfl, rfl⟩
  exact Chip.pageBytes_congr fun k hk => c.reg_extend type hi hdigest hcount d (by omega) (by omega) (.inl (by omega)) (by omega)

omit hi in
/-- The log takes the entry. -/
theorem Chip.log_extend : (c.extend d i type digest).pageBytes d SEC (SEC.LOG + 0x28 * c.logCount d) 10 =
    logEntry d i type (c.logCount d) digest := by
  have hbases : SEC.LOG = 0x200 ∧ SEC.LOG_COUNT = 0x0E8 := ⟨rfl, rfl⟩
  have hentry := length_logEntry d i type (c.logCount d) digest
  have hput := (c.putBytes d SEC (SEC.MR + 0x20 * i) (shake256 32 (c.mr d i ++ digest))).pageBytes_putBytes d (p := SEC)
    (o := SEC.LOG + 0x28 * c.logCount d) (n := 10) (logEntry d i type (c.logCount d) digest) (by decide) (by omega) (by omega)
  refine Eq.trans (Chip.pageBytes_congr fun k hk => ?_) hput
  rw [Chip.extend_eq, Chip.reg_put_apart _ d d (apart_of_ne (by decide) (by omega) (by decide) (by decide) (.inr (by omega)))]

end

/-- A write of one register that is judged OK passes the checks of the register (R124). -/
theorem State.regStatus_of_passes {s : State} {h : Hdr} {p o : Nat} {k : PageKind} {w : Word} (hk : pageKind p = some k) (ho : o < 0x1000)
    (hw : s.passes h p o w) : (s.starts h (oneWord h p o w)).chip.regStatus h.port false h.die p o w = OK := by
  have hall := (lowest_eq_ok _).1 hw.2
  refine hall _ (List.mem_cons_of_mem _ (List.mem_map.2 ⟨(p * 0x1000 + o, w), by simp [wordAddrs], ?_⟩))
  unfold Chip.writeStatus
  dsimp only
  rw [place_of_page h.die hk ho]

/-- Software reaches MR2 and MR3 only. -/
theorem mr_of_extCtrl {s : State} {h : Hdr} {mr type : Nat} (hmr : mr < 4) (htype : type < 256)
    (hw : s.mayWrite h SEC SEC.EXT_CTRL (BitVec.ofNat 32 (2 ^ 31 + 256 * type + mr))) : 2 ≤ mr := by
  have hstatus := State.regStatus_of_passes (k := .sec) rfl (by decide) hw.1
  generalize (s.starts h (oneWord h SEC SEC.EXT_CTRL (BitVec.ofNat 32 (2 ^ 31 + 256 * type + mr)))).chip = c at hstatus
  have hext : c.extCtrlStatus h.die (BitVec.ofNat 32 (2 ^ 31 + 256 * type + mr)) = OK :=
    (lowest_eq_ok _).1 hstatus _ (List.mem_cons_of_mem _ (List.mem_cons_of_mem _ (List.mem_cons_self ..)))
  have hsoft := (lowest_eq_ok _).1 hext _ (List.mem_cons_self ..)
  have hmr' : bits (BitVec.ofNat 32 (2 ^ 31 + 256 * type + mr)) 1 0 = mr := by rw [bits_ofNat _ _ _ (by omega)]; omega
  rw [hmr'] at hsoft
  by_contra hlow
  rw [if_pos (.inl (by omega))] at hsoft
  exact absurd hsoft (by decide)

theorem exec_measurementExtend {s : State} {h : Hdr} {mr type : Nat} (hmr : mr < 4) (htype : type < 256)
    (hw : s.mayWrite h SEC SEC.EXT_CTRL (BitVec.ofNat 32 (2 ^ 31 + 256 * type + mr))) :
    exec (.measurementExtend h mr type) s = .next (s.wrote h SEC SEC.EXT_CTRL (BitVec.ofNat 32 (2 ^ 31 + 256 * type + mr)) fun c =>
      ((c.put h.die SEC SEC.EXT_CTRL 15 8 type).put h.die SEC SEC.EXT_CTRL 1 0 mr).extend h.die mr type (c.pageBytes h.die SEC SEC.EXT_DATA 8)) := by
  refine exec_mayWrite rfl rfl (by decide) hw ((State.writeReg_extCtrl ..).trans (State.up_congr ?_))
  generalize (s.starts h (oneWord h SEC SEC.EXT_CTRL (BitVec.ofNat 32 (2 ^ 31 + 256 * type + mr)))).chip = c
  have hgo : bit (BitVec.ofNat 32 (2 ^ 31 + 256 * type + mr)) 31 = true := by
    rw [Nat.add_assoc]
    exact bit31_ofNat (by omega)
  have htype' : bits (BitVec.ofNat 32 (2 ^ 31 + 256 * type + mr)) 15 8 = type := by rw [bits_ofNat _ _ _ (by omega)]; omega
  have hmr' : bits (BitVec.ofNat 32 (2 ^ 31 + 256 * type + mr)) 1 0 = mr := by rw [bits_ofNat _ _ _ (by omega)]; omega
  have hdata : ((c.put h.die SEC SEC.EXT_CTRL 15 8 type).put h.die SEC SEC.EXT_CTRL 1 0 mr).pageBytes h.die SEC SEC.EXT_DATA 8 =
      c.pageBytes h.die SEC SEC.EXT_DATA 8 := by
    refine Chip.pageBytes_congr fun k hk => ?_
    have hapart : apart SEC (SEC.EXT_DATA + 4 * k) SEC SEC.EXT_CTRL = true := by
      revert k; decide
    rw [Chip.reg_put_apart _ h.die h.die hapart, Chip.reg_put_apart _ h.die h.die hapart]
  unfold Chip.extCtrlWrite
  dsimp only
  rw [htype', hmr', if_pos hgo, hdata]

theorem measurements : Claim.Measurements := by
  refine ⟨fun c d i type digest hi hdigest hcount => ⟨c.mr_extend_same type hi hdigest hcount,
    fun j hj hne => c.mr_extend_other type hi hdigest hcount hj hne, c.logCount_extend d i type digest hcount,
    (c.log_extend type hdigest hcount).trans rfl⟩, fun s h mr type hmr htype hw => ?_⟩
  exact ⟨exec_measurementExtend hmr htype hw, mr_of_extCtrl hmr htype hw⟩

/-! ### Identity (R439) -/

section
variable {s : State} (ok : Bool) (hpower : s.chip.power = .running) (hreset : s.chip.inReset.contains 0 = false)
  (hready : s.chip.ready 0 SEC = false) (hcode : 1 ∉ s.chip.codesOf 0 SEC)

/-- The chip with the seed that die 0 has, or makes at the first boot. -/
def Chip.seeded (c : Chip) (seed : Option Nat) : Chip := (c.setOtp 0 { c.otpOf 0 with seed := seed, booted := true }).tick

/-- The seed that die 0 has at boot. -/
def Chip.bootSeed (c : Chip) (ok : Bool) : Option Nat :=
  if (c.otpOf 0).seed.isSome then (c.otpOf 0).seed else if !(c.otpOf 0).booted ∧ ok then some (Config.freeNat c.fresh) else none

theorem Chip.otpOf_seeded (c : Chip) (seed : Option Nat) : (c.seeded seed).otpOf 0 = { c.otpOf 0 with seed := seed, booted := true } :=
  (Chip.otpOf_tick ..).trans (Chip.otpOf_setOtp_same ..)

theorem Chip.reg_seeded (c : Chip) (seed : Option Nat) (e q r : Nat) : (c.seeded seed).reg e q r = c.reg e q r := rfl

include hpower hreset hready hcode

theorem State.deriveIdentity_eq : s.deriveIdentity ok =
    if (s.chip.bootSeed ok).isSome then
      (s.up fun c => c.seeded (s.chip.bootSeed ok)).up fun c => (c.put 0 SEC SEC.OTP_STATE 0 0 1).setReady 0 SEC true
    else (s.up fun c => c.seeded (s.chip.bootSeed ok)).latch 0 SEC 1 := by
  refine if_neg ?_
  rw [hpower, hreset, hready]
  simpa using hcode

theorem identityReady (h : (s.chip.otpOf 0).seed.isSome = true ∨ ((s.chip.otpOf 0).booted = false ∧ ok = true)) :
    ∃ t, exec (.identityDerive ok) s = .next t ∧ t.mem = s.mem ∧ t.chip.ready 0 SEC = true ∧ (t.chip.otpOf 0).seed.isSome = true ∧
      (t.chip.otpOf 0).booted = true ∧ ((s.chip.otpOf 0).seed.isSome = true → (t.chip.otpOf 0).seed = (s.chip.otpOf 0).seed) := by
  have hseed : (s.chip.bootSeed ok).isSome = true := by
    unfold Chip.bootSeed
    split
    · next hsome => exact hsome
    · next hnone =>
      obtain ⟨hboot, rfl⟩ := h.resolve_left hnone
      rw [if_pos ⟨by rw [hboot]; rfl, rfl⟩]
      rfl
  refine ⟨s.deriveIdentity ok, rfl, ?_⟩
  rw [State.deriveIdentity_eq ok hpower hreset hready hcode, if_pos hseed, State.up_mem, State.up_mem, State.up_chip, State.up_chip,
    Chip.otpOf_congr (Chip.otp_of_touches (Chip.touches_setReady ..)), Chip.otpOf_put, Chip.otpOf_seeded,
    Chip.ready_setReady _ _ _ _ (by decide) (by decide), if_pos ⟨rfl, rfl⟩]
  exact ⟨rfl, rfl, hseed, rfl, fun hsome => if_pos hsome⟩

theorem identityMissing (hnone : (s.chip.otpOf 0).seed = none) (h : (s.chip.otpOf 0).booted = true ∨ ok = false) :
    ∃ t, exec (.identityDerive ok) s = .next t ∧ t.mem.flash = s.mem.flash ∧ t.mem.dram = s.mem.dram ∧ t.chip.ready 0 SEC = false ∧
      1 ∈ t.chip.codesOf 0 SEC := by
  have hseed : ¬(s.chip.bootSeed ok).isSome = true := by
    unfold Chip.bootSeed
    rw [hnone]
    rcases h with h | h <;> simp [h]
  refine ⟨s.deriveIdentity ok, rfl, ?_⟩
  rw [State.deriveIdentity_eq ok hpower hreset hready hcode, if_neg hseed]
  refine ⟨(Prod.mk.inj ((State.flash_latch ..).trans (State.flash_up ..))).1, ?_, ?_, State.mem_codesOf_latch ..⟩
  · rw [State.dram_latch _ 0 1 (by decide), State.up_mem]
  · rw [Chip.ready_congr (State.reg_latch _ 0 0 (by decide) ..), State.up_chip, Chip.ready_congr (Chip.reg_seeded ..), hready]

end

/-! ### ATTEST (R441, R442) -/

theorem Chip.nextQuote_some {c : Chip} {r : Req} {nonce : List Byte} (h : (c.reqs isAttest).head? = some r) (hr : r.cmd = .attest nonce) :
    c.nextQuote = { c with quote := some (r.id, c.buildQuote nonce) } := by
  unfold Chip.nextQuote
  rw [h]
  dsimp only
  rw [hr]

theorem Chip.nextQuote_none {c : Chip} (h : c.reqs isAttest = []) : c.nextQuote = { c with quote := none } := by
  unfold Chip.nextQuote
  rw [h]
  rfl

theorem Chip.reqs_taken (c : Chip) (a : Arrival) (cmd : Cmd) (f : Req → Bool) :
    (c.taken a cmd).reqs f = c.reqs f ++ if f (c.begun a cmd) then [c.begun a cmd] else [] := by
  have hinflight : (c.taken a cmd).reqs f = (c.inflight ++ [c.begun a cmd]).filter f := rfl
  rw [hinflight, List.filter_append]
  cases h : f (c.begun a cmd) <;> simp [h, Chip.reqs]

section
variable {s : State} {h : Hdr} {nonce : List Byte} (ha : s.chip.admits h (.attest nonce))
include ha

theorem exec_attest : exec (.attest h nonce) s = .next ((s.starts h (.attest nonce)).up fun c => c.attest (s.req h (.attest nonce))) :=
  exec_admitted rfl ha

theorem attest_noIdentity (hcode : 1 ∈ s.chip.codesOf 0 SEC) :
    exec (.attest h nonce) s = .next ((s.starts h (.attest nonce)).finish (s.req h (.attest nonce)) FAIL 1 []) :=
  (exec_attest ha).trans (congrArg Host.Outcome.next (State.up_congr (if_pos (List.contains_iff_mem.2 hcode))))

theorem attest_notReady (hcode : 1 ∉ s.chip.codesOf 0 SEC) (hready : s.chip.ready 0 SEC = false) :
    exec (.attest h nonce) s = .next ((s.starts h (.attest nonce)).done (s.req h (.attest nonce)) BUSY) := by
  refine (exec_attest ha).trans (congrArg Host.Outcome.next (State.up_congr (g := fun c => c.done (s.req h (.attest nonce)) BUSY) ?_))
  refine (if_neg fun h => hcode (List.contains_iff_mem.1 h)).trans (if_pos ?_)
  exact Bool.not_eq_true' _ |>.mpr hready

theorem attest_builds (hcode : 1 ∉ s.chip.codesOf 0 SEC) (hready : s.chip.ready 0 SEC = true) (hreqs : s.chip.reqs isAttest = [])
    (hquote : s.chip.quote = none) : exec (.attest h nonce) s = .next ((s.starts h (.attest nonce)).up fun c =>
      { c with quote := some ((s.req h (.attest nonce)).id, c.buildQuote nonce) }) := by
  refine (exec_attest ha).trans (congrArg Host.Outcome.next (State.up_congr ?_))
  have hothers : (s.starts h (.attest nonce)).chip.reqs (fun q => isAttest q && decide (q.id ≠ (s.req h (.attest nonce)).id)) = [] := by
    refine (Chip.reqs_taken ..).trans (List.append_eq_nil_iff.2 ⟨?_, if_neg fun hself => ?_⟩)
    · refine List.filter_eq_nil_iff.2 fun q hq hboth => ?_
      exact List.filter_eq_nil_iff.1 hreqs q hq (Bool.and_eq_true_iff.1 hboth).1
    · exact of_decide_eq_true (Bool.and_eq_true_iff.1 hself).2 rfl
  have hnext : ((s.starts h (.attest nonce)).chip.reqs isAttest).head? = some (s.req h (.attest nonce)) := by
    have hall : (s.starts h (.attest nonce)).chip.reqs isAttest = s.chip.reqs isAttest ++ [s.req h (.attest nonce)] :=
      (Chip.reqs_taken ..).trans (congrArg (s.chip.reqs isAttest ++ ·) (if_pos rfl))
    rw [hall, hreqs]
    rfl
  have hidle : (s.starts h (.attest nonce)).chip.quote.isNone = true := congrArg Option.isNone hquote
  refine (if_neg fun h => hcode (List.contains_iff_mem.1 h)).trans ((if_neg ?_).trans ((if_neg ?_).trans ((if_pos hidle).trans
    (Chip.nextQuote_some hnext rfl))))
  · exact ne_true_of_eq_false (congrArg Bool.not hready)
  · rw [hothers]
    exact Nat.not_succ_le_zero 3

end

/-! ### A quote is signed (R442) -/

/-- The quote of a command, signed, completes it, and with no other ATTEST the block is idle. -/
theorem Chip.quoteSigned_last {c : Chip} {r : Req} {q : List Byte} (hquote : c.quote = some (r.id, q))
    (hmine : (c.reqs fun x => isAttest x && decide (x.id = r.id)) = [r]) (hall : c.reqs isAttest = [r])
    (hanswers : c.answers (portDie r.port) r.die = true) : c.quoteSigned =
      { c.finish r OK 0 (q ++ (List.range 3309).map (Config.mldsaSign ((c.otpOf 0).seed.getD 0) ctxAT q)) with quote := none } := by
  have hleft : ∀ bs, (c.finish r OK 0 bs).reqs isAttest = [] := fun bs => by
    rw [Chip.finish_of_answers _ _ _ _ _ hanswers, Chip.reqs, Chip.inflight_reply, List.filter_comm, ← Chip.reqs, hall]
    simp
  unfold Chip.quoteSigned
  rw [hquote]
  dsimp only
  rw [hmine]
  exact Chip.nextQuote_none (hleft _)

theorem identityAndQuotes : Claim.IdentityAndQuotes := by
  refine ⟨fun s ok hpower hreset hready hcode => ⟨identityReady ok hpower hreset hready hcode, identityMissing ok hpower hreset hready hcode⟩,
    fun s h nonce ha => ⟨attest_noIdentity ha, attest_notReady ha, attest_builds ha⟩, fun s hquote => ?idle, fun s r q hquote hmine hall hanswers => ?_⟩
  case idle =>
    have hidle : s.chip.quoteSigned = s.chip := by
      unfold Chip.quoteSigned
      rw [hquote]
    exact congrArg Host.Outcome.next (State.up_congr (g := id) hidle)
  · exact congrArg Host.Outcome.next (State.up_congr (Chip.quoteSigned_last hquote hmine hall hanswers))

/-- Settles O58: programming by what its start and its end write, measurements by bytes read back, and quotes by the commands in flight. -/
theorem securityFuses : Obligations.SecurityFuses := ⟨otpProgramming, measurements, identityAndQuotes⟩

end Sys2Proof.Machine
end

section
/-! PROOFS. CAL_RUN, AGE_SCAN and MARGIN_SCAN (O47; R397 to R414). -/

namespace Sys2Proof.Machine

/-! ### Registers of other dies, and rounds over a gang -/

theorem Chip.reg_put_otherDie (c : Chip) {d e p o q r : Nat} (hi lo v : Nat) (hp : p < 0x1000) (ho : o < 0x1000) (hq : q < 0x1000)
    (hr : r < 0x1000) (hne : e ≠ d) : (c.put d p o hi lo v).reg e q r = c.reg e q r := by
  rw [Chip.put_eq, Chip.reg_setReg, if_neg fun h => hne ((ra_inj hq hr hp ho).1 h).1]

theorem Chip.inflight_setState (c : Chip) (d p v : Nat) : (c.setState d p v).inflight = c.inflight := rfl

/-- A page whose state is set on every die of a list shows it on each of them. -/
theorem Chip.state_each_setState (c : Chip) {l : List Nat} {d p v : Nat} (hp : p < 0x1000) (hv : v < 256) (hd : d ∈ l) :
    (c.each l fun c e => c.setState e p v).state d p = v := by
  have hset : ∀ (c : Chip) (e : Nat), (c.setState e p v).state d p = if d = e then v else c.state d p := fun c e => by
    rw [Chip.state_setState c e v d hp hp, Nat.mod_eq_of_lt hv]
    simp
  refine Chip.each_reaches (P := fun c => c.state d p = v) c hd (fun c => (hset c d).trans (if_pos rfl)) fun c e _ h => ?_
  rw [hset, h, ite_self]

/-- The commands that a header names an output in are for the die of the header, which leads a gang (R31, R112). -/
theorem output_of_admits {c : Chip} {h : Hdr} {cmd : Cmd} {o : Nat} (ha : c.admits h cmd) (ho : cmdOutput cmd = some o) : h.die = o := by
  have hn := namesOk_of_admits ha
  unfold namesOk at hn
  rw [ho] at hn
  simp only [Bool.and_eq_true, decide_eq_true_eq] at hn
  exact hn.1.1.1

theorem State.req_mem_starts (s : State) (h : Hdr) (cmd : Cmd) : s.req h cmd ∈ (s.starts h cmd).chip.inflight :=
  List.mem_append_right _ (List.mem_singleton_self _)

/-! ### CAL_RUN starts (R397) -/

/-- The run starts on a die. -/
def Chip.calStarted (c : Chip) (d : Nat) : Chip :=
  ((c.setDie d { c.die d with calLos := (List.range 8).filter (fun l => c.lget d l LANE.STATUS 11 11 = 0) }).setBusy d CAL true).setState d CAL 2

/-- A die shows a run in progress. -/
def Chip.calShown (c : Chip) (d : Nat) : Prop := c.state d CAL = 2 ∧ c.get d CAL PAGE_STATUS 1 1 = 1

section
variable (c : Chip) (d : Nat)

theorem Chip.calShown_calStarted : (c.calStarted d).calShown d := by
  unfold Chip.calStarted Chip.setBusy
  refine ⟨?_, ?_⟩
  · exact Chip.get_put _ d CAL _ _ (by decide) (by decide)
  · exact (Chip.get_put_beside _ d CAL _ _ d CAL _ (by decide) (by decide) (.inl (by decide))).trans
      (Chip.get_put _ d CAL _ _ (by decide) (by decide))

theorem Chip.calShown_calStarted_other {e : Nat} (hne : d ≠ e) (h : c.calShown d) : (c.calStarted e).calShown d := by
  have hreg : (c.calStarted e).reg d CAL PAGE_STATUS = c.reg d CAL PAGE_STATUS := by
    unfold Chip.calStarted Chip.setBusy Chip.setState
    rw [Chip.reg_put_otherDie _ _ _ _ (by decide) (by decide) (by decide) (by decide) hne,
      Chip.reg_put_otherDie _ _ _ _ (by decide) (by decide) (by decide) (by decide) hne, Chip.reg_setDie]
  exact ⟨(Chip.state_congr hreg).trans h.1, (Chip.get_congr hreg 1 1).trans h.2⟩

theorem Chip.outs_calStarted : (c.calStarted d).outs = c.outs := by
  unfold Chip.calStarted Chip.setBusy Chip.setState
  rw [Chip.put_eq, Chip.setReg_outs, Chip.put_eq, Chip.setReg_outs, Chip.setDie_outs]

theorem Chip.inflight_calStarted : (c.calStarted d).inflight = c.inflight := by
  unfold Chip.calStarted Chip.setBusy Chip.setState
  rw [Chip.put_eq, Chip.setReg_inflight, Chip.put_eq, Chip.setReg_inflight, Chip.setDie_inflight]

end

theorem Chip.calRun_starts {c : Chip} {r : Req} {o : Nat} {p : List Byte} (hcal : (c.out o).cal = none) (hlanes : (fieldAt p 1 1).testBit 2 = false) :
    c.calRun r o p = (c.setOut o { c.out o with cal := some {} }).each (c.gang o) fun c d => c.calStarted d := by
  refine if_neg fun h => ?_
  rw [hcal, hlanes] at h
  exact h.elim (fun h => Bool.false_ne_true h) fun h => Bool.false_ne_true h.1

theorem calRunStarts (s : State) (h : Hdr) (p : List Byte) (ha : s.chip.admits h (.calRun p)) (hcal : (s.chip.out (fieldAt p 0 1)).cal = none)
    (hlanes : (fieldAt p 1 1).testBit 2 = false) :
    ∃ t, exec (.calRun h p) s = .next t ∧ t.mem = s.mem ∧ s.req h (.calRun p) ∈ t.chip.inflight ∧ (t.chip.out h.die).cal = some {} ∧
      ∀ d ∈ s.chip.gang h.die, t.chip.state d CAL = 2 ∧ t.chip.get d CAL PAGE_STATUS 1 1 = 1 := by
  have ho : h.die = fieldAt p 0 1 := output_of_admits ha rfl
  have hcal' : ((s.starts h (.calRun p)).chip.out (fieldAt p 0 1)).cal = none := hcal
  have hgang : s.chip.gang h.die = (s.starts h (.calRun p)).chip.gang (fieldAt p 0 1) := congrArg s.chip.gang ho
  have hmem := s.req_mem_starts h (.calRun p)
  refine ⟨(s.starts h (.calRun p)).up fun c => c.calRun (s.req h (.calRun p)) (fieldAt p 0 1) p, exec_admitted rfl ha,
    (State.up_mem ..).trans (State.up_mem ..), ?_⟩
  rw [State.up_chip, Chip.calRun_starts hcal' hlanes, hgang, ho]
  generalize (s.starts h (.calRun p)).chip = c at hmem
  refine ⟨?_, ?_, fun d hd => ?_⟩
  · rw [Chip.each_keeps Chip.inflight _ _ fun c d _ => c.inflight_calStarted d]
    exact hmem
  · rw [Chip.out_congr (Chip.each_keeps Chip.outs _ _ fun c d _ => c.outs_calStarted d), Chip.out_setOut, if_pos rfl]
  · refine Chip.each_reaches (P := fun c => c.calShown d) _ hd (fun c => c.calShown_calStarted d) fun c e _ h => ?_
    by_cases hde : d = e
    · subst hde
      exact c.calShown_calStarted d
    · exact c.calShown_calStarted_other d hde h

/-! ### A VREF cell takes effect (R398, R399) -/

/-- The end of a die's run that trimmed VREF only, and found it plausible. -/
def Chip.vrefShown (c : Chip) (d cell : Nat) (sets : List Nat) : Chip :=
  ((((c.put d CAL CAL.VREF 1 0 cell).setNum d CAL CAL.RESULT 2).events d CAL sets).setBusy d CAL false).setState d CAL 1

section
variable (c : Chip) (d cell : Nat) (sets : List Nat)

theorem Chip.reg_vrefShown {r : Nat} (hq : quiet CAL r = true) (hr : r ≠ PAGE_STATUS) :
    (c.vrefShown d cell sets).reg d CAL r = ((c.put d CAL CAL.VREF 1 0 cell).setNum d CAL CAL.RESULT 2).reg d CAL r := by
  have hstatus : apart CAL r CAL PAGE_STATUS = true := apart_of_offset hq (by decide) (by decide) hr
  unfold Chip.vrefShown Chip.setBusy Chip.setState
  rw [Chip.reg_put_apart _ d d hstatus, Chip.reg_put_apart _ d d hstatus, Chip.reg_events_quiet _ d d hq]

theorem Chip.vref_vrefShown (hcell : cell < 4) : (c.vrefShown d cell sets).get d CAL CAL.VREF 1 0 = cell := by
  rw [Chip.get_congr (Chip.reg_vrefShown c d cell sets (by decide) (by decide)), Chip.get_congr (Chip.reg_setNum_apart _ d d (by decide) 2),
    Chip.get_put _ d CAL _ _ (by decide) (by decide)]
  exact Nat.mod_eq_of_lt hcell

theorem Chip.result_vrefShown : (c.vrefShown d cell sets).num d CAL CAL.RESULT = 2 := by
  rw [Chip.num, Chip.reg_vrefShown c d cell sets (by decide) (by decide), Chip.setNum_eq, Chip.reg_setReg_same]
  rfl

theorem Chip.state_vrefShown : (c.vrefShown d cell sets).state d CAL = 1 := Chip.get_put _ d CAL _ _ (by decide) (by decide)

end

theorem Chip.calRunDone_vref {c : Chip} {d : Nat} {x : CalSamples} {run : CalRun} {r : Req} {p : List Byte}
    (hcal : (c.out (c.leadOf d)).cal = some run) (hdone : d ∉ run.done) (hhead : (c.reqs (isCalRun (c.leadOf d))).head? = some r)
    (hr : r.cmd = .calRun p) (hkinds : fieldAt p 1 1 = 2) (hvref : vrefFail x = 0) :
    ∃ sets run', d ∈ run'.done ∧ ((c.calRunDone d x = (c.vrefShown d x.vrefCell sets).setOut (c.leadOf d)
        { (c.vrefShown d x.vrefCell sets).out (c.leadOf d) with cal := some run' }) ∨
      ∃ st dt bs, c.calRunDone d x = ((c.vrefShown d x.vrefCell sets).setOut (c.leadOf d)
        { (c.vrefShown d x.vrefCell sets).out (c.leadOf d) with cal := none }).finish r st dt bs) := by
  unfold Chip.calRunDone
  extract_lets o
  rw [hcal, hhead]
  dsimp -zeta only
  rw [if_neg fun h => hdone (List.contains_iff_mem.1 h)]
  extract_lets p' kinds named lanes badLanes f0 f1 f2 bad good cause u₁ u₂ u₃ changed u₄ u₅ v run' z
  have hp : kinds = 2 := by
    unfold kinds p'
    rw [hr]
    exact hkinds
  have hf0 : f0 = 0 := if_neg (by rw [hp]; decide)
  have hf1 : f1 = 0 := (if_pos (by rw [hp]; decide)).trans hvref
  have hf2 : f2 = 0 := if_neg (by rw [hp]; decide)
  have hbad : bad = 0 := by
    unfold bad
    rw [hf0, hf1, hf2]
    rfl
  have hgood : good = 2 := by
    unfold good
    rw [hbad, hp]
    rfl
  have hcause : cause = 0 := by
    unfold cause
    rw [hf0, hf1, hf2]
    rfl
  have hu₃ : u₃ = c.put d CAL CAL.VREF 1 0 x.vrefCell := by
    unfold u₃ u₂ u₁
    rw [hgood, if_neg (by decide), if_pos (by decide), if_neg (by decide)]
  have hv : ∃ sets, v = c.vrefShown d x.vrefCell sets := by
    unfold v u₅ u₄
    rw [hu₃, hcause, hbad, hgood]
    exact ⟨_, rfl⟩
  obtain ⟨sets, hv⟩ := hv
  refine ⟨sets, run', List.mem_cons_self .., ?_⟩
  unfold z
  rw [hv]
  split
  · exact .inr ⟨_, _, _, rfl⟩
  · exact .inl rfl

theorem vrefTakesEffect {s : State} {d : Nat} {x : CalSamples} {run : CalRun} {r : Req} {p : List Byte} (hd : d < dieCount s.chip.member)
    (hcal : (s.chip.out (s.chip.leadOf d)).cal = some run) (hdone : d ∉ run.done)
    (hhead : (s.chip.reqs (isCalRun (s.chip.leadOf d))).head? = some r) (hr : r.cmd = .calRun p) (hkinds : fieldAt p 1 1 = 2)
    (hvref : vrefFail x = 0) (hcell : x.vrefCell < 4) :
    ∃ t, exec (.calRunDone d x) s = .next t ∧ t.mem = s.mem ∧ t.chip.get d CAL CAL.VREF 1 0 = x.vrefCell ∧ t.chip.num d CAL CAL.RESULT = 2 ∧
      t.chip.state d CAL = 1 ∧ ((t.chip.out (s.chip.leadOf d)).cal = none ∨ ∃ z, (t.chip.out (s.chip.leadOf d)).cal = some z ∧ d ∈ z.done) := by
  obtain ⟨sets, run', hmem, hend⟩ := Chip.calRunDone_vref hcal hdone hhead hr hkinds hvref
  refine ⟨s.up fun c => c.calRunDone d x, if_pos hd, State.up_mem .., ?_⟩
  rw [State.up_chip]
  have hvref := s.chip.vref_vrefShown d x.vrefCell sets hcell
  have hresult := s.chip.result_vrefShown d x.vrefCell sets
  have hstate := s.chip.state_vrefShown d x.vrefCell sets
  generalize s.chip.vrefShown d x.vrefCell sets = v at *
  rcases hend with hend | ⟨st, dt, bs, hend⟩
  · rw [hend]
    refine ⟨hvref, hresult, hstate, .inr ⟨run', ?_, hmem⟩⟩
    rw [Chip.out_setOut, if_pos rfl]
  · rw [hend, Chip.num, Chip.reg_finish, Chip.state_congr (Chip.reg_finish ..), Chip.get_congr (Chip.reg_finish ..),
      Chip.out_congr (Chip.outs_finish ..), Chip.out_setOut, if_pos rfl]
    exact ⟨hvref, hresult, hstate, .inl rfl⟩

theorem calRuns : Claim.CalRuns :=
  ⟨calRunStarts, fun _ _ _ _ _ _ hd hcal hdone hhead hr hkinds hvref hcell => vrefTakesEffect hd hcal hdone hhead hr hkinds hvref hcell⟩

/-! ### AGE_SCAN (R407, R408) -/

theorem ageScanStarts (s : State) (h : Hdr) (p : List Byte) (ha : s.chip.admits h (.ageScan p)) :
    ∃ t, exec (.ageScan h p) s = .next t ∧ t.mem = s.mem ∧ s.req h (.ageScan p) ∈ t.chip.inflight ∧
      ∀ d ∈ s.chip.gang h.die, t.chip.state d AGE = 2 := by
  have ho : h.die = fieldAt p 0 1 := output_of_admits ha rfl
  have hmem := s.req_mem_starts h (.ageScan p)
  refine ⟨(s.starts h (.ageScan p)).up fun c => c.ageScan (fieldAt p 0 1), exec_admitted rfl ha,
    (State.up_mem ..).trans (State.up_mem ..), ?_, fun d hd => ?_⟩
  · rw [State.up_chip, Chip.ageScan, Chip.each_keeps Chip.inflight _ _ fun c d _ => c.inflight_setState d AGE 2]
    exact hmem
  · rw [ho] at hd
    exact Chip.state_each_setState _ (by decide) (by decide) hd

section
variable {c : Chip} {d : Nat}

/-- A pair shows how much slower it has become. -/
def Chip.putSlow (c : Chip) (d k v : Nat) : Chip := c.setNum d AGE (AGE.RO + 4 * k) (slowPpm (c.num d AGE (AGE.RO_BASE + 4 * k)) v)

theorem quiet_pair : ∀ k < 8, quiet AGE (AGE.RO + 4 * k) = true := by decide

theorem pair_bounds {k : Nat} (hk : k < 8) : AGE.RO + 4 * k < AGE.RO_BASE ∧ AGE.RO_BASE + 4 * k < AGE.TS_DRIFT := by
  have hro : AGE.RO = 0x040 ∧ AGE.RO_BASE = 0x060 ∧ AGE.TS_DRIFT = 0x080 := ⟨rfl, rfl, rfl⟩
  omega

theorem Chip.num_putSlow_of_ne {k r : Nat} (v : Nat) (hk : k < 8) (hr : r < 0x1000) (hne : r ≠ AGE.RO + 4 * k) :
    (c.putSlow d k v).num d AGE r = c.num d AGE r := by
  have hbase : AGE.RO_BASE < 0x1000 := by decide
  have hbounds := pair_bounds hk
  exact congrArg BitVec.toNat (c.reg_setNum_apart d d (apart_of_ne (by decide) hr (by decide) (by omega) (.inr hne)) _)

/-- Pairs from one on show how much slower they have become. -/
def Chip.putSlows (c : Chip) (d n : Nat) (l : List Nat) : Chip := c.each (l.zipIdx n) fun c y => c.putSlow d y.2 y.1

theorem Chip.num_putSlows_of_ne {l : List Nat} {n r : Nat} (hn : n + l.length ≤ 8) (hr : r < 0x1000)
    (hne : ∀ k, n ≤ k → k < 8 → r ≠ AGE.RO + 4 * k) : (c.putSlows d n l).num d AGE r = c.num d AGE r := by
  induction l generalizing c n with
  | nil => rfl
  | cons v l ih =>
    rw [List.length_cons] at hn
    exact (ih (c := c.putSlow d n v) (by omega) fun k hk => hne k (by omega)).trans
      (Chip.num_putSlow_of_ne v (by omega) hr (hne n le_rfl (by omega)))

theorem Chip.num_putSlows {l : List Nat} {n j v : Nat} (hn : n + l.length ≤ 8) (hv : l[j]? = some v) :
    (c.putSlows d n l).num d AGE (AGE.RO + 4 * (n + j)) = slowPpm (c.num d AGE (AGE.RO_BASE + 4 * (n + j))) v % 2 ^ 32 := by
  have hro : AGE.RO = 0x040 ∧ AGE.RO_BASE = 0x060 := ⟨rfl, rfl⟩
  induction l generalizing c n j with
  | nil => exact absurd hv (by simp)
  | cons w l ih =>
    rw [List.length_cons] at hn
    cases j with
    | zero =>
      obtain rfl : w = v := by simpa using hv
      refine (Chip.num_putSlows_of_ne (c := c.putSlow d n w) (n := n + 1) (by omega) (by omega) fun k hk _ => by omega).trans ?_
      rw [Nat.add_zero, Chip.num, Chip.putSlow, Chip.setNum_eq, Chip.reg_setReg_same, BitVec.toNat_ofNat]
    | succ j =>
      rw [List.getElem?_cons_succ] at hv
      have hlt : j < l.length := (List.getElem?_eq_some_iff.1 hv).1
      have hnext := ih (c := c.putSlow d n w) (n := n + 1) (j := j) (by omega) hv
      rw [Nat.add_assoc, Nat.add_comm 1 j, Chip.num_putSlow_of_ne w (by omega) (by omega) (by omega)] at hnext
      exact hnext

/-- The temperatures of the sensors and the lanes' samples as a scan shows them. -/
def Chip.putSamples (c : Chip) (d what : Nat) (x : AgeSamples) : Chip :=
  let c := if what.testBit 1 then c.each (x.drifts.take 8).zipIdx fun c y =>
      c.put d AGE (AGE.TS_DRIFT + 4 * (y.2 / 4)) (8 * (y.2 % 4) + 7) (8 * (y.2 % 4)) (match y.1 with | some t => unsigned 8 t | none => 0x80)
    else c
  if what.testBit 2 then c.each (x.foms.take 24).zipIdx fun c y =>
      c.put d AGE (AGE.FOM_SAMPLE + 4 * (y.2 / 4)) (8 * (y.2 % 4) + 7) (8 * (y.2 % 4)) (if c.isReady d y.2 ∧ 3 ≤ c.lrate d y.2 then y.1 else 0)
    else c

/-- Registers below those of the sensors and the lanes. -/
theorem Chip.reg_putSamples (c : Chip) (what : Nat) (x : AgeSamples) {r : Nat} (hr : r < AGE.TS_DRIFT) :
    (c.putSamples d what x).reg d AGE r = c.reg d AGE r := by
  have hbases : AGE.TS_DRIFT = 0x080 ∧ AGE.FOM_SAMPLE = 0x090 := ⟨rfl, rfl⟩
  have hapart : ∀ o, AGE.TS_DRIFT ≤ o → o < 0x1000 → apart AGE r AGE o = true := fun o hlow hhigh =>
    apart_of_ne (by decide) (by omega) (by decide) hhigh (.inr (by omega))
  have hdrifts : ∀ c : Chip, ∀ y ∈ (x.drifts.take 8).zipIdx, ∀ v,
      (c.put d AGE (AGE.TS_DRIFT + 4 * (y.2 / 4)) (8 * (y.2 % 4) + 7) (8 * (y.2 % 4)) v).reg d AGE r = c.reg d AGE r := fun c y hy v => by
    have hk := List.snd_lt_of_mem_zipIdx hy
    rw [List.length_take] at hk
    exact c.reg_put_apart d d (hapart _ (by omega) (by omega)) _ _ v
  have hfoms : ∀ c : Chip, ∀ y ∈ (x.foms.take 24).zipIdx, ∀ v,
      (c.put d AGE (AGE.FOM_SAMPLE + 4 * (y.2 / 4)) (8 * (y.2 % 4) + 7) (8 * (y.2 % 4)) v).reg d AGE r = c.reg d AGE r := fun c y hy v => by
    have hk := List.snd_lt_of_mem_zipIdx hy
    rw [List.length_take] at hk
    exact c.reg_put_apart d d (hapart _ (by omega) (by omega)) _ _ v
  unfold Chip.putSamples
  extract_lets u
  have hu : u.reg d AGE r = c.reg d AGE r := by
    unfold u
    split
    · exact Chip.each_keeps (fun c => c.reg d AGE r) c _ fun c y hy => hdrifts c y hy _
    · rfl
  rw [← hu]
  split
  · exact Chip.each_keeps (fun c => c.reg d AGE r) u _ fun c y hy => hfoms c y hy _
  · rfl

/-- What an answer over the ring takes (R44, R146). -/
def Chip.ring (c : Chip) := (c.member, c.inReset, c.linksDown)

theorem Chip.answers_of_ring {c c' : Chip} (h : c'.ring = c.ring) (a b : Nat) : c'.answers a b = c.answers a b := by
  have hmember : c'.member = c.member := congrArg Prod.fst h
  have hreset : c'.inReset = c.inReset := congrArg (fun v => v.2.1) h
  have hdown : c'.linksDown = c.linksDown := congrArg (fun v => v.2.2) h
  unfold Chip.answers Chip.reach Chip.linkUp
  rw [hmember, hreset, hdown]

theorem Chip.ring_put (c : Chip) (d p o hi lo v : Nat) : (c.put d p o hi lo v).ring = c.ring := rfl
theorem Chip.ring_setNum (c : Chip) (d p o v : Nat) : (c.setNum d p o v).ring = c.ring := rfl
theorem Chip.ring_putSlow (c : Chip) (k v : Nat) : (c.putSlow d k v).ring = c.ring := c.ring_setNum ..
theorem Chip.ring_of_touches {c u : Chip} {p : Nat → Prop} (h : c.touches u p) : u.ring = c.ring := by rw [h.1]; rfl

theorem Chip.ring_putSamples (c : Chip) (what : Nat) (x : AgeSamples) : (c.putSamples d what x).ring = c.ring := by
  unfold Chip.putSamples
  extract_lets u
  have hu : u.ring = c.ring := by
    unfold u
    split
    · exact Chip.each_keeps Chip.ring c _ fun c y _ => c.ring_put ..
    · rfl
  rw [← hu]
  split
  · exact Chip.each_keeps Chip.ring u _ fun c y _ => c.ring_put ..
  · rfl

theorem Chip.ageResult_eq (what : Nat) (x : AgeSamples) (hwhat : what.testBit 0 = true) : c.ageResult d what x =
    (((c.putSlows d 0 (x.ratios.take 8)).putSamples d what x).setState d AGE 1).event d AGE 0 := by
  unfold Chip.ageResult
  rw [if_pos hwhat]
  rfl

theorem Chip.ageResult_spec (what : Nat) (x : AgeSamples) (hwhat : what.testBit 0 = true) : (c.ageResult d what x).ring = c.ring ∧
    (c.ageResult d what x).state d AGE = 1 ∧ ∀ k v, k < 8 → x.ratios[k]? = some v →
      (c.ageResult d what x).num d AGE (AGE.RO + 4 * k) = slowPpm (c.num d AGE (AGE.RO_BASE + 4 * k)) v % 2 ^ 32 := by
  rw [Chip.ageResult_eq what x hwhat]
  refine ⟨?_, ?_, fun k v hk hv => ?_⟩
  · rw [Chip.ring_of_touches (Chip.touches_event ..), Chip.setState, Chip.ring_put, Chip.ring_putSamples]
    exact Chip.each_keeps Chip.ring c _ fun c y _ => c.ring_putSlow y.2 y.1
  · rw [Chip.state, Chip.get_event_quiet _ d d (by decide), Chip.setState, Chip.get_put _ d AGE _ _ (by decide) (by decide)]
    rfl
  · have hbounds := pair_bounds hk
    have hbases : AGE.RO = 0x040 ∧ AGE.RO_BASE = 0x060 ∧ AGE.TS_DRIFT = 0x080 ∧ PAGE_STATUS < 0x040 := ⟨rfl, rfl, rfl, by decide⟩
    have hquiet : quiet AGE (AGE.RO + 4 * k) = true := quiet_pair k hk
    have hstatus : apart AGE (AGE.RO + 4 * k) AGE PAGE_STATUS = true :=
      apart_of_ne (by decide) (by omega) (by decide) (by decide) (.inr (by omega))
    have hslow := Chip.num_putSlows (c := c) (d := d) (l := x.ratios.take 8) (n := 0) (j := k) (v := v)
      (by rw [List.length_take]; omega) (by rw [List.getElem?_take_of_lt hk]; exact hv)
    rw [Nat.zero_add] at hslow
    rw [Chip.num, Chip.reg_event_quiet _ d d hquiet, Chip.setState, Chip.reg_put_apart _ d d hstatus,
      Chip.reg_putSamples _ what x (by omega), ← Chip.num, hslow]

end

theorem Chip.gang_single {c : Chip} {o : Nat} (h : c.gangCode o = 0) : c.gang o = [o] := by
  unfold Chip.gang
  rw [h]
  rfl

/-- The end of a scan on a single die completes the command over what the die shows. -/
theorem Chip.ageScanDone_single {c : Chip} {o : Nat} {x : AgeSamples} {r : Req} {p : List Byte} (hgang : c.gangCode o = 0)
    (hhead : (c.reqs (isAgeScan o)).head? = some r) (hr : r.cmd = .ageScan p) :
    ∃ bs, c.ageScanDone o [x] = ((c.ageResult o (fieldAt p 1 1) x).finish r OK 0 bs).tick := by
  unfold Chip.ageScanDone
  rw [hhead]
  dsimp only
  rw [hr, Chip.gang_single hgang]
  exact ⟨_, rfl⟩

theorem ageScanEnds {s : State} {o : Nat} {x : AgeSamples} {r : Req} {p : List Byte} (hformed : s.chip.formed o = true)
    (hgang : s.chip.gangCode o = 0) (hhead : (s.chip.reqs (isAgeScan o)).head? = some r) (hr : r.cmd = .ageScan p)
    (hwhat : (fieldAt p 1 1).testBit 0 = true) (hanswers : s.chip.answers (portDie r.port) r.die = true) :
    ∃ t, exec (.ageScanDone o [x]) s = .next t ∧ t.mem = s.mem ∧ (∀ q ∈ t.chip.inflight, q.id ≠ r.id) ∧ t.chip.state o AGE = 1 ∧
      ∀ k v, k < 8 → x.ratios[k]? = some v →
        t.chip.num o AGE (AGE.RO + 4 * k) = slowPpm (s.chip.num o AGE (AGE.RO_BASE + 4 * k)) v % 2 ^ 32 := by
  have ho : o < dieCount s.chip.member := by
    simp only [Chip.formed, Bool.and_eq_true, decide_eq_true_eq] at hformed
    exact hformed.1
  obtain ⟨bs, hdone⟩ := Chip.ageScanDone_single (x := x) hgang hhead hr
  obtain ⟨hring, hstate, hslow⟩ := Chip.ageResult_spec (c := s.chip) (d := o) (fieldAt p 1 1) x hwhat
  refine ⟨s.up fun c => c.ageScanDone o [x], (if_pos ho).trans (congrArg Host.Outcome.next (if_pos hformed)), State.up_mem .., ?_⟩
  rw [State.up_chip, hdone]
  rw [← Chip.answers_of_ring hring] at hanswers
  generalize s.chip.ageResult o (fieldAt p 1 1) x = u at *
  refine ⟨fun q hq => ?_, ?_, fun k v hk hv => ?_⟩
  · rw [Chip.tick_inflight, Chip.finish_of_answers _ _ _ _ _ hanswers, Chip.inflight_reply] at hq
    exact of_decide_eq_true (List.mem_filter.1 hq).2
  · rw [Chip.state_congr (Chip.reg_tick ..), Chip.state_congr (Chip.reg_finish ..), hstate]
  · rw [Chip.num, Chip.reg_tick, Chip.reg_finish, ← Chip.num, hslow k v hk hv]

theorem ageScans : Claim.AgeScans :=
  ⟨ageScanStarts, fun _ _ _ _ _ hformed hgang hhead hr hwhat hanswers => ageScanEnds hformed hgang hhead hr hwhat hanswers⟩

/-! ### MARGIN_SCAN starts (R411) -/

/-- A scan with something left to scan goes on. -/
theorem Chip.marginNote_of_todo {c : Chip} {o : Nat} {m : MarginRun} (hscan : (c.out o).scan = some m) (htodo : m.todo ≠ []) :
    c.marginNote o = c := by
  unfold Chip.marginNote
  split
  · next hm hr =>
    obtain rfl : m = _ := Option.some.inj (hscan.symm.trans hm)
    exact if_pos htodo
  · rfl

/-- AGE shows a scan on every die of a list. -/
def Chip.ageBusy (c : Chip) (l : List Nat) : Chip := c.each l fun c d => c.setState d AGE 2

/-- The channels that a scan names. -/
def Chip.scanChannels (c : Chip) (o : Nat) (p : List Byte) : List (Nat × Nat) :=
  (c.gang o).flatMap fun d => (maskChannels (fieldAt p 2 1)).map fun ch => (d, ch)

theorem Chip.mem_scanChannels {c : Chip} {o d ch : Nat} {p : List Byte} :
    (d, ch) ∈ c.scanChannels o p ↔ d ∈ c.gang o ∧ ch ∈ maskChannels (fieldAt p 2 1) := by
  simp [Chip.scanChannels]

theorem lt_of_mem_maskChannels {m ch : Nat} (h : ch ∈ maskChannels m) : ch < 2 := List.mem_range.1 (List.mem_filter.1 h).1

section
variable {c : Chip} {o d ch : Nat} {p : List Byte}

theorem Chip.mget_ageBusy (l : List Nat) (hch : ch < 2) {r : Nat} (hr : r < 0x1000) (hi lo : Nat) :
    (c.ageBusy l).mget d ch r hi lo = c.mget d ch r hi lo := by
  obtain ⟨hpage, -, -, -, -, -, hage, -⟩ := memc_pages hch
  refine Chip.get_congr (Chip.each_keeps (fun c => c.reg d (memcPage ch) r) c l fun c e _ => ?_) hi lo
  exact c.reg_put_apart e d (apart_of_ne hpage hr (by decide) (by decide) (.inl hage)) _ _ 2

theorem Chip.goodRanks_ageBusy (l : List Nat) (hch : ch < 2) : (c.ageBusy l).goodRanks d ch = c.goodRanks d ch := by
  unfold Chip.goodRanks
  simp only [Chip.mget_ageBusy l hch (show MEMC.CFG < 0x1000 by decide), Chip.mget_ageBusy l hch (show MEMC.STATUS < 0x1000 by decide)]

theorem Chip.migrating_ageBusy (l : List Nat) (hch : ch < 2) : (c.ageBusy l).migrating d ch = c.migrating d ch := by
  unfold Chip.migrating
  rw [Chip.mget_ageBusy l hch (by decide)]

/-- No scan is in progress, and every named channel is READY. -/
def Chip.scanFree (c : Chip) (o : Nat) (p : List Byte) : Prop :=
  (c.out o).scan = none ∧ ∀ d ∈ c.gang o, ∀ ch ∈ maskChannels (fieldAt p 2 1), c.serving d ch = true

theorem Chip.not_busy_of_scanFree (h : c.scanFree o p) :
    ¬((c.out o).scan.isSome = true ∨ (c.scanChannels o p).any (fun x => !c.serving x.1 x.2) = true) := by
  obtain ⟨hscan, hserving⟩ := h
  rintro (hsome | hany)
  · rw [hscan] at hsome
    exact absurd hsome (by decide)
  · obtain ⟨x, hx, hdown⟩ := List.any_eq_true.1 hany
    obtain ⟨hd, hch⟩ := Chip.mem_scanChannels.1 (show (x.1, x.2) ∈ c.scanChannels o p from hx)
    rw [hserving _ hd _ hch] at hdown
    exact absurd hdown (by decide)

/-- A scan is in progress on an output with nothing else changed (R411). -/
def Chip.withScan (c : Chip) (o : Nat) (m : MarginRun) : Chip := c.setOut o { c.out o with scan := some m }

theorem Chip.scan_withScan (m : MarginRun) : ((c.withScan o m).out o).scan = some m := by
  rw [Chip.withScan, Chip.out_setOut, if_pos rfl]

/-- The windows of a rank are to be scanned. -/
theorem Chip.marginScan_windows {r : Req} (hfree : c.scanFree o p) (hkind : fieldAt p 1 1 = 0) (hd : d ∈ c.gang o)
    (hch : ch ∈ maskChannels (fieldAt p 2 1)) (hcfg : c.mget d ch MEMC.CFG 9 8 = 3)
    (hrank : ∃ k ∈ c.goodRanks d ch, (fieldAt p 3 1).testBit k = true) :
    ∃ m, c.marginScan r o p = (c.ageBusy (c.gang o)).withScan o m := by
  have hch2 := lt_of_mem_maskChannels hch
  obtain ⟨k, hk, hmask⟩ := hrank
  unfold Chip.marginScan
  extract_lets chs all u x undo able todo
  have hidle : ¬((c.out o).scan.isSome = true ∨ (all.any fun x => !c.serving x.1 x.2) = true) := Chip.not_busy_of_scanFree hfree
  rw [if_neg hidle, if_pos hkind]
  have htodo : todo ≠ [] := by
    refine List.ne_nil_of_mem (a := scanKey d ch k) (List.mem_flatMap.2 ⟨(d, ch), List.mem_filter.2 ⟨Chip.mem_scanChannels.2 ⟨hd, hch⟩, ?_⟩,
      List.mem_map.2 ⟨k, List.mem_filter.2 ⟨?_, hmask⟩, rfl⟩⟩)
    · exact decide_eq_true ((Chip.mget_ageBusy (c.gang o) hch2 (by decide) 9 8).trans hcfg)
    · exact (Chip.goodRanks_ageBusy (c.gang o) hch2).symm ▸ hk
  exact ⟨_, Chip.marginNote_of_todo (Chip.scan_withScan (c := c.ageBusy (c.gang o)) _) htodo⟩

/-- RETENTION shows the codes of a list of channels. -/
def Chip.putCodes (c : Chip) (l : List (Nat × Nat)) (codes : KMap Nat) : Chip :=
  c.each l fun c x => c.put x.1 AGE AGE.RETENTION (2 * x.2 + 1) (2 * x.2) (KMap.getD codes (scanKey x.1 x.2 0) 0)

/-- The spares of a list of channels are held (R414). -/
def Chip.holdAll (c : Chip) (l : List (Nat × Nat)) : Chip := c.each l fun c x => c.setChan x.1 x.2 { c.chan x.1 x.2 with holding := true }

theorem Chip.outs_holdAll (l : List (Nat × Nat)) : (c.holdAll l).outs = c.outs := Chip.each_keeps Chip.outs c l fun _ _ _ => rfl
theorem Chip.outs_putCodes (l : List (Nat × Nat)) (codes : KMap Nat) : (c.putCodes l codes).outs = c.outs :=
  Chip.each_keeps Chip.outs c l fun _ _ _ => rfl

theorem Chip.holding_holdAll {l : List (Nat × Nat)} (h : (d, ch) ∈ l) : ((c.holdAll l).chan d ch).holding = true := by
  refine Chip.each_reaches (P := fun c => (c.chan d ch).holding = true) c h (fun c => ?_) fun c y _ h => ?_
  · rw [Chip.chan_setChan, if_pos rfl]
  · rw [Chip.chan_setChan]
    split
    · rfl
    · exact h

/-- The spare of a channel is held. -/
theorem Chip.marginScan_spares {r : Req} (hfree : c.scanFree o p) (hkind : fieldAt p 1 1 = 1) (hd : d ∈ c.gang o)
    (hch : ch ∈ maskChannels (fieldAt p 2 1)) (hspare : c.mget d ch MEMC.STATUS 31 30 = 1) (hmig : c.migrating d ch = false) :
    ∃ l codes x, (d, ch) ∈ l ∧ x.scan.isSome = true ∧
      c.marginScan r o p = (((c.ageBusy (c.gang o)).putCodes (c.scanChannels o p) codes).holdAll l).setOut o x := by
  have hch2 := lt_of_mem_maskChannels hch
  unfold Chip.marginScan
  extract_lets chs all u x undo able todo free run codes u₁ u₂
  have hidle : ¬((c.out o).scan.isSome = true ∨ (all.any fun x => !c.serving x.1 x.2) = true) := Chip.not_busy_of_scanFree hfree
  rw [if_neg hidle, if_neg (by rw [hkind]; decide)]
  have hrun : (d, ch) ∈ run := by
    refine List.mem_filter.2 ⟨Chip.mem_scanChannels.2 ⟨hd, hch⟩, Bool.and_eq_true_iff.2 ⟨decide_eq_true ?_, ?_⟩⟩
    · exact (Chip.mget_ageBusy (c.gang o) hch2 (by decide) 31 30).trans hspare
    · have hfree : (c.ageBusy (c.gang o)).migrating d ch = false := (Chip.migrating_ageBusy (c.gang o) hch2).trans hmig
      exact congrArg Bool.not hfree
  have htodo : (run.map fun x => scanKey x.1 x.2 0) ≠ [] := List.ne_nil_of_mem (List.mem_map_of_mem hrun)
  exact ⟨run, codes, { x with scan := some { todo := run.map fun x => scanKey x.1 x.2 0, codes := codes, undo := undo } }, hrun, rfl,
    Chip.marginNote_of_todo (congrArg OutSt.scan ((Chip.out_setOut _ o _ o).trans (if_pos rfl))) htodo⟩

end

section
variable {s : State} {h : Hdr} {p : List Byte} {d ch : Nat}

theorem scanFree_of_admits (ha : s.chip.admits h (.marginScan p)) (hscan : (s.chip.out h.die).scan = none)
    (hserving : ∀ d ∈ s.chip.gang h.die, ∀ ch ∈ maskChannels (fieldAt p 2 1), s.chip.serving d ch = true) :
    s.chip.scanFree (fieldAt p 0 1) p := by
  rw [output_of_admits ha rfl] at hscan hserving
  exact ⟨hscan, hserving⟩

theorem exec_marginScan (ha : s.chip.admits h (.marginScan p)) : ∃ t, exec (.marginScan h p) s = .next t ∧ t.mem = s.mem ∧
    t.chip = (s.starts h (.marginScan p)).chip.marginScan (s.req h (.marginScan p)) (fieldAt p 0 1) p :=
  ⟨(s.starts h (.marginScan p)).up fun c => c.marginScan (s.req h (.marginScan p)) (fieldAt p 0 1) p, exec_admitted rfl ha,
    (State.up_mem ..).trans (State.up_mem ..), State.up_chip ..⟩

theorem windowScanStarts (ha : s.chip.admits h (.marginScan p)) (hfree : s.chip.scanFree (fieldAt p 0 1) p) (hd : d ∈ s.chip.gang h.die)
    (hch : ch ∈ maskChannels (fieldAt p 2 1)) (hkind : fieldAt p 1 1 = 0) (hcfg : s.chip.mget d ch MEMC.CFG 9 8 = 3)
    (hrank : ∃ k ∈ s.chip.goodRanks d ch, (fieldAt p 3 1).testBit k = true) :
    ∃ t, exec (.marginScan h p) s = .next t ∧ t.mem = s.mem ∧ (t.chip.out h.die).scan.isSome = true ∧ t.chip.state d AGE = 2 := by
  have ho : h.die = fieldAt p 0 1 := output_of_admits ha rfl
  obtain ⟨t, hexec, hmem, hchip⟩ := exec_marginScan ha
  refine ⟨t, hexec, hmem, ?_⟩
  rw [ho] at hd ⊢
  generalize s.req h (.marginScan p) = r at hchip
  have hfree : (s.starts h (.marginScan p)).chip.scanFree (fieldAt p 0 1) p := hfree
  have hd : d ∈ (s.starts h (.marginScan p)).chip.gang (fieldAt p 0 1) := hd
  have hcfg : (s.starts h (.marginScan p)).chip.mget d ch MEMC.CFG 9 8 = 3 := hcfg
  have hrank : ∃ k ∈ (s.starts h (.marginScan p)).chip.goodRanks d ch, (fieldAt p 3 1).testBit k = true := hrank
  obtain ⟨m, hm⟩ := Chip.marginScan_windows (r := r) hfree hkind hd hch hcfg hrank
  rw [hchip, hm]
  generalize (s.starts h (.marginScan p)).chip = c at hd
  refine ⟨?_, ?_⟩
  · rw [Chip.scan_withScan]
    rfl
  · exact (Chip.state_congr (Chip.reg_setOut ..)).trans (c.state_each_setState (by decide) (by decide) hd)

theorem retentionScanStarts (ha : s.chip.admits h (.marginScan p)) (hfree : s.chip.scanFree (fieldAt p 0 1) p) (hd : d ∈ s.chip.gang h.die)
    (hch : ch ∈ maskChannels (fieldAt p 2 1)) (hkind : fieldAt p 1 1 = 1) (hspare : s.chip.mget d ch MEMC.STATUS 31 30 = 1)
    (hmig : s.chip.migrating d ch = false) :
    ∃ t, exec (.marginScan h p) s = .next t ∧ t.mem = s.mem ∧ (t.chip.out h.die).scan.isSome = true ∧ (t.chip.chan d ch).holding = true := by
  have ho : h.die = fieldAt p 0 1 := output_of_admits ha rfl
  obtain ⟨t, hexec, hmem, hchip⟩ := exec_marginScan ha
  refine ⟨t, hexec, hmem, ?_⟩
  rw [ho] at hd ⊢
  generalize s.req h (.marginScan p) = r at hchip
  have hfree : (s.starts h (.marginScan p)).chip.scanFree (fieldAt p 0 1) p := hfree
  have hd : d ∈ (s.starts h (.marginScan p)).chip.gang (fieldAt p 0 1) := hd
  have hspare : (s.starts h (.marginScan p)).chip.mget d ch MEMC.STATUS 31 30 = 1 := hspare
  have hmig : (s.starts h (.marginScan p)).chip.migrating d ch = false := hmig
  obtain ⟨l, codes, x, hl, hx, hm⟩ := Chip.marginScan_spares (r := r) hfree hkind hd hch hspare hmig
  rw [hchip, hm]
  generalize (Chip.putCodes ..) = c
  refine ⟨?_, ?_⟩
  · rw [Chip.out_setOut, if_pos rfl, hx]
  · exact Chip.holding_holdAll hl

end

/-! ### A rank's narrowest window, and the end of a hold (R412 to R414) -/

theorem narrowest_le (l : List LaneWindow) : narrowest l ≤ 0xFE := by
  have hle : ∀ n, l.foldl (fun n w => min n (min (windowWidth w.read) (windowWidth w.write))) n ≤ n := by
    induction l with
    | nil => exact fun n => le_rfl
    | cons w l ih => exact fun n => (ih _).trans (min_le_left ..)
  exact hle 0xFE

theorem apart_scanRegs : ∀ ch < 2, apart AGE (AGE.DQ_WIN + 4 * ch) AGE PAGE_STATUS = true := by decide

theorem State.rankScanDone_wide {s : State} {d ch rank : Nat} {l : List LaneWindow}
    (htodo : (s.chip.out (s.chip.leadOf d)).scan.any (fun m => m.todo.contains (scanKey d ch rank)) = true)
    (hhold : (s.chip.chan d ch).holding = false) (hwide : 4 ≤ narrowest l) :
    ∃ x : Chip → OutSt, s.rankScanDone d ch rank l =
      (s.up fun c => (c.setOut (c.leadOf d) (x c)).put d AGE (AGE.DQ_WIN + 4 * ch) (8 * rank + 7) (8 * rank) (narrowest l)).up
        fun c => c.marginNote (c.leadOf d) := by
  have hnot : ¬narrowest l < 4 := Nat.not_lt.2 hwide
  unfold State.rankScanDone
  extract_lets key n got t u
  rw [if_pos ⟨htodo, by rw [hhold]; rfl⟩]
  unfold u t n
  rw [if_neg hnot, decide_eq_false hnot]
  exact ⟨_, rfl⟩

theorem rankWindowKept {s : State} {d ch rank : Nat} {l : List LaneWindow} (hc : isChannel s d ch) (hrank : rank < 3)
    (htodo : (s.chip.out (s.chip.leadOf d)).scan.any (fun m => m.todo.contains (scanKey d ch rank)) = true)
    (hhold : (s.chip.chan d ch).holding = false) (hwide : 4 ≤ narrowest l) :
    ∃ t, exec (.rankScanDone d ch rank l) s = .next t ∧ t.mem = s.mem ∧
      t.chip.get d AGE (AGE.DQ_WIN + 4 * ch) (8 * rank + 7) (8 * rank) = narrowest l := by
  obtain ⟨x, hdone⟩ := State.rankScanDone_wide htodo hhold hwide
  refine ⟨s.rankScanDone d ch rank l, if_pos hc, ?_⟩
  rw [hdone]
  refine ⟨(State.up_mem ..).trans (State.up_mem ..), ?_⟩
  rw [State.up_chip, State.up_chip, Chip.get_congr (Chip.reg_marginNote _ d _ (apart_scanRegs ch hc.2)),
    Chip.get_put _ d AGE _ _ (by omega) (by omega), show 8 * rank + 7 + 1 - 8 * rank = 8 by omega]
  exact Nat.mod_eq_of_lt (Nat.lt_succ_of_le ((narrowest_le l).trans (by decide)))

section
variable (c : Chip)

theorem Chip.chans_finish (r : Req) (st dt : Nat) (bs : List Byte) : (c.finish r st dt bs).chans = c.chans := by
  rw [c.finish_eq r st dt bs]

theorem Chip.chans_of_touches {c u : Chip} {p : Nat → Prop} (h : c.touches u p) : u.chans = c.chans := by rw [h.1]

theorem Chip.chans_marginNote (o : Nat) : (c.marginNote o).chans = c.chans := by
  have hidle : ∀ (c : Chip) l, (c.each l fun c d => c.setState d AGE 1).chans = c.chans := fun c l =>
    each_keeps Chip.chans c l fun _ _ _ => rfl
  unfold Chip.marginNote
  split
  · split
    · rfl
    · extract_lets p x c' named good
      have hchans : c'.chans = c.chans := (hidle ..).trans rfl
      clear_value p c' good
      split <;> rw [Chip.chans_finish, hchans]
  · rfl

theorem Chip.chan_congr {c c' : Chip} (h : c'.chans = c.chans) (d ch : Nat) : c'.chan d ch = c.chan d ch := by unfold Chip.chan; rw [h]

theorem Chip.holding_retentionResult (d ch code : Nat) : ((c.retentionResult d ch code).chan d ch).holding = false := by
  have hchans : (c.retentionResult d ch code).chans = (c.setChan d ch { c.chan d ch with holding := false }).chans :=
    (Chip.chans_marginNote ..).trans rfl
  rw [Chip.chan_congr hchans, Chip.chan_setChan, if_pos rfl]

theorem Chip.retention_retentionResult (d : Nat) {ch code : Nat} (hch : ch < 2) (hcode : code < 4) :
    (c.retentionResult d ch code).get d AGE AGE.RETENTION (2 * ch + 1) (2 * ch) = code := by
  unfold Chip.retentionResult
  rw [Chip.get_congr (Chip.reg_setScan _ d d _ (by decide)), Chip.get_put _ d AGE _ _ (by omega) (by omega),
    show 2 * ch + 1 + 1 - 2 * ch = 2 by omega]
  exact Nat.mod_eq_of_lt hcode

end

theorem holdEnds {s : State} {d ch : Nat} (pass : Bool) (hc : isChannel s d ch) (hhold : (s.chip.chan d ch).holding = true) :
    ∃ t, exec (.retentionHoldEnd d ch pass) s = .next t ∧ t.mem = s.mem ∧ (t.chip.chan d ch).holding = false ∧
      t.chip.get d AGE AGE.RETENTION (2 * ch + 1) (2 * ch) = if pass then 1 else 2 := by
  have hcode : (if pass then 1 else 2) < 4 := by cases pass <;> decide
  refine ⟨s.up fun c => if (c.chan d ch).holding then (c.retentionResult d ch (if pass then 1 else 2)).eventIf (!pass) d AGE 2 else c,
    if_pos hc, State.up_mem .., ?_⟩
  rw [State.up_chip, if_pos hhold]
  have hholding := s.chip.holding_retentionResult d ch (if pass then 1 else 2)
  have hretention := s.chip.retention_retentionResult d hc.2 hcode
  generalize s.chip.retentionResult d ch (if pass then 1 else 2) = u at *
  refine ⟨?_, ?_⟩
  · rw [Chip.chan_congr (Chip.chans_of_touches (u.touches_eventIf ..)), hholding]
  · rw [Chip.get_congr (Chip.reg_eventIf_quiet _ d d (by decide) ..), hretention]

theorem marginScans : Claim.MarginScans := by
  refine ⟨fun s h p ha hscan hserving d hd ch hch => ?_, fun s d ch rank l hc hrank htodo hhold hwide => rankWindowKept hc hrank htodo hhold hwide,
    fun s d ch pass hc hhold => holdEnds pass hc hhold⟩
  have hfree := scanFree_of_admits ha hscan hserving
  exact ⟨windowScanStarts ha hfree hd hch, retentionScanStarts ha hfree hd hch⟩

/-- Settles O47: a command starts its run on every die of the gang and stays in flight, and the end of a run shows its result. -/
theorem calibrationAgeingMargins : Obligations.CalibrationAgeingMargins :=
  ⟨calRuns, ageScans, marginScans⟩

end Sys2Proof.Machine
end

section
/-! PROOFS. Refresh, scheduling and power states of a channel (O31; R360 to R366). -/

namespace Sys2Proof.Machine

/-! ### Fields of a MEMC page and the state of a channel -/

section
variable (c : Chip) (d ch : Nat) {r : Nat}

theorem Chip.chan_mput (o hi lo v : Nat) : (c.mput d ch o hi lo v).chan d ch = c.chan d ch := rfl
theorem Chip.chan_mcount (o : Nat) : (c.mcount d ch o).chan d ch = c.chan d ch := rfl
theorem Chip.chan_setReg (e p o : Nat) (w : Word) : (c.setReg e p o w).chan d ch = c.chan d ch := rfl
theorem Chip.chan_tick : c.tick.chan d ch = c.chan d ch := rfl
theorem Chip.chan_mevent (b : Nat) : (c.mevent d ch b).chan d ch = c.chan d ch :=
  Chip.chan_congr (Chip.chans_of_touches (c.touches_event d (memcPage ch) b)) d ch
theorem Chip.chan_setChan_same (x : ChanSt) : (c.setChan d ch x).chan d ch = x := by rw [Chip.chan_setChan, if_pos rfl]
theorem Chip.mget_setChan (x : ChanSt) (o hi lo : Nat) : (c.setChan d ch x).mget d ch o hi lo = c.mget d ch o hi lo := rfl

variable {ch}

theorem Chip.mget_mput_beside (o : Nat) {hi lo hi' lo' : Nat} (v : Nat) (hlo : lo ≤ hi) (hhi : hi' < 32) (h : hi' < lo ∨ hi < lo') :
    (c.mput d ch o hi lo v).mget d ch o hi' lo' = c.mget d ch o hi' lo' := c.get_put_beside d (memcPage ch) o v d (memcPage ch) o hlo hhi h

theorem Chip.reg_mput_apart (hch : ch < 2) {q o : Nat} (hq : q < 0x1000) (hr : r < 0x1000) (ho : o < 0x1000) (hne : q ≠ memcPage ch ∨ r ≠ o)
    (hi lo v : Nat) : (c.mput d ch o hi lo v).reg d q r = c.reg d q r :=
  c.reg_put_apart d d (apart_of_ne hq hr (memc_pages hch).1 ho hne) hi lo v

end

theorem quiet_forced : ∀ ch < 2, quiet (memcPage ch) MEMC.REF_FORCED_COUNT = true := by decide
theorem quiet_status : ∀ ch < 2, quiet (memcPage ch) MEMC.STATUS = true := by decide
theorem scan_ne_memcPage : ∀ ch < 2, SCAN ≠ memcPage ch := by decide

/-! ### The pending count of a rank (R364) -/

theorem signed_unsigned_pending {v : Int} (hlow : -8 ≤ v) (hhigh : v ≤ 7) : signed 4 (unsigned 4 v % 2 ^ 4) = v := by
  unfold signed unsigned
  split <;> omega

theorem signed_pending_bounds {n : Nat} (h : n < 16) : -8 ≤ signed 4 n ∧ signed 4 n ≤ 7 := by
  unfold signed
  split <;> omega

section
variable {c : Chip} {d ch r : Nat}

theorem Chip.pendingRef_setPendingRef (c : Chip) (d ch : Nat) {v : Int} (hr : r < 3) (hlow : -8 ≤ v) (hhigh : v ≤ 7) :
    (c.setPendingRef d ch r v).pendingRef d ch r = v := by
  unfold Chip.pendingRef Chip.setPendingRef Chip.mput Chip.mget
  rw [Chip.get_put _ _ _ _ _ (by omega) (by omega), show 4 * r + 3 + 1 - 4 * r = 4 by omega, signed_unsigned_pending hlow hhigh]

theorem Chip.pendingRef_bounds (c : Chip) (d ch r : Nat) : -8 ≤ c.pendingRef d ch r ∧ c.pendingRef d ch r ≤ 7 := by
  refine signed_pending_bounds ?_
  unfold Chip.mget Chip.get bits
  rw [show 4 * r + 3 + 1 - 4 * r = 4 by omega]
  exact Nat.mod_lt _ (by decide)

/-- The rank is a logical rank or the spare. -/
theorem Chip.lt_of_mem_refreshRanks (h : r ∈ c.refreshRanks d ch) : r < 3 := by
  have hcfg : c.mget d ch MEMC.CFG 5 4 < 4 := Nat.mod_lt _ (by decide)
  unfold Chip.refreshRanks at h
  rw [List.mem_append, List.mem_range] at h
  rcases h with h | h
  · omega
  · split at h
    · rw [List.mem_singleton] at h
      omega
    · exact absurd h List.not_mem_nil

/-- The count of a rank does not touch the rest of the page. -/
theorem Chip.mget_setPendingRef (c : Chip) (d : Nat) (hch : ch < 2) (hr : r < 3) (v : Int) {o hi lo : Nat} (ho : o < 0x1000) (hhi : hi < 32)
    (h : o = MEMC.STATUS → 12 ≤ lo) : (c.setPendingRef d ch r v).mget d ch o hi lo = c.mget d ch o hi lo := by
  by_cases hstatus : o = MEMC.STATUS
  · subst hstatus
    have hlo := h rfl
    exact c.mget_mput_beside d MEMC.STATUS _ (by omega) hhi (.inr (by omega))
  · exact Chip.get_congr (c.reg_mput_apart d hch (memc_pages hch).1 ho (by decide) (.inr hstatus) _ _ _) hi lo

theorem Chip.pendingRef_congr {c c' : Chip} (h : c'.reg d (memcPage ch) MEMC.STATUS = c.reg d (memcPage ch) MEMC.STATUS) (r : Nat) :
    c'.pendingRef d ch r = c.pendingRef d ch r := congrArg (signed 4) (Chip.get_congr h _ _)

theorem Chip.pendingRef_mcount (c : Chip) (d : Nat) (hch : ch < 2) {o : Nat} (ho : o < 0x1000) (hne : MEMC.STATUS ≠ o) :
    (c.mcount d ch o).pendingRef d ch r = c.pendingRef d ch r :=
  Chip.pendingRef_congr
    (c.reg_setNum_apart d d (apart_of_ne (memc_pages hch).1 (by decide) (memc_pages hch).1 ho (.inr hne)) _) r

/-- Whether a refresh may go out follows the queue of a channel and how far a migration has come. -/
theorem Chip.refreshAllowed_setChan (c : Chip) (d ch : Nat) {x : ChanSt} (hqueue : x.queue = (c.chan d ch).queue)
    (hunits : x.units = (c.chan d ch).units) (k : Nat) : (c.setChan d ch x).refreshAllowed d ch k = c.refreshAllowed d ch k := by
  have hranks : (c.setChan d ch x).reqRanks d ch = c.reqRanks d ch := by
    funext q
    unfold Chip.reqRanks
    rw [Chip.chan_setChan_same, hunits]
    rfl
  unfold Chip.refreshAllowed Chip.addresses
  rw [Chip.chan_setChan_same, hqueue, hranks]
  rfl

/-- Whether a refresh may go out follows the queue and the configuration, and no count of pending refreshes. -/
theorem Chip.refreshAllowed_setPendingRef (c : Chip) (d : Nat) (hch : ch < 2) (hr : r < 3) (v : Int) (k : Nat) :
    (c.setPendingRef d ch r v).refreshAllowed d ch k = c.refreshAllowed d ch k := by
  have hget : ∀ {o hi lo}, o < 0x1000 → hi < 32 → (o = MEMC.STATUS → 12 ≤ lo) →
      (c.setPendingRef d ch r v).mget d ch o hi lo = c.mget d ch o hi lo := fun ho hhi h => c.mget_setPendingRef d hch hr v ho hhi h
  have hchan : (c.setPendingRef d ch r v).chan d ch = c.chan d ch := c.chan_mput ..
  have hranks : (c.setPendingRef d ch r v).reqRanks d ch = c.reqRanks d ch := by
    funext q
    unfold Chip.reqRanks Chip.reqPlace Chip.physRank Chip.migrating
    rw [hchan, hget (o := MEMC.CFG) (by decide) (by decide) (by decide), hget (o := MEMC.MIGRATE) (by decide) (by decide) (by decide),
      hget (o := MEMC.MIGRATE) (by decide) (by decide) (by decide), hget (o := MEMC.STATUS) (by decide) (by decide) (by decide)]
  have htrfc : (c.setPendingRef d ch r v).trfc d ch = c.trfc d ch := by
    unfold Chip.trfc
    rw [hget (o := MEMC.CFG) (by decide) (by decide) (by decide)]
    split <;> exact hget (by decide) (by decide) (by decide)
  have htol : (c.setPendingRef d ch r v).tol d = c.tol d :=
    Chip.get_congr (c.reg_mput_apart d hch (by decide) (by decide) (by decide) (.inl (scan_ne_memcPage ch hch)) _ _ _) 23 0
  unfold Chip.refreshAllowed Chip.addresses Chip.reqPlace
  rw [hchan, hranks, htrfc, htol, hget (o := MEMC.CFG) (by decide) (by decide) (by decide),
    hget (o := MEMC.REFRESH) (by decide) (by decide) (by decide)]

end

/-! ### A refresh command (R361, R364, R371) -/

/-- Which port was served last, and what waits in the queue of a channel. -/
def ChanSt.line (x : ChanSt) : Nat × List QueuedReq := (x.turn, x.queue)
def Chip.line (c : Chip) (d ch : Nat) : Nat × List QueuedReq := (c.chan d ch).line

section
variable (c : Chip) (d ch : Nat)

theorem Chip.line_of_chan {c c' : Chip} {d ch : Nat} (h : c'.chan d ch = c.chan d ch) : c'.line d ch = c.line d ch := by
  unfold Chip.line
  rw [h]

theorem Chip.line_setChan (x : ChanSt) : (c.setChan d ch x).line d ch = x.line := by
  unfold Chip.line
  rw [Chip.chan_setChan_same]

theorem Chip.line_tick : c.tick.line d ch = c.line d ch := Chip.line_of_chan (c.chan_tick d ch)
theorem Chip.line_mcount (o : Nat) : (c.mcount d ch o).line d ch = c.line d ch := Chip.line_of_chan (c.chan_mcount d ch o)
theorem Chip.line_mevent (b : Nat) : (c.mevent d ch b).line d ch = c.line d ch := Chip.line_of_chan (c.chan_mevent d ch b)

/-- A committed delay of a rank takes effect at its refresh (R371). -/
def Chip.refabDelays (c : Chip) (d ch ph : Nat) : Chip :=
  let t := c.mget d ch MEMC.CFG 0 0
  let p := memphyPage ch
  let mine := fun (o : Nat) => decide (MEMPHY.LANE_DLY + 0x80 * t + 0x20 * ph ≤ o) && decide (o < MEMPHY.LANE_DLY + 0x80 * t + 0x20 * ph + 0x20)
  let c := c.each ((c.stagedOf d p).filter (fun kv => mine kv.1)) fun c kv => c.setReg d p kv.1 kv.2
  let c : Chip := { c with staged := c.staged.filter (fun kv => !(decide (kv.1 / 0x1000 = d * 0x1000 + p) && mine (kv.1 % 0x1000))) }
  if (c.chan d ch).delays = [] then
    let y := c.chan d ch
    ((c.applyStaged d p).clearCommit d p).setChan d ch { y with phyOk := true }
  else c

/-- The rows of a rank close, and its committed delays no longer wait. -/
def Chip.closeRank (c : Chip) (d ch ph : Nat) : Chip :=
  c.setChan d ch { c.chan d ch with
    banks := (c.chan d ch).banks.map (fun kv => if kv.1 / 32 = ph then (kv.1, { kv.2 with row := none }) else kv)
    delays := (c.chan d ch).delays.filter (fun k => k ≠ ph) }

theorem Chip.refab_eq (r : Nat) : c.refab d ch r =
    let u := c.setPendingRef d ch r (c.pendingRef d ch r - 1)
    let v := u.closeRank d ch (u.physRank d ch r)
    if (u.chan d ch).delays.contains (u.physRank d ch r) then v.refabDelays d ch (u.physRank d ch r) else v := rfl

theorem Chip.line_refabDelays (ph : Nat) : (c.refabDelays d ch ph).line d ch = c.line d ch := by
  unfold Chip.refabDelays
  extract_lets t p mine u v y
  have hu : u.chan d ch = c.chan d ch := Chip.each_keeps (fun c => c.chan d ch) c _ fun c kv _ => c.chan_setReg d ch d p kv.1 kv.2
  have hv : v.chan d ch = c.chan d ch := hu
  split
  · rw [Chip.line_setChan]
    unfold y
    rw [hv]
    rfl
  · exact Chip.line_of_chan hv

theorem Chip.line_refab (r : Nat) : (c.refab d ch r).line d ch = c.line d ch := by
  rw [Chip.refab_eq]
  extract_lets u v
  have hv : v.line d ch = c.line d ch := Chip.line_setChan ..
  split
  · rw [Chip.line_refabDelays, hv]
  · exact hv

variable {ch}

/-- The delays that take effect are registers of MEMPHY. -/
theorem Chip.reg_refabDelays (hch : ch < 2) (ph : Nat) {o : Nat} (ho : o < 0x1000) :
    (c.refabDelays d ch ph).reg d (memcPage ch) o = c.reg d (memcPage ch) o := by
  obtain ⟨hmemc, hphy, -, -, -, -, -, hne, -⟩ := memc_pages hch
  have hset : ∀ (c : Chip) (k : Nat), k < 0x1000 → ∀ w, (c.setReg d (memphyPage ch) k w).reg d (memcPage ch) o = c.reg d (memcPage ch) o :=
    fun c k hk w => c.reg_setReg_apart d d (apart_of_ne hmemc ho hphy hk (.inl hne.symm)) w
  have hoffset : ∀ (c : Chip), ∀ kv ∈ c.stagedOf d (memphyPage ch), kv.1 < 0x1000 := fun c kv hkv => by
    obtain ⟨x, -, rfl⟩ := List.mem_map.1 hkv
    exact Nat.mod_lt _ (by decide)
  have hstaged : ∀ c : Chip, (c.applyStaged d (memphyPage ch)).reg d (memcPage ch) o = c.reg d (memcPage ch) o := fun c =>
    Chip.each_keeps (fun c => c.reg d (memcPage ch) o) c (c.stagedOf d (memphyPage ch)) (f := fun c kv => c.applyOne d (memphyPage ch) kv.1 kv.2)
      fun u kv hkv => hset u kv.1 (hoffset c kv hkv) _
  unfold Chip.refabDelays
  extract_lets t p mine u v y
  have hu : u.reg d (memcPage ch) o = c.reg d (memcPage ch) o :=
    Chip.each_keeps (fun c => c.reg d (memcPage ch) o) c _ fun u kv hkv => hset u kv.1 (hoffset c kv (List.mem_filter.1 hkv).1) kv.2
  have hv : v.reg d (memcPage ch) o = c.reg d (memcPage ch) o := hu
  clear_value v
  split
  · exact (hstaged v).trans hv
  · exact hv

/-- Of the page only the pending counts show a refresh. -/
theorem Chip.reg_refab (hch : ch < 2) (r : Nat) {o : Nat} (ho : o < 0x1000) (hne : o ≠ MEMC.STATUS) :
    (c.refab d ch r).reg d (memcPage ch) o = c.reg d (memcPage ch) o := by
  rw [Chip.refab_eq]
  extract_lets u v
  have hv : v.reg d (memcPage ch) o = c.reg d (memcPage ch) o :=
    c.reg_mput_apart d hch (memc_pages hch).1 ho (by decide) (.inr hne) _ _ _
  split
  · rw [Chip.reg_refabDelays v d hch _ ho, hv]
  · exact hv

end

/-! ### A refresh falls due (R363, R364) -/

/-- The next refresh of a rank is due one tREFI later. -/
def Chip.nextRefresh (c : Chip) (d ch r : Nat) : Chip :=
  c.setChan d ch { c.chan d ch with refNext := KMap.set (c.chan d ch).refNext r (c.refreshAt d ch r + c.trefi d ch) }

theorem Chip.refreshAt_congr {c c' : Chip} {d ch : Nat} (hchan : c'.chan d ch = c.chan d ch) (hnow : c'.now = c.now) (r : Nat) :
    c'.refreshAt d ch r = c.refreshAt d ch r := by
  unfold Chip.refreshAt
  rw [hchan, hnow]

section
variable {c : Chip} {d ch r : Nat}

theorem Chip.refreshAt_nextRefresh : (c.nextRefresh d ch r).refreshAt d ch r = c.refreshAt d ch r + c.trefi d ch := by
  unfold Chip.nextRefresh
  rw [Chip.refreshAt, Chip.chan_setChan_same, KMap.getD, KMap.get?_set, if_pos rfl]
  rfl

theorem Chip.refreshAllowed_nextRefresh (k : Nat) : (c.nextRefresh d ch r).refreshAllowed d ch k = c.refreshAllowed d ch k := by
  refine Chip.refreshAllowed_setChan c d ch ?_ ?_ k <;> rfl

/-- What a running channel does with a refresh that is due. -/
theorem Chip.refreshDue_due (hruns : c.chanRuns d ch = true) (hrank : r ∈ c.refreshRanks d ch) (hdue : c.refreshAt d ch r ≤ c.now)
    (hawake : c.mget d ch MEMC.STATUS 27 26 < 2) : c.refreshDue d ch r =
    let u := c.nextRefresh d ch r
    let was := c.pendingRef d ch r
    let v := u.setPendingRef d ch r (was + 1)
    if was = 4 then (((u.mcount d ch MEMC.REF_FORCED_COUNT).mevent d ch 4).refab d ch r).setPendingRef d ch r 4
    else if 0 < was + 1 ∧ v.refreshAllowed d ch r then v.refab d ch r
    else if 0 < was then v.mcount d ch MEMC.REF_POSTPONED_COUNT else v := by
  have hidle : ¬((!c.chanRuns d ch) = true ∨ r ∉ c.refreshRanks d ch ∨ c.now < c.refreshAt d ch r) := by
    rw [hruns]
    exact fun h => h.elim (fun h => Bool.false_ne_true h) fun h => h.elim (fun h => h hrank) fun h => Nat.not_lt.2 hdue h
  unfold Chip.refreshDue
  rw [if_neg hidle]
  exact if_neg (Nat.not_le.2 hawake)

/-- A refresh that is not allowed waits: the count rises, at most with the count of postponed ones. -/
theorem Chip.refreshDue_postponed (hch : ch < 2) (hruns : c.chanRuns d ch = true) (hrank : r ∈ c.refreshRanks d ch)
    (hdue : c.refreshAt d ch r ≤ c.now) (hawake : c.mget d ch MEMC.STATUS 27 26 < 2) (hlt : c.pendingRef d ch r < 4)
    (hdenied : c.refreshAllowed d ch r = false) :
    (c.refreshDue d ch r).pendingRef d ch r = c.pendingRef d ch r + 1 ∧
      (c.refreshDue d ch r).refreshAt d ch r = c.refreshAt d ch r + c.trefi d ch := by
  have hr := Chip.lt_of_mem_refreshRanks hrank
  have hbounds := c.pendingRef_bounds d ch r
  rw [Chip.refreshDue_due hruns hrank hdue hawake]
  extract_lets u was v
  have hpending : v.pendingRef d ch r = was + 1 := Chip.pendingRef_setPendingRef u d ch hr (by omega) (by omega)
  have hchan : v.chan d ch = u.chan d ch := u.chan_mput ..
  have hat : v.refreshAt d ch r = c.refreshAt d ch r + c.trefi d ch := (Chip.refreshAt_congr hchan rfl r).trans Chip.refreshAt_nextRefresh
  have hdenied : ¬(0 < was + 1 ∧ v.refreshAllowed d ch r = true) := by
    unfold v u
    rw [Chip.refreshAllowed_setPendingRef _ d hch hr, Chip.refreshAllowed_nextRefresh, hdenied]
    exact fun h => Bool.false_ne_true h.2
  rw [if_neg (by omega), if_neg hdenied]
  clear_value v
  split
  · refine ⟨?_, (Chip.refreshAt_congr (v.chan_mcount ..) rfl r).trans hat⟩
    rw [Chip.pendingRef_mcount v d hch (by decide) (by decide), hpending]
  · exact ⟨hpending, hat⟩

/-- The fifth refresh in a row goes out whatever waits (R364). -/
theorem Chip.refreshDue_forced (hch : ch < 2) (hruns : c.chanRuns d ch = true) (hrank : r ∈ c.refreshRanks d ch)
    (hdue : c.refreshAt d ch r ≤ c.now) (hawake : c.mget d ch MEMC.STATUS 27 26 < 2) (hfull : c.pendingRef d ch r = 4) :
    (c.refreshDue d ch r).pendingRef d ch r = 4 ∧ (c.refreshDue d ch r).num d (memcPage ch) MEMC.REF_FORCED_COUNT =
      min 0xFFFFFFFF (c.num d (memcPage ch) MEMC.REF_FORCED_COUNT + 1) := by
  have hr := Chip.lt_of_mem_refreshRanks hrank
  rw [Chip.refreshDue_due hruns hrank hdue hawake]
  extract_lets u was v
  have hnum : u.num d (memcPage ch) MEMC.REF_FORCED_COUNT = c.num d (memcPage ch) MEMC.REF_FORCED_COUNT := rfl
  rw [if_pos hfull]
  clear_value u
  refine ⟨Chip.pendingRef_setPendingRef _ d ch hr (by decide) (by decide), ?_⟩
  rw [Chip.num, Chip.setPendingRef, Chip.reg_mput_apart _ d hch (memc_pages hch).1 (by decide) (by decide) (.inr (by decide)),
    Chip.reg_refab _ d hch r (by decide) (by decide), Chip.mevent, Chip.reg_event_quiet _ d d (quiet_forced ch hch), Chip.mcount,
    Chip.count, ← Chip.num, Chip.num_countBy, hnum]

theorem Chip.refreshDue_early (hearly : c.now < c.refreshAt d ch r) : c.refreshDue d ch r = c := if_pos (.inr (.inr hearly))

/-- MR4 sets the rate (R365). -/
theorem Chip.hot_mr4Poll (hch : ch < 2) (hruns : c.chanRuns d ch = true) (codes : List Nat) :
    (c.mr4Poll d ch codes).mget d ch MEMC.STATUS 25 24 = min 2 (codes.foldl max 0) := by
  have hlt : min 2 (codes.foldl max 0) < 4 := by omega
  unfold Chip.mr4Poll
  rw [if_neg (by rw [hruns]; decide)]
  exact (Chip.get_congr (Chip.reg_events_quiet _ d d (quiet_status ch hch) ..) 25 24).trans
    ((Chip.get_put _ d (memcPage ch) _ _ (by decide) (by decide)).trans (Nat.mod_eq_of_lt hlt))

end

theorem refreshRules : Claim.RefreshRules := by
  intro s d ch hc
  refine ⟨if_pos hc, fun hruns => ⟨fun rank _ hearly => ?_, fun rank hrank hdue hawake hlt hdenied => ?_,
    fun rank hrank hdue hawake hfull => ?_, fun codes => ?_⟩⟩
  · exact (if_pos hc).trans (congrArg Host.Outcome.next (State.up_congr (g := id) (Chip.refreshDue_early hearly)))
  · exact ⟨s.up fun c => c.refreshDue d ch rank, if_pos hc, State.up_mem ..,
      Chip.refreshDue_postponed hc.2 hruns hrank hdue hawake hlt hdenied⟩
  · exact ⟨s.up fun c => c.refreshDue d ch rank, if_pos hc, State.up_mem .., Chip.refreshDue_forced hc.2 hruns hrank hdue hawake hfull⟩
  · exact ⟨s.up fun c => c.mr4Poll d ch codes, if_pos hc, State.up_mem .., Chip.hot_mr4Poll hc.2 hruns codes⟩

/-! ### Power states of a channel (R366) -/

section
variable {c : Chip} {d ch : Nat}

theorem Chip.lowPowerExit_leaves (h : (c.chan d ch).queue ≠ [] ∨ c.tol d ≤ c.exitTime d ch) : c.lowPowerExit d ch =
    if c.mget d ch MEMC.STATUS 27 26 = 1 then c.mput d ch MEMC.STATUS 27 26 0
    else if c.mget d ch MEMC.STATUS 27 26 = 2 then (c.mput d ch MEMC.STATUS 27 26 0).mput d ch MEMC.STATUS 11 0 0
    else c := if_neg fun hstay => h.elim (fun hq => hq hstay.1) fun ht => Nat.not_lt.2 ht hstay.2

end

theorem dramPowerStates : Claim.DramPowerStates := by
  intro s d ch hc
  refine ⟨fun hruns hfull => ⟨fun hidle hcfg htol => ?_, fun hidle hcfg htol hpending => ?_⟩, fun hexit => ⟨fun hst => ?_, fun hst => ?_⟩,
    fun hqueue htol => ?_⟩
  · exact (if_pos hc).trans (congrArg _ (State.up_congr (if_pos ⟨hruns, hfull, hidle, hcfg, htol⟩)))
  · have hranks : (List.range (s.chip.mget d ch MEMC.CFG 5 4)).all (fun r => s.chip.pendingRef d ch r ≤ 0) = true :=
      List.all_eq_true.2 fun r hr => decide_eq_true (hpending r (List.mem_range.1 hr))
    exact (if_pos hc).trans (congrArg _ (State.up_congr
      (if_pos ⟨hruns, hfull.le.trans (by decide), hidle, hcfg, htol, hranks⟩)))
  · exact (if_pos hc).trans (congrArg _ (State.up_congr ((Chip.lowPowerExit_leaves hexit).trans (if_pos hst))))
  · exact (if_pos hc).trans (congrArg _ (State.up_congr
      ((Chip.lowPowerExit_leaves hexit).trans ((if_neg (by omega)).trans (if_pos hst)))))
  · exact (if_pos hc).trans (congrArg _ (State.up_congr (g := id) (if_pos ⟨hqueue, htol⟩)))

/-! ### One scheduler cycle with one request (R360) -/

/-- The window of 32 ms begins anew when it has ended (R367). -/
def ChanSt.window (x : ChanSt) (now : Nat) : ChanSt :=
  if x.rowsAt + 32000000 ≤ now then { x with rows := [], throttle := [], rowsAt := now } else x

theorem ChanSt.line_window (x : ChanSt) (now : Nat) : (x.window now).line = x.line := by
  unfold ChanSt.window
  split <;> rfl

theorem ChanSt.line_withRows (x : ChanSt) (rows throttle : KMap Nat) :
    { x with rows := rows, throttle := throttle : ChanSt }.line = x.line := rfl

section
variable (c : Chip) (d ch : Nat)

theorem Chip.line_each {α : Type} {c : Chip} {l : List α} {f : Chip → α → Chip} {v : Nat × List QueuedReq}
    (hkeep : ∀ c x, (f c x).line d ch = c.line d ch) (h : c.line d ch = v) : (c.each l f).line d ch = v :=
  (Chip.each_keeps (fun c => c.line d ch) c l fun c x _ => hkeep c x).trans h

theorem Chip.line_refreshPass : (c.refreshPass d ch).line d ch = c.line d ch := by
  unfold Chip.refreshPass
  extract_lets ranks u
  have hu : u.line d ch = c.line d ch := Chip.line_each d ch (fun c r => by
    split
    · exact c.line_refab d ch r
    · rfl) rfl
  clear_value u
  split
  · refine Chip.line_each d ch (fun c r => ?_) hu
    split
    · exact (c.tick.line_refab d ch r).trans (c.line_tick d ch)
    · exact c.line_tick d ch
  · exact hu

theorem Chip.line_activate (rank : Nat) (r : MemReq) : (c.activate d ch rank r).line d ch = c.line d ch := by
  unfold Chip.activate
  extract_lets x₁ x₂ key n shown known x₃ u
  have hx₂ : x₂ = (c.chan d ch).window c.now := rfl
  have hline : x₃.line = (c.chan d ch).line := (ChanSt.line_withRows ..).trans ((congrArg ChanSt.line hx₂).trans (ChanSt.line_window ..))
  clear_value x₃
  have hu : u.line d ch = c.line d ch := (Chip.line_tick ..).trans ((c.line_setChan d ch x₃).trans hline)
  clear_value u
  split
  · rw [Chip.line_mevent, Chip.line_mcount, hu]
  · exact hu

theorem Chip.line_access (rank : Nat) (r : QueuedReq) (rest : List QueuedReq) : (c.access d ch rank r rest).line d ch = c.line d ch := by
  unfold Chip.access
  extract_lets u x key row b hist more mode keep b'
  have hu : u.line d ch = c.line d ch := by
    unfold u
    split
    · rfl
    · exact c.line_activate d ch rank r.req
  exact (u.line_setChan d ch _).trans hu

end

/-- The request that waits alone. -/
def Chip.alone (c : Chip) (d ch : Nat) (r : MemReq) : QueuedReq :=
  { req := r, policy := c.reg d (memcPage ch) MEMC.POLICY, prio := c.portPrio d ch r.port, gap := c.rhGap d ch }

section
variable {c : Chip} {d ch : Nat}

theorem Chip.enqueue_alone (hempty : (c.chan d ch).queue = []) (r : MemReq) :
    c.enqueue d ch [r] = c.setChan d ch { c.chan d ch with queue := [c.alone d ch r] } := by
  have hroom : ¬(r.write = true ∧ 64 ≤ ((c.chan d ch).queue.filter (fun q => q.req.write)).length) := by
    rw [hempty]
    exact fun h => absurd h.2 (by decide)
  refine (if_neg hroom).trans ?_
  rw [hempty]
  rfl

theorem Chip.prio_alone (r : MemReq) : (c.alone d ch r).prio ≤ 8 := by
  have hfield : c.mget d ch MEMC.PRIO (3 * r.port + 2) (3 * r.port) < 8 := by
    unfold Chip.mget Chip.get bits
    rw [show 3 * r.port + 2 + 1 - 3 * r.port = 3 by omega]
    exact Nat.mod_lt _ (by decide)
  unfold Chip.alone Chip.portPrio
  dsimp only
  split <;> omega

/-- A request that waits alone on a channel without throttled rows can issue. -/
theorem Chip.eligible_alone {q : QueuedReq} (hthrottle : (c.chan d ch).throttle = []) : c.eligible d ch [] q = true := by
  unfold Chip.eligible
  dsimp only
  simp [hthrottle]

/-- The turn comes round to every port. -/
theorem turn_reaches {p : Nat} (t : Nat) (hp : p < 8) : (t + 1 + (p + 8 - (t + 1) % 8) % 8) % 8 = p := by omega

theorem Chip.nextIssue_alone {q : QueuedReq} (hqueue : (c.chan d ch).queue = [q]) (hthrottle : (c.chan d ch).throttle = [])
    (hport : q.req.port < 8) (hprio : q.prio ≤ 8) : c.nextIssue d ch [0] = some ([], q) := by
  have hlist : (withBefore [] (c.chan d ch).queue).filter (fun br => [0].contains br.1.length && c.eligible d ch br.1 br.2) = [([], q)] := by
    rw [hqueue]
    exact List.filter_cons_of_pos (by rw [Chip.eligible_alone hthrottle]; rfl)
  unfold Chip.nextIssue
  extract_lets l best level turn
  have hl : l = [([], q)] := hlist
  have hbest : best = q.prio := by
    unfold best
    rw [hl]
    exact min_eq_right hprio
  have hlevel : level = [([], q)] := by
    unfold level
    rw [hl, hbest]
    exact List.filter_cons_of_pos (decide_eq_true rfl)
  rw [hlevel]
  have hturn := turn_reaches turn hport
  have hsome : ((List.range 8).findSome? fun k => [(([] : List QueuedReq), q)].find? fun br => br.2.req.port = (turn + 1 + k) % 8).isSome = true := by
    refine List.findSome?_isSome_iff.2 ⟨(q.req.port + 8 - (turn + 1) % 8) % 8, List.mem_range.2 (by omega), ?_⟩
    simp [hturn]
  obtain ⟨br, hbr⟩ := Option.isSome_iff_exists.1 hsome
  obtain ⟨k, -, hk⟩ := List.exists_of_findSome?_eq_some hbr
  rw [hbr, List.mem_singleton.1 (List.mem_of_find?_eq_some hk)]

/-- A read or write that waits alone in the queue of a channel. -/
def Chip.waits (c : Chip) (d ch : Nat) (q : QueuedReq) : Prop := (c.chan d ch).queue = [q] ∧ (c.chan d ch).throttle = []

theorem Chip.noteInorder_alone {q : QueuedReq} (h : c.waits d ch q) : (c.noteInorder d ch).waits d ch q := by
  obtain ⟨hqueue, hthrottle⟩ := h
  unfold Chip.noteInorder
  extract_lets x kept u
  have hx : x.queue = [q] := hqueue
  have hstay : (u.each [([], q)] fun c (br : List QueuedReq × QueuedReq) =>
      let x := c.chan d ch
      let e := c.bankRow d ch br.2.req
      if !c.fullHazard d ch br.2 ∧ !br.2.req.write ∧ br.1.any (fun w => w.req.write && decide (c.bankRow d ch w.req = e)) ∧
          !x.inorder.any (fun y => y.1 = e.1) then
        (c.setChan d ch { x with inorder := x.inorder ++ [e] }).mcount d ch MEMC.INORDER_COUNT
      else c) = u := if_neg fun h => Bool.false_ne_true h.2.2.1
  rw [hx]
  refine (congrArg (Chip.waits · d ch q) hstay).mpr ?_
  unfold Chip.waits u
  rw [Chip.chan_setChan_same]
  exact ⟨hqueue, hthrottle⟩

/-- A request leaves the queue and goes to its ranks, or is answered from a write before it. -/
def Chip.issueOne (c : Chip) (d ch : Nat) (br : List QueuedReq × QueuedReq) : Chip :=
  let r := br.2
  let y := c.chan d ch
  let rest := y.queue.eraseIdx br.1.length
  let c := c.setChan d ch { y with queue := rest, turn := r.req.port }
  if !r.req.write ∧ br.1.any (fun w => w.req.write && sameGranule w.req r.req) then c.mcount d ch MEMC.FORWARD_COUNT
  else c.each (c.reqRanks d ch r.req) fun c k => c.access d ch k r rest

theorem Chip.line_issueOne {q : QueuedReq} (hqueue : (c.chan d ch).queue = [q]) : (c.issueOne d ch ([], q)).line d ch = (q.req.port, []) := by
  unfold Chip.issueOne
  extract_lets r y rest u
  have hrest : rest = [] := by
    unfold rest y
    rw [hqueue]
    rfl
  have hu : u.line d ch = (q.req.port, []) := by
    rw [← hrest]
    exact c.line_setChan d ch _
  rw [if_neg fun h => Bool.false_ne_true h.2]
  clear_value u
  exact Chip.line_each d ch (fun c k => c.line_access d ch k r rest) hu

/-- A request that finds the queue empty is served in the cycle in which it comes. -/
theorem Chip.schedule_alone {r : MemReq} (hport : r.port < 8) (hserving : c.serving d ch = true) (hempty : (c.chan d ch).queue = [])
    (hawake : c.mget d ch MEMC.STATUS 27 26 = 0) (hthrottle : (c.chan d ch).throttle = []) :
    (c.schedule d ch ⟨[r], [0]⟩).line d ch = (r.port, []) := by
  unfold Chip.schedule
  rw [if_neg (by rw [hserving]; decide), Chip.enqueue_alone hempty]
  extract_lets x u y v w x' z
  have hv : v.waits d ch (c.alone d ch r) := by
    unfold Chip.waits v y u x
    rw [Chip.chan_setChan_same, Chip.chan_setChan_same]
    exact ⟨rfl, hthrottle⟩
  have hawake : v.mget d ch MEMC.STATUS 27 26 = 0 := hawake
  rw [if_neg (not_not_intro hawake)]
  have hw : w.waits d ch (c.alone d ch r) := Chip.noteInorder_alone hv
  clear_value w
  have hz : z = w.issueOne d ch ([], c.alone d ch r) := by
    unfold z
    rw [Chip.nextIssue_alone hw.1 hw.2 hport (Chip.prio_alone r)]
    rfl
  rw [hz, Chip.line_refreshPass, Chip.line_issueOne hw.1]
  rfl

end

theorem schedulerServes : Claim.SchedulerServes := by
  refine fun s d ch hc => ⟨fun r hport hserving hclock hempty hawake hthrottle => ?_, fun bank hidle => ?_⟩
  · have hclocked : ¬(s.chip.chanRuns d ch = true ∧ s.chip.unclocked d ch = true) := by
      rw [hclock]
      exact fun h => Bool.false_ne_true h.2
    have hline := Chip.schedule_alone hport hserving hempty hawake hthrottle
    exact ⟨s.up fun c => c.schedule d ch ⟨[r], [0]⟩, (if_pos hc).trans (congrArg _ (if_neg hclocked)), State.up_mem ..,
      congrArg Prod.fst hline, congrArg Prod.snd hline⟩
  · exact (if_pos hc).trans (congrArg _ (State.up_congr (if_pos (decide_eq_true hidle))))

/-- Settles O31: refreshes by the pending count of a rank, a scheduler cycle by what the channel's queue holds, power states by the
conditions of each row. -/
theorem dramService : Obligations.DramService :=
  ⟨refreshRules, schedulerServes, dramPowerStates⟩

end Sys2Proof.Machine
end

section
/-! PROOFS. The baskets and the rambler (O26; R381, R384, R386, R391 to R395). -/

namespace Sys2Proof.Machine

/-! ### Handing baskets over (R384) -/

theorem Chip.regs_chooseRoom (c : Chip) (d code : Nat) : (c.chooseRoom d code).regs = c.regs := by
  unfold Chip.chooseRoom
  extract_lets y l keep
  split
  · rfl
  · split <;> rfl

theorem Chip.member_chooseRoom (c : Chip) (d code : Nat) : (c.chooseRoom d code).member = c.member := by
  unfold Chip.chooseRoom
  extract_lets y l keep
  split
  · rfl
  · split <;> rfl

section
variable (c : Chip) (d k : Nat) (w : Word)

theorem Chip.regs_ownerWrite : (c.ownerWrite d k w).regs = (c.setReg d BASKET (BASKET.OWNER + 4 * k) w).regs :=
  Chip.each_keeps Chip.regs _ _ fun c code _ => c.regs_chooseRoom d code

theorem Chip.reg_ownerWrite (e q r : Nat) : (c.ownerWrite d k w).reg e q r = (c.setReg d BASKET (BASKET.OWNER + 4 * k) w).reg e q r :=
  Chip.reg_congr (Chip.each_keeps Chip.member _ _ fun c code _ => c.member_chooseRoom d code) e q r
    (congrArg (KMap.get? · (ra e q r)) (c.regs_ownerWrite d k w))

/-- The owner of a basket is a field of its register (R382). -/
theorem Chip.owner_eq_bits {i : Nat} (hi : i < 8) (hreg : c.reg d BASKET (BASKET.OWNER + 4 * k) = w) :
    c.owner d (8 * k + i) = bits w (4 * i + 3) (4 * i) := by
  rw [← hreg, Chip.owner, show (8 * k + i) / 8 = k by omega, show (8 * k + i) % 8 = i by omega]
  rfl

end

theorem State.writeReg_owner (s : State) (d : Nat) {k : Nat} (hk : k < 4) (w : Word) :
    s.writeReg d BASKET (BASKET.OWNER + 4 * k) w = s.up fun c => c.ownerWrite d k w := by
  interval_cases k <;> rfl

/-! What a completed write of a register leaves. -/

section
variable (s : State) (h : Hdr) (p o : Nat) (w : Word) (f : Chip → Chip)

theorem State.mem_wrote : (s.wrote h p o w f).mem = s.mem := (State.up_mem ..).trans ((State.up_mem ..).trans (State.up_mem ..))
theorem State.regs_wrote : (s.wrote h p o w f).chip.regs = (f (s.starts h (oneWord h p o w)).chip).regs := Chip.finish_regs ..
theorem State.reg_wrote (e q r : Nat) : (s.wrote h p o w f).chip.reg e q r = (f (s.starts h (oneWord h p o w)).chip).reg e q r :=
  Chip.reg_finish ..
theorem State.regs_starts (cmd : Cmd) : (s.starts h cmd).chip.regs = s.chip.regs := rfl

end

theorem ownerWriteCompletes : Claim.OwnerWriteCompletes := by
  intro s h k w hk hw
  have ho : BASKET.OWNER + 4 * k < 0x1000 := by
    have : BASKET.OWNER = 0x040 := rfl
    omega
  have hregs := s.regs_wrote h BASKET (BASKET.OWNER + 4 * k) w fun c => c.ownerWrite h.die k w
  have hreg := s.reg_wrote h BASKET (BASKET.OWNER + 4 * k) w (fun c => c.ownerWrite h.die k w) h.die BASKET (BASKET.OWNER + 4 * k)
  rw [Chip.reg_ownerWrite, Chip.reg_setReg_same] at hreg
  refine ⟨_, exec_mayWrite rfl rfl ho hw (State.writeReg_owner _ h.die hk w), s.mem_wrote .., hreg,
    fun i hi => Chip.owner_eq_bits _ h.die k w hi hreg, fun a ha => ?_⟩
  rw [hregs, Chip.regs_ownerWrite, Chip.get?_setReg_of_ne _ _ _ _ _ _ ha, State.regs_starts]

/-! ### Corrections (R381, R395) -/

/-- A word whose check bits tell of more than one wrong bit. -/
def Chip.spoiled (c : Chip) (a : Nat) : Chip := { c.wordWritten a with badWords := a :: (c.badWords.filter (fun x => x ≠ a)) }

theorem Chip.reg_spoiled (c : Chip) (a e q r : Nat) : (c.spoiled a).reg e q r = c.reg e q r := rfl

theorem Chip.checkWord_uncorrectable (c : Chip) (d : Nat) {a : Nat} (hbad : a ∈ c.badWords) : c.checkWord d a .none =
    ((((c.count d BASKET BASKET.UE_COUNT).setNum d BASKET BASKET.UE_ADDR a).event d BASKET 2).spoiled a, false) :=
  if_pos (.inl (List.contains_iff_mem.2 hbad))

theorem basketCorrections : Claim.BasketCorrections := by
  refine ⟨fun s d a hd ha => ?_, fun c d a ha hbad => ?_, fun c d a hbad hfix => c.checkWord_right d hbad hfix⟩
  · exact (if_pos hd).trans (congrArg _ (State.up_congr (if_pos ha)))
  · rw [Chip.checkWord_uncorrectable c d hbad]
    refine ⟨rfl, ?_, List.mem_cons_self .., ?_⟩
    · rw [Chip.num, Chip.reg_spoiled, Chip.reg_event_quiet _ d d (by decide), Chip.setNum_eq, Chip.reg_setReg_same, BitVec.toNat_ofNat]
      exact Nat.mod_eq_of_lt ha
    · rw [Chip.num, Chip.reg_spoiled, Chip.reg_event_quiet _ d d (by decide), Chip.reg_setNum_apart _ d d (by decide), ← Chip.num,
        Chip.count, Chip.num_countBy]

/-! ### Two masters on one basket (R386) -/

/-- The one that comes later in the order of R386 loses a cycle. -/
theorem basketConflict : Claim.BasketConflict := by
  intro c d b m n hb _ _ _ hne hrank hnote
  have hw : KMap.getD c.baskets (d * 32 + b) { at_ := 0, masters := [] } = { at_ := c.now, masters := [m] } := by
    rw [KMap.getD, hnote]
    rfl
  have hfree : ¬(b < 2 ∨ [m].contains n = true) := by
    rintro (h | h)
    · omega
    · exact hne (List.mem_singleton.1 (List.contains_iff_mem.1 h)).symm
  unfold Chip.wantBasket
  extract_lets w there ahead behind u v
  have hthere : there = [m] := by
    unfold there w
    rw [hw]
    exact if_pos rfl
  have hahead : ahead = [m] := by
    unfold ahead
    rw [hthere]
    exact List.filter_cons_of_pos (decide_eq_true hrank)
  have hbehind : behind = [] := by
    unfold behind
    rw [hthere]
    exact List.filter_cons_of_neg (by simpa using hrank.le)
  have hu : u = c.count d BASKET (BASKET.CONFLICT + 4 * n) := by
    unfold u
    rw [hahead]
    rfl
  have hv : v = c.count d BASKET (BASKET.CONFLICT + 4 * n) := by
    unfold v
    rw [hbehind]
    exact hu
  rw [hthere, if_neg hfree, hv]
  rfl

/-! ### The rambler starts a region (R391, R392) -/

theorem basketRank_le (m : Nat) : basketRank m ≤ 4 := by
  unfold basketRank
  split
  · decide
  · split
    · decide
    · split
      · decide
      · split <;> decide

/-- The rambler gives way to every master, so only its own CONFLICT count can change (R386). -/
theorem Chip.touches_wantBasket_rambler (c : Chip) (d b : Nat) : ∃ c' w,
    c.touches c' (fun a => a = ra d BASKET (BASKET.CONFLICT + 4 * 7)) ∧ c.wantBasket 7 d b = { c' with baskets := w } := by
  unfold Chip.wantBasket
  extract_lets w there ahead behind u v
  have hbehind : behind = [] := by
    refine List.filter_eq_nil_iff.2 fun x _ => ?_
    have hle : basketRank x ≤ 4 := basketRank_le x
    rw [decide_eq_true_iff]
    exact Nat.not_lt.2 hle
  split
  · exact ⟨c, c.baskets, c.touches_refl _, rfl⟩
  · refine ⟨v, _, ?_, rfl⟩
    unfold v
    rw [hbehind]
    exact c.touches_countBy d BASKET _ _

/-- The words of the baskets whose check bits are not right. -/
def Chip.wordChecks (c : Chip) : List Nat × List Nat := (c.badWords, c.fixups)

theorem Chip.wordChecks_wantBasket (c : Chip) (m d b : Nat) : (c.wantBasket m d b).wordChecks = c.wordChecks :=
  Prod.ext (c.wantBasket_badWords m d b) (c.wantBasket_fixups m d b)

/-- The check bits of words are right. -/
def Chip.rightWords (c : Chip) (l : List Nat) : Prop := ∀ a ∈ l, a ∉ c.badWords ∧ a ∉ c.fixups

theorem Chip.rightWords_congr {c c' : Chip} {l : List Nat} (h : c'.wordChecks = c.wordChecks) (hright : c.rightWords l) : c'.rightWords l := by
  obtain ⟨hbad, hfix⟩ := Prod.mk.inj h
  unfold Chip.rightWords
  rw [hbad, hfix]
  exact hright

section
variable (c : Chip) (d : Nat) (l : List Nat)

theorem Chip.wantWords_eq_each (m : Nat) : c.wantWords m d l = c.each l fun c a => c.wantBasket m d (basketOf a) := rfl

theorem Chip.reg_wantWords_rambler (e : Nat) {q r : Nat} (h : apart q r BASKET (BASKET.CONFLICT + 4 * 7) = true) :
    (c.wantWords 7 d l).reg e q r = c.reg e q r := by
  rw [Chip.wantWords_eq_each]
  refine Chip.each_keeps (fun c => c.reg e q r) c l fun c a _ => ?_
  obtain ⟨c', w, ht, hc⟩ := c.touches_wantBasket_rambler d (basketOf a)
  rw [hc]
  exact Chip.touches_reg ht e q r (ra_ne_of_apart h e d)

theorem Chip.wordChecks_wantWords (m : Nat) : (c.wantWords m d l).wordChecks = c.wordChecks := by
  rw [Chip.wantWords_eq_each]
  exact Chip.each_keeps Chip.wordChecks c l fun c a _ => c.wordChecks_wantBasket m d (basketOf a)

/-- Words whose check bits are right are read without a trace. -/
theorem Chip.checkWords_right {c : Chip} (h : c.rightWords l) : c.checkWords d l = (c, true) := by
  unfold Chip.checkWords
  induction l with
  | nil => rfl
  | cons a l ih =>
    obtain ⟨hbad, hfix⟩ := h a (List.mem_cons_self ..)
    rw [List.foldl_cons]
    dsimp only
    rw [Chip.checkWord_right c d hbad hfix]
    exact ih fun b hb => h b (List.mem_cons_of_mem _ hb)

end

section
variable (c : Chip) (d : Nat) (r : Nat × Bool × Nat)

theorem Chip.startRegion_eq (hr : r.1 < spareBase) : c.startRegion d r =
    (c.setNum d RAMBLER RAMBLER.POSITION (r.1 / 4096 * 65536 + r.1 % 4096)).setRambler d
      { step := if r.2.1 then r.1 + 1 else (c.rambler d).step
        next := c.now + c.get d RAMBLER RAMBLER.INTERVAL 15 0 * 1000
        retries := (c.rambler d).retries.filter (fun q => q.1 ≠ r.1) } := by
  have hplace : c.stepPlace r.1 = r.1 / 4096 * 65536 + r.1 % 4096 := by
    unfold Chip.stepPlace stepBasket
    rw [if_pos hr, if_pos hr]
  rw [← hplace]
  exact if_pos hr

theorem Chip.reg_setRambler (x : RamblerSt) (e q o : Nat) : (c.setRambler d x).reg e q o = c.reg e q o := rfl
theorem Chip.wordChecks_setRambler (x : RamblerSt) : (c.setRambler d x).wordChecks = c.wordChecks := rfl
theorem Chip.wordChecks_setNum (p o v : Nat) : (c.setNum d p o v).wordChecks = c.wordChecks := rfl

/-- A region starts, and its words are read with their check. -/
def Chip.readRegion : Chip := (((c.startRegion d r).wantWords 7 d (stepWords d r.1)).checkWords d (stepWords d r.1)).1

variable {c d r} (hr : r.1 < spareBase) (hclean : c.rightWords (stepWords d r.1))
include hr

theorem Chip.wordChecks_startRegion : (c.startRegion d r).wordChecks = c.wordChecks := by
  rw [c.startRegion_eq d r hr, Chip.wordChecks_setRambler, Chip.wordChecks_setNum]

theorem Chip.reg_startRegion {q o : Nat} (h : apart q o RAMBLER RAMBLER.POSITION = true) : (c.startRegion d r).reg d q o = c.reg d q o := by
  rw [c.startRegion_eq d r hr, Chip.reg_setRambler, Chip.reg_setNum_apart _ d d h]

include hclean

theorem Chip.readRegion_clean : c.readRegion d r = (c.startRegion d r).wantWords 7 d (stepWords d r.1) :=
  congrArg Prod.fst (Chip.checkWords_right d (stepWords d r.1)
    (Chip.rightWords_congr ((Chip.wordChecks_wantWords ..).trans (Chip.wordChecks_startRegion hr)) hclean))

theorem Chip.rightWords_readRegion : (c.readRegion d r).rightWords (stepWords d r.1) := by
  rw [Chip.readRegion_clean hr hclean]
  exact Chip.rightWords_congr ((Chip.wordChecks_wantWords ..).trans (Chip.wordChecks_startRegion hr)) hclean

/-- Of the rambler's page only POSITION changes. -/
theorem Chip.reg_readRegion {o : Nat} (ho : o < 0x1000) (hne : o ≠ RAMBLER.POSITION) : (c.readRegion d r).reg d RAMBLER o = c.reg d RAMBLER o := by
  rw [Chip.readRegion_clean hr hclean, Chip.reg_wantWords_rambler _ d _ d (apart_of_ne (by decide) ho (by decide) (by decide) (.inl (by decide))),
    Chip.reg_startRegion hr (apart_of_ne (by decide) ho (by decide) (by decide) (.inr hne))]

theorem Chip.position_readRegion : (c.readRegion d r).num d RAMBLER RAMBLER.POSITION = r.1 / 4096 * 65536 + r.1 % 4096 := by
  have hbase : spareBase = 131072 := rfl
  rw [Chip.readRegion_clean hr hclean, Chip.num, Chip.reg_wantWords_rambler _ d _ d (by decide), c.startRegion_eq d r hr, Chip.reg_setRambler,
    Chip.setNum_eq, Chip.reg_setReg_same, BitVec.toNat_ofNat]
  exact Nat.mod_eq_of_lt (by omega)

end

/-! ### The end of a region (R391, R394) -/

/-- The turns of aborted regions come closer, and a pass may end. -/
def Chip.regionEnd (c : Chip) (d : Nat) : Chip :=
  (c.setRambler d { c.rambler d with retries := (c.rambler d).retries.map (fun q => (q.1, q.2.1 - 1, q.2.2)) }).passEnd d

theorem Chip.reg_passEnd (c : Chip) (d : Nat) {q o : Nat} (hq : quiet q o = true) (h : apart q o RAMBLER RAMBLER.PASS_COUNT = true) :
    (c.passEnd d).reg d q o = c.reg d q o := by
  unfold Chip.passEnd
  split
  · rw [Chip.reg_event_quiet _ d d hq, Chip.reg_setNum_apart _ d d h, Chip.reg_setRambler]
  · rfl

theorem Chip.reg_regionEnd (c : Chip) (d : Nat) {q o : Nat} (hq : quiet q o = true) (h : apart q o RAMBLER RAMBLER.PASS_COUNT = true) :
    (c.regionEnd d).reg d q o = c.reg d q o := (Chip.reg_passEnd _ d hq h).trans (Chip.reg_setRambler ..)

section
variable {s : State} {d : Nat} {r : Nat × Bool × Nat} (hnext : s.chip.nextRegion d = some r)
include hnext

theorem State.testRegion_pass : s.testRegion d false false = (s.up fun c => c.readRegion d r).up fun c => c.regionEnd d := by
  unfold State.testRegion
  rw [hnext]
  rfl

/-- A region that fails twice, where retiring is enabled (R394). -/
theorem State.testRegion_twice (hr : r.1 < spareBase)
    (hctrl : ((s.chip.readRegion d r).setNum d RAMBLER RAMBLER.LAST_FAIL ((s.chip.readRegion d r).stepPlace r.1)).flag d RAMBLER RAMBLER.CTRL 1 = true) :
    s.testRegion d true true =
      (((s.up fun c => c.readRegion d r).up fun c => c.setNum d RAMBLER RAMBLER.LAST_FAIL (c.stepPlace r.1)).retire d r.1).up
        fun c => c.regionEnd d := by
  have hnot : decide (spareBase ≤ r.1) = false := decide_eq_false (Nat.not_le.2 hr)
  unfold State.testRegion
  rw [hnext]
  dsimp -zeta only
  extract_lets u v w z
  have hv : v = (s.up fun c => c.readRegion d r).up fun c => c.setNum d RAMBLER RAMBLER.LAST_FAIL (c.stepPlace r.1) := by
    unfold v
    rw [hnot]
    rfl
  have hflag : v.chip.flag d RAMBLER RAMBLER.CTRL 1 = true := by
    rw [hv]
    exact hctrl
  have hw : w = v := by
    unfold w
    rw [hflag]
    rfl
  have hz : z = v.retire d r.1 := by
    unfold z
    rw [hw, hflag]
    rfl
  rw [hz, hv]
  rfl

end

/-- A region is retired to a spare of its basket (R394). -/
def Chip.retired (c : Chip) (d i : Nat) : Chip :=
  let c' := { c with fixups := c.fixups.filter (fun a => !(stepWords d i).contains a) }
  ((c'.put d RAMBLER (RAMBLER.SPARE_LEFT + 4 * (stepBasket i / 8)) (4 * (stepBasket i % 8) + 3) (4 * (stepBasket i % 8))
    (c.spares d (stepBasket i) - 1)).rcount d RAMBLER.RETIRED_COUNT).event d RAMBLER 2

theorem State.retire_spare {s : State} {d i : Nat} (hspare : s.chip.spares d (stepBasket i) ≠ 0) (hright : s.chip.rightWords (stepWords d i)) :
    s.retire d i = s.up fun c => c.retired d i := by
  have hlost : (stepWords d i).any (fun a => s.chip.badWords.contains a) = false :=
    List.any_eq_false.2 fun a ha h => (hright a ha).1 (List.contains_iff_mem.1 h)
  unfold State.retire
  extract_lets b n lost
  rw [if_neg hspare, show lost = false from hlost]
  exact State.up_congr rfl

/-! ### The counts of the rambler -/

theorem basket_lt {i : Nat} (h : i < spareBase) : i / 4096 < 32 := by
  have hbase : spareBase = 131072 := rfl
  omega

/-- The registers of the unused spares are none of those that a region changes. -/
theorem quiet_spares : ∀ k < 4, quiet RAMBLER (RAMBLER.SPARE_LEFT + 4 * k) = true ∧ RAMBLER.SPARE_LEFT + 4 * k ≠ RAMBLER.POSITION ∧
    RAMBLER.SPARE_LEFT + 4 * k ≠ RAMBLER.LAST_FAIL ∧ RAMBLER.SPARE_LEFT + 4 * k ≠ RAMBLER.PASS_COUNT ∧
    RAMBLER.SPARE_LEFT + 4 * k ≠ RAMBLER.RETIRED_COUNT := by decide

theorem Chip.spares_congr {c c' : Chip} {d b : Nat}
    (h : c'.reg d RAMBLER (RAMBLER.SPARE_LEFT + 4 * (b / 8)) = c.reg d RAMBLER (RAMBLER.SPARE_LEFT + 4 * (b / 8))) :
    c'.spares d b = c.spares d b := Chip.get_congr h _ _

theorem Chip.spares_lt (c : Chip) (d b : Nat) : c.spares d b < 16 := by
  unfold Chip.spares Chip.get bits
  rw [show 4 * (b % 8) + 3 + 1 - 4 * (b % 8) = 4 by omega]
  exact Nat.mod_lt _ (by decide)

section
variable {c : Chip} {d b : Nat} (hb : b < 32)
include hb

theorem Chip.spares_regionEnd : (c.regionEnd d).spares d b = c.spares d b := by
  obtain ⟨hq, -, -, hpass, -⟩ := quiet_spares (b / 8) (by omega)
  exact Chip.spares_congr (c.reg_regionEnd d hq (apart_of_offset hq (by decide) (by decide) hpass))

theorem Chip.spares_setLastFail (v : Nat) : (c.setNum d RAMBLER RAMBLER.LAST_FAIL v).spares d b = c.spares d b := by
  obtain ⟨hq, -, hfail, -⟩ := quiet_spares (b / 8) (by omega)
  exact Chip.spares_congr (c.reg_setNum_apart d d (apart_of_offset hq (by decide) (by decide) hfail) v)

theorem Chip.spares_readRegion {r : Nat × Bool × Nat} (hr : r.1 < spareBase) (hclean : c.rightWords (stepWords d r.1)) :
    (c.readRegion d r).spares d b = c.spares d b := by
  obtain ⟨hq, hposition, -⟩ := quiet_spares (b / 8) (by omega)
  exact Chip.spares_congr (Chip.reg_readRegion hr hclean (bounds_of_quiet hq).2 hposition)

theorem Chip.spares_retired {i : Nat} (hi : stepBasket i = b) : (c.retired d i).spares d b = c.spares d b - 1 := by
  obtain ⟨hq, -, -, -, hretired⟩ := quiet_spares (b / 8) (by omega)
  have hlt := c.spares_lt d b
  unfold Chip.retired Chip.rcount Chip.count Chip.countBy
  rw [hi]
  extract_lets c'
  clear_value c'
  rw [Chip.spares, Chip.get_congr (Chip.reg_event_quiet _ d d hq ..),
    Chip.get_congr (Chip.reg_setNum_apart _ d d (apart_of_offset hq (by decide) (by decide) hretired) _),
    Chip.get_put _ _ _ _ _ (by omega) (by omega), show 4 * (b % 8) + 3 + 1 - 4 * (b % 8) = 4 by omega]
  exact Nat.mod_eq_of_lt (by omega)

end

theorem Chip.retiredCount_retired (c : Chip) (d : Nat) {i : Nat} (hb : stepBasket i < 32) :
    (c.retired d i).num d RAMBLER RAMBLER.RETIRED_COUNT = min 0xFFFFFFFF (c.num d RAMBLER RAMBLER.RETIRED_COUNT + 1) := by
  obtain ⟨hq, -, -, -, hretired⟩ := quiet_spares (stepBasket i / 8) (by omega)
  have hapart : apart RAMBLER RAMBLER.RETIRED_COUNT RAMBLER (RAMBLER.SPARE_LEFT + 4 * (stepBasket i / 8)) = true :=
    apart_of_ne (by decide) (by decide) (by decide) (bounds_of_quiet hq).2 (.inr hretired.symm)
  unfold Chip.retired
  extract_lets c'
  have hc' : c'.num d RAMBLER RAMBLER.RETIRED_COUNT = c.num d RAMBLER RAMBLER.RETIRED_COUNT := rfl
  clear_value c'
  rw [Chip.num, Chip.reg_event_quiet _ d d (by decide), Chip.rcount, Chip.count, ← Chip.num, Chip.num_countBy, Chip.num,
    Chip.reg_put_apart _ d d hapart, ← Chip.num, hc']

/-! ### The rows of the rambler (R391 to R394) -/

section
variable {s : State} {d : Nat} {r : Nat × Bool × Nat} (hd : d < dieCount s.chip.member) (hon : s.chip.ramblerOn d = true)
  (hnext : s.chip.nextRegion d = some r) (hr : r.1 < spareBase)
include hd hon hnext hr

theorem regionPasses (hclean : s.chip.rightWords (stepWords d r.1)) : ∃ t, exec (.ramblerRegionTest d false false) s = .next t ∧ t.mem = s.mem ∧
    t.chip.num d RAMBLER RAMBLER.POSITION = r.1 / 4096 * 65536 + r.1 % 4096 ∧
    t.chip.num d RAMBLER RAMBLER.TEST_FAIL_COUNT = s.chip.num d RAMBLER RAMBLER.TEST_FAIL_COUNT ∧
    t.chip.spares d (r.1 / 4096) = s.chip.spares d (r.1 / 4096) := by
  have hb := basket_lt hr
  refine ⟨s.testRegion d false false, (if_pos hd).trans (congrArg Host.Outcome.next (if_pos hon)), ?_⟩
  rw [State.testRegion_pass hnext, State.up_mem, State.up_mem, State.up_chip, State.up_chip]
  refine ⟨rfl, ?_, ?_, ?_⟩
  · rw [Chip.num, Chip.reg_regionEnd _ d (by decide) (by decide), ← Chip.num, Chip.position_readRegion hr hclean]
  · rw [Chip.num, Chip.reg_regionEnd _ d (by decide) (by decide), Chip.reg_readRegion hr hclean (by decide) (by decide), ← Chip.num]
  · rw [Chip.spares_regionEnd hb, Chip.spares_readRegion hb hr hclean]

theorem regionRetires (hclean : s.chip.rightWords (stepWords d r.1)) (hctrl : s.chip.flag d RAMBLER RAMBLER.CTRL 1 = true)
    (hspare : 0 < s.chip.spares d (r.1 / 4096)) : ∃ t, exec (.ramblerRegionTest d true true) s = .next t ∧ t.mem = s.mem ∧
    t.chip.spares d (r.1 / 4096) = s.chip.spares d (r.1 / 4096) - 1 ∧
    t.chip.num d RAMBLER RAMBLER.RETIRED_COUNT = min 0xFFFFFFFF (s.chip.num d RAMBLER RAMBLER.RETIRED_COUNT + 1) := by
  have hb := basket_lt hr
  have hstep : stepBasket r.1 = r.1 / 4096 := if_pos hr
  have hread : ∀ {o}, o < 0x1000 → o ≠ RAMBLER.POSITION → (s.chip.readRegion d r).reg d RAMBLER o = s.chip.reg d RAMBLER o :=
    fun ho hne => Chip.reg_readRegion hr hclean ho hne
  have hright := Chip.rightWords_readRegion hr hclean
  have hspares := Chip.spares_readRegion (d := d) hb hr hclean
  have hflag : ((s.chip.readRegion d r).setNum d RAMBLER RAMBLER.LAST_FAIL ((s.chip.readRegion d r).stepPlace r.1)).flag d RAMBLER
      RAMBLER.CTRL 1 = true := by
    rw [← hctrl, Chip.flag, Chip.reg_setNum_apart _ d d (by decide), hread (by decide) (by decide), ← Chip.flag]
  have hcount : ((s.chip.readRegion d r).setNum d RAMBLER RAMBLER.LAST_FAIL ((s.chip.readRegion d r).stepPlace r.1)).num d RAMBLER
      RAMBLER.RETIRED_COUNT = s.chip.num d RAMBLER RAMBLER.RETIRED_COUNT := by
    rw [Chip.num, Chip.reg_setNum_apart _ d d (by decide), hread (by decide) (by decide), ← Chip.num]
  refine ⟨s.testRegion d true true, (if_pos hd).trans (congrArg Host.Outcome.next (if_pos hon)), ?_⟩
  rw [State.testRegion_twice hnext hr hflag, State.retire_spare ?_ ?_]
  · rw [State.up_mem, State.up_mem, State.up_mem, State.up_mem, State.up_chip, State.up_chip, State.up_chip, State.up_chip]
    refine ⟨rfl, ?_, ?_⟩
    · rw [Chip.spares_regionEnd hb, Chip.spares_retired hb hstep, Chip.spares_setLastFail hb, hspares]
    · rw [Chip.num, Chip.reg_regionEnd _ d (by decide) (by decide), ← Chip.num, Chip.retiredCount_retired _ d (by rw [hstep]; exact hb), hcount]
  · rw [State.up_chip, State.up_chip, hstep, Chip.spares_setLastFail hb, hspares]
    exact hspare.ne'
  · rw [State.up_chip, State.up_chip]
    exact Chip.rightWords_congr (Chip.wordChecks_setNum ..) hright

omit hd hon hr in
/-- An access meets the region that the rambler holds (R393). -/
theorem Chip.ramblerAbort_eq (master : Nat) : s.chip.ramblerAbort d [master] =
    let u := (((s.chip.startRegion d r).count d BASKET (BASKET.CONFLICT + 4 * master)).rcount d RAMBLER.ABORT_COUNT).event d RAMBLER 3
    (if 7 ≤ r.2.2 then u.rcount d RAMBLER.SKIP_COUNT
      else u.setRambler d { u.rambler d with retries := (u.rambler d).retries ++ [(r.1, 16, r.2.2 + 1)] }).passEnd d := by
  unfold Chip.ramblerAbort
  rw [hnext]
  rfl

end

/-- The last part of an abort, on other registers than those of the counts of passes and skips (R393). -/
theorem Chip.reg_aborted (c : Chip) (d : Nat) (skips : Prop) [Decidable skips] (x : RamblerSt) {q o : Nat} (hq : quiet q o = true)
    (hskip : apart q o RAMBLER RAMBLER.SKIP_COUNT = true) (hpass : apart q o RAMBLER RAMBLER.PASS_COUNT = true) :
    ((if skips then c.rcount d RAMBLER.SKIP_COUNT else c.setRambler d x).passEnd d).reg d q o = c.reg d q o := by
  rw [Chip.reg_passEnd _ d hq hpass]
  split
  · exact c.reg_setNum_apart d d hskip _
  · rfl

theorem conflict_regs : ∀ m < 7, quiet BASKET (BASKET.CONFLICT + 4 * m) = true := by decide

/-- The counts that an abort raises (R386, R393). -/
theorem Chip.counts_ramblerAbort {s : State} {d m : Nat} {r : Nat × Bool × Nat} (hnext : s.chip.nextRegion d = some r) (hr : r.1 < spareBase)
    (hm : m < 7) : (s.chip.ramblerAbort d [m]).num d BASKET (BASKET.CONFLICT + 4 * m) =
        min 0xFFFFFFFF (s.chip.num d BASKET (BASKET.CONFLICT + 4 * m) + 1) ∧
      (s.chip.ramblerAbort d [m]).num d RAMBLER RAMBLER.ABORT_COUNT = min 0xFFFFFFFF (s.chip.num d RAMBLER RAMBLER.ABORT_COUNT + 1) := by
  have hq := conflict_regs m hm
  have hpage : ∀ {o}, o < 0x1000 → apart BASKET (BASKET.CONFLICT + 4 * m) RAMBLER o = true := fun ho => apart_of_page hq (by decide) ho (by decide)
  rw [Chip.ramblerAbort_eq hnext]
  extract_lets u
  have hu : u.num d BASKET (BASKET.CONFLICT + 4 * m) = min 0xFFFFFFFF (s.chip.num d BASKET (BASKET.CONFLICT + 4 * m) + 1) ∧
      u.num d RAMBLER RAMBLER.ABORT_COUNT = min 0xFFFFFFFF (s.chip.num d RAMBLER RAMBLER.ABORT_COUNT + 1) := by
    have hconflict := Chip.reg_startRegion (c := s.chip) (d := d) hr (hpage (o := RAMBLER.POSITION) (by decide))
    have habort := Chip.reg_startRegion (c := s.chip) (d := d) (q := RAMBLER) (o := RAMBLER.ABORT_COUNT) hr (by decide)
    unfold u
    generalize s.chip.startRegion d r = v at hconflict habort
    unfold Chip.rcount Chip.count
    refine ⟨?_, ?_⟩
    · rw [Chip.num, Chip.reg_event_quiet _ d d hq, Chip.countBy, Chip.reg_setNum_apart _ d d (hpage (by decide)), ← Chip.num,
        Chip.num_countBy, Chip.num, hconflict, ← Chip.num]
    · rw [Chip.num, Chip.reg_event_quiet _ d d (by decide), ← Chip.num, Chip.num_countBy, Chip.num, Chip.countBy,
        Chip.reg_setNum_apart _ d d (apart_of_page (by decide) (by decide) (bounds_of_quiet hq).2 (by decide)), habort, ← Chip.num]
  clear_value u
  refine ⟨?_, ?_⟩
  · rw [Chip.num, Chip.reg_aborted u d _ _ hq (hpage (by decide)) (hpage (by decide)), ← Chip.num, hu.1]
  · rw [Chip.num, Chip.reg_aborted u d _ _ (by decide) (by decide) (by decide), ← Chip.num, hu.2]

theorem ramblerRegions : Claim.RamblerRegions := by
  intro s d r hd hon hnext hr
  refine ⟨fun hclean => ⟨regionPasses hd hon hnext hr hclean, regionRetires hd hon hnext hr hclean⟩, fun m hm => ?_⟩
  have hmeets : s.chip.ramblerOn d = true ∧ [m] ≠ [] ∧ [m].all (fun m => decide (m < 7)) = true ∧
      (s.chip.nextRegion d).any (fun r => r.1 < spareBase) = true := by
    refine ⟨hon, List.cons_ne_nil m [], List.all_eq_true.2 fun k hk => decide_eq_true ?_, ?_⟩
    · exact List.mem_singleton.1 hk ▸ hm
    · rw [hnext]
      exact decide_eq_true hr
  refine ⟨s.up fun c => c.ramblerAbort d [m], (if_pos hd).trans (congrArg _ (State.up_congr (if_pos hmeets))), State.up_mem .., ?_⟩
  exact Chip.counts_ramblerAbort hnext hr hm

/-- Settles O26: the write of OWNER by the registers it reaches, corrections by what the check of a word leaves, a region's test by the
counts it raises, a conflict by the order of R386. -/
theorem baskets : Obligations.Baskets :=
  ⟨ownerWriteCompletes, basketCorrections, ramblerRegions, basketConflict⟩

end Sys2Proof.Machine
end
